-- ==== Sys2Proof/Word.lean ====
section
/-!
DEFINITION. The words of the TH-8192: bytes, the 16-, 32- and 64-bit words its structures are laid
out in (spec R6), and the numbers that name a host function and a partition (R10, R82).
-/
namespace Sys2Proof

/-- One byte of any structure, window, packet or frame. -/
abbrev Byte := BitVec 8
/-- A 16-bit word (bf16 values, status and reason codes on the wire). -/
abbrev Word16 := BitVec 16
/-- A 32-bit word (Dill words, fp32 values). -/
abbrev Word32 := BitVec 32
/-- A 64-bit word (packed cursors, handles). -/
abbrev Word64 := BitVec 64

/-- A host function: 0 is the PF, v is VF v (R82). -/
abbrev Fn := Fin 65
/-- A partition id (Table SCP-5). -/
abbrev Pid := Fin 64
/-- A row of Table CLK-3: 0 PD_AO, 1 PD_HOST, 2 PD_MEM, 3 PD_TILE_W, 4 PD_TILE_E, 5 PD_NET,
6 PD_VID, 7 PD_CHURN. -/
abbrev Domain := Fin 8
/-- A buffer class C0 to C4. -/
abbrev Cls := Fin 5

end Sys2Proof
end

