-- ==== Sys2Proof/Syntax.lean ====
section
/-!
DEFINITION. The commands of the block: one constructor of `Instr` per row of spec/opcode_table.json, in the
table's order, each with the operands that the outside (host, module pins, cameras, trainers, drives, the partner
chip, or a unit's private code) supplies.  A row of the Command Reference names the accepted request it carries
out (`ReqId`); a row that reports what private code or analogue hardware did carries that report.
-/
namespace Sys2Proof

/-- Which accepted request a Command-Reference row carries out: the function, the path (mailbox or ring) and the
sequence number of Table MBX-5 or MBX-9. -/
structure ReqId where
  fn : Fn
  ring : Bool
  seq : Nat
deriving DecidableEq, Repr

/-- How a host DMA ended (R101, R471): with the bytes read (empty for a write), or with a PCIe error. -/
inductive DmaResult where
  | ok (data : List Byte)
  | error
deriving DecidableEq, Repr

/-- How the fetch of a descriptor ended: at once, on its one retry, or twice in a PCIe error (R101). -/
inductive FetchResult where
  | got (bytes : List Byte)
  | retried (bytes : List Byte)
  | failed
deriving DecidableEq, Repr

/-- What a diagnostic reported: 0 pass, 1 fail, 2 not applicable, with its fault code (R526, R485). -/
structure DiagResult where
  result : Nat
  detail : Nat
deriving DecidableEq, Repr

/-- The instants of Table PRT-6 between acceptance and completion. -/
inductive TdPhase where
  | fenceOps | closeSessions | flushUnits | releaseBuffers | resetTiles | releaseWindow
deriving DecidableEq, Repr

/-- The image faults of R147 and their codes in Table ERR-10. -/
inductive ImgFault where
  | region | address | instruction | branch | buffer | laneDraw
deriving DecidableEq, Repr

/-- The owner of a buffer (Table BUF-5): kind 0 cluster, 1 HEVC core, 2 JPEG engine, 3 inflate engine,
4 Ethernet port, 5 NVMe root port, 6 Churn, 7 tensor-layout path. -/
structure Owner where
  kind : Nat
  inst : Nat
deriving DecidableEq, Repr

/-- One RESERVE on the pool (R213): the partition, the count of each class, the requester. -/
structure ReserveReq where
  part : Pid
  counts : List Nat
  by_ : Owner
  /-- true when the requester is the lead scheduler's admission procedure (R240) -/
  admission : Bool
deriving DecidableEq, Repr

/-- A plane of pixels of a sample (PLANE layout), row major, in one of the formats u8, u16, bf16, fp32. -/
structure Plane where
  w : Nat
  h : Nat
  /-- 0 u8, 1 u16, 2 bf16, 3 fp32 -/
  fmt : Nat
  px : List Nat
deriving DecidableEq, Repr

/-- A near-memory access by a requester of a partition (R185): a cluster's tile or unit, or a ring client. -/
structure MemAccess where
  part : Pid
  /-- the accessing unit; kind 0 with `tile` set is a tile -/
  unit : Owner
  /-- the logical tile, when a tile accesses -/
  tile : Option Nat
  addr : Nat
  len : Nat
  /-- the bytes written, or none for a read -/
  write : Option (List Byte)
  /-- MX box transfer: element format 0 to 5 of Table MEM-4, and whether the layout is MX_A32 -/
  mx : Option (Nat × Bool)
  /-- a read that delivers the pixels of a MONO12P region as u16; otherwise bytes move unchanged -/
  mono : Bool
  /-- for an MX transfer, whether the tile side is fp32 (otherwise bf16) and the tile-side values of a write -/
  mxFp32 : Bool
  mxVals : List Nat
deriving DecidableEq, Repr

/-- What a unit or private tile code reports at the end of a stage, where the spec leaves the computation to it. -/
inductive StageResult where
  /-- the stage did what its declaration computes -/
  | done
  /-- the stage's skip predicate was set (R235) -/
  | skip
  /-- private code produced these planes (DECODE stages, COMPUTE on pixels) -/
  | planes (ps : List Plane)
  /-- the trunk's embeddings, one list of D bf16 words per kept token (R315) -/
  | embed (hs : List (List Word16))
  /-- an expert's outputs y_e(t), per token logical index (R328); expert 64 is Whey -/
  | expert (e : Nat) (ys : List (Nat × List Word16))
  /-- the label map's marked patches and the sample's label bytes and class -/
  | labels (marked : List Nat) (bytes : List Byte) (cls : Nat)
deriving DecidableEq, Repr

/-- A received Ethernet frame as the MAC sees it (R370). -/
structure EthFrame where
  fcsOk : Bool
  /-- octets including FCS -/
  size : Nat
  /-- addressed to the port's unicast address or broadcast -/
  toUs : Bool
  vlan : Option Nat
  /-- 0 IPv4, 1 ARP, 2 PTP over Ethernet, 3 other EtherType -/
  ether : Nat
  ipFragment : Bool
  /-- 1 ICMP, 17 UDP, others as IP numbers them -/
  proto : Nat
  srcAddr : Nat
  srcPort : Nat
  dstPort : Nat
  /-- RoCEv2: invariant CRC good, destination queue pair, and whether P_Key and opcode are ones R391 names -/
  icrcOk : Bool
  qpn : Nat
deriving DecidableEq, Repr

/-- A GVSP leader (R373, R374). -/
structure Leader where
  blockId : Nat
  extId : Bool
  /-- a well-formed header with a defined packet format -/
  wellFormed : Bool
  allIn : Bool
  payloadType : Nat
  pixelFormat : Nat
  sizeX : Nat
  sizeY : Nat
  offPad : Nat
  timestamp : Nat
  unavailable : Bool
deriving DecidableEq, Repr

/-- A GVSP payload packet (R375). -/
structure Payload where
  blockId : Nat
  extId : Bool
  wellFormed : Bool
  packetId : Nat
  bytes : List Byte
deriving DecidableEq, Repr

/-- A GVSP trailer. -/
structure Trailer where
  blockId : Nat
  extId : Bool
  packetId : Nat
  unavailable : Bool
deriving DecidableEq, Repr

/-- How a HEVC segment ended: bits of each of its CTU rows, its bytes and its reconstruction (encode), planes decoded
with their slices and bits, or an error of Table VID-7. -/
inductive SegResult where
  | coded (rowBits : List Nat) (bytes : List Byte) (recon : List Plane)
  | decoded (ps : List Plane) (slices bits : Nat)
  | error (code offset ctu : Nat)
  | engineFault
deriving DecidableEq, Repr

/-- One component of a decoded JPEG before the inverse transform of R251: its size, precision 8 or 12, quantiser table
and blocks in raster order, coefficient (u, v) at 8u + v. -/
structure JpegComp where
  w : Nat
  h : Nat
  prec : Nat
  quant : List Nat
  blocks : List (List Int)
deriving DecidableEq, Repr

/-- How a still-decode job ended: entropy-decoded JPEG components, the inflated rows of a PNG with their filter types
(channels and bit depth 8 or 16), or a code of Table IMG-4 with its byte offset. -/
inductive StillResult where
  | jpeg (cs : List JpegComp)
  | png (w h channels depth : Nat) (rows : List (Nat × List Byte))
  | error (code offset : Nat)
deriving DecidableEq, Repr

/-- An NVMe completion entry (R434, R436). -/
structure NvmeCqe where
  sqid : Nat
  cid : Nat
  sqHead : Nat
  sct : Nat
  sc : Nat
  dnr : Bool
  /-- a poisoned TLP arrived in the command's data -/
  poisoned : Bool
deriving DecidableEq, Repr

/-- A namespace that Identify reported (R426). -/
structure NsInfo where
  nsid : Nat
  lba4k : Bool
  usable : Bool
  blocks : Nat
deriving DecidableEq, Repr

/-- A controller status that the NVMe host observes (R427). -/
inductive CtrlStatus where
  /-- CSTS.RDY = 0 -/
  | notReady
  /-- CSTS.RDY = 1 with the answer of Identify: MDTS in bytes, CAP.MQES and the active namespaces -/
  | ready (mdts mqes : Nat) (ns : List NsInfo)
  /-- the step failed -/
  | failed
  /-- CSTS.SHST shows shutdown complete -/
  | shutdown
deriving DecidableEq, Repr

/-- What training of a root port found (R425). -/
inductive PortFound where
  | noDrive
  | failed
  | drive (rate width : Nat)
deriving DecidableEq, Repr

/-- The header of a Darrad frame (Table PAIR-2), after the link layer checked its CRC. -/
structure DarradHdr where
  flags : Nat
  length : Nat
  linkSeq : Nat
  gen : Nat
  part : Nat
  tag : Nat
deriving DecidableEq, Repr

/-- The per-target delivery state that is mirrored (Table PAIR-4). -/
structure MirTarget where
  target : Nat
  /-- state code of R518 -/
  st : Nat
  nextSeq : Nat
  acked : Nat
  released : Nat
  /-- the session parameters of Table CMD-9, its first 88 bytes, without QPN and PSN -/
  par : List Byte
deriving DecidableEq, Repr

/-- The body of MIRROR_GRANT (Table PAIR-4): the 120 bytes of Table CMD-6, the seed, the image hash and the
cursor, and the recreate records. -/
structure MirGrant where
  grants : List Byte
  seed : Option (BitVec 128)
  imageHash : List Byte
  cursor : Word64
  records : List (List Byte)
deriving DecidableEq, Repr

/-- The body of MIRROR_STEP (Table PAIR-4, R451): boundary count, cursor, step record, placement and version,
counter record, targets, codec streams (stream, pictures, bytes, next window sequence, IRAP position), and the live
permutation and index entries appended. -/
structure MirStep where
  boundary : Nat
  cursor : Word64
  record : List Byte
  placement : List (List Nat)
  version : Nat
  counters : List Byte
  targets : List MirTarget
  streams : List (Nat × Nat × Nat × Nat × Nat)
  perm : List Nat
  index : List (Nat × List Byte)
deriving DecidableEq, Repr

/-- What a chip reports of one of its takeover plans: the id, the plan state and check reason of Table CMD-10, and
whether the standby window is zero. -/
structure PlanState where
  part : Nat
  st : Nat
  reason : Nat
  zero : Bool
deriving DecidableEq, Repr

/-- TAP instructions of R540. -/
inductive Jtag where
  | idcode | bypass | extest | extestPulse | extestTrain | intest | privateInstr
deriving DecidableEq, Repr

/-- The commands of the block, in the order of spec/opcode_table.json. -/
inductive Instr where
  | deviceIdentify (r : ReqId)
  | devicePowerSet (r : ReqId)
  | devicePowerStatus (r : ReqId)
  | deviceResetWarm (r : ReqId)
  | deviceResetCold (r : ReqId)
  | firmwareUpdate (r : ReqId)
  | deviceTileMapReadClusters (r : ReqId)
  | deviceTileMapReadHidden (r : ReqId)
  | deviceMemoryStatus (r : ReqId)
  | devicePoolConfig (r : ReqId)
  | partitionGrant (r : ReqId)
  | partitionRelease (r : ReqId)
  | partitionEnable (r : ReqId)
  | partitionTeardownAtBoundary (r : ReqId)
  | partitionTeardownImmediate (r : ReqId)
  | partitionStatus (r : ReqId)
  | regionLoad (r : ReqId)
  | regionRead (r : ReqId)
  | pipelineLoad (r : ReqId)
  | pipelinePause (r : ReqId)
  | pipelineResume (r : ReqId)
  | pipelineStepDigest (r : ReqId)
  | streamOpen (r : ReqId)
  | streamClose (r : ReqId)
  | streamStatus (r : ReqId)
  | randomSeedSet (r : ReqId)
  | randomEntropyRead (r : ReqId)
  | randomStatus (r : ReqId)
  | randomEvaluate (r : ReqId)
  | routingPlaceReviseNow (r : ReqId)
  | routingPlaceSet (r : ReqId)
  | routingCountersRead (r : ReqId)
  | churnRun (r : ReqId)
  | ingestPortConfig (r : ReqId)
  | ingestStatus (r : ReqId)
  | deliveryOpen (r : ReqId)
  | deliveryClose (r : ReqId)
  | deliveryStatus (r : ReqId)
  | storageAttach (r : ReqId)
  | storageDetach (r : ReqId)
  | storageStatus (r : ReqId)
  | pairStatus (r : ReqId)
  | pairConfig (r : ReqId)
  | pairPlanSet (r : ReqId)
  | pairTakeoverTakeOver (r : ReqId)
  | pairTakeoverReleaseIds (r : ReqId)
  | pairMove (r : ReqId)
  | logRead (r : ReqId)
  | diagRunSelfTest (r : ReqId) (res : DiagResult)
  | diagRunScoreboardDump (r : ReqId)
  | diagRunLockstepCheck (r : ReqId) (res : DiagResult)
  | diagRunLoopback (r : ReqId) (res : DiagResult)
  | mbxSubmit (f : Fn)
  | mbxRelease (f : Fn)
  | sqDoorbell (f : Fn) (tail : Word32)
  | descriptorConsume (f : Fn) (fetch : FetchResult)
  | deferredCommandStart (r : ReqId)
  | cqHeadAdvance (f : Fn) (head : Word32)
  | sqEnable (f : Fn)
  | sqDisable (f : Fn)
  | cqEnable (f : Fn)
  | cqDisable (f : Fn)
  | msixVectorUnmask (f : Fn) (vec : Option (Fin 3))
  | registerWrite (f : Fn) (offset : Nat) (bytes : List Byte)
  | bar0MisalignedAccess (f : Fn) (offset : Nat) (width : Nat) (isRead : Bool)
  | mailboxTimeout (f : Fn)
  | cqFullTimeout (f : Fn)
  | irqCoalesceTimeout (f : Fn)
  | hostDmaComplete (tag : Nat) (res : DmaResult)
  | hostCompletionTimeout (tag : Nat)
  | tlpReplay
  | pcieConfigRequest (f : Fn)
  | vfFlr (vf : Pid)
  | pfFlr
  | pcieHotReset
  | hostLinkDown
  | hostLinkUp (rate width : Nat)
  | vfEnableSet (numVfs : Nat)
  | d3hotEntry (f : Fn)
  | d0Return (f : Fn)
  | powerInputsGood
  | railOutOfRange (rail : Nat)
  | mainInputLoss
  | auxInputRemoved
  | perstAssert
  | perstDeassert
  | imageVerifyDone
  | resetDelayExpiry
  | warmResetBegin
  | refclkLost
  | rootPllLockLost
  | refclkReturn
  | asyncFifoFault (stop : Nat) (client : Nat) (overflow : Bool)
  | pairALockstepMismatch
  | pairAFirmwareWatchdog
  | pairBLockstepMismatch
  | domainPowerUpDone (d : Domain) (badTiles : List Nat)
  | domainPowerUpFail (d : Domain)
  | domainPowerDownDone (d : Domain)
  | powerGoodLoss (d : Domain)
  | poolEntersService
  | granuleZeroed (p : Pid) (mode : Nat) (g : Nat)
  | windowZeroed (p : Pid) (standby : Bool)
  | teardownPhase (p : Pid) (ph : TdPhase)
  | teardownComplete (p : Pid)
  | tileResetDone (tile : Nat)
  | tileSramUncorrectable (tile offset : Nat) (rereadOk : Bool)
  | tilePatrolScrub (tile line : Nat) (corrected : Bool) (uncorrectable : Option Bool)
  | correctedErrorsSecond
  | tileImageFault (tile : Nat) (kind : ImgFault) (addr : Nat)
  | flitCrcFail (x y : Nat)
  | flitReplayDone (x y tag : Nat) (ok : Bool)
  | syncLaneMismatch (x y : Nat) (again : Bool)
  | meshPacketArrival (tile : Nat) (tag : Option Pid)
  | reservedSlotStart
  | barrierArrival (p : Pid) (cluster : Option Nat) (ctx tile : Nat) (nextGen : Bool)
  | flagContributionChange (p : Pid) (cluster : Option Nat) (flag tile : Nat) (set : Bool)
  | nearMemoryAccess (a : MemAccess)
  | nearMemoryUncorrectable (dpa : Nat) (part : Option Pid)
  | nearMemoryRereadDone (dpa : Nat) (ok : Bool)
  | memoryPatrolScrub (ch : Nat) (corrected : Bool) (uncorrectable : Option Bool)
  | bufferReserve (q : ReserveReq)
  | poolSetDecide
  | bufferDraw (p : Pid) (c : Cls) (unit : Owner) (index : Nat) (for_ : Option (Nat × Option Nat))
  | bufferUnreserve (p : Pid) (c : Cls) (n : Nat) (unit : Owner)
  | bufferHandOff (p : Pid) (unit : Owner) (handle : Word64) (new : Owner)
  | handOffApply (c : Cls) (index : Nat)
  | bufferRelease (p : Pid) (unit : Owner) (handle : Word64)
  | bufferAccess (p : Pid) (unit : Owner) (handle : Word64) (off : Nat) (len : Nat) (write : Option (List Byte))
  | noBufferWakeTimeout (q : ReserveReq)
  | freeStoreFetchDone (c : Cls)
  | descriptorCacheFill (unit : Owner) (c : Cls) (index : Nat)
  | admissionAttempt (p : Pid)
  | schedulerIssue (p : Pid) (rel : Nat)
  | stageComplete (p : Pid) (rel entry : Nat) (res : StageResult)
  | routeCountsReport (p : Pid) (slot : Nat) (rel : Nat)
  | listBuildDone
  | stepBoundary (p : Pid)
  | stepWatchdogExpiry (p : Pid)
  | stillJobComplete (jpeg : Bool) (engine : Nat) (res : StillResult)
  | stillJobTimeout (jpeg : Bool) (engine : Nat)
  | warpJobComplete (cluster : Nat)
  | warpParityError (cluster : Nat)
  | segmentReady (p : Pid) (stream seg : Nat)
  | segmentComplete (core : Nat) (tag : Nat) (res : SegResult)
  | segmentTimeout (core : Nat)
  | entropyBlockReady (block : BitVec 384)
  | entropyHealthFail (test : Nat)
  | entropyRestartDone (pass : Bool)
  | laneKeyExhausted (tile lane : Nat)
  | churnSliceStart
  | churnSaveLoadDone (ok : Bool)
  | churnRunEnd
  | packingBudgetExpiry (p : Pid) (sweeps : Nat)
  | placementBudgetExpiry (p : Pid)
  | churnSramUncorrectable
  | ethernetLinkUp (port : Nat)
  | ethernetLinkDown (port : Nat)
  | linkRetrainTick (port : Nat)
  | linkTrainingFail (port : Nat)
  | ethernetFrameReceived (port : Nat) (fr : EthFrame)
  | gvspLeader (p : Pid) (stream : Nat) (l : Leader)
  | gvspPayload (p : Pid) (stream : Nat) (k : Payload)
  | gvspTrailer (p : Pid) (stream : Nat) (t : Trailer)
  | gvcpMessageReceived (port : Nat)
  | arpRequestReceived (port target sender : Nat)
  | icmpEchoRequest (port sender : Nat) (body : List Byte)
  | pauseFrameReceived (port : Nat) (pfcMask : Option Nat)
  | ptpSync (port : Nat) (originNs rxNs : Int) (twoStep : Bool)
  | ptpFollowUp (port : Nat) (originNs : Int)
  | ptpDelayResp (port : Nat) (rxNs txNs : Int)
  | ptpAnnounce (port : Nat) (master prio : Nat)
  | ptpSyncTimeout
  | blockTimeout (p : Pid) (stream : Nat)
  | streamTimeout (p : Pid) (stream : Nat)
  | resendDelayExpiry (p : Pid) (stream : Nat) (range : Nat)
  | resendTimeout (p : Pid) (stream : Nat) (range : Nat)
  | bdpUpdate (p : Pid) (target : Nat) (msg : List Byte)
  | bdpNakBatch (p : Pid) (target : Nat) (msg : List Byte)
  | bdpCloseReceived (p : Pid) (target : Nat) (msg : List Byte)
  | bdpAckTimerExpiry (p : Pid) (target : Nat) (seq : Option Nat)
  | creditTimerExpiry (p : Pid) (target : Nat)
  | rcAckTimeout (p : Pid) (target : Nat)
  | rnrNakReceived (p : Pid) (target : Nat)
  | cnpReceived (p : Pid) (target : Nat)
  | rateIncreaseTick (p : Pid) (target : Nat)
  | p2pStatusPoll (p : Pid) (target : Nat) (rec_ : DmaResult)
  | remoteAccessErrorNak (p : Pid) (target : Nat)
  | rdmaRequestToDevice (p : Pid) (target : Nat)
  | nvmeCompletion (port : Nat) (e : NvmeCqe)
  | nvmeIoTimeout (port : Nat) (cid : Nat)
  | nvmeAdminTimeout (port : Nat) (cid : Nat)
  | nvmeControllerFatal (port : Nat)
  | driveLinkDown (port : Nat) (signal : Bool)
  | driveDma (port addr len : Nat) (write : Option (List Byte))
  | driveMsixWrite (port vector : Nat)
  | detachShutdownTimeout (port : Nat)
  | darradLinkTrained
  | darradFrameError (again : Bool)
  | darradRetrainDone (ok : Bool)
  | darradTxFailure
  | heartbeat (h : DarradHdr) (state policy : Nat) (next : List (Nat × Nat × Nat)) (plans : List PlanState)
  | heartbeatSendTick
  | heartbeatMiss (lossOfSignal : Bool)
  | departure (h : DarradHdr)
  | darradHello (h : DarradHdr) (serial numerics verMin verMax policy : Nat)
  | helloRetryTick
  | hold (h : DarradHdr) (ids : List (Nat × Nat))
  | mirrorGrant (h : DarradHdr) (m : MirGrant)
  | mirrorStep (h : DarradHdr) (m : MirStep)
  | mirrorAck (h : DarradHdr)
  | mirrorAckTimeout (p : Pid)
  | move (h : DarradHdr)
  | moveAck (h : DarradHdr) (reason : Nat)
  | churnProblem (h : DarradHdr) (payload : List Byte)
  | churnStage (h : DarradHdr) (payload : List Byte)
  | seed (h : DarradHdr) (payload : List Byte)
  | seedDone (h : DarradHdr) (payload : List Byte)
  | suspendedResourcesFree (p : Pid)
  | logRateSecond
  | thermalSample (temps : List Int)
  | powerWindowEnd (milliwatts : Nat)
  | mctpControlMessage (cmd : Nat) (arg : Nat)
  | getThermalPower
  | setPowerLimit (watts : Nat)
  | getSensors
  | fruLatchWrite (v : Byte)
  | jtagInstruction (ins : Jtag)
  | inrushDelayExpiry
  | backgroundZeroingDone (west : Bool) (row : Nat)
  | rootPllLockDone (ok : Bool)
  | pwrGoodHoldExpiry
  | restartLatchRelease
  | rootPortLinkUp (port : Nat) (found : PortFound)
  | controllerStatusChange (port : Nat) (st : CtrlStatus)
  | controllerReadyTimeout (port : Nat)
  | rcTransportAck (p : Pid) (target : Nat)
  | darradUnknownFrame (h : DarradHdr)
deriving DecidableEq, Repr

end Sys2Proof
end

