-- ==== Sys2Proof/Decode.lean ====
section
/-!
DEFINITION. The command a table word spells.  spec/opcode_table.json gives none of its rows any bits ("fields": []):
the block takes its commands as events, so no word spells one.
-/
namespace Sys2Proof

/-- The command that a word of the table's bits spells: none, because no row has bits. -/
def decodeTableWord (_nbits _w : Nat) : Option Instr := none

end Sys2Proof
end

