-- ==== Sys2Proof/Machine/Bytes.lean ====
section
/-!
DEFINITION. Bytes, little-endian fields (R6), sparse byte memories in canonical form, and small list helpers.
-/
namespace Sys2Proof.Machine

/-- The little-endian value of a byte list (R6). -/
def leNat : List Byte → Nat
  | [] => 0
  | b :: bs => b.toNat + 256 * leNat bs

/-- The big-endian value of a byte list (standard headers, SEC 1 octet strings). -/
def beNat (bs : List Byte) : Nat := leNat bs.reverse

/-- The w low bytes of n, least significant first (R6). -/
def toLe : Nat → Nat → List Byte
  | 0, _ => []
  | w + 1, n => BitVec.ofNat 8 n :: toLe w (n / 256)

/-- n zero bytes. -/
def zeros (n : Nat) : List Byte := List.replicate n 0

/-- A byte list cut or padded with zeros to exactly n bytes. -/
def padTo (n : Nat) (bs : List Byte) : List Byte := (bs.take n) ++ zeros (n - bs.length)

/-- The bytes of a list from an offset, cut at its end and padded with zeros. -/
def slice (bs : List Byte) (off n : Nat) : List Byte := padTo n (bs.drop off)

/-- The field of n bytes at an offset. -/
def field (bs : List Byte) (off n : Nat) : Nat := leNat (slice bs off n)

/-- Whether the n bytes at an offset are all zero (a reserved field, R9). -/
def zeroAt (bs : List Byte) (off n : Nat) : Bool := field bs off n == 0

/-- Bit i of a number. -/
def bit (n i : Nat) : Bool := n.testBit i

/-- Bits hi:lo of a number (R5). -/
def bits (n hi lo : Nat) : Nat := (n / 2 ^ lo) % 2 ^ (hi + 1 - lo)

/-- ceil(a / b). -/
def ceilDiv (a b : Nat) : Nat := (a + b - 1) / b

/-- The positions of the set bits of n below w, ascending. -/
def bitsOf (n w : Nat) : List Nat := (List.range w).filter (fun i => n.testBit i)

/-- The number whose set bits are the listed positions below w. -/
def maskOf (l : List Nat) (w : Nat) : Nat :=
  (List.range w).foldl (fun a i => if l.contains i then a + 2 ^ i else a) 0

/-- The value of a two's-complement number in w bits. -/
def toTwos (w : Nat) (i : Int) : Nat := (i % (2 ^ w : Nat)).toNat

/-- The signed value of w bits. -/
def ofTwos (w n : Nat) : Int := if n < 2 ^ (w - 1) then (n : Int) else (n : Int) - (2 ^ w : Nat)

/-- Element i of a list of numbers, 0 beyond its end. -/
def nth (l : List Nat) (i : Nat) : Nat := l.getD i 0

/-- A list with element i changed. -/
def setNth (l : List Nat) (i v : Nat) : List Nat := l.set i v

/-- The sum of a list. -/
def sumL (l : List Nat) : Nat := l.foldl (· + ·) 0

/-- Insert into an ascending list without repeats. -/
def insSorted (a : Nat) : List Nat → List Nat
  | [] => [a]
  | b :: bs => if a < b then a :: b :: bs else if a = b then b :: bs else b :: insSorted a bs

/-- Whether two numbers, counted on a ring of m, lie at distance (b - a) mod m. -/
def cyc (m a b : Nat) : Nat := (b + m - a % m) % m

/-- Change one element of a vector. -/
def vmod {α : Type} {n : Nat} (v : Vector α n) (i : Fin n) (f : α → α) : Vector α n := v.set i (f (v.get i))

/-- Change element i of a vector when i is in range. -/
def vmodN {α : Type} {n : Nat} (v : Vector α n) (i : Nat) (f : α → α) : Vector α n :=
  if h : i < n then v.set i (f v[i]) else v

/-- Element i of a vector, or a default. -/
def vget {α : Type} {n : Nat} (v : Vector α n) (i : Nat) (d : α) : α := v[i]?.getD d

/-- Change the first element that satisfies a test. -/
def modFirst {α : Type} (t : α → Bool) (f : α → α) : List α → List α
  | [] => []
  | x :: xs => if t x then f x :: xs else x :: modFirst t f xs

/-- Change every element that satisfies a test. -/
def modAll {α : Type} (t : α → Bool) (f : α → α) (l : List α) : List α := l.map (fun x => if t x then f x else x)

/-- The canonical form of a sparse memory whose unlisted bytes read 0: strictly rising addresses, no zero byte. -/
def memWf : List Host.Cell → Bool
  | [] => true
  | [c] => c.2 != 0
  | c :: d :: r => c.2 != 0 && decide (c.1 < d.1) && memWf (d :: r)

/-- Read one byte; an unlisted address reads 0. -/
def memRead : List Host.Cell → Nat → Byte
  | [], _ => 0
  | c :: r, a => if c.1 = a then c.2 else if a < c.1 then 0 else memRead r a

/-- Write one byte, keeping the canonical form. -/
def memWrite : List Host.Cell → Nat → Byte → List Host.Cell
  | [], a, b => if b = 0 then [] else [(a, b)]
  | c :: r, a, b =>
    if a < c.1 then (if b = 0 then c :: r else (a, b) :: c :: r)
    else if a = c.1 then (if b = 0 then r else (a, b) :: r)
    else c :: memWrite r a b

/-- Read n bytes from an address up. -/
def memReadN (m : List Host.Cell) (a n : Nat) : List Byte := (List.range n).map (fun i => memRead m (a + i))

/-- Write bytes from an address up. -/
def memWriteN (m : List Host.Cell) (a : Nat) : List Byte → List Host.Cell
  | [] => m
  | b :: bs => memWriteN (memWrite m a b) (a + 1) bs

/-- Remove every cell whose address satisfies a test: those bytes then read 0. -/
def memClear (m : List Host.Cell) (t : Nat → Bool) : List Host.Cell := m.filter (fun c => !t c.1)

end Sys2Proof.Machine
end

