-- ==== Sys2Proof/Machine/Crypto.lean ====
section
/-!
DEFINITION. The published functions the spec names: SHA-384 (FIPS 180-4), ECDSA P-384 (FIPS 186-4), CRC-32 (IEEE
802.3) and CRC-32C, used by R47, R75, R229, R308, R398 and R480.
-/
namespace Sys2Proof.Machine

/-! ## SHA-384 -/

def shaK : List (BitVec 64) := [
  0x428a2f98d728ae22, 0x7137449123ef65cd, 0xb5c0fbcfec4d3b2f, 0xe9b5dba58189dbbc, 0x3956c25bf348b538,
  0x59f111f1b605d019, 0x923f82a4af194f9b, 0xab1c5ed5da6d8118, 0xd807aa98a3030242, 0x12835b0145706fbe,
  0x243185be4ee4b28c, 0x550c7dc3d5ffb4e2, 0x72be5d74f27b896f, 0x80deb1fe3b1696b1, 0x9bdc06a725c71235,
  0xc19bf174cf692694, 0xe49b69c19ef14ad2, 0xefbe4786384f25e3, 0x0fc19dc68b8cd5b5, 0x240ca1cc77ac9c65,
  0x2de92c6f592b0275, 0x4a7484aa6ea6e483, 0x5cb0a9dcbd41fbd4, 0x76f988da831153b5, 0x983e5152ee66dfab,
  0xa831c66d2db43210, 0xb00327c898fb213f, 0xbf597fc7beef0ee4, 0xc6e00bf33da88fc2, 0xd5a79147930aa725]
  ++ [0x06ca6351e003826f, 0x142929670a0e6e70, 0x27b70a8546d22ffc, 0x2e1b21385c26c926, 0x4d2c6dfc5ac42aed,
  0x53380d139d95b3df, 0x650a73548baf63de, 0x766a0abb3c77b2a8, 0x81c2c92e47edaee6, 0x92722c851482353b,
  0xa2bfe8a14cf10364, 0xa81a664bbc423001, 0xc24b8b70d0f89791, 0xc76c51a30654be30, 0xd192e819d6ef5218,
  0xd69906245565a910, 0xf40e35855771202a, 0x106aa07032bbd1b8, 0x19a4c116b8d2d0c8, 0x1e376c085141ab53,
  0x2748774cdf8eeb99, 0x34b0bcb5e19b48a8, 0x391c0cb3c5c95a63, 0x4ed8aa4ae3418acb, 0x5b9cca4f7763e373]
  ++ [0x682e6ff3d6b2b8a3, 0x748f82ee5defb2fc, 0x78a5636f43172f60, 0x84c87814a1f0ab72, 0x8cc702081a6439ec,
  0x90befffa23631e28, 0xa4506cebde82bde9, 0xbef9a3f7b2c67915, 0xc67178f2e372532b, 0xca273eceea26619c,
  0xd186b8c721c0c207, 0xeada7dd6cde0eb1e, 0xf57d4f7fee6ed178, 0x06f067aa72176fba, 0x0a637dc5a2c898a6,
  0x113f9804bef90dae, 0x1b710b35131c471b, 0x28db77f523047d84, 0x32caab7b40c72493, 0x3c9ebe0a15c9bebc,
  0x431d67c49c100d4c, 0x4cc5d4becb3e42b6, 0x597f299cfc657e2a, 0x5fcb6fab3ad6faec, 0x6c44198c4a475817]

def sha384Init : List (BitVec 64) := [
  0xcbbb9d5dc1059ed8, 0x629a292a367cd507, 0x9159015a3070dd17, 0x152fecd8f70e5939,
  0x67332667ffc00b31, 0x8eb44a8768581511, 0xdb0c2e0d64f98fa7, 0x47b5481dbefa4fa4]

def rotr64 (x : BitVec 64) (n : Nat) : BitVec 64 := x.rotateRight n

/-- The big-endian 64-bit words of a block. -/
def beWords : Nat → List Byte → List (BitVec 64)
  | 0, _ => []
  | n + 1, bs => BitVec.ofNat 64 (beNat (bs.take 8)) :: beWords n (bs.drop 8)

/-- Extend the message schedule, held newest first, to n more words. -/
def shaExtend : Nat → List (BitVec 64) → List (BitVec 64)
  | 0, w => w
  | n + 1, w =>
    let g (i : Nat) : BitVec 64 := w.getD (i - 1) 0
    let s0 := rotr64 (g 15) 1 ^^^ rotr64 (g 15) 8 ^^^ (g 15 >>> 7)
    let s1 := rotr64 (g 2) 19 ^^^ rotr64 (g 2) 61 ^^^ (g 2 >>> 6)
    shaExtend n ((g 16 + s0 + g 7 + s1) :: w)

/-- One round of the compression. -/
def shaRound (h : List (BitVec 64)) (kw : BitVec 64 × BitVec 64) : List (BitVec 64) :=
  match h with
  | [a, b, c, d, e, f, g, x] =>
    let t1 := x + (rotr64 e 14 ^^^ rotr64 e 18 ^^^ rotr64 e 41) + ((e &&& f) ^^^ (~~~e &&& g)) + kw.1 + kw.2
    let t2 := (rotr64 a 28 ^^^ rotr64 a 34 ^^^ rotr64 a 39) + ((a &&& b) ^^^ (a &&& c) ^^^ (b &&& c))
    [t1 + t2, a, b, c, d + t1, e, f, g]
  | _ => h

/-- One block of 128 bytes. -/
def shaBlock (h : List (BitVec 64)) (blk : List Byte) : List (BitVec 64) :=
  let w := (shaExtend 64 (beWords 16 blk).reverse).reverse
  (List.zip shaK w |>.foldl shaRound h |>.zip h).map (fun x => x.1 + x.2)

def shaBlocks : Nat → List (BitVec 64) → List Byte → List (BitVec 64)
  | 0, h, _ => h
  | n + 1, h, bs => shaBlocks n (shaBlock h (bs.take 128)) (bs.drop 128)

/-- n big-endian bytes of a number. -/
def toBe (n v : Nat) : List Byte := (toLe n v).reverse

/-- The SHA-384 digest of a byte list, 48 bytes. -/
def sha384 (m : List Byte) : List Byte :=
  let z := (128 + 112 - (m.length + 1) % 128) % 128
  let padded := m ++ [0x80] ++ zeros z ++ toBe 16 (8 * m.length)
  (shaBlocks (padded.length / 128) sha384Init padded).take 6 |>.flatMap (fun w => toBe 8 w.toNat)

/-! ## ECDSA P-384 -/

def p384P : Nat := 2 ^ 384 - 2 ^ 128 - 2 ^ 96 + 2 ^ 32 - 1
def p384N : Nat := 0xffffffffffffffffffffffffffffffffffffffffffffffffc7634d81f4372ddf581a0db248b0a77aecec196accc52973
def p384B : Nat := 0xb3312fa7e23ee7e4988e056be3f82d19181d9c6efe8141120314088f5013875ac656398d8a2ed19d2a85c8edd3ec2aef
def p384Gx : Nat := 0xaa87ca22be8b05378eb1c71ef320ad746e1d3b628ba79b9859f741e082542a385502f25dbf55296c3a545e3872760ab7
def p384Gy : Nat := 0x3617de4a96262c6f5d9e98bf9292dc29f8f41dbd289a147ce9da3113b5f0b8c00a60b1ce1d7e819d7a431d7c90ea0e5f

/-- b ^ e mod m over the n low bits of e. -/
def powMod (m : Nat) : Nat → Nat → Nat → Nat
  | 0, _, _ => 1 % m
  | n + 1, b, e => let r := powMod m n (b * b % m) (e / 2); if e % 2 = 1 then b * r % m else r

/-- The inverse modulo a prime of at most 384 bits. -/
def invMod (m a : Nat) : Nat := powMod m 384 (a % m) (m - 2)

/-- A point of the curve in Jacobian coordinates: (X, Y, Z) stands for (X / Z², Y / Z³), and Z = 0 for infinity. -/
structure EcPoint where
  x : Nat
  y : Nat
  z : Nat
deriving DecidableEq, Repr

/-- a − b modulo p, for b at most p. -/
def subP (a b : Nat) : Nat := (a + p384P - b) % p384P

def ecDouble (a : EcPoint) : EcPoint :=
  let p := p384P
  let yy := a.y * a.y % p
  let s := 4 * a.x * yy % p
  let zz := a.z * a.z % p
  let m := 3 * (a.x + zz) * subP a.x zz % p
  let x := subP (m * m) (2 * s % p)
  ⟨x, subP (m * subP s x) (8 * yy * yy % p), 2 * a.y * a.z % p⟩

def ecAdd (a b : EcPoint) : EcPoint :=
  let p := p384P
  if a.z = 0 then b
  else if b.z = 0 then a
  else
    let za := a.z * a.z % p
    let zb := b.z * b.z % p
    let u := a.x * zb % p
    let s := a.y * b.z * zb % p
    let h := subP (b.x * za) u
    let r := subP (b.y * a.z * za) s
    if h = 0 then (if r = 0 then ecDouble a else ⟨1, 1, 0⟩)
    else
      let hh := h * h % p
      let v := u * hh % p
      let x := subP (r * r) ((h * hh + 2 * v) % p)
      ⟨x, subP (r * subP v x) (s * h * hh % p), a.z * b.z * h % p⟩

/-- k · q over the n low bits of k. -/
def ecMul : Nat → Nat → EcPoint → EcPoint
  | 0, _, _ => ⟨1, 1, 0⟩
  | n + 1, k, q => let r := ecMul n (k / 2) (ecDouble q); if k % 2 = 1 then ecAdd q r else r

/-- The x coordinate of a point that is not infinity. -/
def ecX (a : EcPoint) : Nat := a.x * invMod p384P (a.z * a.z) % p384P

/-- Whether a point lies on the curve. -/
def ecOn (x y : Nat) : Bool :=
  decide (x < p384P) && decide (y < p384P)
    && (y * y) % p384P == (x * x * x + (p384P - 3) * x + p384B) % p384P

/-- ECDSA verification of a 48-byte digest under an uncompressed public key (R75). -/
def ecdsaVerify (pub digest r s : List Byte) : Bool :=
  let x := beNat (slice pub 1 48)
  let y := beNat (slice pub 49 48)
  let rn := beNat r
  let sn := beNat s
  let n := p384N
  field pub 0 1 == 4 && ecOn x y && decide (0 < rn) && decide (rn < n) && decide (0 < sn) && decide (sn < n)
    && (let w := invMod n sn
        let v := ecAdd (ecMul 384 (beNat digest * w % n) ⟨p384Gx, p384Gy, 1⟩) (ecMul 384 (rn * w % n) ⟨x, y, 1⟩)
        v.z != 0 && ecX v % n == rn)

/-! ## CRCs -/

/-- One bit of a reflected CRC. -/
def crcBit (poly : Nat) : Nat → Nat → Nat
  | 0, c => c
  | n + 1, c => crcBit poly n (if c % 2 = 1 then (c / 2) ^^^ poly else c / 2)

def crcBytes (poly : Nat) (c : Nat) (bs : List Byte) : Nat := bs.foldl (fun c b => crcBit poly 8 (c ^^^ b.toNat)) c

/-- CRC-32 with the IEEE 802.3 polynomial. -/
def crc32 (bs : List Byte) : Nat := crcBytes 0xEDB88320 0xFFFFFFFF bs ^^^ 0xFFFFFFFF

/-- CRC-32C. -/
def crc32c (bs : List Byte) : Nat := crcBytes 0x82F63B78 0xFFFFFFFF bs ^^^ 0xFFFFFFFF

end Sys2Proof.Machine
end

