-- ==== Sys2Proof/Machine/ImageTypes.lean ====
section
/-!
DEFINITION. What a pipeline image declares (spec R228 to R233 and the rules Table SCH-3 points to).  The header and
the section table have the layouts of Tables SCH-2 and SCH-3; the bodies of the sections are Bastan's own encoding,
which the spec leaves private, so this file gives their content as records.
-/
namespace Sys2Proof.Machine

/-- The header of Table SCH-2. -/
structure ImgHeader where
  interfaceVersion : Nat := 0
  usesLaneRng : Bool := false
  hasSpill : Bool := false
  uniform : Bool := false
  live : Bool := false
  sourceRaw : Bool := false
  numerics : Nat := 0
  length : Nat := 0
  copyAddress : Nat := 0
  hash : List Byte := []
  stageCount : Nat := 0
  maxInFlight : Nat := 0
  stepsInFlight : Nat := 0
  uniformClass : Nat := 0
  batchesPerStep : Nat := 0
  samplesPerStep : Nat := 0
  liveBacklog : Nat := 0
  stepsPerEpoch : Nat := 0
  requiredRate : Nat := 0
deriving DecidableEq, Repr

/-- The roles a region may have (Table SCH-3, R314, R271, R351, R432). -/
inductive Role where
  | imageCopy | stepRecords | permA | permB | index | lists | stem | router | expertWeights | whey | codebook
  | recordingRing | referenceArea | bitstreamRing | churnSave | spillArea | other
deriving DecidableEq, Repr

/-- A region declaration (R194).  Layouts as Table MEM-3 numbers them; formats 0 u8, 1 i8, 2 u16, 3 i16, 4 i32, 5 bf16,
6 fp32, 7 12-bit pixels, 8 to 13 the MX formats in the order of Table MEM-4, 14 bytes. -/
structure Region where
  role : Role := .other
  /-- stream index or expert id where the role has one -/
  of_ : Nat := 0
  addr : Nat := 0
  size : Nat := 0
  layout : Nat := 7
  format : Nat := 0
  extents : List Nat := []
  pitches : List Nat := []
  ro : Bool := false
  /-- records of a STEP_RECORDS ring (R245) -/
  entries : Nat := 0
deriving DecidableEq, Repr

/-- A crop/resize/warp job (R257): formats 0 u8, 1 u16, 2 bf16, 3 fp32; kernel 0 NEAREST, 1 BILINEAR, 2 BICUBIC,
3 AREA; edge 0 CONSTANT, 1 CLAMP, 2 REFLECT, 3 WRAP. -/
structure WarpJob where
  plane : Nat := 0
  boxX : Nat := 0
  boxY : Nat := 0
  boxW : Nat := 1
  boxH : Nat := 1
  outFmt : Nat := 0
  outW : Nat := 1
  outH : Nat := 1
  a00 : Int := 65536
  a01 : Int := 0
  a02 : Int := 0
  a10 : Int := 0
  a11 : Int := 65536
  a12 : Int := 0
  kernel : Nat := 0
  edge : Nat := 0
  const_ : Nat := 0
deriving DecidableEq, Repr

/-- An augmentation instance with its declared constants (Table IMG-8). -/
structure AugOp where
  /-- operation id: op code in the high byte, instance in the low byte (R263) -/
  opId : Nat := 0
  outFmt : Nat := 0
  /-- FLIP: p as a 24-bit threshold; axis 0 columns, 1 rows.  CROP: w, h.  CUTOUT: w, h pairs -/
  p24 : Nat := 0
  axis : Nat := 0
  w : Nat := 0
  h : Nat := 0
  /-- real range as fp32 words -/
  lo : Word32 := 0
  hi : Word32 := 0
  m : Word32 := 0
  /-- CROP_WEIGHTED candidates: origin and fp32 score -/
  cands : List (Nat × Nat × Word32) := []
  matrices : List WarpJob := []
  luts : List (List Nat) := []
  rects : List (Nat × Nat × Nat) := []
  mean : List Word32 := []
  invStd : List Word32 := []
deriving DecidableEq, Repr

/-- A stage of the GRAPH section (Table SCH-4, R233). -/
structure StageDecl where
  kind : Nat := 0x13
  stepScope : Bool := false
  stream : Nat := 0
  port : Nat := 0
  hasSkip : Bool := false
  inputBytes : Nat := 0
  outBytes : Nat := 0
  warps : List WarpJob := []
  augs : List AugOp := []
  opIds : List Nat := []
  patch : Nat := 8
  planes : Nat := 1
  elemFmt : Nat := 0
  padEdge : Bool := true
  cap : Nat := 1
  bg : Nat := 0
  tau : Nat := 0
  maxW : Nat := 0
  maxH : Nat := 0
  /-- DELIVER: the target of each batch index, and the largest batch data and index -/
  targets : List Nat := []
  maxData : Nat := 0
  maxIndex : Nat := 0
  labelBytes : Nat := 0
deriving DecidableEq, Repr

/-- A placement (R230): cluster count, per relative cluster the scoreboard entries and the SRAM need per tile, the
stages mapped to (relative cluster, tile group), and the home cluster of each sample offset (R316). -/
structure PlacementDecl where
  clusters : Nat := 1
  sampleEntries : List Nat := []
  stepEntries : List Nat := []
  sramPerTile : List Nat := []
  /-- busy time per sample of each relative cluster, in ns (t_c of R124) -/
  tcNs : List Nat := []
  /-- (stage index, relative cluster, tile group) -/
  map : List (Nat × Nat × Nat) := []
  /-- tiles of a group: (relative cluster, group, local tiles) -/
  groupTiles : List (Nat × Nat × List Nat) := []
  /-- first sample offset homed on each home cluster: (relative cluster, first offset) -/
  homes : List (Nat × Nat) := []
deriving DecidableEq, Repr

/-- A region of a tile (R134): kind 0 code, 1 data, 2 receive, 3 spill landing. -/
structure TileRegion where
  tile : Nat := 0
  kind : Nat := 0
  addr : Nat := 0
  size : Nat := 0
deriving DecidableEq, Repr

/-- A TILE_CODE section: the regions of each tile of one relative cluster of one placement, and the resident bytes
loaded into them, as (tile, offset, bytes). -/
structure TileCode where
  placement : Nat := 0
  rel : Nat := 0
  regions : List TileRegion := []
  resident : List (Nat × Nat × List Byte) := []
deriving DecidableEq, Repr

/-- A spill segment (R123): bytes per tile before rounding, and u_s. -/
structure SpillSeg where
  placement : Nat := 0
  rel : Nat := 0
  bytes : Nat := 0
  uses : Nat := 0
deriving DecidableEq, Repr

/-- A stream of the STREAMS section (R271, R376). -/
structure StreamDecl where
  index : Nat := 0
  camera : Bool := true
  port : Nat := 0
  lineMode : Bool := true
  width : Nat := 64
  blockH : Nat := 64
  winH : Nat := 64
  /-- 0 Mono8, 1 Mono12Packed, 2 Mono16 -/
  pixFmt : Nat := 0
  payloadBytes : Nat := 512
  chunkBytes : Nat := 0
  payloadType : Nat := 1
  extId : Bool := false
  /-- declared wire rate in bits per second -/
  wireBps : Nat := 0
  blockTimeoutUs : Nat := 1000
  streamTimeoutUs : Nat := 100000
  resendDelayUs : Nat := 50
  resendTimeoutUs : Nat := 500
  standing : List Nat := [0, 0, 0, 0, 0]
  windowClass : Nat := 4
  encode : Bool := true
  coded : Bool := true
  /-- 0 Main, 1 Main 10, 2 Main 4:2:2 10, 3 Monochrome 12, others unsupported -/
  profile : Nat := 3
  highTier : Bool := false
  /-- level × 30 as H.265 numbers general_level_idc -/
  levelIdc : Nat := 183
  picW : Nat := 64
  picH : Nat := 64
  chromaOk : Bool := true
  /-- luma samples per second -/
  pixelRate : Nat := 0
  /-- 0 TILES, 1 SLICES, 2 WAVEFRONT -/
  division : Nat := 1
  divCols : Nat := 1
  divRows : Nat := 1
  divK : Nat := 1
  lossless : Bool := false
  /-- 0 CBR, 1 CVBR, 2 CQ, 3 FIXED -/
  rateMode : Nat := 3
  tI : Int := 0
  tP : Int := 0
  bucket : Int := 0
  qpInit : Int := 30
  qpMin : Int := 0
  qpMax : Int := 51
  qpI : Int := 30
  qpP : Int := 30
  capC : Int := 0
  refs : Nat := 1
  dpbSlots : Nat := 1
  irap : Nat := 1
  rho : Nat := 0
  down : Bool := true
  /-- bytes of a recording segment and the namespace slot the archive writes to (R432) -/
  segBytes : Nat := 0
  archiveSlot : Nat := 0
  /-- line set and its skew tolerance in ns (R386); none when the stream is in no set -/
  lineSet : Option (Nat × Nat) := none
  /-- encoder chunk: id, offset in the chunk, big-endian (R387) -/
  encChunk : Option (Nat × Nat × Bool) := none
deriving DecidableEq, Repr

/-- An expert (R318, R321). -/
structure ExpertDecl where
  id : Nat := 0
  cap : Nat := 1
  floor : Word32 := 0
  rMax : Nat := 1
  weightBytes : Nat := 0
  bias : Word32 := 0
deriving DecidableEq, Repr

/-- An expert tile group (R321, R331, R362). -/
structure GroupDecl where
  id : Nat := 0
  rel : Nat := 0
  tiles : Nat := 1
  freeBytes : Nat := 0
  spare : Bool := false
deriving DecidableEq, Repr

/-- One stage of a Churn schedule (Table CHN-4). -/
structure SchedStage where
  beta : Word32 := 0
  sweeps : Nat := 1
deriving DecidableEq, Repr

/-- The packing part of the CHURN section (R355). -/
structure PackDecl where
  lCap : Nat := 1
  alpha : Nat := 0
  gamma : Nat := 0
  sched : List SchedStage := []
  sMin : Nat := 1
  budgetUs : Nat := 100
deriving DecidableEq, Repr

/-- The placement part of the CHURN section (R362). -/
structure PlaceDecl where
  sched : List SchedStage := []
  nu : Nat := 0
  budgetUs : Nat := 0
  split : Bool := false
deriving DecidableEq, Repr

/-- An end of a declared bulk flow (R159): a tile of a relative cluster, near-memory through a window region, or a
ring client, whose stop follows from the other end (R162). -/
inductive FlowEnd where
  | tile (rel local_ : Nat)
  | memory (region : Nat)
  | ring
deriving DecidableEq, Repr

/-- A declared bulk flow in bytes per ms. -/
structure Flow where
  src : FlowEnd
  dst : FlowEnd
  bytesPerMs : Nat
deriving DecidableEq, Repr

/-- A declared Reserved path (R168, R170): flits per slot and the latency need in TCLK (none: no need declared). -/
structure ResPath where
  srcRel : Nat := 0
  srcTile : Nat := 0
  dstRel : Nat := 0
  dstTile : Nat := 0
  flits : Nat := 0
  need : Option Nat := none
deriving DecidableEq, Repr

/-- The sections of an image, as declared. -/
structure ImgBody where
  permLength : Nat := 0
  groups : List (List Nat) := []
  prepSteps : Nat := 0
  slotsUsed : List Nat := []
  regions : List Region := []
  bufferSizes : List Nat := []
  perSample : List Nat := [0, 0, 0, 0, 0]
  perStep : List Nat := [0, 0, 0, 0, 0]
  batchClass : Nat := 4
  stages : List StageDecl := []
  edges : List (Nat × Nat) := []
  placements : List PlacementDecl := []
  code : List TileCode := []
  spill : List SpillSeg := []
  streams : List StreamDecl := []
  dim : Nat := 64
  tokensMode : Bool := false
  codebook : Nat := 2
  experts : List ExpertDecl := []
  wheyW : Nat := 1
  wheyRound : Nat := 1
  groupsE : List GroupDecl := []
  /-- the group of Whey, and the initial placement: per expert id its groups -/
  wheyGroup : Nat := 0
  placement0 : List (Nat × List Nat) := []
  revInterval : Nat := 0
  usesExperts : Bool := false
  pack : Option PackDecl := none
  place : Option PlaceDecl := none
  resSlots : Nat := 0
  resPaths : List ResPath := []
  flows : List Flow := []
  clusterCtx : Nat := 0
  clusterFlags : Nat := 0
  partCtx : Nat := 0
  partFlags : Nat := 0
  /-- participant masks of barrier contexts: (relative cluster or none for partition scope, context, per relative
  cluster a tile mask) -/
  barriers : List (Option Nat × Nat × List (Nat × Nat)) := []
deriving DecidableEq, Repr, Inhabited

/-- A loaded image. -/
structure Image where
  hdr : ImgHeader := {}
  body : ImgBody := {}
deriving DecidableEq, Repr

end Sys2Proof.Machine
end

