-- ==== Sys2Proof/Config.lean ====
section
/-!
DEFINITION. What the spec leaves to an implementation or leaves open: opaque constants without a body, so that no
proof can see their values.  Each is named in the assumption log.
-/
namespace Sys2Proof.Config

/-- A fresh open value: applied to the counter `State.freeCtr`, which the taker advances (log entry 9). -/
opaque freeNat : Nat → Nat

/-- What the sections of an image declare: Bastan's encoding of the section bodies is private (log entry 6). -/
opaque imageBody : List Byte → Machine.ImgBody

/-- The vendor's IANA enterprise number of the FRU field VENDOR_IANA (R538), which the spec does not give. -/
opaque vendorIana : Nat

/-- Whether ROT90 turns clockwise (Table IMG-8 does not say, log entry 28). -/
opaque rotClockwise : Bool

/-- The byte offset in the input at which tiles find a bad PNG filter type, by the inflated rows (log entry 30). -/
opaque filterOffset : List (Nat × List Byte) → Nat

/-- v_0 of R362, whose divisor is 0 for an expert without a fixed replica: a function of its window counter (log entry
43). -/
opaque placementV0 : Nat → Nat

/-- The batch of a sample in an image without a PACK stage, which the spec does not give (log entry 46): of the sample's offset,
the samples and the batches of the step. -/
opaque plainBatch : Nat → Nat → Nat → Nat

end Sys2Proof.Config
end

