-- ==== Sys2Proof/Machine/State.lean ====
section
/-!
DEFINITION. The state of the TH-8192 and its module as plain data, and the state right after reset.  Each structure
names the rule of spec/ that gives its fields; fields marked MODEL are the model's own.
-/
namespace Sys2Proof.Machine

/-- The reasons a step can fault: the block has none, because the spec answers every event. -/
inductive Fault where
  /-- raised by no meaning; a closed type must have a reason (safe) -/
  | unreachable
deriving DecidableEq, Repr

/-- The reasons a step can be refused. -/
inductive Refusal where
  /-- raised by an arm of exec whose command has no meaning yet (safe: nothing can be proved through it) -/
  | notModelled (mnemonic : String)
deriving DecidableEq, Repr

/-- The states of a power domain (Table CMD-4). -/
inductive DomSt where
  | off | powering | on | poweringDown | fenced
deriving DecidableEq, Repr

/-- The mailbox states of Table MBX-4. -/
inductive MbxSt where
  | idle | busy | response
deriving DecidableEq, Repr

/-- The partition states of Table PRT-3. -/
inductive PSt where
  | free | granted | enabled | paused | suspended | fenced | tearingDown
deriving DecidableEq, Repr

/-- A link or port state (Table CMD-4). -/
inductive LinkSt where
  | down | up | fenced
deriving DecidableEq, Repr

/-- An event log record without its crc, which is a function of the rest (Table ERR-7). -/
structure LogRec where
  ts : Nat
  seq : Nat
  part : Nat
  sev : Nat
  code : Nat
  a0 : Nat
  a1 : Nat
  a2 : Nat
  a3 : Nat
deriving DecidableEq, Repr

/-- A cursor (R11). -/
structure Cursor where
  epoch : Nat := 0
  step : Nat := 0
  off : Nat := 0
deriving DecidableEq, Repr

/-- A half-row of near memory (R179): west or east, and its chunk row. -/
structure HR where
  west : Bool
  row : Nat
deriving DecidableEq, Repr

/-- How far an accepted request has come. -/
inductive ReqPhase where
  /-- its command data are being read from host memory (R101) -/
  | fetching
  /-- ORDERED or AFTER_RING holds it back (R103) -/
  | deferred
  /-- it may commit in its turn (R102) -/
  | ready
  /-- its bulk data are on their way (R489) -/
  | moving
  /-- committed; its later completions are still due (R490) -/
  | pending
deriving DecidableEq, Repr

/-- An accepted request (Tables MBX-5 and MBX-9). -/
structure Req where
  fn : Fn
  ring : Bool
  seq : Nat
  tag : Nat := 0
  opcode : Nat := 0
  part : Nat := 0xFF
  /-- bit 0 IRQ_ON_RESPONSE / IRQ_ON_COMPLETION, bit 1 AFTER_RING / ORDERED -/
  flags : Nat := 0
  payload : List Byte := []
  dataAddr : Nat := 0
  dataLen : Nat := 0
  rspAddr : Nat := 0
  phase : ReqPhase := .ready
  bulk : List Byte := []
  /-- bulk DMA still to finish, in bytes -/
  left : Nat := 0
deriving DecidableEq, Repr

/-- A completion entry before it takes a slot (Table MBX-10). -/
structure Cqe where
  status : Nat
  reason : Nat
  tag : Nat
  seq : Nat
  opcode : Nat
  result : Nat
  retry : Nat
  mailbox : Bool
  last : Bool
  irq : Bool
  /-- a response payload that is still to be written before the entry, and its address (R418, R489) -/
  rspAddr : Nat := 0
  rsp : List Byte := []
deriving DecidableEq, Repr

/-- A MSI-X table entry (R423). -/
structure MsixEntry where
  addr : Nat := 0
  data : Nat := 0
  masked : Bool := true
  pending : Bool := false
deriving DecidableEq, Repr

/-- The counters of Table HIO-5. -/
structure CntBlock where
  mbx : Nat := 0
  sq : Nat := 0
  cq : Nat := 0
  dropped : Nat := 0
  dmaRetries : Nat := 0
  late : Nat := 0
  moved : Nat := 0
  p2p : Nat := 0
deriving DecidableEq, Repr

/-- The ring registers of Table MBX-8 with the ring's hidden state (R93, R97, R98, R100). -/
structure RingBlock where
  sqBase : Nat := 0
  sqSize : Nat := 0
  sqTail : Nat := 0
  sqHead : Nat := 0
  sqEn : Bool := false
  consumed : Nat := 0
  cqBase : Nat := 0
  cqSize : Nat := 0
  cqHead : Nat := 0
  cqTail : Nat := 0
  cqEn : Bool := false
  phase : Bool := false
  hold : List Cqe := []
  stall : Bool := false
deriving DecidableEq, Repr

/-- The interrupt registers of Table MBX-12, and the unsignalled entries of R105. -/
structure IrqBlock where
  status : BitVec 4 := 0
  mask : BitVec 4 := 0xF
  count : Nat := 0
  timeUs : Nat := 0
  unsignalled : Nat := 0
  fnMask : Bool := false
  table : Vector MsixEntry 3 := Vector.replicate 3 {}
deriving DecidableEq, Repr

/-- The response stored for replay (R91). -/
structure StoredRsp where
  opcode : Nat
  tag : Nat
  bytes : List Byte
deriving DecidableEq, Repr

/-- The mailbox registers and windows (Tables MBX-2 to MBX-4). -/
structure MbxBlock where
  state : MbxSt := .idle
  overrun : Bool := false
  nextSeq : Nat := 0
  violations : Nat := 0
  reqWin : List Host.Cell := []
  rspWin : List Host.Cell := []
  stored : Option StoredRsp := none
deriving DecidableEq, Repr

/-- One PCIe function. -/
structure FnState where
  mbx : MbxBlock := {}
  ring : RingBlock := {}
  irq : IrqBlock := {}
  cnt : CntBlock := {}
  /-- D3hot (R418) -/
  d3 : Bool := false
deriving DecidableEq, Repr

/-- What a host DMA serves (R101, R412, R424). -/
inductive DmaKind where
  | cmdData (r : ReqId)
  | completion (c : Cqe)
  /-- a response payload, with the completion that follows it (R489) -/
  | response (c : Cqe)
  | bulkIn (r : ReqId)
  | bulkOut (r : ReqId)
  | p2pWrite (p : Pid) (target : Nat)
deriving DecidableEq, Repr

/-- An outstanding host DMA (Table ERR-4: its PCIe tag). -/
structure DmaOp where
  tag : Nat
  fn : Fn
  kind : DmaKind
  addr : Nat
  bytes : List Byte
  len : Nat
  retried : Bool
  /-- its tag was fenced: a completion that still comes is discarded (R474) -/
  dead : Bool := false
deriving DecidableEq, Repr

/-- What rate-limited records are limited by (R108, R389, R413, R436, R465, R281, R357, R386, R383). -/
inductive LimKey where
  | fn (f : Fn) | stream (p : Pid) (s : Nat) | port (n : Nat) | session (p : Pid) (t : Nat) | drive (n : Nat)
  | partner | router (x y : Nat) | overrun (p : Pid) (s : Nat) | packing (p : Pid) (cause : Nat)
  | lineSet (p : Pid) (n : Nat)
  | recovered (p : Pid) (s : Nat)
deriving DecidableEq, Repr

/-- A rate limiter: the time of the last record and the occurrences coalesced since. -/
structure Limiter where
  key : LimKey
  last : Nat
  held : Nat
deriving DecidableEq, Repr

/-- The counter set of R487 (Table at R505 section 2). -/
structure FaultSet where
  transient : Vector Nat 20 := Vector.replicate 20 0
  lasting : Vector Nat 20 := Vector.replicate 20 0
  late : Vector Nat 14 := Vector.replicate 14 0
  partner : Vector Nat 5 := Vector.replicate 5 0
  corrected : Nat := 0
  lapses : Nat := 0
  fences : Nat := 0
  coalesced : Nat := 0
deriving DecidableEq, Repr

/-- The module's inputs, sequencer and FRU latch (R531 to R534, R547). -/
structure ModuleSt where
  aux : Bool := true
  main : Bool := true
  rails : Bool := true
  pwrGood : Bool := true
  /-- 100 ms have passed since PWR_GOOD (R533) -/
  holdOver : Bool := true
  perst : Bool := true
  restartLatch : Bool := false
  thermtrip : Bool := false
  fruLatch : Byte := 0
deriving DecidableEq, Repr

/-- Clocking (R52 to R57). -/
structure ClockSt where
  refclk : Bool := true
  onInternal : Bool := true
  pllLocked : Bool := false
  /-- a relock after a loss is under way -/
  relocking : Bool := false
  /-- the loss that a relock answers: 1 REFCLK, 2 root PLL, 0 none -/
  lost : Nat := 0
  /-- lock attempts made in this boot -/
  lockTries : Nat := 0
  /-- every family clock but CCLK in PD_AO is stopped -/
  stopped : Bool := true
deriving DecidableEq, Repr

/-- Where the boot stands (R76, R79, R549). -/
inductive BootPhase where
  | held | locking | hostUp | verifying | running | rom | stopped
deriving DecidableEq, Repr

/-- The boot ROM's and reset controller's state (R71, R76, R79, R80). -/
structure BootSt where
  phase : BootPhase := .held
  /-- slot being read or run: 0 A, 1 B, 0xFF the boot ROM responder -/
  slot : Nat := 0xFF
  tried : List Nat := []
  fallback : Bool := false
  /-- a reset accepted but not begun: 1 WARM, 2 COLD (R71) -/
  resetKind : Nat := 0
  /-- a warm reset's power-down is due to begin -/
  warmDue : Bool := false
  warm : Bool := false
deriving DecidableEq, Repr

/-- The fuse block (R137, R75, R77, R420, R540). -/
structure FuseSt where
  /-- bad positions: kind, y, x -/
  bad : List (Nat × Nat × Nat) := []
  keyHash : List Byte := []
  rollback : Nat := 0
  serial : Nat := 1
  stepping : Nat := 0
  privateTapOff : Bool := true
deriving DecidableEq, Repr

/-- The running firmware (R80, R89). -/
structure FwSt where
  version : Nat := 0
  numerics : Nat := 0
  verMin : Nat := 1
  verMax : Nat := 1
  rollbackVersion : Nat := 0
  slotA : List Byte := []
  slotB : List Byte := []
deriving DecidableEq, Repr

/-- A power operation in progress (R62, R63, R67): the request it answers, none for a re-power. -/
structure PowerOp where
  req : Option ReqId
  tag : Nat
  toOn : List Nat
  toOff : List Nat
  /-- re-power: the domain and whether it ends as a PCIe hot reset -/
  repower : Option Nat
deriving DecidableEq, Repr

/-- Power domains (R59 to R67). -/
structure PowerSt where
  dom : Vector DomSt 8 := (Vector.replicate 8 .off).set 0 .on
  attempt : Vector Nat 8 := Vector.replicate 8 0
  op : Option PowerOp := none
  /-- PD_TILE_W began less than 1 ms ago (R65) -/
  inrush : Bool := false
deriving DecidableEq, Repr

/-- The host link and SR-IOV control (R416, R417). -/
structure LinkBlock where
  up : Bool := false
  rate : Nat := 0
  width : Nat := 0
  aer : Nat := 0
  vfEnable : Bool := false
  numVfs : Nat := 0
  /-- its port is fenced after a second crossing FIFO fault (R55) -/
  fenced : Bool := false
  /-- configuration requests are answered Request Retry Status (R79) -/
  rrs : Bool := true
deriving DecidableEq, Repr

/-- The entropy source (R296 to R299, R512). -/
structure EntropySt where
  /-- 0 STARTING, 1 RUNNING, 2 RESTARTING, 3 FENCED -/
  st : Nat := 0
  blocks : List (BitVec 384) := []
  repFails : Nat := 0
  propFails : Nat := 0
  transient : Nat := 0
  delivered : Nat := 0
  /-- the test whose failure the restart answers (Table ERR-10) -/
  test : Nat := 0
deriving DecidableEq, Repr

/-- A granule of a window (R181): its first and second half-row. -/
structure Granule where
  a : HR
  b : HR
deriving DecidableEq, Repr

/-- A window: the granules of each mode, and the half-rows that are not zero yet (R114, R181). -/
structure Window where
  all : List Granule := []
  west : List Granule := []
  east : List Granule := []
  unzero : List HR := []
deriving DecidableEq, Repr

/-- A partition's grants (Table PRT-2). -/
structure Grants where
  clusters : List Nat := []
  win : Window := {}
  cores : List Nat := []
  ports : List Nat := []
  ns : List (Nat × Nat) := []
  churn : List Nat := []
  resSlots : List Nat := []
  sharedW : Nat := 16
  stillW : Nat := 0
  prio : Nat := 0
  spillAllowed : Bool := false
  mirrored : Bool := false
  min : List Nat := [0, 0, 0, 0, 0]
  /-- 0 means the class capacity -/
  ceil : List Nat := [0, 0, 0, 0, 0]
deriving DecidableEq, Repr

/-- The loaded image with its cursor, seed and check results (R231, R112, R503). -/
structure Loaded where
  image : Option Image := none
  recreate : Bool := false
  records : List (List Byte) := []
  recCount : Nat := 0
  cursor : Cursor := {}
  seed : Option (BitVec 128) := none
  /-- a PIPELINE_LOAD has completed since the pause began (R300) -/
  loadedInPause : Bool := false
  /-- something of R112 has changed since the pause -/
  recheck : Bool := false
  lastCheck : List Byte := []
  placement : Nat := 0xFF
  /-- spilled bytes chosen by the last check, per relative cluster -/
  spilled : List Nat := []
deriving DecidableEq, Repr

/-- A kept token of a sample (R268, R315 to R329). -/
structure Token where
  p : Nat
  data : List Nat := []
  h : List Word16 := []
  /-- per expert id: score -/
  scores : List (Nat × Word32) := []
  chosen : List Nat := []
  ys : List (Nat × List Word16) := []
  out : List Byte := []
deriving DecidableEq, Repr

/-- An admitted sample (R239, R240). -/
structure Sample where
  off : Nat
  id : Nat
  damaged : Bool := false
  capped : Bool := false
  skipped : Bool := false
  done : Bool := false
  cls : Nat := 0xFF
  labels : List Byte := []
  marked : List Nat := []
  planes : List Plane := []
  tokens : List Token := []
  cols : Nat := 0
  rows : Nat := 0
  /-- stream and window of a live sample -/
  win : Option (Nat × Nat) := none
  /-- buffers reserved and not yet drawn, per class -/
  undrawn : List Nat := [0, 0, 0, 0, 0]
deriving DecidableEq, Repr

/-- Scoreboard entry states (Table SCH-5). -/
inductive EntSt where
  | waiting | ready | issued | done | skipped
deriving DecidableEq, Repr

/-- A scoreboard entry in use (Table SCH-5): relative cluster and entry number, then the fields. -/
structure Entry where
  rel : Nat
  no : Nat
  st : EntSt
  stage : Nat
  stepScope : Bool
  off : Nat
  slot : Nat
  pend : Nat
  retried : Bool := false
  group : Nat
deriving DecidableEq, Repr

/-- A batch of a step (R400 to R405). -/
structure Batch where
  idx : Nat
  target : Nat
  samples : List Nat := []
  tokens : Nat := 0
  data : List Byte := []
  index : List Byte := []
  seq : Option Nat := none
  acked : Bool := false
deriving DecidableEq, Repr

/-- An open step (R44, R245). -/
structure OpenStep where
  slot : Nat
  first : Cursor
  count : Nat
  prep : Bool := false
  samples : List Sample := []
  reported : List Nat := []
  lists : Bool := false
  packMode : Nat := 2
  sweeps : Nat := 0
  packDone : Bool := false
  /-- batch of each sample, 0xFF for overflow -/
  assign : List Nat := []
  batches : List Batch := []
  placeVer : Nat := 0
  place : List (Nat × List Nat) := []
  /-- tokens chosen and eligible per expert 0 to 63 then Whey -/
  chosen : List Nat := []
  eligible : List Nat := []
  /-- record written and mirror sent; waiting for its acknowledgement -/
  mirroring : Bool := false
  nonRec : Bool := false
  /-- a pair B mismatch interrupted a build of its lists (R72) -/
  pairBMiss : Bool := false
  record : List Byte := []
  /-- buffers of the step's own reservation that were not drawn, per class (R239) -/
  undrawn : List Nat := [0, 0, 0, 0, 0]
deriving DecidableEq, Repr

/-- Why the lead scheduler waits (R240). -/
inductive AdmitWait where
  | none | entry | boundary | credit | pool | perm | window
deriving DecidableEq, Repr

/-- The lead scheduler of a partition (R239 to R248). -/
structure Sched where
  steps : List OpenStep := []
  entries : List Entry := []
  /-- next position for admission -/
  next : Cursor := {}
  wait : AdmitWait := .none
  /-- an admission RESERVE is on its way to the pool -/
  asking : Bool := false
  /-- recorded windows that wait for training, oldest first: stream and window (R21) -/
  liveQ : List (Nat × Nat) := []
  /-- sample ids that a live epoch admitted since the last boundary (R19) -/
  perm : List Nat := []
  /-- the epoch whose permutation the window holds (R246) -/
  permEpoch : Option Nat := none
  /-- completed step records, oldest first, with their first cursor (R245) -/
  recRing : List (Cursor × List Byte) := []
  pausing : Bool := false
  pauseReq : Option ReqId := none
  teardownAtBoundary : Bool := false
  fenceAtBoundary : Nat := 0
  /-- step records written since the load (R245) -/
  recTotal : Nat := 0
  /-- dataset index entries that the archive writer wrote since the last boundary: sample id and entry (R445) -/
  idxNew : List (Nat × List Byte) := []
  /-- preparation steps done for the next epoch (R246) -/
  prepDone : Nat := 0
  /-- decode instances that damage stopped: epoch, group and first damaged position (R291) -/
  stopped : List (Nat × Nat × Nat) := []
  boundaries : Nat := 0
deriving DecidableEq, Repr

/-- Expert counters and placement (R330 to R334, Table EXP-4). -/
structure Experts where
  placement : List (Nat × List Nat) := []
  version : Nat := 0
  revisions : Nat := 0
  kept : Nat := 0
  running : Bool := false
  ready : Option (List (Nat × List Nat)) := none
  /-- how the ready placement came: 0 revised, 1 set -/
  readyKind : Nat := 0
  firstCursor : Nat := 0
  tokens : Nat := 0
  recVersion : Nat := 0
  pairs : Nat := 0
  /-- per destination 0 to 64: chosen, eligible, replicas, flags -/
  dest : List (Nat × Nat × Nat × Nat) := []
  chosenLoad : List Nat := []
  fullSteps : List Nat := []
  windowCount : List Nat := []
  /-- live counters of the current revision window; the record keeps them as they stood at its boundary (R332) -/
  window : List Nat := []
deriving DecidableEq, Repr

/-- A missing range of packet ids (R381). -/
structure Range where
  id : Nat
  /-- uid of its block -/
  block : Nat
  ids : List Nat
  tries : Nat := 0
deriving DecidableEq, Repr

/-- A block being received (R375, R377). -/
structure Block where
  uid : Nat
  /-- window, and place among its blocks -/
  win : Nat
  j : Nat
  blockId : Nat
  got : List Nat := []
  lost : List Nat := []
  /-- packets that were requested again -/
  asked : List Nat := []
  nxt : Nat := 0
  tail : Bool := false
  /-- 0 open, 1 complete, 2 lines lost, 3 rejected -/
  st : Nat := 0
  cameraTime : Nat := 0
  deviceTime : Nat := 0
  unsync : Bool := false
  /-- the leader has arrived -/
  led : Bool := false
  chunk : List Host.Cell := []
deriving DecidableEq, Repr

/-- A window being assembled or waiting (R378 to R380). -/
structure Win where
  seq : Nat
  groupsReady : Nat := 0
  /-- a line is lost: a recording gap (R379) -/
  gap : Bool := false
  /-- no picture is coded: no buffer, or the recording ring is full (R20, R378) -/
  uncoded : Bool := false
  /-- it fell to a full recording ring -/
  noRing : Bool := false
  /-- a stall cut it short (R381) -/
  cut : Bool := false
  /-- every block is complete, lost or rejected -/
  done : Bool := false
  encoded : Bool := false
  resent : Nat := 0
  cameraTime : Option Nat := none
  deviceTime : Nat := 0
  unsync : Bool := false
  misaligned : Bool := false
  compared : Bool := false
  count : Option Nat := none
  /-- class and index of the window buffer -/
  buf : Option (Nat × Nat) := none
  /-- the planes that training uses, once encoded -/
  planes : List Plane := []
deriving DecidableEq, Repr

/-- A segment of a stream (R276) that waits for an engine or runs. -/
structure SegJob where
  part : Pid
  stream : Nat
  win : Nat
  seg : Nat
  attempt : Nat := 0
  /-- a decode job's first error: code and byte offset -/
  prev : Option (Nat × Nat) := none
  /-- engine whose run failed, for the transient record -/
  prevCore : Option Nat := none
  /-- decode: step slot and sample offset -/
  sample : Option (Nat × Nat) := none
deriving DecidableEq, Repr

/-- Rate control of an encode stream (R280). -/
structure RateSt where
  /-- pictures since the stream opened -/
  n : Nat := 0
  f : Int := 0
  /-- bucket fullness after each picture, newest first -/
  fHist : List Int := []
  qPrev : Int := 0
deriving DecidableEq, Repr

/-- An emission record (Table VID-5). -/
structure Emission where
  offset : Nat
  length : Nat
  picture : Nat
  window : Nat
  slice : Nat
  flags : Nat
  qpSum : Int
  crc : Nat
deriving DecidableEq, Repr

/-- A coded segment of the picture in work: bits of its CTU rows, bytes and reconstruction. -/
structure SegOut where
  seg : Nat
  rowBits : List Nat
  bytes : List Byte
  recon : List Plane
deriving DecidableEq, Repr

/-- A window in the recording ring: sequence, byte offset, length and window record (R380, R430, R432). -/
structure RecWin where
  seq : Nat
  off : Nat
  len : Nat
  record : List Byte
deriving DecidableEq, Repr

/-- The codec side of a stream (R294, R510). -/
structure CodecSt where
  /-- 0 CLOSED, 1 OPEN, 2 STOPPED by damage, 3 STOPPED by fence, 4 STALLED -/
  st : Nat := 0
  closing : Bool := false
  pictures : Nat := 0
  slices : Nat := 0
  bits : Nat := 0
  overruns : Nat := 0
  transient : Nat := 0
  intraOnly : Nat := 0
  qpSum : Int := 0
  errCode : Nat := 0
  errCtu : Nat := 0
  errOff : Nat := 0
  errId : Nat := 0
  forceIrap : Bool := true
  sinceIrap : Nat := 0
  /-- window of the last picture coded since the stream opened -/
  lastSeq : Option Nat := none
  /-- line-encoder counts of the reference pictures, newest first (R283) -/
  refCounts : List (Option Nat) := []
  rate : RateSt := {}
  /-- segments of the picture in work that are complete, and slices emitted -/
  segOuts : List SegOut := []
  slicesOut : Nat := 0
  ringOff : Nat := 0
  emitted : List Emission := []
  /-- bytes of the picture in work that were emitted -/
  picBytes : List Byte := []
  /-- bytes recorded, windows in the ring that are not indexed yet, segments archived -/
  recOff : Nat := 0
  recWins : List RecWin := []
  archived : Nat := 0
  /-- the archive writer: 0 idle, 1 writing a segment, 2 flushing it, 3 stopped by its drive -/
  arch : Nat := 0
  /-- first window of a recording gap that is still open because the ring is full (R20) -/
  gapFrom : Option Nat := none
deriving DecidableEq, Repr

/-- Counters of a stream record of INGEST_STATUS (R516). -/
structure IngCnt where
  blocks : Nat := 0
  packets : Nat := 0
  requests : Nat := 0
  recovered : Nat := 0
  recoveredRetry : Nat := 0
  lost : Nat := 0
  duplicates : Nat := 0
  late : Nat := 0
  violations : Nat := 0
  misaligned : Nat := 0
deriving DecidableEq, Repr

/-- A stream of a partition (R270, R377 to R383). -/
structure Stream where
  index : Nat
  everOpened : Bool := false
  nextWin : Nat := 0
  w0 : Nat := 0
  /-- block id and sequence of the newest block -/
  last : Option (Nat × Nat) := none
  /-- undrawn buffers of the standing reservation (R378) -/
  res : Nat := 0
  blocks : List Block := []
  wins : List Win := []
  ranges : List Range := []
  nextRange : Nat := 0
  nextBlk : Nat := 0
  cnt : IngCnt := {}
  codec : CodecSt := {}
deriving DecidableEq, Repr

/-- A batch in flight on a target (R406, R407). -/
structure Sent where
  seq : Nat
  slot : Nat
  batch : Nat
  first : Cursor
  data : List Byte
  index : List Byte
  msg : List Byte
  /-- its message was sent again after the first expiry -/
  resent : Bool := false
  /-- its one rewrite is used (R407) -/
  naked : Bool := false
  /-- it was sent on this session, so its acknowledgement timer runs -/
  timer : Bool := true
deriving DecidableEq, Repr

/-- The parameters of a session (Table CMD-9). -/
structure SessPar where
  p2p : Bool := false
  port : Nat := 0
  mtu : Nat := 0
  dscp : Nat := 0
  pcp : Nat := 0
  slots : Nat := 0
  addr : Nat := 0
  qpn : Nat := 0
  psn : Nat := 0
  dataSize : Nat := 0
  indexSize : Nat := 0
  creditMs : Nat := 0
  dataRing : Nat := 0
  dataKey : Nat := 0
  indexKey : Nat := 0
  indexRing : Nat := 0
  descRing : Nat := 0
  statusRec : Nat := 0
  notifyAddr : Nat := 0
  notifyVal : Nat := 0
  /-- function whose requester id the writes carry (R411) -/
  reqFn : Nat := 0
deriving DecidableEq, Repr

/-- A delivery target (R397, R518). -/
structure Target where
  id : Nat
  /-- 1 OPENING, 2 OPEN, 3 CLOSED -/
  st : Nat := 1
  cause : Nat := 0
  par : SessPar := {}
  devQpn : Word32 := 0
  devPsn : Word32 := 0
  nextSeq : Nat := 0
  acked : Nat := 0
  released : Nat := 0
  reserved : Nat := 0
  sent : List Sent := []
  /-- send rate in bits per second (R393) -/
  rate : Nat := 200000000000
  cnBatches : Nat := 0
  cnBytes : Nat := 0
  cnResends : Nat := 0
  cnCnp : Nat := 0
  cnTransient : Nat := 0
  cnViol : Nat := 0
  helloSent : Bool := false
  helloResent : Bool := false
  rcTried : Bool := false
  rnrTried : Bool := false
  /-- receives still posted at an instant (Table DLV-4) -/
  rqLeft : Nat := 16
  rqTime : Nat := 0
  closedAt : Nat := 0
  nakCount : Nat := 0
  pollTried : Bool := false
deriving DecidableEq, Repr

/-- A Churn problem in integers (R336, R339). -/
structure Prob where
  n : Nat
  c : Int
  h : List Int
  /-- couplings i, j, J with i below j -/
  js : List (Nat × Nat × Int)
  groups : List (List Nat)
  start : List Nat
  k : Int
deriving DecidableEq, Repr

/-- The dynamic state of a chain (R341, R344). -/
structure ChainSt where
  x : List Bool
  e : Int
  /-- running best and committed best: energy and state -/
  best : Int × List Bool
  comm : Int × List Bool
  /-- energy and state at the end of the last completed sweep -/
  fin : Int × List Bool
  commSweep : Nat := 0
  sweeps : Nat := 0
  steps : Nat := 0
  /-- the step counted from 1 in the run (R343) -/
  q : Nat := 0
  repaired : Nat := 0
  /-- energies at the ends of sweeps, newest first -/
  trace : List Int := []
deriving DecidableEq, Repr

/-- A Churn run (R343, R352, R364). -/
structure Run where
  /-- 0 packing, 1 placement, 2 CHURN_RUN, 3 RANDOM_EVALUATE -/
  kind : Nat
  part : Pid
  tag : Nat
  /-- step slot of a packing run -/
  slot : Nat := 0
  prob : Prob
  sched : List SchedStage
  seed : BitVec 128
  epoch : Nat
  sample : Nat
  op : Nat
  /-- exact sweeps of a recreated step (R359) -/
  exact : Option Nat := none
  started : Bool := false
  saved : Bool := false
  retried : Bool := false
  req : Option ReqId := none
  resultAddr : Nat := 0
  traceAddr : Nat := 0
  traceLen : Nat := 0
  split : Bool := false
  /-- a split run: the chain it runs, the stages it ended, its state there, and the messages of the other chain that
  have arrived: stage, energy and state -/
  chainNo : Nat := 0
  stage : Nat := 0
  chain : Option ChainSt := none
  others : List (Nat × Int × List Bool) := []
  evalFirst : Nat := 0
  evalLast : Nat := 0
  evalOut : Nat := 0
deriving DecidableEq, Repr

/-- A mirror message that waits for its acknowledgement (R451, R452). -/
structure MirMsg where
  tag : Nat
  resent : Bool := false
  grant : Option MirGrant := none
  step : Option MirStep := none
deriving DecidableEq, Repr

/-- The counters of a partition (Table CMD-7, R227, R505). -/
structure PCnt where
  steps : Nat := 0
  annealed : Nat := 0
  greedyBudget : Nat := 0
  greedyCap : Nat := 0
  greedyChurn : Nat := 0
  damaged : Nat := 0
  capped : Nat := 0
  overflow : Nat := 0
  backlog : Nat := 0
  withdrawn : Nat := 0
  peak : List Nat := [0, 0, 0, 0, 0]
  /-- NO_BUFFER answers per class: HEADROOM, CEILING, OFFLINE -/
  nobuf : List (Nat × Nat × Nat) := [(0,0,0), (0,0,0), (0,0,0), (0,0,0), (0,0,0)]
  zeroReads : List Nat := [0, 0, 0, 0, 0]
  bufFaults : List Nat := [0, 0, 0, 0, 0]
  /-- flits held to a later owned window (R168) -/
  heldFlits : Nat := 0
  faults : FaultSet := {}
deriving DecidableEq, Repr

/-- A partition (R109 to R127). -/
structure Part where
  st : PSt := .free
  g : Grants := {}
  ld : Loaded := {}
  sc : Sched := {}
  ex : Experts := {}
  streams : List Stream := []
  targets : List Target := []
  runs : List Run := []
  cnt : PCnt := {}
  held : List Nat := [0, 0, 0, 0, 0]
  drawn : List Nat := [0, 0, 0, 0, 0]
  cause : Nat := 0
  /-- ownership generation (R444) -/
  gen : Nat := 0
  /-- resources a takeover took from it (R458) -/
  lent : Option Grants := none
  /-- it lost a hold conflict and answers 0x0803 (R461) -/
  conflict : Bool := false
  /-- mirror messages that wait for their acknowledgement, oldest first (R452) -/
  mirWait : List MirMsg := []
  mirTag : Nat := 0
  /-- number of the last seeding copy of the partition (Table PAIR-7) -/
  seedCopy : Nat := 0
  /-- phases of Table PRT-6 done after t0 -/
  td : Nat := 0
  /-- the request whose completion the teardown posts -/
  tdReq : Option ReqId := none
deriving DecidableEq, Repr

/-- A buffer's descriptor and exact written sectors (Tables BUF-4 and BUF-6). -/
structure Desc where
  cls : Nat
  index : Nat
  /-- 0 FREE, 1 OWNED, 2 HANDING -/
  st : Nat := 0
  part : Nat := 0
  gen : Nat := 0
  owner : Owner := ⟨0, 0⟩
  next : Owner := ⟨0, 0⟩
  written : List Nat := []
  /-- MODEL: the step slot, and the sample offset unless step scope, whose reservation it was drawn from -/
  for_ : Option (Nat × Option Nat) := none
deriving DecidableEq, Repr

/-- A refused reservation that waits for its wake (Table BUF-7): classes short with their cause
1 HEADROOM, 2 CEILING, 3 OFFLINE. -/
structure Waiter where
  req : ReserveReq
  short : List (Nat × Nat)
deriving DecidableEq, Repr

/-- The buffer pool (R205 to R227). -/
structure PoolSt where
  inService : Bool := false
  rows : List Nat := [2, 3, 6, 12, 40]
  /-- rows set by DEVICE_POOL_CONFIG, used at the next power-up of PD_MEM (R206) -/
  cfg : List Nat := [2, 3, 6, 12, 40]
  /-- rows of the pool area, from row 1,023 downward -/
  area : List Nat := (List.range 64).map (fun i => 1023 - i)
  metaRows : Nat := 1
  descs : List Desc := []
  cache : List Nat := [0, 0, 0, 0, 0]
  /-- requests that arrived since the set being decided was formed -/
  set : List ReserveReq := []
  /-- the ranked contender set that is being decided, one request per CCLK -/
  cur : List ReserveReq := []
  pointer : Nat := 0
  waiters : List Waiter := []
  /-- descriptor caches: unit, class, index -/
  dcache : List (Owner × Nat × Nat) := []
deriving DecidableEq, Repr

/-- A tile's state where it differs from an idle, zeroed tile (R132 to R147, R309). -/
structure Tile where
  id : Nat
  resetting : Bool := false
  fenced : Bool := false
  /-- scalar and vector registers of the core that do not read 0, by number -/
  scalar : List (Nat × BitVec 32) := []
  simd : List (Nat × BitVec 512) := []
  sram : List Host.Cell := []
  regions : List TileRegion := []
  corrected : Nat := 0
  correctedSec : Nat := 0
  laneKey : Option (BitVec 128) := none
  /-- lanes whose key was redrawn, with their new keys (R309) -/
  laneRedraws : List (Nat × BitVec 128) := []
  /-- a stage retried after a reset: offset of the first error -/
  retry : Option Nat := none
deriving DecidableEq, Repr

/-- A barrier context in use (R174). -/
structure Barrier where
  part : Pid
  cluster : Option Nat
  ctx : Nat
  gen : Bool := false
  arrived : List (Nat × Nat) := []
  stalled : List (Nat × Nat) := []
deriving DecidableEq, Repr

/-- A flag and the tiles that contribute to it (R175). -/
structure Flag where
  part : Pid
  cluster : Option Nat
  no : Nat
  tiles : List Nat := []
deriving DecidableEq, Repr

/-- A still-decode job (R254, R255). -/
structure StillJob where
  part : Pid
  slot : Nat
  off : Nat
  stage : Nat
  jpeg : Bool
  attempt : Nat := 0
  prev : Option (Nat × Nat) := none
  moved : Bool := false
  bytes : Nat := 0
deriving DecidableEq, Repr

/-- A still engine (R254). -/
structure Engine where
  fenced : Bool := false
  job : Option StillJob := none
  lastPart : Option Pid := none
  /-- deficits of the rotation (R171, R255): partition and bytes -/
  deficit : List (Nat × Nat) := []
  /-- fenced jobs whose completion is still to come: partition and tag -/
  dead : List (Nat × Nat) := []
deriving DecidableEq, Repr

/-- A HEVC core (R270, R293). -/
structure Core where
  fenced : Bool := false
  job : Option SegJob := none
  /-- tags of fenced jobs whose completion is still to come -/
  dead : List Nat := []
deriving DecidableEq, Repr

/-- A crop/resize/warp job of a sample (R257, R262). -/
structure WarpTask where
  part : Pid
  slot : Nat
  off : Nat
  stage : Nat
  retried : Bool := false
deriving DecidableEq, Repr

/-- Chain 1 of a split run of the partner: the problem as it arrives, and the run once it is complete (R354, R440). -/
structure Chain1 where
  part : Pid
  rev : Nat
  epoch : Nat
  total : Nat
  bytes : List Byte := []
  run : Option Run := none
deriving DecidableEq, Repr

/-- Churn (R349 to R366). -/
structure ChurnSt where
  fenced : Bool := false
  slice : Nat := 0
  /-- owners of the slices of the frame: slice, partition (R366: taken at a frame boundary) -/
  owners : List (Nat × Nat) := []
  holder : Option Pid := none
  /-- a save or load is under way, and whether it was retried -/
  moving : Bool := false
  moveRetried : Bool := false
  rr : Nat := 0
  corrected : Nat := 0
  /-- chains 1 of the partner's split runs, one per partition (R354) -/
  chain1 : List Chain1 := []
deriving DecidableEq, Repr

/-- An Ethernet port (R367 to R372, R516). -/
structure Port where
  link : LinkSt := .down
  /-- 0 NONE, 1 INGEST, 2 DELIVERY -/
  role : Nat := 0
  prefix_ : Nat := 0
  vlan : Option Nat := none
  ptp : Bool := false
  ptpUdp : Bool := false
  addr : Nat := 0
  ptpDomain : Nat := 0
  /-- stream, camera GVCP port, destination port, camera address -/
  binds : List (Nat × Nat × Nat × Nat) := []
  trainTried : Bool := false
  /-- a retraining of a LINK_DOWN port is under way (R389) -/
  training : Bool := false
  frames : Nat := 0
  dropped : Nat := 0
  violations : Nat := 0
  pauses : Nat := 0
deriving DecidableEq, Repr

/-- The PTP clock (R384). -/
structure PtpSt where
  port : Option Nat := none
  locked : Bool := false
  good : Nat := 0
  offset : Int := 0
  /-- receive time of a two-step Sync that waits for its Follow_Up -/
  waiting : Option Int := none
  delay : Int := 0
  /-- the Sync's own offset, before the delay is known -/
  syncDiff : Int := 0
  master : Option (Nat × Nat) := none
deriving DecidableEq, Repr

/-- An NVMe command (R429 to R437). -/
structure NvmeCmd where
  cid : Nat
  admin : Bool
  /-- 0 read, 1 write, 2 flush, 3 admin create, 4 admin delete, 5 admin identify, 6 admin abort -/
  op : Nat
  part : Nat := 0xFF
  ns : Nat := 0
  /-- FETCH: step slot, sample offset -/
  sample : Option (Nat × Nat) := none
  /-- archive: stream and segment index -/
  seg : Option (Nat × Nat) := none
  lba : Nat := 0
  blocks : Nat := 0
  aperture : Nat := 0
  apLen : Nat := 0
  /-- the sample's FETCH stage, and the byte offset of the command in its sample or segment -/
  stage : Nat := 0
  off : Nat := 0
  retried : Bool := false
  /-- fault code of the first failure (R485) -/
  first : Nat := 0
  mediaErr : Bool := false
deriving DecidableEq, Repr

/-- A root port and its drive (R425 to R437, R520). -/
structure Drive where
  rate : Nat := 0
  width : Nat := 0
  /-- 0 none, 1 attaching, 2 ready, 3 fenced, 4 detached -/
  st : Nat := 0
  /-- attach: 0 training, 1 waiting RDY 0, 2 waiting RDY 1; detach: 3 -/
  phase : Nat := 0
  tried : Bool := false
  req : Option ReqId := none
  mdts : Nat := 0
  mqes : Nat := 0
  ns : List NsInfo := []
  cmds : List NvmeCmd := []
  /-- commands that wait for one of their 64 places (R431) -/
  waiting : List NvmeCmd := []
  /-- commands submitted to each submission queue, modulo its size -/
  tails : List (Nat × Nat) := []
  /-- NSIDs that have an I/O queue pair (R428) -/
  queues : List Nat := []
  dead : List Nat := []
  nextCid : Nat := 0
  lastReset : Option Nat := none
  commands : Nat := 0
  transient : Nat := 0
  lasting : Nat := 0
  timeouts : Nat := 0
  media : Nat := 0
  violations : Nat := 0
  late : Nat := 0
deriving DecidableEq, Repr

/-- A takeover plan (R447, R448). -/
structure Plan where
  part : Nat
  grants : List Byte
  ports : List (List Byte)
  win : Window := {}
  /-- 1 UNSEEDED, 2 SEEDING, 3 SEEDED -/
  st : Nat := 1
  reason : Nat := 0
  copy : Nat := 0
  got : Nat := 0
  /-- window addresses of frames of the copy that begin as an image does -/
  heads : List Nat := []
  /-- the mirrored image as the copy left it -/
  image : Option Image := none
  req : Option ReqId := none
deriving DecidableEq, Repr

/-- What the partner has mirrored here for one partition (R445). -/
structure Mirror where
  part : Nat
  grant : Option MirGrant := none
  step : Option MirStep := none
  /-- the next boundary count; none after HELLO, when any count begins (R462) -/
  expect : Option Nat := none
  /-- mirrored step records with their packed first cursor and the ids of their live samples, oldest first -/
  records : List (Nat × List Byte × List Nat) := []
  /-- sample ids whose index entries were mirrored -/
  index : List Nat := []
  /-- next window sequences of the last heartbeat: stream, sequence -/
  live : List (Nat × Nat) := []
deriving DecidableEq, Repr

/-- The pair agent and the Darrad link (R438 to R465, Table CMD-10). -/
structure PairSt where
  link : LinkSt := .down
  trained : Bool := false
  /-- a retraining after a frame's second failure is under way, and whether it is the second try -/
  training : Bool := false
  retrainTried : Bool := false
  /-- 0 ALONE, 1 JOINING, 2 RESYNC, 3 PAIRED, 4 INTERRUPTED -/
  st : Nat := 0
  role : Nat := 0xFF
  /-- 0 present, 1 LOST, 2 SILENT -/
  partner : Nat := 0
  auto_ : Bool := false
  partnerAuto : Bool := false
  gen : Nat := 0
  partnerSerial : Nat := 0
  /-- ids the partner holds with their ownership generation -/
  partnerIds : List (Nat × Nat) := []
  missed : Nat := 0
  txSeq : Nat := 0
  /-- the next link_sequence of the receive direction -/
  rxSeq : Nat := 0
  plans : List Plan := []
  mirrors : List Mirror := []
  /-- plan states the partner reported for our partitions -/
  partnerPlans : List PlanState := []
  /-- partitions whose full mirror is not acknowledged yet (R462) -/
  resync : List Nat := []
  /-- PAIR_MOVE commands whose MOVE_ACK is due (R463) -/
  moving : List (Nat × ReqId) := []
  /-- seeding copies under way toward the partner: id, copy number, retried -/
  seeding : List (Nat × Nat × Bool) := []
  helloSeen : Bool := false
  /-- a HELLO was sent and none has arrived since -/
  helloOut : Bool := false
  /-- HOLD has arrived since HELLO (R442) -/
  holdSeen : Bool := false
deriving DecidableEq, Repr

/-- The event log (R480 to R484). -/
structure LogSt where
  ring : List LogRec := []
  spill : List LogRec := []
  nextSeq : Nat := 0
  /-- records accepted in the current second -/
  inSecond : Nat := 0
  dropped : Nat := 0
  dropFirst : Nat := 0
  lost : Nat := 0
  lostFirst : Nat := 0
  lims : List Limiter := []
deriving DecidableEq, Repr

/-- Thermal and power control (R542 to R547). -/
structure ThermSt where
  temps : List Int := [0, 0, 0, 0, 0, 0, 0, 0, 0, 0, 0, 0, 0, 0, 0, 0]
  tStep : Nat := 0
  pStep : Nat := 0
  coolMs : Nat := 0
  lowWins : Nat := 0
  limit : Nat := 700
  powerMw : Nat := 0
  eid : Nat := 0
  /-- TAP instruction in force -/
  tap : Jtag := .idcode
deriving DecidableEq, Repr

/-- Near memory (R179 to R193). -/
structure MemSt where
  cells : List Host.Cell := []
  clean : List HR := []
  retired : List HR := []
  retiredCount : Nat := 0
  /-- corrected errors of each channel, in all and in the current second -/
  corr : Vector Nat 32 := Vector.replicate 32 0
  corrSec : Vector Nat 32 := Vector.replicate 32 0
  /-- re-reads under way: DPA, requester's partition, scrub, zeroed already -/
  reread : List (Nat × Option Pid × Bool) := []
  /-- next unit of each channel's patrol scrubber -/
  scrub : Vector Nat 32 := Vector.replicate 32 0
  /-- the unit a scrub zeroed after an uncorrectable read, watched for failing again -/
  zeroed : List Nat := []
deriving DecidableEq, Repr

/-- The meshes and synchronisation network (R166, R174 to R178, R55). -/
structure MeshSt where
  slot : Nat := 0
  slotRunning : Bool := false
  replays : List (Nat × Nat) := []
  barriers : List Barrier := []
  flags : List Flag := []
  /-- SerDes clients whose crossing FIFO faulted once: 0 to 7 Ethernet ports, 8 to 11 NVMe root ports, 12 the Darrad
  link, 13 the host controller (R55, Table NOC-6) -/
  fifoOnce : List Nat := []
deriving DecidableEq, Repr

/-- Control pairs (R72, R243). -/
structure CtrlSt where
  /-- list-builder requests in the order their counts completed: partition, step slot -/
  lists : List (Pid × Nat) := []
deriving DecidableEq, Repr

/-- What the block sends (MODEL: the spec's outward effects, in order). -/
inductive Output where
  | msix (f : Fn) (vec : Nat)
  | hostWrite (f : Fn) (addr : Nat) (bytes : List Byte)
  | hostRead (f : Fn) (tag addr len : Nat)
  | cfg (f : Fn) (retry : Bool)
  | unsupported (f : Fn) (offset : Nat)
  | gvcpResend (port addr udp blockId first last : Nat) (extId : Bool)
  | arpReply (port addr : Nat)
  | arpRequest (port addr : Nat)
  | icmpReply (port addr : Nat) (body : List Byte)
  | ptpDelayReq (port : Nat)
  | rdmaWrite (p : Pid) (target addr : Nat) (bytes : List Byte)
  | bdp (p : Pid) (target : Nat) (msg : List Byte)
  | rnrNak (p : Pid) (target : Nat)
  | accessNak (p : Pid) (target : Nat)
  | p2pWrite (p : Pid) (fn addr : Nat) (bytes : List Byte)
  | nvme (port : Nat) (c : NvmeCmd)
  | nvmeCtl (port what : Nat)
  | completerAbort (port : Nat)
  | darrad (type : Nat) (h : DarradHdr) (bytes : List Byte)
  | heartbeat (h : DarradHdr) (state policy : Nat) (next : List (Nat × Nat × Nat)) (plans : List PlanState)
  | hello (h : DarradHdr) (serial numerics verMin verMax policy : Nat)
  | hold (h : DarradHdr) (ids : List (Nat × Nat))
  | mirGrant (h : DarradHdr) (m : MirGrant)
  | mirStep (h : DarradHdr) (m : MirStep)
  | smbus (bytes : List Byte)
  | smbusTemps (status : Nat) (temps : List Int)
  | thermtrip (on : Bool)
  | pwrGood (on : Bool)
  /-- data that a near-memory or buffer read returns to its requester -/
  | memData (p : Pid) (addr : Nat) (bytes : List Byte)
  /-- tile-side values that a layout engine unpacks -/
  | memVals (p : Pid) (addr : Nat) (vals : List Nat)
  /-- the answer of a DRAW: the handle -/
  | handle (unit : Owner) (h : Nat)
  /-- the answer of a RESERVE: granted, or NO_BUFFER with its cause -/
  | reserved (p : Pid) (by_ : Owner) (cause : Nat)
  | tdo (v : Nat)
deriving DecidableEq, Repr

/-- The host side of the state. -/
structure HostSt where
  fns : Vector FnState 65 := Vector.replicate 65 {}
  reqs : List Req := []
  dma : List DmaOp := []
  nextTag : Nat := 0
  link : LinkBlock := {}
deriving DecidableEq, Repr

/-- The always-on side of the state. -/
structure AoSt where
  mod_ : ModuleSt := {}
  clk : ClockSt := {}
  boot : BootSt := {}
  fuse : FuseSt := {}
  fw : FwSt := {}
  pwr : PowerSt := {}
  ent : EntropySt := {}
  therm : ThermSt := {}
  ctrl : CtrlSt := {}
  /-- the service state (R51) -/
  service : Bool := false
  faults : FaultSet := {}
deriving DecidableEq, Repr

/-- The units behind the mesh. -/
structure UnitSt where
  pool : PoolSt := {}
  mem : MemSt := {}
  mesh : MeshSt := {}
  tiles : List Tile := []
  /-- clusters that are unavailable (R146, R262) -/
  unavailable : List Nat := []
  jpeg : Vector Engine 8 := Vector.replicate 8 {}
  inflate : Vector Engine 16 := Vector.replicate 16 {}
  stillQ : List StillJob := []
  cores : Vector Core 24 := Vector.replicate 24 {}
  segQ : List SegJob := []
  /-- crop/resize/warp queues: cluster, task -/
  warpQ : List (Nat × WarpTask) := []
  churn : ChurnSt := {}
  ports : Vector Port 8 := Vector.replicate 8 {}
  ptp : PtpSt := {}
  drives : Vector Drive 4 := Vector.replicate 4 {}
  pair : PairSt := {}
deriving DecidableEq, Repr

/-- The whole state. -/
structure State where
  ao : AoSt := {}
  host : HostSt := {}
  units : UnitSt := {}
  parts : Vector Part 64 := Vector.replicate 64 {}
  log : LogSt := {}
  /-- device time in ns (R384), advanced by an idle step (MODEL) -/
  time : Nat := 0
  /-- MODEL: how many free values have been taken -/
  freeCtr : Nat := 0
  /-- MODEL: what the block has sent, newest first -/
  out : List Output := []
  /-- MODEL: the commands that wait, first in, first out -/
  pending : List Instr := []
deriving DecidableEq, Repr

/-- The machine after reset: PWR_GOOD asserted long enough, the die held in cold reset by PERST# (R532), every field
at the value the spec gives it there and otherwise at the value the assumption log names. -/
def State.reset : State := {}

end Sys2Proof.Machine
end

