-- ==== Sys2Proof/Machine/Ops.lean ====
section
/-!
DEFINITION. The named operations every meaning is built from: access to the parts of the state, the event log
(R480 to R487), interrupts (R105), host DMA and completions (R96 to R101), and mailbox responses (R86 to R91).
-/
namespace Sys2Proof.Machine

/-! ## Access -/

def modAo (g : AoSt → AoSt) (s : State) : State := { s with ao := g s.ao }
def modHost (g : HostSt → HostSt) (s : State) : State := { s with host := g s.host }
def modUnits (g : UnitSt → UnitSt) (s : State) : State := { s with units := g s.units }
def modLog (g : LogSt → LogSt) (s : State) : State := { s with log := g s.log }
/-- Send something outward. -/
def emit (o : Output) (s : State) : State := { s with out := o :: s.out }

def fnOf (s : State) (f : Fn) : FnState := s.host.fns.get f
def modFn (f : Fn) (g : FnState → FnState) (s : State) : State :=
  modHost (fun h => { h with fns := vmod h.fns f g }) s
def modMbx (f : Fn) (g : MbxBlock → MbxBlock) (s : State) : State := modFn f (fun x => { x with mbx := g x.mbx }) s
def modRing (f : Fn) (g : RingBlock → RingBlock) (s : State) : State := modFn f (fun x => { x with ring := g x.ring }) s
def modIrq (f : Fn) (g : IrqBlock → IrqBlock) (s : State) : State := modFn f (fun x => { x with irq := g x.irq }) s
def modCnt (f : Fn) (g : CntBlock → CntBlock) (s : State) : State := modFn f (fun x => { x with cnt := g x.cnt }) s

def partOf (s : State) (p : Pid) : Part := s.parts.get p
def modPart (p : Pid) (g : Part → Part) (s : State) : State := { s with parts := vmod s.parts p g }
/-- Change every partition. -/
def modParts (g : Part → Part) (s : State) : State := { s with parts := s.parts.map g }
/-- A partition number as an id, when it is one. -/
def pidOf (n : Nat) : Option Pid := if h : n < 64 then some ⟨n, h⟩ else none
/-- Partition number n, a FREE partition beyond 63. -/
def partAt (s : State) (n : Nat) : Part := vget s.parts n {}
/-- Change partition n when n names one. -/
def modPartN (n : Nat) (g : Part → Part) (s : State) : State := { s with parts := vmodN s.parts n g }
/-- All partition ids. -/
def allPids : List Pid := List.finRange 64
/-- All functions. -/
def allFns : List Fn := List.finRange 65

def modPool (g : PoolSt → PoolSt) (s : State) : State := modUnits (fun u => { u with pool := g u.pool }) s
def modMem (g : MemSt → MemSt) (s : State) : State := modUnits (fun u => { u with mem := g u.mem }) s
def modMesh (g : MeshSt → MeshSt) (s : State) : State := modUnits (fun u => { u with mesh := g u.mesh }) s
def modChurn (g : ChurnSt → ChurnSt) (s : State) : State := modUnits (fun u => { u with churn := g u.churn }) s
def modPair (g : PairSt → PairSt) (s : State) : State := modUnits (fun u => { u with pair := g u.pair }) s
def modPort (n : Nat) (g : Port → Port) (s : State) : State :=
  modUnits (fun u => { u with ports := vmodN u.ports n g }) s
def portOf (s : State) (n : Nat) : Port := vget s.units.ports n {}
def modDrive (n : Nat) (g : Drive → Drive) (s : State) : State :=
  modUnits (fun u => { u with drives := vmodN u.drives n g }) s
def driveOf (s : State) (n : Nat) : Drive := vget s.units.drives n {}
def modPwr (g : PowerSt → PowerSt) (s : State) : State := modAo (fun a => { a with pwr := g a.pwr }) s
def modBoot (g : BootSt → BootSt) (s : State) : State := modAo (fun a => { a with boot := g a.boot }) s
def modClk (g : ClockSt → ClockSt) (s : State) : State := modAo (fun a => { a with clk := g a.clk }) s
def modFw (g : FwSt → FwSt) (s : State) : State := modAo (fun a => { a with fw := g a.fw }) s
def modEnt (g : EntropySt → EntropySt) (s : State) : State := modAo (fun a => { a with ent := g a.ent }) s
def modTherm (g : ThermSt → ThermSt) (s : State) : State := modAo (fun a => { a with therm := g a.therm }) s
def modModule (g : ModuleSt → ModuleSt) (s : State) : State := modAo (fun a => { a with mod_ := g a.mod_ }) s
def modCtrl (g : CtrlSt → CtrlSt) (s : State) : State := modAo (fun a => { a with ctrl := g a.ctrl }) s
def modSched (p : Pid) (g : Sched → Sched) (s : State) : State := modPart p (fun q => { q with sc := g q.sc }) s
def modPCnt (p : Pid) (g : PCnt → PCnt) (s : State) : State := modPart p (fun q => { q with cnt := g q.cnt }) s
def modLd (p : Pid) (g : Loaded → Loaded) (s : State) : State := modPart p (fun q => { q with ld := g q.ld }) s
def modEx (p : Pid) (g : Experts → Experts) (s : State) : State := modPart p (fun q => { q with ex := g q.ex }) s

/-- State of the domain in row n of Table CLK-3. -/
def domOf (s : State) (n : Nat) : DomSt := vget s.ao.pwr.dom n .off
def domOn (s : State) (n : Nat) : Bool := domOf s n == .on
def setDom (n : Nat) (d : DomSt) (s : State) : State := modPwr (fun p => { p with dom := vmodN p.dom n (fun _ => d) }) s

/-- Take a free value of an implementation (an open value of the spec, unconstrained). -/
def fresh (s : State) : Nat × State := (Config.freeNat s.freeCtr, { s with freeCtr := s.freeCtr + 1 })

/-- The unit identifier of R485. -/
def unitId (kind inst : Nat) : Nat := kind * 2 ^ 24 + inst % 2 ^ 24

/-- Add to a counter that saturates at w bits. -/
def satAdd (w n k : Nat) : Nat := min (n + k) (2 ^ w - 1)

/-! ## Fault counters and the event log -/

/-- Apply a change to the device-wide counter set and to the set of the named partition while it is not FREE, where
the set is frozen (R118, R487). -/
def cntFaults (part : Nat) (g : FaultSet → FaultSet) (s : State) : State :=
  let s := modAo (fun a => { a with faults := g a.faults }) s
  if (partAt s part).st = .free then s
  else modPartN part (fun q => { q with cnt := { q.cnt with faults := g q.cnt.faults } }) s

/-- Severities of Table ERR-10. -/
def sevOf (code arg1 : Nat) : Nat :=
  if code = 0x0102 then (if arg1 = 4 then 3 else 0)
  else if code = 0x0904 then (if arg1 = 7 then 3 else 1)
  else if [0x0103, 0x0109].contains code then 4
  else if [0x0002, 0x0005, 0x0006, 0x0007, 0x000A, 0x0104, 0x0106, 0x0301, 0x0302, 0x0701, 0x0702, 0x0802, 0x0803,
    0x0804].contains code then 3
  else if [0x0001, 0x0004, 0x0008, 0x0009, 0x0101, 0x0105, 0x0107, 0x0108, 0x0201, 0x0602, 0x0805, 0x0901,
    0x0903].contains code then 2
  else if [0x0003, 0x0202, 0x0203, 0x0401, 0x0402, 0x0403, 0x0601, 0x0902].contains code then 1
  else 0

/-- Append a record to the on-chip ring; the oldest leaves it for the spill area while PD_MEM is on and is lost
otherwise (R482). -/
def pushRec (memOn : Bool) (r : LogRec) (l : LogSt) : LogSt :=
  let l := { l with ring := l.ring ++ [r], nextSeq := (l.nextSeq + 1) % 2 ^ 32, inSecond := l.inSecond + 1 }
  if l.ring.length ≤ 8192 then l
  else
    match l.ring with
    | [] => l
    | o :: rest =>
      if memOn then
        let sp := l.spill ++ [o]
        { l with ring := rest, spill := sp.drop (sp.length - 2097152) }
      else
        { l with ring := rest, lost := l.lost + 1, lostFirst := if l.lost = 0 then o.seq else l.lostFirst }

/-- Whether a function exists: the PF always, VF v while VF Enable is set and v is at most NumVFs (R417), outside the
service state (R50). -/
def fnExists (s : State) (f : Fn) : Bool :=
  f.val == 0 || (s.host.link.vfEnable && decide (f.val ≤ s.host.link.numVfs) && !s.ao.service)

/-- Whether a function may issue DMA and messages: link up, D0, present (R418). -/
def canDma (s : State) (f : Fn) : Bool := s.host.link.up && !(fnOf s f).d3 && fnExists s f

/-- Send MSI-X vector v, or set its pending bit while it is masked (R423). -/
def sendMsix (f : Fn) (v : Fin 3) (s : State) : State :=
  let q := (fnOf s f).irq
  if !canDma s f then s
  else if q.fnMask || (q.table.get v).masked then
    modIrq f (fun q => { q with table := vmod q.table v (fun e => { e with pending := true }) }) s
  else emit (.msix f v.val) s

/-- The vector of an IRQ_STATUS bit (Table MBX-12; RING_STALL takes vector 2, see the log). -/
def vecOf (b : Fin 4) : Fin 3 := if b = 0 then 0 else if b = 1 then 1 else 2

/-- Set an IRQ_STATUS bit; a message goes only when it rises unmasked (R105). -/
def raiseIrq (f : Fn) (b : Fin 4) (s : State) : State :=
  let q := (fnOf s f).irq
  if q.status.getLsbD b.val then s
  else
    let s := modIrq f (fun q => { q with status := q.status ||| BitVec.twoPow 4 b.val }) s
    if q.mask.getLsbD b.val then s else sendMsix f (vecOf b) s

/-- The function that serves a partition (R82). -/
def fnOfPart (p : Pid) : Fn := ⟨p.val + 1, by omega⟩

/-- Write one log record; above 1,000,000 records in the second, records below ERROR are dropped (R480 to R483).
Vector 2's status bit follows for ERROR and above. -/
def logEvent (part code a0 a1 a2 a3 : Nat) (s : State) : State :=
  let sev := sevOf code a1
  if decide (1000000 ≤ s.log.inSecond) && decide (sev < 3) then
    let s := modLog (fun l => { l with dropped := l.dropped + 1,
                                       dropFirst := if l.dropped = 0 then l.nextSeq else l.dropFirst }) s
    cntFaults part (fun x => { x with coalesced := satAdd 64 x.coalesced 1 }) s
  else
    let r : LogRec := { ts := s.time % 2 ^ 64, seq := s.log.nextSeq, part := part, sev := sev, code := code,
                        a0 := a0 % 2 ^ 32, a1 := a1 % 2 ^ 32, a2 := a2 % 2 ^ 32, a3 := a3 % 2 ^ 32 }
    let s := modLog (pushRec (domOn s 2) r) s
    if sev < 3 then s
    else
      let s := raiseIrq 0 2 s
      match pidOf part with
      | some p => raiseIrq (fnOfPart p) 2 s
      | none => s

/-- A record with only device-wide meaning. -/
def logDev (code a0 a1 a2 a3 : Nat) (s : State) : State := logEvent 0xFF code a0 a1 a2 a3 s

/-- TRANSIENT_FAULT: a success on the retry (R467). -/
def transientFault (part unit fault tag : Nat) (s : State) : State :=
  let s := logEvent part 0x0001 unit fault tag (tag / 2 ^ 32) s
  cntFaults part (fun x => { x with transient := vmodN x.transient (unit / 2 ^ 24 - 1) (satAdd 64 · 1) }) s

/-- LASTING_FAULT with its fence scope (R467, R477); a fence of scope 2 to 5 is counted by `countFence`. -/
def lastingFault (part unit fault scope tag : Nat) (s : State) : State :=
  let s := logEvent part 0x0002 unit fault scope tag s
  cntFaults part (fun x => { x with lasting := vmodN x.lasting (unit / 2 ^ 24 - 1) (satAdd 64 · 1) }) s

/-- LATE_DISCARD: a completion with a dead tag (R474). -/
def lateDiscard (part unit rung tag : Nat) (s : State) : State :=
  let s := logEvent part 0x0003 unit rung tag (tag / 2 ^ 32) s
  cntFaults part (fun x => { x with late := vmodN x.late (rung - 1) (satAdd 64 · 1) }) s

/-- GUARANTEE_LAPSE (R28). -/
def guaranteeLapse (part cond : Nat) (s : State) : State :=
  let s := logEvent part 0x0005 cond 0 0 0 s
  cntFaults part (fun x => { x with lapses := satAdd 64 x.lapses 1 }) s

/-- One rate-limited record: at most one per interval and key, with the occurrences since the last one (R108). -/
def limited (key : LimKey) (intervalNs : Nat) (write : Nat → State → State) (part : Nat) (s : State) : State :=
  match s.log.lims.find? (fun l => decide (l.key = key)) with
  | some l =>
    if s.time - l.last < intervalNs then
      let s := modLog (fun g => { g with lims := modFirst (fun l => decide (l.key = key))
                                            (fun l => { l with held := l.held + 1 }) g.lims }) s
      cntFaults part (fun x => { x with coalesced := satAdd 64 x.coalesced 1 }) s
    else
      let s := modLog (fun g => { g with lims := modFirst (fun l => decide (l.key = key))
                                            (fun l => { l with last := s.time, held := 0 }) g.lims }) s
      write (l.held + 1) s
  | none => write 1 (modLog (fun g => { g with lims := g.lims ++ [⟨key, s.time, 0⟩] }) s)

/-- PARTNER_VIOLATION, limited; kind is the index of the partner kind in section 2 of PARTITION_STATUS. -/
def partnerViolation (key : LimKey) (part unit kind what detail : Nat) (s : State) : State :=
  let s := cntFaults part (fun x => { x with partner := vmodN x.partner kind (satAdd 64 · 1) }) s
  limited key 1000000 (fun n => logEvent part 0x0004 unit what n detail) part s

/-- The partition field of a record about a function. -/
def fnPart (f : Fn) : Nat := if f.val = 0 then 0xFF else f.val - 1

/-- A violation by a host function: counted in MBX_VIOLATION_COUNT and logged (R108); check 0 names a misplaced
doorbell or a barred access. -/
def violation (f : Fn) (check opcode : Nat) (s : State) : State :=
  let s := modMbx f (fun m => { m with violations := satAdd 32 m.violations 1 }) s
  partnerViolation (.fn f) (fnPart f) (unitId 0x0F f.val) 0 check opcode s

/-! ## Host DMA and completions -/

/-- Issue a host DMA under a new tag. -/
def issueDma (f : Fn) (k : DmaKind) (addr : Nat) (bytes : List Byte) (len : Nat) (s : State) : State :=
  let t := s.host.nextTag
  let s := modHost (fun h => { h with dma := h.dma ++ [⟨t, f, k, addr, bytes, len, false, false⟩], nextTag := t + 1 }) s
  match k with
  | .cmdData _ | .bulkIn _ => emit (.hostRead f t addr len) s
  | .p2pWrite p _ => emit (.p2pWrite p f.val addr bytes) s
  | _ => emit (.hostWrite f addr bytes) s

/-- Entries of a ring (Table MBX-8). -/
def ringEntries (log : Nat) : Nat := 2 ^ (log + 4)

/-- R94: a CQ is full when TAIL + 1 equals HEAD modulo the entry count. -/
def cqFull (r : RingBlock) : Bool := (r.cqTail + 1) % ringEntries r.cqSize == r.cqHead

/-- A completion entry (Table MBX-10). -/
def cqeBytes (c : Cqe) (sqHead : Nat) (phase : Bool) : List Byte :=
  toLe 2 c.status ++ toLe 2 c.reason ++ toLe 4 c.tag ++ toLe 4 c.seq ++ toLe 2 c.opcode ++ toLe 2 sqHead
    ++ toLe 8 c.result ++ toLe 4 c.retry ++ toLe 4 (c.last.toNat * 4 + c.mailbox.toNat * 2 + phase.toNat)

/-- Write a completion into the slot at the tail; PHASE inverts when the tail wraps (R98). -/
def writeCqe (f : Fn) (c : Cqe) (s : State) : State :=
  let r := (fnOf s f).ring
  let t := (r.cqTail + 1) % ringEntries r.cqSize
  let s := modRing f (fun r => { r with cqTail := t, phase := if t = 0 then !r.phase else r.phase }) s
  issueDma f (.completion c) (r.cqBase + 32 * r.cqTail) (cqeBytes c r.sqHead r.phase) 32 s

/-- Fence a partition at its next step boundary (R100): the boundary acts on the mark. -/
def fenceAtNext (part cause : Nat) (s : State) : State :=
  let q := partAt s part
  if q.st = .enabled || q.st = .paused then
    modPartN part (fun q => { q with sc := { q.sc with fenceAtBoundary := cause } }) s
  else s

/-- A ready completion: written, held while the CQ is full or the function cannot use the link, or dropped when the
hold queue is full (R100); with the CQ disabled it is discarded.  After a DEVICE_RESET none is posted (R497). -/
def postCqe (f : Fn) (c : Cqe) (s : State) : State :=
  let r := (fnOf s f).ring
  if s.ao.boot.resetKind != 0 then s
  else if !r.cqEn then
    let s := modCnt f (fun k => { k with late := satAdd 32 k.late 1 }) s
    lateDiscard (fnPart f) (unitId 0x0F f.val) 10 c.seq s
  else if r.hold.isEmpty && !cqFull r && canDma s f then writeCqe f c s
  else if r.hold.length < 256 then modRing f (fun r => { r with hold := r.hold ++ [c] }) s
  else
    let s := modCnt f (fun k => { k with dropped := satAdd 32 k.dropped 1 }) s
    let s := logEvent (fnPart f) 0x0106 f.val (fnOf s f).cnt.dropped 0 0 s
    fenceAtNext (fnPart f) 0x0106 s

/-- Post held completions in order while the CQ has room; STALL clears when none is left (R100). -/
def drainHold (f : Fn) : Nat → State → State
  | 0, s => s
  | n + 1, s =>
    let r := (fnOf s f).ring
    match r.hold with
    | [] => modRing f (fun r => { r with stall := false }) s
    | c :: rest =>
      if cqFull r || !canDma s f || !r.cqEn then s
      else
        let s := modRing f (fun r => { r with hold := rest }) s
        drainHold f n
          (if c.rsp.isEmpty then writeCqe f c s
           else issueDma f (.response { c with rsp := [] }) c.rspAddr c.rsp c.rsp.length s)

/-- R105: an entry that qualifies sets CQ_POSTED; vector 1 goes when the coalescing condition is met, or with an
entry that has LAST or SOURCE 1. -/
def cqPosted (f : Fn) (c : Cqe) (s : State) : State :=
  let q := (fnOf s f).irq
  let n := if c.irq || c.mailbox then
             (if q.status.getLsbD 1 then (if q.unsignalled = 0 then 0 else q.unsignalled + 1) else 1)
           else q.unsignalled
  let s := if c.irq || c.mailbox then modIrq f (fun q => { q with status := q.status ||| 2#4 }) s else s
  let due := decide (0 < n) && (decide (q.count + 1 ≤ n) || q.timeUs == 0 || c.last || c.mailbox)
  let s := modIrq f (fun q => { q with unsignalled := if due then 0 else n }) s
  if due && !q.mask.getLsbD 1 then sendMsix f 1 s else s

/-! ## Requests and their answers -/

/-- What a command answers. -/
structure Ans where
  status : Nat := 0
  reason : Nat := 0
  payload : List Byte := []
  retry : Nat := 0
  /-- bulk data moved, in 64-byte units (R489) -/
  resHi : Nat := 0
  /-- OK with PENDING (R490) -/
  pend : Bool := false
deriving DecidableEq, Repr

/-- Status codes of Table MBX-11. -/
def stBusy : Nat := 1
def stBadOpcode : Nat := 2
def stBadLength : Nat := 3
def stBadField : Nat := 4
def stNotOwner : Nat := 5
def stRefused : Nat := 6
def stNoResource : Nat := 7
def stNoBuffer : Nat := 8
def stTimeout : Nat := 9
def stFenced : Nat := 10
def stServiceOnly : Nat := 11

def ansOk (payload : List Byte := []) : Ans := { payload := payload }
def ansPend (payload : List Byte := []) : Ans := { payload := payload, pend := true }
def ansRefused (reason : Nat) : Ans := { status := stRefused, reason := reason }
def ansBusy (reason retry : Nat) : Ans := { status := stBusy, reason := reason, retry := max 1 (min retry 1000000) }
def ansBad : Ans := { status := stBadField }
def ansFenced (reason : Nat) : Ans := { status := stFenced, reason := reason }
def ansNotOwner : Ans := { status := stNotOwner }
def ansServiceOnly : Ans := { status := stServiceOnly }
def ansBadLength : Ans := { status := stBadLength }

/-- The bytes of a response (Table MBX-6) with its payload; flags: bit 0 PENDING, bit 1 REPLAYED. -/
def rspBytes (a : Ans) (tag seq opcode flags : Nat) : List Byte :=
  toLe 2 a.status ++ toLe 2 a.reason ++ toLe 4 tag ++ toLe 4 a.payload.length ++ toLe 4 seq ++ toLe 2 opcode
    ++ toLe 2 flags ++ toLe 4 a.retry ++ zeros 8 ++ a.payload

/-- The response window after a response: every byte beyond it reads 0 (R86). -/
def winOf (bs : List Byte) : List Host.Cell := memWriteN [] 0 (bs.take 4096)

/-- Post a mailbox response: the window, STATE RESPONSE, and IRQ_STATUS when asked (R85, R86, R91).  A response that
advances the sequence is stored for replay. -/
def postResponse (f : Fn) (a : Ans) (tag seq opcode : Nat) (irq advance : Bool) (s : State) : State :=
  let bs := rspBytes a tag seq opcode a.pend.toNat
  let s := modMbx f (fun m => { m with
    rspWin := winOf bs
    state := .response
    nextSeq := if advance then (m.nextSeq + 1) % 2 ^ 32 else m.nextSeq
    stored := if advance then some ⟨opcode, tag, bs⟩ else m.stored }) s
  if irq then raiseIrq f 0 s else s

def Req.id (r : Req) : ReqId := ⟨r.fn, r.ring, r.seq⟩
def reqMatches (i : ReqId) (r : Req) : Bool := decide (r.id = i)
def findReq (s : State) (i : ReqId) : Option Req := s.host.reqs.find? (reqMatches i)
def dropReq (i : ReqId) (s : State) : State :=
  modHost (fun h => { h with reqs := h.reqs.filter (fun r => !reqMatches i r) }) s
def modReq (i : ReqId) (g : Req → Req) (s : State) : State :=
  modHost (fun h => { h with reqs := modFirst (reqMatches i) g h.reqs }) s

/-- Post a ring completion, after the response payload when the host named an address for it (R489). -/
def postRing (r : Req) (payload : List Byte) (c : Cqe) (s : State) : State :=
  if r.rspAddr = 0 || payload.isEmpty then postCqe r.fn c s
  else if !canDma s r.fn then postCqe r.fn { c with rspAddr := r.rspAddr, rsp := payload } s
  else issueDma r.fn (.response c) r.rspAddr payload payload.length s

/-- Answer a request.  A mailbox request gets its response; a ring request its completion.  With PENDING the request
stays open for its later completions (R90, R490). -/
def finish (r : Req) (a : Ans) (s : State) : State :=
  let s := if a.pend then modReq r.id (fun q => { q with phase := .pending, payload := a.payload }) s
           else dropReq r.id s
  if r.ring then
    if a.pend then s
    else
      let n := if r.rspAddr = 0 then 0 else a.payload.length
      postRing r a.payload { status := a.status, reason := a.reason, tag := r.tag, seq := r.seq, opcode := r.opcode,
                             result := n + a.resHi % 2 ^ 32 * 2 ^ 32, retry := a.retry, mailbox := false, last := false,
                             irq := bit r.flags 0 } s
  else postResponse r.fn a r.tag r.seq r.opcode (bit r.flags 0) (a.status != stBusy) s

/-- A later completion of a command that answered PENDING (R99, R490).  A ring command has one, its last. -/
def complete (i : ReqId) (status reason result : Nat) (last : Bool) (s : State) : State :=
  match findReq s i with
  | none => s
  | some r =>
    let s := if last then dropReq i s else s
    let c : Cqe := { status := status, reason := reason, tag := r.tag, seq := r.seq, opcode := r.opcode,
                     result := result, retry := 0, mailbox := !r.ring, last := last, irq := bit r.flags 0 }
    if r.ring then (if last then postRing r r.payload c s else s) else postCqe r.fn c s

/-- Complete a request if there is one. -/
def completeOpt (i : Option ReqId) (status reason result : Nat) (s : State) : State :=
  match i with
  | some i => complete i status reason result true s
  | none => s

/-- The request whose turn it is to commit (R102): the first that is neither deferred nor committed; none once a
DEVICE_RESET was answered (R497). -/
def headReq (s : State) : Option Req :=
  if s.ao.boot.resetKind != 0 then none else s.host.reqs.find? (fun q => q.phase == .ready || q.phase == .fetching)

end Sys2Proof.Machine
end

