-- ==== Sys2Proof/Machine/Intake.lean ====
section
/-!
DEFINITION. How commands come in: Table CMD-2, the checks of R107, the mailbox request (R85 to R91), the descriptor
(R95, R97), deferral (R103), and the frame in which an accepted command commits (R102, R107 checks 8 to 10).
-/
namespace Sys2Proof.Machine

/-- The callers of Table CMD-2. -/
inductive Caller where
  | pf | own | any
deriving DecidableEq, Repr

/-- A row of Table CMD-2. -/
structure CmdInfo where
  mbx : Bool
  sq : Bool
  caller : Caller
  /-- none for a device-level command -/
  states : Option (List PSt)
  len : Nat → Bool
  maxRsp : Nat
  svc : Bool := false
  /-- the boot ROM's responder answers it -/
  rom : Bool := false

def stG : List PSt := [.granted]
def stGP : List PSt := [.granted, .paused]
def stGEP : List PSt := [.granted, .enabled, .paused]
def stGEPSX : List PSt := [.granted, .enabled, .paused, .suspended, .fenced]
def stAll : List PSt := [.free, .granted, .enabled, .paused, .suspended, .fenced, .tearingDown]

/-- Table CMD-2. -/
def cmdInfo (op : Nat) : Option CmdInfo :=
  let is (n : Nat) : Nat → Bool := fun k => k == n
  let steps (b k m : Nat) : Nat → Bool := fun n => decide (b ≤ n) && (n - b) % k == 0 && decide ((n - b) / k ≤ m)
  if op = 0x0101 then some ⟨true, true, .any, none, is 0, 40, true, true⟩
  else if op = 0x0102 then some ⟨true, true, .pf, none, is 4, 0, true, false⟩
  else if op = 0x0103 then some ⟨true, true, .any, none, is 0, 8, true, false⟩
  else if op = 0x0104 then some ⟨true, false, .pf, none, is 4, 0, true, false⟩
  else if op = 0x0105 then some ⟨false, true, .pf, none, is 16, 8, true, true⟩
  else if op = 0x0106 then some ⟨true, true, .any, none, is 4, 3700, false, false⟩
  else if op = 0x0107 then some ⟨true, true, .pf, none, is 0, 400, false, false⟩
  else if op = 0x0108 then some ⟨true, true, .pf, none, is 16, 4, false, false⟩
  else if op = 0x0201 then some ⟨true, true, .pf, some [.free, .granted, .paused], is 120, 4040, false, false⟩
  else if op = 0x0202 then some ⟨true, true, .pf, some stGP, is 120, 0, false, false⟩
  else if op = 0x0203 then some ⟨true, true, .own, some stG, is 0, 4040, false, false⟩
  else if op = 0x0204 then some ⟨true, true, .pf, some stGEPSX, is 4, 0, false, false⟩
  else if op = 0x0205 then some ⟨true, true, .own, some stAll, is 4, 504, false, false⟩
  else if op = 0x0206 then some ⟨false, true, .own, some stGP, is 32, 0, false, false⟩
  else if op = 0x0207 then some ⟨false, true, .own, some [.granted, .paused, .fenced], is 32, 0, false, false⟩
  else if op = 0x0301 then some ⟨false, true, .own, some stGP, is 32, 56, false, false⟩
  else if op = 0x0302 then some ⟨true, true, .own, some [.enabled], is 0, 0, false, false⟩
  else if op = 0x0303 then some ⟨true, true, .own, some [.paused], is 0, 4040, false, false⟩
  else if op = 0x0304 then some ⟨true, true, .own, some stGEPSX, is 8, 128, false, false⟩
  else if op = 0x0401 then some ⟨true, true, .own, some [.enabled], is 4, 8, false, false⟩
  else if op = 0x0402 then some ⟨true, true, .own, some [.enabled, .paused], is 4, 0, false, false⟩
  else if op = 0x0403 then some ⟨true, true, .own, some stGEPSX, is 4, 88, false, false⟩
  else if op = 0x0501 then some ⟨true, true, .own, some stGP, is 20, 16, false, false⟩
  else if op = 0x0502 then some ⟨true, true, .any, none, is 4, 4064, false, false⟩
  else if op = 0x0503 then some ⟨true, true, .any, none, is 0, 24, false, false⟩
  else if op = 0x0504 then some ⟨false, true, .own, some stGEP, is 32, 48, false, false⟩
  else if op = 0x0601 then some ⟨true, true, .own, some [.enabled, .paused], fun k => k == 4 || k == 324, 4, false, false⟩
  else if op = 0x0602 then some ⟨true, true, .own, some [.enabled, .paused, .suspended, .fenced], is 0, 2112, false,
                                 false⟩
  else if op = 0x0701 then some ⟨false, true, .own, some stGEP, is 56, 0, false, false⟩
  else if op = 0x0801 then some ⟨true, true, .own, some stGP, steps 16 12 16, 0, false, false⟩
  else if op = 0x0802 then some ⟨true, true, .own, some stGEPSX, is 4, 1448, false, false⟩
  else if op = 0x0901 then some ⟨true, true, .own, some stGEP, is 96, 16, false, false⟩
  else if op = 0x0902 then some ⟨true, true, .own, some stGEP, is 4, 0, false, false⟩
  else if op = 0x0903 then some ⟨true, true, .own, some stGEPSX, is 4, 2824, false, false⟩
  else if op = 0x0A01 then some ⟨true, true, .pf, none, is 4, 0, false, false⟩
  else if op = 0x0A02 then some ⟨true, true, .pf, none, is 4, 0, false, false⟩
  else if op = 0x0A03 then some ⟨true, true, .pf, none, is 4, 320, false, false⟩
  else if op = 0x0B01 then some ⟨true, true, .any, none, is 0, 232, false, false⟩
  else if op = 0x0B02 then some ⟨true, true, .pf, none, is 4, 0, false, false⟩
  else if op = 0x0B03 then some ⟨true, true, .pf, none, steps 128 208 8, 4040, false, false⟩
  else if op = 0x0B04 then some ⟨true, true, .pf, none, is 4, 4, false, false⟩
  else if op = 0x0B05 then some ⟨true, true, .pf, some [.paused], is 0, 0, false, false⟩
  else if op = 0x0C01 then some ⟨true, true, .any, none, is 8, 4048, true, true⟩
  else if op = 0x0C02 then some ⟨true, true, .pf, none, is 8, 2056, true, true⟩
  else none

/-- Whether a function's BAR0 answers: link up, the responder ready, the function present and in D0. -/
def reachable (s : State) (f : Fn) : Bool :=
  s.host.link.up && !s.host.link.rrs && fnExists s f && !(fnOf s f).d3
    && (s.ao.boot.phase == .running || s.ao.boot.phase == .rom)

/-- Check 6 of R107: whether the caller may issue the opcode, and whether the service state answers it (R50, R104). -/
def callerOk (s : State) (f : Fn) (c : CmdInfo) : Bool :=
  (c.caller != .pf || f.val == 0)
    && (if s.ao.boot.phase == .rom then c.rom && f.val == 0
        else if s.ao.service then c.svc && f.val == 0 else true)

/-- Check 7 of R107: the partition field against the caller (R10, R104). -/
def partCheck (f : Fn) (part : Nat) : Option Ans :=
  if 63 < part && part != 0xFF then some ansBad
  else if f.val = 0 then none
  else if part = 0xFF then some ansBad
  else if part = f.val - 1 then none
  else some ansNotOwner

/-- Whether the partition field suits the command (R494): a device-level command of the PF names 0xFF, except LOG_READ
and PAIR_PLAN_SET; a partition command of the PF names a partition, except PARTITION_STATUS. -/
def scopeOk (op : Nat) (f : Fn) (part : Nat) (c : CmdInfo) : Bool :=
  if f.val != 0 then true
  else match c.states with
    | none => op == 0x0C01 || (if op = 0x0B03 then part != 0xFF else part == 0xFF)
    | some _ => op == 0x0205 || part != 0xFF

/-- The checks of R107 that need only the header, from check 4 on: the number of the failing check and its answer. -/
def headerChecks (s : State) (f : Fn) (ring : Bool) (op len part : Nat) (cap : Nat) : Option (Nat × Ans) :=
  match cmdInfo op with
  | none => some (4, { status := stBadOpcode })
  | some c =>
    if !(if ring then c.sq && decide (c.maxRsp ≤ cap) else c.mbx && decide (len ≤ 4064)) || !c.len len then
      some (5, ansBadLength)
    else if !callerOk s f c then some (6, ansServiceOnly)
    else match partCheck f part with
      | some a => some (7, a)
      | none => if scopeOk op f part c then none else some (8, ansBad)

/-- The size of what MBX_SUBMIT copies: header and payload of the request window. -/
def reqHeader (m : MbxBlock) : List Byte := memReadN m.reqWin 0 32
def reqPayload (m : MbxBlock) (len : Nat) : List Byte := memReadN m.reqWin 32 len

/-- R103: whether a request with AFTER_RING or ORDERED must wait for earlier ones of its function. -/
def mustWait (ring : Bool) (f : Fn) (reqs : List Req) : Bool :=
  reqs.any (fun q => decide (q.fn = f) && (if ring then q.ring || q.phase != .pending else q.ring))

/-- Answer a request that failed a check. -/
def rejectMbx (f : Fn) (check : Nat) (a : Ans) (tag seq op : Nat) (irq : Bool) (s : State) : State :=
  postResponse f a tag seq op irq (decide (3 < check)) (violation f check op s)

/-- MBX_SUBMIT: the device copies the request and takes it through R107; what passes waits for its commit (R85, R102).
-/
def doMbxSubmit (f : Fn) (s : State) : State :=
  if !reachable s f then s
  else
    let m := (fnOf s f).mbx
    if m.state != .idle then
      violation f 0 0 (modMbx f (fun m => { m with overrun := true }) s)
    else
      let h := reqHeader m
      let op := field h 0 2
      let fl := field h 2 2
      let tag := field h 4 4
      let len := field h 8 4
      let part := field h 12 1
      let ver := field h 13 1
      let seq := field h 16 4
      let irq := bit fl 0
      if ver < s.ao.fw.verMin || s.ao.fw.verMax < ver then rejectMbx f 1 ansBad tag seq op irq s
      else if 3 < fl || !zeroAt h 14 2 || !zeroAt h 20 12 then rejectMbx f 2 ansBad tag seq op irq s
      else if seq != m.nextSeq then
        match m.stored with
        | some t =>
          if (seq + 1) % 2 ^ 32 = m.nextSeq && t.opcode = op && t.tag = tag then
            let bs := t.bytes.take 18 ++ toLe 2 (field t.bytes 18 2 ||| 2) ++ t.bytes.drop 20
            let s := modMbx f (fun m => { m with rspWin := winOf bs, state := .response }) s
            if irq then raiseIrq f 0 s else s
          else rejectMbx f 3 ansBad tag seq op irq s
        | none => rejectMbx f 3 ansBad tag seq op irq s
      else match headerChecks s f false op len part 0 with
        | some (k, a) => rejectMbx f k a tag seq op irq s
        | none =>
          let wait := bit fl 1 && mustWait false f s.host.reqs
          let r : Req := { fn := f, ring := false, seq := seq, tag := tag, opcode := op, part := part, flags := fl,
                           payload := reqPayload m len, phase := if wait then .deferred else .ready }
          let s := modMbx f (fun m => { m with state := .busy }) s
          let s := modCnt f (fun k => { k with mbx := satAdd 64 k.mbx 1 }) s
          modHost (fun g => { g with reqs := g.reqs ++ [r] }) s

/-- Row MBX_SUBMIT. -/
def execMbxSubmit (f : Fn) (s : State) : Host.Outcome State Fault Refusal := .next (doMbxSubmit f s)

/-- MBX_RELEASE: RESPONSE returns to IDLE; anywhere else it is ignored and counted, and not logged (R85). -/
def doMbxRelease (f : Fn) (s : State) : State :=
  if !reachable s f then s
  else if (fnOf s f).mbx.state == .response then modMbx f (fun m => { m with state := .idle }) s
  else modMbx f (fun m => { m with overrun := true, violations := satAdd 32 m.violations 1 }) s

/-- Row MBX_RELEASE. -/
def execMbxRelease (f : Fn) (s : State) : Host.Outcome State Fault Refusal := .next (doMbxRelease f s)

/-- A ring completion of a descriptor that fails a check. -/
def ringReject (r : Req) (check : Nat) (a : Ans) (s : State) : State :=
  postCqe r.fn { status := a.status, reason := a.reason, tag := r.tag, seq := r.seq, opcode := r.opcode, result := 0,
                 retry := a.retry, mailbox := false, last := false, irq := bit r.flags 0 }
    (if check = 0 then s else violation r.fn check r.opcode s)

/-- The open submissions of a function (R97). -/
def openSubs (s : State) (f : Fn) : Nat := (s.host.reqs.filter (fun q => decide (q.fn = f) && q.ring)).length

/-- Start a request that no longer waits: its command data are fetched, or it is ready (R101). -/
def startReq (r : Req) (s : State) : State :=
  if r.dataLen = 0 then modHost (fun g => { g with reqs := g.reqs ++ [{ r with phase := .ready }] }) s
  else
    let s := modHost (fun g => { g with reqs := g.reqs ++ [{ r with phase := .fetching }] }) s
    issueDma r.fn (.cmdData r.id) r.dataAddr [] r.dataLen s

/-- The checks of a descriptor whose 64 bytes arrived; what passes waits for its commit. -/
def takeDescriptor (f : Fn) (seq : Nat) (b : List Byte) (s : State) : State :=
  let op := field b 0 2
  let fl := field b 2 2
  let dlen := field b 0x10 4
  let ver := field b 0x15 1
  let r : Req := { fn := f, ring := true, seq := seq, tag := field b 4 4, opcode := op, part := field b 0x14 1,
                   flags := fl, dataAddr := field b 8 8, dataLen := dlen, rspAddr := field b 0x20 8 }
  if ver < s.ao.fw.verMin || s.ao.fw.verMax < ver then ringReject r 1 ansBad s
  else if 3 < fl || !zeroAt b 0x16 2 || !zeroAt b 0x1C 4 then ringReject r 2 ansBad s
  else if field b 0x18 4 != seq then ringReject { r with seq := field b 0x18 4 } 3 ansBad s
  else match headerChecks s f true op dlen r.part (field b 0x28 4) with
    | some (k, a) => ringReject r k a s
    | none =>
      if r.dataAddr % 64 != 0 || (dlen == 0 && r.dataAddr != 0) || r.rspAddr % 64 != 0 || !zeroAt b 0x2C 20 then
        ringReject r 8 ansBad s
      else if bit fl 1 && mustWait true f s.host.reqs then
        modHost (fun g => { g with reqs := g.reqs ++ [{ r with phase := .deferred }] }) s
      else startReq r s

/-- DESCRIPTOR_CONSUME: the next descriptor in ring order, while fewer than 64 are open (R97, R101). -/
def doDescriptorConsume (f : Fn) (fetch : FetchResult) (s : State) : State :=
  let r := (fnOf s f).ring
  if !canDma s f || !r.sqEn || r.sqHead == r.sqTail || decide (64 ≤ openSubs s f) then s
  else
    let seq := r.consumed
    let s := modRing f (fun r => { r with sqHead := (r.sqHead + 1) % ringEntries r.sqSize,
                                          consumed := (r.consumed + 1) % 2 ^ 32 }) s
    let s := modCnt f (fun k => { k with sq := satAdd 64 k.sq 1 }) s
    match fetch with
    | .got b => takeDescriptor f seq b s
    | .retried b =>
      let s := modCnt f (fun k => { k with dmaRetries := satAdd 32 k.dmaRetries 1 }) s
      takeDescriptor f seq b (transientFault (fnPart f) (unitId 0x0F f.val) 0x000B s.host.nextTag s)
    | .failed =>
      let s := modCnt f (fun k => { k with dmaRetries := satAdd 32 k.dmaRetries 1 }) s
      let s := lastingFault (fnPart f) (unitId 0x0F f.val) 0x000B 1 s.host.nextTag s
      ringReject { fn := f, ring := true, seq := seq } 0 (ansRefused 0x010F) s

/-- Row DESCRIPTOR_CONSUME. -/
def execDescriptorConsume (f : Fn) (fetch : FetchResult) (s : State) : Host.Outcome State Fault Refusal :=
  .next (doDescriptorConsume f fetch s)

/-- DEFERRED_COMMAND_START: a request held back by AFTER_RING or ORDERED starts once those before it are done (R103);
it then takes its turn after what was accepted meanwhile. -/
def doDeferredStart (i : ReqId) (s : State) : State :=
  match findReq s i with
  | none => s
  | some r =>
    if r.phase == .deferred && !mustWait r.ring r.fn (s.host.reqs.takeWhile (fun q => !reqMatches i q)) then
      startReq r (dropReq i s)
    else s

/-- Row DEFERRED_COMMAND_START. -/
def execDeferredCommandStart (r : ReqId) (s : State) : Host.Outcome State Fault Refusal := .next (doDeferredStart r s)

/-- MAILBOX_TIMEOUT: 50 ms after the doorbell a request that has not committed is answered TIMEOUT and has no effect
(R90). -/
def doMailboxTimeout (f : Fn) (s : State) : State :=
  if (fnOf s f).mbx.state != .busy then s
  else match s.host.reqs.find? (fun q => decide (q.fn = f) && !q.ring && q.phase != .pending) with
    | some r => finish r { status := stTimeout } s
    | none => s

/-- Row MAILBOX_TIMEOUT. -/
def execMailboxTimeout (f : Fn) (s : State) : Host.Outcome State Fault Refusal := .next (doMailboxTimeout f s)

/-- Check 9 of R107: the partition's state admits the command (Table CMD-2); once a teardown is accepted only
PARTITION_STATUS and LOG_READ are (R125). -/
def stateOk (s : State) (r : Req) : Bool :=
  match cmdInfo r.opcode with
  | some c =>
    match c.states with
    | some l => r.part == 0xFF || (l.contains (partAt s r.part).st
        && (r.opcode == 0x0205 || !(partAt s r.part).sc.teardownAtBoundary))
    | none => true
  | none => true

/-- The frame of a Command-Reference row (log entry 3): it acts on an accepted request of its opcode whose turn it is;
checks 8 to 10 of R107 come first, then the body.  The body answers, or leaves the request open (none).  A mailbox
command that would answer PENDING while its CQ is disabled is refused with no effect (R90).  A copy that lost a hold
conflict answers 0x0803 (R461). -/
def runCmd (i : ReqId) (op : Nat) (sel : List Byte → Bool) (fields : State → Req → Bool)
    (body : Req → State → State × Option Ans) (s : State) : State :=
  match headReq s with
  | none => s
  | some r =>
    if r.id ≠ i || r.opcode != op || r.phase != .ready || !sel r.payload then s
    else if !fields s r then finish r ansBad (violation r.fn 8 op s)
    else if !stateOk s r then finish r (ansRefused 0x0113) s
    else if (partAt s r.part).conflict && op != 0x0205 && op != 0x0204 && op != 0x0C01 then
      finish r (ansRefused 0x0803) s
    else if (fnOf s r.fn).ring.stall then finish r (ansBusy 0x0110 1000) s
    else
      match body r s with
      | (s', none) => s'
      | (s', some a) =>
        if a.pend && !r.ring && !(fnOf s r.fn).ring.cqEn then finish r (ansRefused 0x0111) s
        else finish r a s'

/-- A body that always answers. -/
def answering (body : Req → State → State × Ans) (r : Req) (s : State) : State × Option Ans :=
  match body r s with
  | (s', a) => (s', some a)

/-- A body without an effect of its own. -/
def reading (body : Req → State → Ans) (r : Req) (s : State) : State × Option Ans := (s, some (body r s))

/-- The request's partition. -/
def Req.pid (r : Req) : Pid := ⟨r.part % 64, Nat.mod_lt _ (by decide)⟩

end Sys2Proof.Machine
end

