-- ==== Sys2Proof/Machine/HostIf.lean ====
section
/-!
DEFINITION. The registers of BAR0 and the rings (R84, R92 to R94, R100, R105, R419 to R423), and the host link's
configuration side (R79, R416 to R418).
-/
namespace Sys2Proof.Machine

/-! ## Rings -/

/-- SQ_DOORBELL: a tail index at or above the entry count is ignored and logged (R94). -/
def doSqDoorbell (f : Fn) (v : Nat) (s : State) : State :=
  let i := v % 4096
  if !reachable s f then s
  else if ringEntries (fnOf s f).ring.sqSize ≤ i then violation f 0 0 s
  else modRing f (fun r => { r with sqTail := i }) s

def execSqDoorbell (f : Fn) (tail : Word32) (s : State) : Host.Outcome State Fault Refusal :=
  .next (doSqDoorbell f tail.toNat s)

/-- CQ_HEAD_ADVANCE: the write frees entries, and held completions are posted in order (R100). -/
def doCqHead (f : Fn) (v : Nat) (s : State) : State :=
  if !reachable s f then s
  else
    let s := modRing f (fun r => { r with cqHead := v % 4096 }) s
    if (fnOf s f).ring.cqEn then drainHold f 257 s else s

def execCqHeadAdvance (f : Fn) (head : Word32) (s : State) : Host.Outcome State Fault Refusal :=
  .next (doCqHead f head.toNat s)

/-- Mark the DMA of fenced requests dead (R474). -/
def killDma (t : DmaOp → Bool) (s : State) : State :=
  modHost (fun h => { h with dma := modAll t (fun d => { d with dead := true }) h.dma }) s

/-- The request a DMA serves. -/
def dmaReq : DmaKind → Option ReqId
  | .cmdData r | .bulkIn r | .bulkOut r => some r
  | .completion _ | .response _ | .p2pWrite _ _ => none

/-- Withdraw the runs that a fenced request started (R474). -/
def dropRuns (i : ReqId) (s : State) : State :=
  modParts (fun q => { q with runs := q.runs.filter (fun r => decide (r.req ≠ some i)) }) s

/-- Fence one open request: its DMA and runs end, and its late completion is discarded and logged with rung 10. -/
def fenceReq (s : State) (r : Req) : State :=
  let s := dropReq r.id s
  let s := killDma (fun d => decide (dmaReq d.kind = some r.id)) s
  let s := dropRuns r.id s
  let s := modCnt r.fn (fun k => { k with late := satAdd 32 k.late 1 }) s
  lateDiscard (fnPart r.fn) (unitId 0x0F r.fn.val) 10 (r.seq + r.fn.val * 2 ^ 32) s

/-- Fence every open request that satisfies a test. -/
def fenceReqs (t : Req → Bool) (s : State) : State := (s.host.reqs.filter t).foldl fenceReq s

/-- SQ_ENABLE: head, tail and sequence space become 0; LOG_ENTRIES above 8 leaves the SQ disabled (R93). -/
def doSqEnable (f : Fn) (s : State) : State :=
  let r := (fnOf s f).ring
  if !reachable s f || r.sqEn then s
  else if 8 < r.sqSize then violation f 0 0 s
  else modRing f (fun r => { r with sqEn := true, sqHead := 0, sqTail := 0, consumed := 0 }) s

def execSqEnable (f : Fn) (s : State) : Host.Outcome State Fault Refusal := .next (doSqEnable f s)

/-- SQ_DISABLE fences every open submission of the SQ (R93). -/
def doSqDisable (f : Fn) (s : State) : State :=
  if !reachable s f || !(fnOf s f).ring.sqEn then s
  else fenceReqs (fun q => decide (q.fn = f) && q.ring) (modRing f (fun r => { r with sqEn := false }) s)

def execSqDisable (f : Fn) (s : State) : Host.Outcome State Fault Refusal := .next (doSqDisable f s)

/-- CQ_ENABLE: head and tail 0, phase 1 (R93). -/
def doCqEnable (f : Fn) (s : State) : State :=
  let r := (fnOf s f).ring
  if !reachable s f || r.cqEn then s
  else if 8 < r.cqSize then violation f 0 0 s
  else modRing f (fun r => { r with cqEn := true, cqHead := 0, cqTail := 0, phase := true }) s

def execCqEnable (f : Fn) (s : State) : Host.Outcome State Fault Refusal := .next (doCqEnable f s)

/-- Disable a CQ: every held completion is discarded and logged, so STALL clears (R93, R100). -/
def disableCq (f : Fn) (s : State) : State :=
  let held := (fnOf s f).ring.hold
  let s := modRing f (fun r => { r with cqEn := false, hold := [], stall := false }) s
  held.foldl (fun s c =>
    let s := modCnt f (fun k => { k with late := satAdd 32 k.late 1 }) s
    lateDiscard (fnPart f) (unitId 0x0F f.val) 10 (c.seq + f.val * 2 ^ 32) s) s

def doCqDisable (f : Fn) (s : State) : State :=
  if !reachable s f || !(fnOf s f).ring.cqEn then s else disableCq f s

def execCqDisable (f : Fn) (s : State) : Host.Outcome State Fault Refusal := .next (doCqDisable f s)

/-- CQ_FULL_TIMEOUT: 100 ms of a CQ that takes nothing begins HOST_RING_STALL (R29, R100). -/
def doCqFullTimeout (f : Fn) (s : State) : State :=
  let r := (fnOf s f).ring
  if !r.cqEn || r.stall || !(cqFull r || !canDma s f) then s
  else
    let s := logEvent (fnPart f) 0x0105 f.val r.hold.length 0 0 s
    let s := guaranteeLapse (fnPart f) 1 s
    let s := modRing f (fun r => { r with stall := true }) s
    raiseIrq f 3 s

def execCqFullTimeout (f : Fn) (s : State) : Host.Outcome State Fault Refusal := .next (doCqFullTimeout f s)

/-! ## Interrupts -/

/-- Send the pending messages that no mask holds any longer (R423). -/
def sendUnmasked (f : Fn) (s : State) : State :=
  [0, 1, 2].foldl (fun s (v : Fin 3) =>
    let q := (fnOf s f).irq
    let e := q.table.get v
    if e.pending && !e.masked && !q.fnMask then
      sendMsix f v (modIrq f (fun q => { q with table := vmod q.table v (fun e => { e with pending := false }) }) s)
    else s) s

/-- MSIX_VECTOR_UNMASK: a vector's mask, or the function mask (none), is cleared and pending messages go (R423). -/
def doMsixUnmask (f : Fn) (vec : Option (Fin 3)) (s : State) : State :=
  if !reachable s f then s
  else
    let s := match vec with
      | some v => modIrq f (fun q => { q with table := vmod q.table v (fun e => { e with masked := false }) }) s
      | none => modIrq f (fun q => { q with fnMask := false }) s
    sendUnmasked f s

def execMsixVectorUnmask (f : Fn) (vec : Option (Fin 3)) (s : State) : Host.Outcome State Fault Refusal :=
  .next (doMsixUnmask f vec s)

/-- IRQ_COALESCE_TIMEOUT: TIME_US after the first unsignalled entry vector 1 is sent (R105). -/
def doIrqCoalesceTimeout (f : Fn) (s : State) : State :=
  let q := (fnOf s f).irq
  if q.unsignalled = 0 then s
  else
    let s := modIrq f (fun q => { q with unsignalled := 0 }) s
    if q.mask.getLsbD 1 then s else sendMsix f 1 s

def execIrqCoalesceTimeout (f : Fn) (s : State) : Host.Outcome State Fault Refusal := .next (doIrqCoalesceTimeout f s)

/-! ## Registers -/

/-- The 32-bit half of a 64-bit number. -/
def half (v i : Nat) : Nat := bits v (32 * i + 31) (32 * i)

/-- What a 4-byte read of a register block returns (Tables MBX-3, MBX-8, MBX-12, HIO-4, HIO-5; R8). -/
def readReg (s : State) (f : Fn) (off : Nat) : Nat :=
  let x := fnOf s f
  let m := x.mbx
  let r := x.ring
  let q := x.irq
  let k := x.cnt
  if off = 0x000 then 0x00008192
  else if off = 0x004 then f.val + (if f.val = 0 then 0xFF else f.val - 1) * 256
  else if off = 0x008 then s.ao.fuse.stepping % 256
  else if off = 0x010 then half s.ao.fuse.serial 0
  else if off = 0x014 then half s.ao.fuse.serial 1
  else if off = 0x018 then (if s.host.link.up then s.host.link.rate + s.host.link.width * 16 else 0)
  else if off = 0x104 then
    (match m.state with | .idle => 0 | .busy => 1 | .response => 2)
      + m.overrun.toNat * 256 + r.stall.toNat * 512 + s.ao.service.toNat * 1024
  else if off = 0x10C then s.ao.fw.verMin + s.ao.fw.verMax * 256
  else if off = 0x110 then m.nextSeq
  else if off = 0x114 then m.violations
  else if off = 0x200 then half r.sqBase 0
  else if off = 0x204 then half r.sqBase 1
  else if off = 0x208 then r.sqSize
  else if off = 0x20C then r.sqTail
  else if off = 0x210 then r.sqHead
  else if off = 0x218 then half r.cqBase 0
  else if off = 0x21C then half r.cqBase 1
  else if off = 0x220 then r.cqSize
  else if off = 0x224 then r.cqHead
  else if off = 0x228 then r.cqTail
  else if off = 0x22C then r.sqEn.toNat + r.cqEn.toNat * 2
  else if off = 0x300 then q.status.toNat
  else if off = 0x304 then q.mask.toNat
  else if off = 0x308 then q.count + q.timeUs * 256
  else if off = 0x400 then half k.mbx 0
  else if off = 0x404 then half k.mbx 1
  else if off = 0x408 then half k.sq 0
  else if off = 0x40C then half k.sq 1
  else if off = 0x410 then half k.cq 0
  else if off = 0x414 then half k.cq 1
  else if off = 0x418 then k.dropped
  else if off = 0x41C then k.dmaRetries
  else if off = 0x420 then k.late
  else if off = 0x428 then half k.moved 0
  else if off = 0x42C then half k.moved 1
  else if off = 0x430 then half k.p2p 0
  else if off = 0x434 then half k.p2p 1
  else 0

/-- Write of a ring's BASE or SIZE: ignored and counted while the ring is enabled (R93). -/
def ringCfg (f : Fn) (on : Bool) (g : RingBlock → RingBlock) (s : State) : State :=
  if on then modMbx f (fun m => { m with violations := satAdd 32 m.violations 1 }) s else modRing f g s

/-- Replace one 32-bit half of a ring base; bits 11:0 are RSV. -/
def setHalf (b : Nat) (i v : Nat) : Nat :=
  if i = 0 then half b 1 * 2 ^ 32 + v / 4096 * 4096 else v * 2 ^ 32 + half b 0

/-- RING_CTRL: each bit that changes enables or disables its ring. -/
def writeCtrl (f : Fn) (v : Nat) (s : State) : State :=
  let s := if bit v 0 then doSqEnable f s else doSqDisable f s
  if bit v 1 then doCqEnable f s else doCqDisable f s

/-- One 4-byte write into a register block by its access code (R8). -/
def writeReg (f : Fn) (off v : Nat) (s : State) : State :=
  let r := (fnOf s f).ring
  if off = 0x100 then (if bit v 0 then doMbxSubmit f s else s)
  else if off = 0x104 then (if bit v 8 then modMbx f (fun m => { m with overrun := false }) s else s)
  else if off = 0x108 then (if bit v 0 then doMbxRelease f s else s)
  else if off = 0x200 then ringCfg f r.sqEn (fun r => { r with sqBase := setHalf r.sqBase 0 v }) s
  else if off = 0x204 then ringCfg f r.sqEn (fun r => { r with sqBase := setHalf r.sqBase 1 v }) s
  else if off = 0x208 then ringCfg f r.sqEn (fun r => { r with sqSize := v % 16 }) s
  else if off = 0x20C then doSqDoorbell f v s
  else if off = 0x218 then ringCfg f r.cqEn (fun r => { r with cqBase := setHalf r.cqBase 0 v }) s
  else if off = 0x21C then ringCfg f r.cqEn (fun r => { r with cqBase := setHalf r.cqBase 1 v }) s
  else if off = 0x220 then ringCfg f r.cqEn (fun r => { r with cqSize := v % 16 }) s
  else if off = 0x224 then doCqHead f v s
  else if off = 0x22C then writeCtrl f v s
  else if off = 0x300 then
    modIrq f (fun q => { q with status := q.status &&& ~~~(BitVec.ofNat 4 v)
                                unsignalled := if bit v 1 then 0 else q.unsignalled }) s
  else if off = 0x304 then modIrq f (fun q => { q with mask := BitVec.ofNat 4 v }) s
  else if off = 0x308 then modIrq f (fun q => { q with count := v % 256, timeUs := v / 256 % 65536 }) s
  else s

/-- One byte of an MSI-X entry: address, data, vector control (PCIe; R423). -/
def setMsixByte (e : MsixEntry) (o : Nat) (b : Byte) : MsixEntry :=
  if o < 8 then { e with addr := leNat ((toLe 8 e.addr).set o b) }
  else if o < 12 then { e with data := leNat ((toLe 4 e.data).set (o - 8) b) }
  else if o = 12 then { e with masked := b.getLsbD 0 }
  else e

/-- Write bytes into the MSI-X table. -/
def writeMsix (f : Fn) : Nat → List Byte → State → State
  | _, [], s => s
  | o, b :: bs, s =>
    writeMsix f (o + 1) bs (modIrq f (fun q => { q with table := vmodN q.table (o / 16)
                                                                    (fun e => setMsixByte e (o % 16) b) }) s)

/-- Whether an access has a size and alignment of R422. -/
def accessOk (off width : Nat) : Bool :=
  let pow := [4, 8, 16, 32, 64].contains width
  pow && off % width == 0 && (if off < 0x1000 then decide (width ≤ 8) else true)

/-- Answer of an access that R422 bars: counted and logged; a read gets Unsupported Request. -/
def barredAccess (f : Fn) (off : Nat) (isRead : Bool) (s : State) : State :=
  let s := violation f 0 0 s
  if isRead then emit (.unsupported f off) s else s

/-- REGISTER_WRITE: a write to BAR0, by the register's access code; the windows and the MSI-X table take bytes, and an
8-byte write of a register block acts as two 4-byte writes, low address first (R422). -/
def doRegisterWrite (f : Fn) (off : Nat) (bs : List Byte) (s : State) : State :=
  if !reachable s f then s
  else if !accessOk off bs.length then barredAccess f off false s
  else if off < 0x1000 then
    let s := writeReg f off (leNat (bs.take 4)) s
    if bs.length = 8 then writeReg f (off + 4) (leNat (bs.drop 4)) s else s
  else if off < 0x2000 then modMbx f (fun m => { m with reqWin := memWriteN m.reqWin (off - 0x1000) bs }) s
  else if 0x3000 ≤ off && off < 0x3030 then sendUnmasked f (writeMsix f (off - 0x3000) bs s)
  else s

def execRegisterWrite (f : Fn) (offset : Nat) (bytes : List Byte) (s : State) : Host.Outcome State Fault Refusal :=
  .next (doRegisterWrite f offset bytes s)

/-- BAR0_MISALIGNED_ACCESS (R422). -/
def doMisaligned (f : Fn) (off width : Nat) (isRead : Bool) (s : State) : State :=
  if !reachable s f || accessOk off width then s else barredAccess f off isRead s

def execBar0MisalignedAccess (f : Fn) (offset width : Nat) (isRead : Bool) (s : State) :
    Host.Outcome State Fault Refusal := .next (doMisaligned f offset width isRead s)

/-! ## The link and its functions -/

/-- TLP_REPLAY: counted as an AER correctable error (R416). -/
def execTlpReplay (s : State) : Host.Outcome State Fault Refusal :=
  .next (modHost (fun h => { h with link := { h.link with aer := h.link.aer + 1 } }) s)

/-- PCIE_CONFIG_REQUEST: Request Retry Status until the responder is ready (R79). -/
def doConfigRequest (f : Fn) (s : State) : State :=
  if s.host.link.up && fnExists s f then emit (.cfg f s.host.link.rrs) s else s

def execPcieConfigRequest (f : Fn) (s : State) : Host.Outcome State Fault Refusal := .next (doConfigRequest f s)

/-- HOST_LINK_UP: training sets the rate and width that ID_LINK reports (R416, R420). -/
def doHostLinkUp (rate width : Nat) (s : State) : State :=
  if domOn s 1 && s.ao.clk.refclk && !s.host.link.fenced then
    modHost (fun h => { h with link := { h.link with up := true, rate := rate % 16, width := width % 32 } }) s
  else s

def execHostLinkUp (rate width : Nat) (s : State) : Host.Outcome State Fault Refusal :=
  .next (doHostLinkUp rate width s)

/-- Reset a function's host interface: MBX, RING, IRQ and CNT to their reset values (R69, R421). -/
def resetFn (f : Fn) (s : State) : State :=
  let s := fenceReqs (fun q => decide (q.fn = f)) s
  let s := killDma (fun d => decide (d.fn = f) && (match d.kind with | .p2pWrite _ _ => false | _ => true)) s
  modFn f (fun _ => {}) s

/-- VF_ENABLE_SET: VFs above NumVFs do not exist (R417); a VF that goes takes its host interface state with it. -/
def doVfEnableSet (n : Nat) (s : State) : State :=
  if !s.host.link.up || s.host.link.rrs then s
  else
    let n := min n 64
    let gone := allFns.filter (fun f => decide (n < f.val) && decide (f.val ≤ s.host.link.numVfs))
    let s := gone.foldl (fun s f => resetFn f s) s
    modHost (fun h => { h with link := { h.link with vfEnable := n != 0, numVfs := n } }) s

def execVfEnableSet (numVfs : Nat) (s : State) : Host.Outcome State Fault Refusal := .next (doVfEnableSet numVfs s)

/-- D3HOT_ENTRY: no DMA and no message from now on (R418). -/
def doD3 (f : Fn) (s : State) : State := if fnExists s f then modFn f (fun x => { x with d3 := true }) s else s

def execD3hotEntry (f : Fn) (s : State) : Host.Outcome State Fault Refusal := .next (doD3 f s)

/-- D0_RETURN: no reset; completions that waited are posted (R418). -/
def doD0 (f : Fn) (s : State) : State :=
  if (fnOf s f).d3 then
    let s := modFn f (fun x => { x with d3 := false }) s
    if (fnOf s f).ring.cqEn then drainHold f 257 s else s
  else s

def execD0Return (f : Fn) (s : State) : Host.Outcome State Fault Refusal := .next (doD0 f s)

end Sys2Proof.Machine
end

