-- ==== Sys2Proof/Machine/Mem.lean ====
section
/-!
DEFINITION. Near memory: the channels and half-rows (R179 to R183, R186), window translation (R182, R185), the bytes
behind it, and the state of every half-row (R114, R191).
-/
namespace Sys2Proof.Machine

def gib : Nat := 2 ^ 30
def halfRowBytes : Nat := 2 ^ 29

/-- The channel at position j of a half-row (Table MEM-2). -/
def chanOf (west : Bool) (j : Nat) : Nat :=
  if west then (if j < 8 then j else j + 8) else (if j < 8 then 8 + j else 16 + j)

/-- Whether a channel lies in the west half. -/
def chanWest (c : Nat) : Bool := decide (c < 8) || (decide (16 ≤ c) && decide (c < 24))

/-- The half-row that holds a DPA (R179). -/
def dpaHalfRow (dpa : Nat) : HR := ⟨chanWest (dpa / 2 ^ 35 % 32), dpa / 2 ^ 25 % 1024⟩

/-- The granules of mode 0 ALL, 1 WEST, 2 EAST (R181). -/
def winMode (w : Window) (m : Nat) : List Granule :=
  if m = 0 then w.all else if m = 1 then w.west else if m = 2 then w.east else []

/-- Every half-row of a window. -/
def winHalfRows (w : Window) : List HR := (w.all ++ w.west ++ w.east).flatMap (fun g => [g.a, g.b])

/-- GiB that a window holds. -/
def winGib (w : Window) : Nat := w.all.length + w.west.length + w.east.length

/-- The DPA of byte q of a granule: its 256 B units are spread by the hash of R182. -/
def granuleDpa (g : Granule) (q : Nat) : Nat :=
  let u := q / 256
  let x := (((u ^^^ (u >>> 5)) ^^^ (u >>> 10)) ^^^ (u >>> 15)) ^^^ (u >>> 20)
  let slot := x % 32
  let hr := if slot < 16 then g.a else g.b
  chanOf hr.west (slot % 16) * 2 ^ 35 + hr.row * 2 ^ 25 + u / 32 * 256 + q % 256

/-- R182: a window address as a DPA, none outside the granted granules. -/
def translate (w : Window) (wa : Nat) : Option Nat :=
  let o := wa % 2 ^ 40
  (winMode w (wa / 2 ^ 40))[o / gib]?.map (fun g => granuleDpa g (o % gib))

/-- Whether the n bytes from a window address lie within the granted granules of one mode. -/
def inWindow (w : Window) (wa n : Nat) : Bool :=
  decide (wa / 2 ^ 40 < 3) && decide (wa % 2 ^ 40 + n ≤ (winMode w (wa / 2 ^ 40)).length * gib)

/-- Whether every granule that the n bytes from a window address touch is zero (R116). -/
def rangeZero (w : Window) (wa n : Nat) : Bool :=
  let o := wa % 2 ^ 40
  let first := o / gib
  let last := (o + n - 1) / gib
  ((winMode w (wa / 2 ^ 40)).drop first).take (last + 1 - first) |>.all
    (fun g => !w.unzero.contains g.a && !w.unzero.contains g.b)

/-- Read bytes of a window; outside it, and in a granule not zero yet, bytes read 0. -/
def winReadAt (m : MemSt) (w : Window) (wa n : Nat) : List Byte :=
  (List.range n).map (fun i => match translate w (wa + i) with
    | some d => memRead m.cells d
    | none => 0)

/-- Write bytes into a window; bytes outside it go nowhere. -/
def winWriteAt (w : Window) (wa : Nat) : List Byte → MemSt → MemSt
  | [], m => m
  | b :: bs, m =>
    winWriteAt w (wa + 1) bs (match translate w wa with
      | some d => { m with cells := memWrite m.cells d b }
      | none => m)

def winRead (s : State) (p : Pid) (wa n : Nat) : List Byte := winReadAt s.units.mem (partOf s p).g.win wa n
def winWrite (p : Pid) (wa : Nat) (bs : List Byte) (s : State) : State :=
  modMem (winWriteAt (partOf s p).g.win wa bs) s

/-! ## The pool area -/

def classSize (c : Nat) : Nat := nth [256, 4096, 65536, 1048576, 16777216] c
def classSectors (c : Nat) : Nat := nth [1, 16, 256, 4096, 65536] c
def classMeta (c : Nat) : Nat := nth [20, 20, 52, 532, 8212] c

/-- Buffers of a class by its rows (R206). -/
def capacityOf (rows : List Nat) (c : Nat) : Nat := nth rows c * 2 ^ 30 / classSize c

/-- Metadata rows m of a configuration (R206). -/
def metaRowsOf (rows : List Nat) : Nat :=
  ceilDiv (sumL ((List.range 5).map (fun c => capacityOf rows c * classMeta c))) (2 ^ 30)

/-- The rows of a pool area of n rows: from row 1,023 downward, skipping rows with a retired half-row (R206). -/
def areaRows (retired : List HR) (n : Nat) : List Nat :=
  (((List.range 1016).map (fun i => 1023 - i)).filter (fun r => !retired.any (fun h => h.row == r))).take n

/-- The DPA of byte b of buffer i of class c (R206). -/
def bufferDpa (p : PoolSt) (c i b : Nat) : Nat :=
  let off := i * classSize c + b
  let k := p.metaRows + sumL (p.rows.take c) + off / gib
  let row := nth p.area k
  granuleDpa ⟨⟨true, row⟩, ⟨false, row⟩⟩ (off % gib)

/-! ## Half-rows -/

/-- Every window: the partitions' and the standby windows of plans (R447). -/
def allWindows (s : State) : List Window :=
  (allPids.map (fun p => (partOf s p).g.win)) ++ s.units.pair.plans.map (fun x => x.win)

/-- Half-rows that a window holds. -/
def heldHalfRows (s : State) : List HR := (allWindows s).flatMap winHalfRows

/-- Whether a row is Sorud's or the pool's. -/
def rowReserved (s : State) (r : Nat) : Bool := decide (r < 8) || s.units.pool.area.contains r

/-- Whether no window holds a grantable half-row. -/
def halfRowFree (s : State) (held : List HR) (h : HR) : Bool :=
  !rowReserved s h.row && !s.units.mem.retired.contains h && !held.contains h

/-- The free half-rows of a half, clean ones first and within each kind the lowest row first (R183). -/
def freeHalfRows (s : State) (west : Bool) : List HR :=
  let held := heldHalfRows s
  let fr := ((List.range 1024).map (fun r => (⟨west, r⟩ : HR))).filter (halfRowFree s held)
  fr.filter (fun h => s.units.mem.clean.contains h) ++ fr.filter (fun h => !s.units.mem.clean.contains h)

/-- Pair the half-rows of a list into granules. -/
def pairUp : List HR → List Granule
  | a :: b :: r => ⟨a, b⟩ :: pairUp r
  | _ => []

/-- The granules that a grant of A, W and E GiB takes, when enough half-rows are free (R183). -/
def takeGranules (s : State) (a w e : Nat) : Option Window :=
  let fw := freeHalfRows s true
  let fe := freeHalfRows s false
  if a + 2 * w ≤ fw.length && a + 2 * e ≤ fe.length then
    let all := (fw.take a).zip (fe.take a) |>.map (fun x => (⟨x.1, x.2⟩ : Granule))
    let ws := pairUp ((fw.drop a).take (2 * w))
    let es := pairUp ((fe.drop a).take (2 * e))
    let taken := fw.take (a + 2 * w) ++ fe.take (a + 2 * e)
    some { all := all, west := ws, east := es,
           unzero := taken.filter (fun h => !s.units.mem.clean.contains h) }
  else none

/-- Append granules to a window (R184). -/
def winAppend (w x : Window) : Window :=
  { all := w.all ++ x.all, west := w.west ++ x.west, east := w.east ++ x.east, unzero := w.unzero ++ x.unzero }

/-- Half-rows taken by a grant are no longer clean and free. -/
def unclean (hs : List HR) (s : State) : State :=
  modMem (fun m => { m with clean := m.clean.filter (fun h => !hs.contains h) }) s

/-- Remove the last granules of each sub-space; their half-rows are dirty (R184). -/
def winCut (w : Window) (a ws e : Nat) : Window :=
  let all := w.all.take (w.all.length - a)
  let we := w.west.take (w.west.length - ws)
  let ea := w.east.take (w.east.length - e)
  let left := (all ++ we ++ ea).flatMap (fun g => [g.a, g.b])
  { all := all, west := we, east := ea, unzero := w.unzero.filter (fun h => left.contains h) }

/-- Zero half-rows: their bytes read 0 (R186). -/
def zeroHalfRows (hs : List HR) (m : MemSt) : MemSt :=
  { m with cells := memClear m.cells (fun d => hs.contains (dpaHalfRow d)) }

/-- Half-row counts of one half for DEVICE_MEMORY_STATUS: clean, dirty, granted, reserved, retired (R186). -/
def halfRowCounts (s : State) (west : Bool) : List Nat :=
  let held := heldHalfRows s
  let all := (List.range 1024).map (fun r => (⟨west, r⟩ : HR))
  let ret := all.filter (fun h => s.units.mem.retired.contains h)
  let rest := all.filter (fun h => !s.units.mem.retired.contains h)
  let res := rest.filter (fun h => rowReserved s h.row)
  let g := rest.filter (fun h => !rowReserved s h.row && held.contains h)
  let fr := rest.filter (fun h => !rowReserved s h.row && !held.contains h)
  [(fr.filter (fun h => s.units.mem.clean.contains h)).length,
   (fr.filter (fun h => !s.units.mem.clean.contains h)).length, g.length, res.length, ret.length]

/-- Dirty bytes still to zero: free dirty half-rows and those of windows being zeroed (R114). -/
def dirtyBytes (s : State) : Nat :=
  let d := nth (halfRowCounts s true) 1 + nth (halfRowCounts s false) 1
  (d + sumL ((allWindows s).map (fun w => w.unzero.length))) * halfRowBytes

end Sys2Proof.Machine
end

