-- ==== Sys2Proof/Machine/Pool.lean ====
section
/-!
DEFINITION. The buffer pool: accounts, handles and descriptors, ranking and decision of contender sets, wakes, and
fresh-sector maps (R205 to R227).
-/
namespace Sys2Proof.Machine

/-- Capacity of a class as configured (R206). -/
def capacity (s : State) (c : Nat) : Nat := capacityOf s.units.pool.rows c

/-- A partition's ceiling: 0 stands for the class capacity (Table CMD-6). -/
def ceilOf (s : State) (p : Pid) (c : Nat) : Nat :=
  let k := nth (partOf s p).g.ceil c
  if k = 0 then capacity s c else k

/-- Buffers of a class held by all partitions. -/
def heldAll (s : State) (c : Nat) : Nat := sumL (allPids.map (fun p => nth (partOf s p).held c))

/-- free[c] of R219. -/
def freeOf (s : State) (c : Nat) : Nat := capacity s c - heldAll s c

/-- The part of a partition's minimum that it does not hold. -/
def unmetOf (s : State) (p : Pid) (c : Nat) : Nat := nth (partOf s p).g.min c - nth (partOf s p).held c

/-- The sum of unmet minima of a class. -/
def unmetAll (s : State) (c : Nat) : Nat := sumL (allPids.map (fun p => unmetOf s p c))

/-- The sum of minima of a class. -/
def minAll (s : State) (c : Nat) : Nat := sumL (allPids.map (fun p => nth (partOf s p).g.min c))

/-! ## Handles -/

/-- The handle of a buffer (Table BUF-3). -/
def handleOf (d : Desc) : Nat := d.cls + d.part * 2 ^ 3 + d.gen * 2 ^ 9 + d.index * 2 ^ 24

def hCls (h : Nat) : Nat := bits h 2 0
def hPart (h : Nat) : Nat := bits h 8 3
def hGen (h : Nat) : Nat := bits h 23 9
def hIndex (h : Nat) : Nat := bits h 47 24

/-- A buffer's descriptor; one that is not listed is FREE with generation 0 and a clear map. -/
def descOf (s : State) (c i : Nat) : Desc :=
  (s.units.pool.descs.find? (fun d => d.cls == c && d.index == i)).getD { cls := c, index := i }

/-- Put a descriptor back, listing it. -/
def setDesc (d : Desc) (s : State) : State :=
  modPool (fun p =>
    if p.descs.any (fun x => x.cls == d.cls && x.index == d.index) then
      { p with descs := modFirst (fun x => x.cls == d.cls && x.index == d.index) (fun _ => d) p.descs }
    else { p with descs := p.descs ++ [d] }) s

/-- The 16 bytes of a descriptor's word 0 (Table BUF-4); the map word is `mapWord`. -/
def descWord0 (d : Desc) : Nat :=
  d.cls + d.st * 2 ^ 3 + d.part * 2 ^ 5 + d.gen * 2 ^ 11 + (d.owner.kind * 2 ^ 12 + d.owner.inst) * 2 ^ 32

/-- Sectors that one coarse bit covers (Table BUF-6); 1 for the exact maps. -/
def coarseK (c : Nat) : Nat := nth [1, 1, 4, 64, 1024] c

/-- Word 1 of a descriptor: the exact map of C0 and C1, the coarse map of the others (R210, R211). -/
def mapWord (d : Desc) : Nat := maskOf (d.written.map (fun s => s / coarseK d.cls)) 64

/-! ## Accounts -/

def addAt (l : List Nat) (c k : Nat) : List Nat := l.set c (nth l c + k)
def subAt (l : List Nat) (c k : Nat) : List Nat := l.set c (nth l c - k)

/-- Add to held with the peak that PARTITION_STATUS reports (R227). -/
def holdAdd (p : Pid) (counts : List Nat) (s : State) : State :=
  modPart p (fun q =>
    let held := (List.range 5).map (fun c => nth q.held c + nth counts c)
    { q with held := held
             cnt := { q.cnt with peak := (List.range 5).map (fun c => max (nth q.cnt.peak c) (nth held c)) } }) s

/-- The causes for which a request falls short, by ascending class: 1 HEADROOM, 2 CEILING (R219). -/
def shortOf (s : State) (q : ReserveReq) : List (Nat × Nat) :=
  (List.range 5).filterMap (fun c =>
    let k := nth q.counts c
    if k = 0 then none
    else
      let held := nth (partOf s q.part).held c
      let own := unmetOf s q.part c
      if ceilOf s q.part c < held + k then some (c, 2)
      else if freeOf s c + min k own < k + unmetAll s c then some (c, 1)
      else none)

/-- Count a NO_BUFFER answer under its cause (R227). -/
def countNoBuf (p : Pid) (c cause : Nat) (s : State) : State :=
  modPCnt p (fun q => { q with nobuf := q.nobuf.set c (match q.nobuf.getD c (0, 0, 0) with
    | (h, l, o) => if cause = 1 then (h + 1, l, o) else if cause = 2 then (h, l + 1, o) else (h, l, o + 1)) }) s

/-- Move the requests that a release of class c by partition p wakes into the next contender set (R221, R222). -/
def poolWake (p : Pid) (c : Nat) (s : State) : State :=
  let woken (w : Waiter) : Bool :=
    w.short.any (fun x => x.1 == c && (x.2 == 1 || (x.2 == 2 && decide (w.req.part = p))))
  modPool (fun q => { q with set := q.set ++ (q.waiters.filter woken).map (fun w => w.req)
                             waiters := q.waiters.filter (fun w => !woken w) }) s

/-- Return undrawn reservations of a class (R215). -/
def unreserve (p : Pid) (c n : Nat) (s : State) : State :=
  let q := partOf s p
  let n := min n (nth q.held c - nth q.drawn c)
  if n = 0 then s else poolWake p c (modPart p (fun q => { q with held := subAt q.held c n }) s)

/-- Return undrawn reservations of every class. -/
def unreserveAll (p : Pid) (l : List Nat) (s : State) : State :=
  (List.range 5).foldl (fun s c => unreserve p c (nth l c) s) s

/-- A free-store cache takes one index back, and writes 128 back when it holds 448 (R223). -/
def cacheBack (c : Nat) (s : State) : State :=
  modPool (fun q =>
    let k := nth q.cache c + 1
    { q with cache := q.cache.set c (if 448 ≤ k then k - 128 else k) }) s

/-- Return a buffer to its free store: FREE, generation advanced, held and drawn down by 1, waiters woken (R217). -/
def releaseDesc (d : Desc) (s : State) : State :=
  let s := setDesc { d with st := 0, gen := (d.gen + 1) % 2 ^ 15, written := [], for_ := none } s
  let s := modPool (fun q => { q with dcache := q.dcache.filter (fun x => !(x.2.1 == d.cls && x.2.2 == d.index)) }) s
  let s := cacheBack d.cls s
  match pidOf d.part with
  | some p =>
    let s := modPart p (fun q => { q with held := subAt q.held d.cls 1, drawn := subAt q.drawn d.cls 1 }) s
    poolWake p d.cls s
  | none => s

/-- Release every drawn buffer that satisfies a test. -/
def releaseWhere (t : Desc → Bool) (s : State) : State :=
  (s.units.pool.descs.filter (fun d => d.st != 0 && t d)).foldl (fun s d => releaseDesc d s) s

/-- Drop a partition's requests at the pool. -/
def dropRequests (p : Pid) (t : ReserveReq → Bool) (s : State) : State :=
  modPool (fun q => { q with
    set := q.set.filter (fun r => !(decide (r.part = p) && t r))
    cur := q.cur.filter (fun r => !(decide (r.part = p) && t r))
    waiters := q.waiters.filter (fun w => !(decide (w.req.part = p) && t w.req)) }) s

/-! ## Ranking (R219) -/

/-- Requester ports in ring order after the clusters (R219). -/
def portRank (o : Owner) : Nat :=
  let i := o.inst
  let eth := nth [0, 2, 4, 6, 75, 73, 71, 69] i
  let nvme := nth [1, 5, 74, 70] i
  if o.kind = 0 then i
  else 128 + (if o.kind = 4 then eth
    else if o.kind = 5 then nvme
    else if o.kind = 7 then 3
    else if o.kind = 1 then (if i < 12 then 10 + i else 80 + i)
    else if o.kind = 2 then (if i < 4 then 30 + i else 110 + i)
    else if o.kind = 3 then (if i < 8 then 40 + i else 120 + i)
    else if o.kind = 6 then 140
    else 72)

/-- Whether the requester is below its minimum in every class it names. -/
def belowMin (s : State) (q : ReserveReq) : Bool :=
  (List.range 5).all (fun c => nth q.counts c == 0 || decide (nth (partOf s q.part).held c < nth (partOf s q.part).g.min c))

/-- The rank of a request, lower first. -/
def rankOf (s : State) (q : ReserveReq) : Nat :=
  ((if belowMin s q then 0 else 1) * 64 + (q.part.val + 64 - s.units.pool.pointer % 64) % 64) * 4096 + portRank q.by_

/-- Stable insertion by rank. -/
def insRank (s : State) (q : ReserveReq) : List ReserveReq → List ReserveReq
  | [] => [q]
  | x :: xs => if rankOf s q < rankOf s x then q :: x :: xs else x :: insRank s q xs

/-- The set in rank order. -/
def rankSet (s : State) (l : List ReserveReq) : List ReserveReq := l.foldl (fun a q => insRank s q a) []

/-- Form the next contender set when none is being decided; the pointer moves past its first partition when two or
more compete (R219). -/
def formSet (s : State) : State :=
  if s.units.pool.cur.isEmpty then
    let l := rankSet s s.units.pool.set
    modPool (fun q => { q with cur := l, set := [],
                               pointer := match l with
                                 | a :: _ :: _ => (a.part.val + 1) % 64
                                 | _ => q.pointer }) s
  else s

/-! ## Data (R224) -/

def sectorOf (off : Nat) : Nat := off / 256

/-- Read n bytes of a buffer: a sector not written since the draw reads as zeros. -/
def bufRead (s : State) (d : Desc) (off n : Nat) : List Byte :=
  (List.range n).map (fun i =>
    if d.written.contains (sectorOf (off + i)) then
      memRead s.units.mem.cells (bufferDpa s.units.pool d.cls d.index (off + i))
    else 0)

/-- The sectors that n bytes from an offset touch. -/
def sectorsOf (off n : Nat) : List Nat :=
  if n = 0 then [] else (List.range (sectorOf (off + n - 1) + 1 - sectorOf off)).map (fun i => sectorOf off + i)

/-- Write one byte of a buffer in memory. -/
def bufPut (d : Desc) (off : Nat) (b : Byte) (s : State) : State :=
  let a := bufferDpa s.units.pool d.cls d.index off
  modMem (fun m => { m with cells := memWrite m.cells a b }) s

def bufPutN (d : Desc) : Nat → List Byte → State → State
  | _, [], s => s
  | off, b :: bs, s => bufPutN d (off + 1) bs (bufPut d off b s)

/-- Write bytes into a buffer: a sector's first write clears the rest of it, and its bit is set (R224). -/
def bufWrite (d : Desc) (off : Nat) (bs : List Byte) (s : State) : State :=
  let new := (sectorsOf off bs.length).filter (fun k => !d.written.contains k)
  let s := new.foldl (fun s k => bufPutN d (k * 256) (zeros 256) s) s
  let s := bufPutN d off bs s
  setDesc { d with written := new.foldl (fun l k => insSorted k l) d.written } s

/-- Handle of the buffer that a stage reads: none when stale. -/
def lookup (s : State) (h : Nat) : Option Desc :=
  let d := descOf s (hCls h) (hIndex h)
  if h < 2 ^ 48 && decide (hCls h < 5) && d.st != 0 && d.gen == hGen h && d.part == hPart h then some d else none

/-- Indices that a class's free-store ring holds: free buffers that are not cached. -/
def ringFill (s : State) (c : Nat) : Nat :=
  capacity s c - (s.units.pool.descs.filter (fun d => d.cls == c && d.st != 0)).length - nth s.units.pool.cache c

/-- A cache after a draw: one that stood empty has taken the 128 indices that the draw waited for (R223, log entry 112).
-/
def cacheTake (s : State) (c : Nat) (l : List Nat) : List Nat :=
  subAt (if nth l c = 0 then addAt l c (min 128 (ringFill s c)) else l) c 1

/-- Draw a buffer: OWNED, map cleared, drawn up by 1 (R214).  The index the pool picks is not specified: the one the
event reports if it is free, else the lowest free one. -/
def drawDesc (p : Pid) (c : Nat) (unit : Owner) (index : Nat) (for_ : Option (Nat × Option Nat)) (s : State) :
    Desc × State :=
  let used (i : Nat) : Bool := s.units.pool.descs.any (fun d => d.cls == c && d.index == i && d.st != 0)
  let i := if decide (index < capacity s c) && !used index then index
           else ((List.range (s.units.pool.descs.length + 1)).find? (fun i => !used i)).getD 0
  let d := { descOf s c i with st := 1, part := p.val, owner := unit, next := unit, written := [], for_ := for_ }
  let s := modPool (fun q => { q with cache := cacheTake s c q.cache }) s
  let s := setDesc d s
  (d, modPart p (fun q => { q with drawn := addAt q.drawn c 1 }) s)

/-- The pool comes into service: every buffer FREE with generation 0, caches empty, accounts at 0, pointer 0 (R208).
-/
def poolIn (s : State) : State :=
  let s := modParts (fun q => { q with held := [0, 0, 0, 0, 0], drawn := [0, 0, 0, 0, 0] }) s
  modPool (fun q => { q with inService := true, descs := [], cache := [0, 0, 0, 0, 0], dcache := [], pointer := 0,
                             cur := [],
                             set := q.set ++ q.waiters.map (fun w => w.req), waiters := [] }) s

end Sys2Proof.Machine
end

