-- ==== Sys2Proof/Machine/Fence.lean ====
section
/-!
DEFINITION. Fencing, withdrawal and pausing: what every chapter's faults share (R40, R69, R248, R474, R477, R478), and
the cursor (R11).
-/
namespace Sys2Proof.Machine

/-! ## Cursors -/

/-- The packed form of a cursor (R11). -/
def packCursor (c : Cursor) : Nat := c.epoch % 2 ^ 16 * 2 ^ 48 + c.step % 2 ^ 32 * 2 ^ 16 + c.off % 2 ^ 16

/-- A cursor from its packed form (R11). -/
def unpackCursor (n : Nat) : Cursor := ⟨bits n 63 48, bits n 47 16, bits n 15 0⟩

/-! ## The loaded image -/

def bodyOf (q : Part) : ImgBody := match q.ld.image with
  | some i => i.body
  | none => {}

def hdrOf (q : Part) : ImgHeader := match q.ld.image with
  | some i => i.hdr
  | none => {}

/-- Whether the image has a stage of a kind (Table SCH-4). -/
def hasKind (q : Part) (k : Nat) : Bool := (bodyOf q).stages.any (fun x => x.kind == k)

def usesHevc (q : Part) : Bool := hasKind q 2 || hasKind q 4 || !(bodyOf q).streams.isEmpty
def usesJpeg (q : Part) : Bool := hasKind q 5
def usesInflate (q : Part) : Bool := hasKind q 6
def usesVid (q : Part) : Bool := usesHevc q || usesJpeg q || usesInflate q
def usesPack (q : Part) : Bool := (bodyOf q).pack.isSome

/-- Whether a window of the partition covers a half-row. -/
def holdsHalfRow (q : Part) (h : HR) : Bool := (winHalfRows q.g.win).contains h

/-- Partitions that satisfy a test, ascending. -/
def partsWhere (s : State) (t : Part → Bool) : List Pid := allPids.filter (fun p => t (partOf s p))

/-! ## Fencing single operations (R474) -/

/-- The tag of a codec segment (Table ERR-4). -/
def segTag (j : SegJob) : Nat := j.win * 2 ^ 16 + j.seg * 2 + j.attempt % 2

/-- The tag of a still-decode job (Table ERR-4). -/
def stillTag (j : StillJob) : Nat := j.off * 2 + j.attempt % 2

/-- Entries of a submission queue: 32 for the admin queue 0, at most 256 for a namespace's (Table HIO-6). -/
def sqSize (d : Drive) (sq : Nat) : Nat := if sq = 0 then 32 else max 2 (min 256 (d.mqes + 1))

/-- The submission queue of a command: 0 for admin, else its namespace's (log entry 32). -/
def sqOf (c : NvmeCmd) : Nat := if c.admin then 0 else c.ns

/-- The tail of a submission queue. -/
def sqTailOf (d : Drive) (sq : Nat) : Nat :=
  match d.tails.find? (fun x => x.1 == sq) with
  | some x => x.2
  | none => 0

/-- Submit a command under the next command identifier. -/
def nvmePush (n : Nat) (c : NvmeCmd) (s : State) : State :=
  let d := driveOf s n
  let c := { c with cid := d.nextCid, aperture := d.nextCid * 2 ^ 20 }
  let t := (sqTailOf d (sqOf c) + 1) % sqSize d (sqOf c)
  emit (.nvme n c) (modDrive n (fun d => { d with
    cmds := d.cmds ++ [c]
    nextCid := (d.nextCid + 1) % 65536
    tails := d.tails.filter (fun x => x.1 != sqOf c) ++ [(sqOf c, t)]
    commands := satAdd 64 d.commands 1 }) s)

/-- Fence an NVMe command: its aperture closes, its identifier is dead, and Abort is sent for it (R433, R474). -/
def nvmeFence (n : Nat) (c : NvmeCmd) (s : State) : State :=
  let s := modDrive n (fun d => { d with
    cmds := d.cmds.filter (fun x => x.cid != c.cid)
    dead := d.dead ++ [c.cid] }) s
  nvmePush n { cid := 0, admin := true, op := 6, lba := c.cid } s

/-- Fence every NVMe command that satisfies a test. -/
def nvmeFenceWhere (t : NvmeCmd → Bool) (s : State) : State :=
  [0, 1, 2, 3].foldl (fun s n =>
    let s := modDrive n (fun d => { d with waiting := d.waiting.filter (fun c => !t c) }) s
    ((driveOf s n).cmds.filter (fun c => !c.admin && t c)).foldl (fun s c => nvmeFence n c s) s) s

/-- Whether an operation of a partition belongs to a step slot, when one is named. -/
def inSlot (k : Option Nat) (slot : Nat) : Bool := match k with
  | none => true
  | some j => j == slot

/-- Withdraw the jobs that satisfy tests from the codec, the still engines and the cluster units; a running segment's
tag is dead on its core, and so is a running still job's engine job. -/
def killJobs (seg : SegJob → Bool) (still : StillJob → Bool) (warp : WarpTask → Bool) (s : State) : State :=
  let eng (e : Engine) : Engine := match e.job with
    | some j => if still j then { e with job := none, dead := e.dead ++ [(j.part.val, stillTag j)] } else e
    | none => e
  modUnits (fun u => { u with
    cores := u.cores.map (fun c => match c.job with
      | some j => if seg j then { c with job := none, dead := c.dead ++ [segTag j] } else c
      | none => c)
    segQ := u.segQ.filter (fun j => !seg j)
    jpeg := u.jpeg.map eng
    inflate := u.inflate.map eng
    stillQ := u.stillQ.filter (fun j => !still j)
    warpQ := u.warpQ.filter (fun x => !warp x.2) }) s

/-- Fence the sample work of a partition: of one step slot, or of all (with the encode work of its streams). -/
def killWork (p : Pid) (k : Option Nat) (s : State) : State :=
  let s := killJobs
    (fun j => decide (j.part = p) && (match j.sample with
      | some x => inSlot k x.1
      | none => k.isNone))
    (fun j => decide (j.part = p) && inSlot k j.slot)
    (fun j => decide (j.part = p) && inSlot k j.slot) s
  let s := nvmeFenceWhere (fun c => c.part == p.val && (match c.sample with
    | some x => inSlot k x.1
    | none => k.isNone)) s
  let s := modPart p (fun q => { q with runs := q.runs.filter (fun r => match k with
    | some j => !(r.kind == 0 && r.slot == j)
    | none => 2 ≤ r.kind) }) s
  modCtrl (fun c => { c with lists := c.lists.filter (fun x => !(decide (x.1 = p) && inSlot k x.2)) }) s

/-- The open requests of a partition that a fence or a teardown ends FENCED, 0x011A (Table CMD-11, R478). -/
def fenceOpen (p : Pid) (s : State) : State :=
  let hit (r : Req) : Bool := r.part == p.val && [0x0206, 0x0207, 0x0301, 0x0504, 0x0701].contains r.opcode
  (s.host.reqs.filter (fun r => hit r && (r.phase == .moving || r.phase == .pending))).foldl (fun s r =>
    let s := dropRuns r.id (killDma (fun d => decide (dmaReq d.kind = some r.id)) s)
    if r.phase == .pending then complete r.id stFenced 0x011A 0 true s else finish r (ansFenced 0x011A) s) s

/-! ## Steps -/

/-- Credits that a step still holds on each target it delivers to, returned (R240). -/
def returnCredits (p : Pid) (st : OpenStep) (s : State) : State :=
  modPart p (fun q => { q with targets := q.targets.map (fun t =>
    { t with reserved := t.reserved -
        ((List.range (hdrOf q).batchesPerStep).filter (fun b =>
          (match (bodyOf q).stages.find? (fun x => x.kind == 0x10) with
           | some d => nth d.targets b == t.id
           | none => false)
          && !(st.batches.any (fun x => x.idx == b && x.seq.isSome)))).length }) }) s

/-- Withdraw an open step: its work is discarded, its buffers released and reservations returned, and its samples
counted (R248). -/
def withdrawStep (p : Pid) (st : OpenStep) (s : State) : State :=
  let s := killWork p (some st.slot) s
  let s := if st.prep then s else returnCredits p st s
  let s := modPart p (fun q => { q with
    sc := { q.sc with steps := q.sc.steps.filter (fun x => x.slot != st.slot)
                      entries := q.sc.entries.filter (fun e => e.slot != st.slot) }
    cnt := { q.cnt with withdrawn := satAdd 64 q.cnt.withdrawn st.samples.length } }) s
  let s := releaseWhere (fun d => d.part == p.val && (match d.for_ with
    | some x => x.1 == st.slot
    | none => false)) s
  let s := unreserveAll p st.undrawn s
  st.samples.foldl (fun s x => unreserveAll p x.undrawn s) s

/-- Begin a teardown: admission stops and the state is TEARING_DOWN; a pause still waiting is refused (t0 of Table
PRT-6, Table CMD-11). -/
def beginTeardown (p : Pid) (s : State) : State :=
  let q := partOf s p
  let s := dropRequests p (fun r => r.admission) s
  let s := modPart p (fun q => { q with
    st := .tearingDown
    td := 0
    sc := { q.sc with pausing := false, pauseReq := none, teardownAtBoundary := false, asking := false } }) s
  completeOpt q.sc.pauseReq stRefused 0x0113 0 s

/-- A pausing partition with no open step is at its boundary: a teardown that waited for it begins, or the partition is
PAUSED and its cursor reported (R69, R126, R248, R508). -/
def maybePaused (p : Pid) (s : State) : State :=
  let q := partOf s p
  if q.st = .enabled && q.sc.teardownAtBoundary && q.sc.steps.isEmpty then beginTeardown p s
  else if q.st = .enabled && q.sc.pausing && q.sc.steps.isEmpty then
    let s := modPart p (fun q => { q with
      st := .paused
      sc := { q.sc with pausing := false, pauseReq := none, wait := .none, asking := false, next := q.ld.cursor }
      ld := { q.ld with loadedInPause := false, recheck := false } }) s
    completeOpt q.sc.pauseReq 0 0 (packCursor q.ld.cursor) s
  else s

/-- Stop admission and let the oldest step run to its boundary: the younger step is withdrawn, and so is a single step
that admission has not filled, which could never end (R248, log entry 31). -/
def beginPause (p : Pid) (req : Option ReqId) (s : State) : State :=
  let s := modSched p (fun c => { c with pausing := true, pauseReq := req, asking := false }) s
  let s := dropRequests p (fun r => r.admission) s
  let q := partOf s p
  let full (st : OpenStep) : Bool := st.prep || decide (st.count ≤ st.samples.length)
  let s := match q.sc.steps with
    | a :: rest => rest.foldl (fun s st => withdrawStep p st s) (if full a then s else withdrawStep p a s)
    | [] => s
  maybePaused p s

/-! ## Fencing a partition -/

/-- A fence of a unit or domain: every PAUSED partition runs the check again at its resume (R112). -/
def markRecheck (s : State) : State :=
  modParts (fun q => if q.st = .paused then { q with ld := { q.ld with recheck := true } } else q) s

/-- Count a fence in the sets of the partitions whose unit or domain it withdraws; the device-wide set counts it once
(R487). -/
def countFence (parts : List Pid) (s : State) : State :=
  let inc (x : FaultSet) : FaultSet := { x with fences := satAdd 64 x.fences 1 }
  let s := modAo (fun a => { a with faults := inc a.faults }) s
  parts.foldl (fun s p =>
    if (partOf s p).st = .free then s
    else modPCnt p (fun c => { c with faults := inc c.faults }) s) s

/-- A lasting fault that fences a unit, a domain or the device: logged, counted once for the device and once for each
partition it withdraws something from, and PAUSED partitions check again (R112, R467, R477, R487). -/
def lastingFence (part unit fault scope tag : Nat) (users : List Pid) (s : State) : State :=
  markRecheck (countFence users (lastingFault part unit fault scope tag s))

/-- R478: an ENABLED partition is fenced at its last step boundary: admission and every open operation end, both open
steps are discarded while their buffers and reservations stay, and the state is FENCED.  A teardown that waited for
the boundary goes on. -/
def fencePart (p : Pid) (cause : Nat) (s : State) : State :=
  let q := partOf s p
  if q.st ≠ .enabled then s
  else
    let c := packCursor q.ld.cursor
    let s := logEvent p.val 0x0006 cause c (c / 2 ^ 32) 0 s
    let s := countFence [p] s
    let s := killWork p none s
    let s := fenceOpen p s
    let s := dropRequests p (fun _ => true) s
    let s := modPart p (fun q => { q with
      st := .fenced
      cause := cause
      cnt := { q.cnt with withdrawn := satAdd 64 q.cnt.withdrawn (sumL (q.sc.steps.map (fun x => x.samples.length))) }
      streams := q.streams.map (fun x =>
        if x.codec.st = 1 || x.codec.st = 4 then { x with codec := { x.codec with st := 3 } } else x)
      sc := { q.sc with steps := [], entries := [], wait := .none, asking := false, pausing := false,
                        pauseReq := none, next := q.ld.cursor } }) s
    let s := completeOpt q.sc.pauseReq stFenced 0x011A 0 s
    if q.sc.teardownAtBoundary then beginTeardown p s else s

/-- Fence several partitions. -/
def fenceParts (l : List Pid) (cause : Nat) (s : State) : State := l.foldl (fun s p => fencePart p cause s) s

/-- The event log's fence of a unit of a domain that partitions lean on (R67, R479). -/
def fenceWhere (t : Part → Bool) (cause : Nat) (s : State) : State := fenceParts (partsWhere s t) cause s

/-- POOL_LEAVES_SERVICE: every buffer is lost, partitions that hold buffers or reservations are fenced, accounts go to
0 and waiting requests wait for the pool (R208). -/
def poolOut (cause : Nat) (s : State) : State :=
  if !s.units.pool.inService then s
  else
    let s := fenceWhere (fun q => sumL q.held != 0) cause s
    let s := modParts (fun q => { q with held := [0, 0, 0, 0, 0], drawn := [0, 0, 0, 0, 0] }) s
    modPool (fun q => { q with
      inService := false, descs := [], cache := [0, 0, 0, 0, 0], dcache := []
      waiters := (q.waiters.map (fun w => w.req) ++ q.cur ++ q.set).map (fun r => ⟨r, [(0, 3), (1, 3), (2, 3), (3, 3), (4, 3)]⟩)
      cur := [], set := [] }) s

/-! ## Image and unit address faults (R147, R185, R212) -/

/-- An image fault of a tile: no retry, the partition is fenced, the tile stays available (R147). -/
def imageFault (p : Pid) (unit kind addr : Nat) (s : State) : State :=
  fencePart p 0x000A (logEvent p.val 0x000A unit kind addr 0 s)

/-- The unit identifier of a buffer owner (Tables BUF-5 and ERR-9); a cluster is named by its first tile. -/
def ownerUnit (o : Owner) : Nat :=
  if o.kind = 0 then unitId 0x01 (64 * o.inst)
  else if o.kind = 1 then unitId 0x05 o.inst
  else if o.kind = 2 then unitId 0x06 o.inst
  else if o.kind = 3 then unitId 0x07 o.inst
  else if o.kind = 4 then unitId 0x0A o.inst
  else if o.kind = 5 then unitId 0x0D o.inst
  else if o.kind = 6 then unitId 0x09 0
  else unitId 0x11 0

/-- End the job that a fixed-function unit runs for a partition (R185, R212). -/
def endUnitJob (p : Pid) (o : Owner) (s : State) : State :=
  if o.kind = 1 then
    modUnits (fun u => { u with cores := vmodN u.cores o.inst (fun c => { c with job := none }) }) s
  else if o.kind = 2 then
    modUnits (fun u => { u with jpeg := vmodN u.jpeg o.inst (fun e => { e with job := none }) }) s
  else if o.kind = 3 then
    modUnits (fun u => { u with inflate := vmodN u.inflate o.inst (fun e => { e with job := none }) }) s
  else if o.kind = 6 then modPart p (fun q => { q with runs := q.runs.filter (fun r => !r.started) }) s
  else s

/-- An address fault (what = 1) or buffer fault (what = 2): a tile's is an image fault; a fixed-function unit's ends its
job and fences the partition, and the unit stays available (R147, R185, R212). -/
def accessFault (p : Pid) (o : Owner) (tile : Option Nat) (what addr : Nat) (s : State) : State :=
  if o.kind = 0 then
    imageFault p (match tile with | some t => unitId 0x01 t | none => ownerUnit o) (if what = 1 then 2 else 5) addr s
  else
    let s := logEvent p.val 0x0302 (ownerUnit o) what addr (addr / 2 ^ 32) s
    fencePart p 0x0302 (endUnitJob p o s)

end Sys2Proof.Machine
end

