-- ==== Sys2Proof/Machine/Power.lean ====
section
/-!
DEFINITION. Power domains: DEVICE_POWER_SET, power-up and power-down, loss of power-good and re-power, and what each
domain takes with it (R59 to R67, R178, R208).
-/
namespace Sys2Proof.Machine

/-- Whether a domain's prerequisites hold (Table CLK-3). -/
def needsMet (d : Nat) (ok : Nat → Bool) : Bool :=
  if d = 3 || d = 4 then ok 2
  else if d = 5 then ok 2 && (ok 3 || ok 4)
  else if d = 6 || d = 7 then ok 5
  else true

/-- The domains that depend on a domain directly. -/
def dependents (d : Nat) : List Nat :=
  if d = 2 then [3, 4, 5] else if d = 3 || d = 4 then [5] else if d = 5 then [6, 7] else []

/-- The code of a domain state (Table CMD-4). -/
def domCode : DomSt → Nat
  | .off => 0 | .powering => 1 | .on => 2 | .poweringDown => 3 | .fenced => 4

/-- Change a domain's state; each change is logged as DOMAIN_STATE (R62). -/
def changeDom (d : Nat) (st : DomSt) (attempt : Nat) (s : State) : State :=
  logDev 0x0102 (unitId 0x12 d) (domCode st) attempt 0 (setDom d st s)

/-- The tile domain that holds a cluster. -/
def clusterDom (c : Nat) : Nat := if c % 16 < 8 then 3 else 4

/-- Whether a partition holds a grant in a domain (R64). -/
def holdsIn (q : Part) (d : Nat) : Bool :=
  let minima := sumL q.g.min != 0
  if d = 2 then winGib q.g.win != 0 || minima
  else if d = 3 then q.g.clusters.any (fun c => clusterDom c == 3) || !q.g.win.all.isEmpty || !q.g.win.west.isEmpty
    || minima || sumL q.held != 0
  else if d = 4 then q.g.clusters.any (fun c => clusterDom c == 4) || !q.g.win.all.isEmpty || !q.g.win.east.isEmpty
    || minima || sumL q.held != 0
  else if d = 5 then !q.g.ports.isEmpty || !q.g.ns.isEmpty
  else if d = 6 then !q.g.cores.isEmpty
  else false

/-- Whether a standby window counts as a grant in a domain (R183, R447). -/
def standbyIn (s : State) (d : Nat) : Bool :=
  s.units.pair.plans.any (fun x =>
    if d = 2 then winGib x.win != 0
    else if d = 3 then !x.win.all.isEmpty || !x.win.west.isEmpty
    else if d = 4 then !x.win.all.isEmpty || !x.win.east.isEmpty
    else false)

/-! ## What a domain takes with it -/

/-- Near memory without power: contents and zeroing are gone, held windows are dirty, the log's spill area is lost
(R114, R482). -/
def memOff (s : State) : State :=
  let dirty (w : Window) : Window := { w with unzero := winHalfRows w }
  let s := modMem (fun m => { m with cells := [], clean := [], reread := [], zeroed := [] }) s
  let s := modParts (fun q => { q with g := { q.g with win := dirty q.g.win } }) s
  let s := modPair (fun p => { p with plans := p.plans.map (fun x => { x with win := dirty x.win, st := 1 }) }) s
  modLog (fun l => { l with spill := [] }) s

/-- Tiles of a half without power. -/
def tilesOff (d : Nat) (s : State) : State :=
  modUnits (fun u => { u with
    tiles := u.tiles.filter (fun t => clusterDom (t.id / 64) != d)
    warpQ := u.warpQ.filter (fun x => clusterDom x.1 != d)
    mesh := { u.mesh with
      replays := u.mesh.replays.filter (fun x => (decide (x.1 < 66)) != (d == 3))
      slotRunning := u.mesh.slotRunning && domOn s (7 - d) } }) s

/-- A drive without its root port. -/
def driveOff (d : Drive) : Drive := { d with st := 0, phase := 0, rate := 0, width := 0, cmds := [], waiting := [], tails := [], dead := [], ns := [], queues := [],
                                             req := none, lastReset := none }

/-- PD_NET without power: ports, drives and the Darrad link are down (R389, R435, R439). -/
def netOff (s : State) : State :=
  let s := s.units.drives.toList.foldl (fun s d => completeOpt d.req stFenced 0x0114 2 s) s
  modUnits (fun u => { u with
    ports := u.ports.map (fun p => { p with link := .down, trainTried := false, training := false })
    drives := u.drives.map driveOff
    ptp := { u.ptp with locked := false, good := 0, waiting := none }
    pair := { u.pair with link := .down, trained := false, training := false, retrainTried := false, helloSeen := false
                          helloOut := false, holdSeen := false }
    mesh := { u.mesh with fifoOnce := u.mesh.fifoOnce.filter (fun c => c == 13) } }) s

/-- PD_VID without power: every engine is idle and its fence ends (R254, R293). -/
def vidOff (s : State) : State :=
  modUnits (fun u => { u with cores := Vector.replicate 24 {}, jpeg := Vector.replicate 8 {},
                              inflate := Vector.replicate 16 {}, stillQ := [], segQ := [] }) s

/-- The owners of the Churn slices as they are granted (R349). -/
def churnOwners (s : State) : List (Nat × Nat) :=
  allPids.flatMap (fun p => (partOf s p).g.churn.map (fun i => (i, p.val)))

/-- PD_CHURN without power: its state is gone; open runs of CHURN_RUN and RANDOM_EVALUATE end FENCED (R365). -/
def churnOff (s : State) : State :=
  let s := allPids.foldl (fun s p =>
    ((partOf s p).runs.filter (fun r => r.kind == 2 || r.kind == 3)).foldl (fun s r =>
      completeOpt r.req stFenced 0x0114 0 s) s) s
  let s := modParts (fun q => { q with
    runs := (q.runs.filter (fun r => r.kind == 0)).map (fun r => { r with started := false, saved := false })
    ex := if q.ex.running then { q.ex with running := false, kept := q.ex.kept + 1 } else q.ex }) s
  modChurn (fun c => { c with slice := 0, owners := churnOwners s, holder := none, moving := false, moveRetried := false, fenced := false, chain1 := [] }) s

/-- The units that go with a domain. -/
def unitsOff (d : Nat) (s : State) : State :=
  if d = 2 then memOff s
  else if d = 3 || d = 4 then tilesOff d s
  else if d = 5 then netOff s
  else if d = 6 then vidOff s
  else if d = 7 then churnOff s
  else s

/-- Table CLK-5: the partitions that a loss of a domain fences. -/
def lossFences (d : Nat) (q : Part) : Bool :=
  if d = 2 || d = 5 then true
  else if d = 3 || d = 4 then q.g.clusters.any (fun c => clusterDom c == d)
  else if d = 6 then usesVid q
  else false

/-- The host link drops: no configuration answer and no DMA (R70 applies with the next reset). -/
def linkDown (s : State) : State :=
  modHost (fun h => { h with link := { h.link with up := false, rate := 0, width := 0 } }) s

/-! ## Operations in progress -/

/-- A completion of DEVICE_POWER_SET for one domain: row, new state, attempt (R62, R496); the last has LAST set. -/
def finishDom (d : Nat) (st : DomSt) (attempt status reason : Nat) (s : State) : State :=
  match s.ao.pwr.op with
  | none => s
  | some o =>
    if o.repower = some d then modPwr (fun p => { p with op := none }) s
    else if !(o.toOn.contains d || o.toOff.contains d) then s
    else
      let on := o.toOn.filter (fun x => x != d)
      let off := o.toOff.filter (fun x => x != d)
      let last := on.isEmpty && off.isEmpty
      let s := modPwr (fun p => { p with op := if last then none else some { o with toOn := on, toOff := off } }) s
      match o.req with
      | some r => complete r status reason (d + domCode st * 256 + attempt * 65536) last s
      | none => s

/-- A domain goes off without a request, and with it those that then lack a prerequisite (R59, R67). -/
def dropDom : Nat → Nat → State → State
  | 0, _, s => s
  | n + 1, d, s =>
    let was := domOf s d
    if was = .off || was = .fenced then s
    else
      let s := changeDom d .off 0 s
      let s := finishDom d .off 0 stFenced 0x0114 s
      let s := if d = 1 then linkDown s else s
      let s := fenceWhere (lossFences d) 0x0102 s
      let s := if d = 2 || d = 3 || d = 4 then poolOut 0x0102 s else s
      let s := unitsOff d s
      (dependents d).foldl (fun s e =>
        if needsMet e (fun x => domOn s x) then s else dropDom n e s) s

/-- Begin the first or second try of a domain (R65, R66). -/
def beginDom (d attempt : Nat) (s : State) : State :=
  let s := changeDom d .powering attempt s
  modPwr (fun p => { p with attempt := vmodN p.attempt d (fun _ => attempt)
                            inrush := if d = 3 then true else p.inrush }) s

/-- R65: begin every domain whose prerequisites are on, end those that can no longer begin, and begin each power-down
once its dependents are off; PD_TILE_E waits 1 ms after PD_TILE_W. -/
def advancePower : Nat → State → State
  | 0, s => s
  | n + 1, s =>
    match s.ao.pwr.op with
    | none => s
    | some o =>
      let st (x : Nat) : DomSt := domOf s x
      let can (x : Nat) : Bool := st x == .on || st x == .powering || (o.toOn.contains x && st x != .fenced)
      let wait := o.toOn.filter (fun d => st d != .powering)
      match wait.find? (fun d => !needsMet d can) with
      | some d => advancePower n (finishDom d (st d) 0 stFenced 0x0114 s)
      | none =>
        match wait.find? (fun d => needsMet d (fun x => st x == .on) && !(d == 4 && s.ao.pwr.inrush)) with
        | some d => advancePower n (beginDom d 1 s)
        | none =>
          let ready (d : Nat) : Bool :=
            st d == .on && (dependents d).all (fun e =>
              if o.toOff.contains e then st e == .off || st e == .fenced
              else (st e != .on && st e != .powering && !o.toOn.contains e)
                || needsMet e (fun x => st x == .on && !o.toOff.contains x))
          match o.toOff.find? ready with
          | some d =>
            let s := changeDom d .poweringDown 1 s
            let s := if d = 2 || d = 3 || d = 4 then poolOut 0x0102 s else s
            advancePower n s
          | none => s

/-! ## DEVICE_POWER_SET -/

/-- The BAD_FIELD cases of R496. -/
def powerFields (r : Req) : Bool :=
  let on := field r.payload 0 1
  let off := field r.payload 1 1
  (on ||| off) % 4 == 0 && on &&& off == 0 && zeroAt r.payload 2 2

/-- The tests of R63 from the third on, then the acceptance. -/
def powerSet (r : Req) (s : State) : State × Ans :=
  let st (x : Nat) : DomSt := domOf s x
  let on := (bitsOf (field r.payload 0 1) 8).filter (fun d => st d != .on)
  let off := (bitsOf (field r.payload 1 1) 8).filter (fun d => st d == .on)
  let busy := s.ao.pwr.op.isSome || s.ao.pwr.dom.toList.any (fun d => d == .powering || d == .poweringDown)
  let willOn (x : Nat) : Bool := (st x == .on && !off.contains x) || on.contains x
  let fencedFor (d : Nat) : Bool :=
    st d == .fenced
      || (if d = 3 || d = 4 then st 2 == .fenced
          else if d = 5 then st 2 == .fenced || ((st 3 == .fenced || st 4 == .fenced) && !willOn 3 && !willOn 4)
          else if d = 6 || d = 7 then st 5 == .fenced else false)
  let inUse (d : Nat) : Bool :=
    (partsWhere s (fun q => q.st != .free && holdsIn q d)).length != 0 || standbyIn s d
      || (dependents d).any (fun e => willOn e && !needsMet e willOn)
  if busy then (s, ansBusy 0x010E 1000)
  else if on.any fencedFor then (s, ansFenced 0x0114)
  else if on.any (fun d => !needsMet d (fun x => st x == .on || on.contains x)) then (s, ansRefused 0x010C)
  else if off.any inUse then (s, ansRefused 0x010D)
  else if on.isEmpty && off.isEmpty then (s, ansOk)
  else
    let s := modPwr (fun p => { p with op := some { req := some r.id, tag := r.tag, toOn := on, toOff := off.reverse,
                                                    repower := none } }) s
    (advancePower 32 s, ansPend)

/-- Row DEVICE_POWER_SET. -/
def execDevicePowerSet (r : ReqId) (s : State) : Host.Outcome State Fault Refusal :=
  .next (runCmd r 0x0102 (fun _ => true) (fun _ q => powerFields q) (answering powerSet) s)

/-- domain_state: one byte per domain in the row order of Table CLK-3. -/
def domBytes (s : State) : List Byte := s.ao.pwr.dom.toList.map (fun d => BitVec.ofNat 8 (domCode d))

/-- Row DEVICE_POWER_STATUS (R496). -/
def execDevicePowerStatus (r : ReqId) (s : State) : Host.Outcome State Fault Refusal :=
  .next (runCmd r 0x0103 (fun _ => true) (fun _ _ => true) (reading (fun _ s => ansOk (domBytes s))) s)

/-! ## Domains coming on -/

/-- PD_MEM comes on: the pool area follows its configuration, all grantable memory is dirty, and records lost
meanwhile are reported (R114, R206, R482). -/
def memOn (s : State) : State :=
  let s := modPool (fun p =>
    let m := metaRowsOf p.cfg
    { p with rows := p.cfg, metaRows := m, area := areaRows s.units.mem.retired (m + sumL p.cfg) }) s
  if s.log.lost = 0 then s
  else
    let n := s.log.lost
    let f := s.log.lostFirst
    logDev 0x0009 n f 2 0 (modLog (fun l => { l with lost := 0, lostFirst := 0 }) s)

/-- A tile domain comes on: tiles idle and zero; a tile that fails its self-test leaves its cluster unavailable and is
logged as lasting (R146). -/
def tilesOn (d : Nat) (bad : List Nat) (s : State) : State :=
  let bad := bad.filter (fun t => clusterDom (t / 64) == d && decide (t < 8192))
  let s := modUnits (fun u => { u with
    tiles := u.tiles ++ bad.map (fun t => { id := t, fenced := true })
    unavailable := (bad.map (fun t => t / 64)).foldl (fun l c => insSorted c l)
      (u.unavailable.filter (fun c => clusterDom c != d)) }) s
  bad.foldl (fun s t => lastingFence 0xFF (unitId 0x01 t) 0x0002 2 (t * 65536) [] s) s

/-- PD_NET comes on: fences of its ports and drives end (Table ERR-6). -/
def netOn (s : State) : State :=
  modUnits (fun u => { u with ports := u.ports.map (fun p => { p with link := .down, trainTried := false, training := false })
                              drives := u.drives.map driveOff
                              pair := { u.pair with link := .down } }) s

/-- What a domain brings when it comes on. -/
def unitsOn (d : Nat) (bad : List Nat) (s : State) : State :=
  if d = 2 then memOn s
  else if d = 3 || d = 4 then tilesOn d bad s
  else if d = 5 then netOn s
  else if d = 6 then vidOff s
  else if d = 7 then churnOff s
  else s

end Sys2Proof.Machine
end

