-- ==== Sys2Proof/Machine/Reset.lean ====
section
/-!
DEFINITION. Resets, boot, clock loss and the domain events (R51, R57, R62, R65 to R80, R533, R549).
-/
namespace Sys2Proof.Machine

/-! ## Function-level resets (R69, R70) -/

/-- Pause a partition at its next step boundary, if it runs (R69). -/
def flrPause (p : Pid) (s : State) : State :=
  if (partOf s p).st = .enabled && !(partOf s p).sc.pausing then beginPause p none s else s

/-- VF_FLR: the function's open commands are fenced, its blocks reset, and its partition pauses (R69). -/
def doVfFlr (v : Pid) (s : State) : State :=
  let f := fnOfPart v
  if !fnExists s f || !s.host.link.up then s else flrPause v (resetFn f s)

def execVfFlr (vf : Pid) (s : State) : Host.Outcome State Fault Refusal := .next (doVfFlr vf s)

/-- R70: a PF FLR, hot reset or link-down resets the host interface of every function, clears VF Enable and pauses
every partition. -/
def hostReset (s : State) : State :=
  let s := allFns.foldl (fun s f => resetFn f s) s
  let s := modHost (fun h => { h with link := { h.link with vfEnable := false, numVfs := 0 } }) s
  allPids.foldl (fun s p => flrPause p s) s

def doPfFlr (s : State) : State := if s.host.link.up then hostReset s else s

def execPfFlr (s : State) : Host.Outcome State Fault Refusal := .next (doPfFlr s)

def doHotReset (s : State) : State := if s.host.link.up then hostReset s else s

def execPcieHotReset (s : State) : Host.Outcome State Fault Refusal := .next (doHotReset s)

def doHostLinkDown (s : State) : State := if s.host.link.up then hostReset (linkDown s) else s

def execHostLinkDown (s : State) : Host.Outcome State Fault Refusal := .next (doHostLinkDown s)

/-! ## Cold and warm reset (R68) -/

/-- What a cold reset leaves: fuses, flash, the module's side, and the model's own bookkeeping; the power limit is
700 W (R539). -/
def coldState (s : State) : State :=
  { ao := { mod_ := s.ao.mod_
            clk := { refclk := s.ao.clk.refclk }
            fuse := s.ao.fuse
            fw := { slotA := s.ao.fw.slotA, slotB := s.ao.fw.slotB }
            therm := { temps := s.ao.therm.temps, powerMw := s.ao.therm.powerMw, tap := s.ao.therm.tap } }
    time := s.time, freeCtr := s.freeCtr, out := s.out, pending := s.pending }

/-- What a warm reset leaves: also clocks, the log without its spill area, retired half-rows and the monitors (R191,
R482). -/
def warmState (s : State) : State :=
  { ao := { mod_ := s.ao.mod_
            clk := s.ao.clk
            boot := { phase := .hostUp, warm := true }
            fuse := s.ao.fuse
            fw := { slotA := s.ao.fw.slotA, slotB := s.ao.fw.slotB }
            therm := s.ao.therm }
    units := { mem := { retired := s.units.mem.retired, retiredCount := s.units.mem.retiredCount }
               pool := { area := areaRows s.units.mem.retired 64 } }
    log := { s.log with spill := [] }
    time := s.time, freeCtr := s.freeCtr, out := s.out, pending := s.pending }

/-- The departure notice: sent while PD_NET is on and the Darrad link is trained (R71). -/
def departureNotice (s : State) : State :=
  if domOn s 5 && s.units.pair.trained then
    emit (.darrad 2 ⟨0, 0, s.units.pair.txSeq, s.units.pair.gen, 0xFF, 0⟩ [])
      (modPair (fun p => { p with txSeq := (p.txSeq + 1) % 2 ^ 32 }) s)
  else s

/-- A warm reset is triggered: the notice leaves before it begins (R71). -/
def warmTrigger (s : State) : State :=
  if s.ao.boot.warmDue then s else modBoot (fun b => { b with warmDue := true }) (departureNotice s)

/-- WARM_RESET_BEGIN: every domain but PD_AO powers down, and PD_HOST is begun again (Table CLK-10). -/
def doWarmResetBegin (s : State) : State :=
  if s.ao.boot.warmDue then
    modPwr (fun p => { p with dom := vmodN p.dom 1 (fun _ => .powering), attempt := vmodN p.attempt 1 (fun _ => 1) })
      (warmState s)
  else s

def execWarmResetBegin (s : State) : Host.Outcome State Fault Refusal := .next (doWarmResetBegin s)

/-- RESET_DELAY_EXPIRY: 1 ms after the response of DEVICE_RESET (R71). -/
def doResetDelay (s : State) : State :=
  if s.ao.boot.resetKind = 1 then warmTrigger s
  else if s.ao.boot.resetKind = 2 then
    let s := coldState (departureNotice s)
    modBoot (fun b => { b with phase := .locking }) s
  else s

def execResetDelayExpiry (s : State) : Host.Outcome State Fault Refusal := .next (doResetDelay s)

/-! ## Boot (R74 to R79) -/

/-- The first failing condition of R75 that the header alone shows: 1 magic or version, 2 reserved, 3 length. -/
def headerFail (h : List Byte) : Nat :=
  if field h 0 4 != 0x57464854 || field h 4 2 != 1 then 1
  else if !(zeroAt h 6 2 && zeroAt h 0x18 8 && zeroAt h 0x81 127 && zeroAt h 0x160 160) then 2
  else if field h 0x0C 4 < 4096 || 25165312 < field h 0x0C 4 then 3
  else 0

/-- The first failing condition of R75, 1 to 6 in its order, or 0 when the image is valid. -/
def imageFail (fuse : FuseSt) (img : List Byte) : Nat :=
  let h := slice img 0 512
  if headerFail h != 0 then headerFail h
  else
    let pub := slice h 0x20 97
    if sha384 pub != fuse.keyHash then 4
    else if !ecdsaVerify pub (sha384 (slice h 0 256 ++ slice img 512 (field h 0x0C 4))) (slice h 0x100 48)
              (slice h 0x130 48) then 5
    else if field h 8 4 < fuse.rollback then 6
    else 0

def slotBytes (s : State) (k : Nat) : List Byte := if k = 0 then s.ao.fw.slotA else s.ao.fw.slotB

/-- R76: the slot tried first. -/
def firstSlot (s : State) : Nat :=
  let ok (k : Nat) : Bool := headerFail (slice (slotBytes s k) 0 512) == 0
  let ver (k : Nat) : Nat := field (slotBytes s k) 0x14 4
  if ok 1 && (!ok 0 || decide (ver 0 < ver 1)) then 1 else 0

/-- Start the boot ROM (Table CLK-8): fuses, then the root PLL. -/
def bootStart (s : State) : State := modBoot (fun b => { b with phase := .locking }) s

/-- PERST_DEASSERT: pins return to functional mode and boot starts, not before 100 ms after PWR_GOOD (R79, R533,
R540). -/
def doPerstDeassert (s : State) : State :=
  if !s.ao.mod_.perst || !s.ao.mod_.pwrGood then s
  else
    let s := modModule (fun m => { m with perst := false }) s
    let s := modTherm (fun t => { t with tap := match t.tap with
      | .extest | .extestPulse | .extestTrain | .intest => .bypass
      | x => x }) s
    if s.ao.mod_.holdOver then bootStart s else s

def execPerstDeassert (s : State) : Host.Outcome State Fault Refusal := .next (doPerstDeassert s)

/-- PERST_ASSERT: a cold reset, in which the die is held (R68, R81). -/
def doPerstAssert (s : State) : State :=
  if s.ao.mod_.pwrGood then modModule (fun m => { m with perst := true }) (coldState s)
  else modModule (fun m => { m with perst := true }) s

def execPerstAssert (s : State) : Host.Outcome State Fault Refusal := .next (doPerstAssert s)

/-- Begin PD_HOST under the boot ROM (R65). -/
def beginHost (s : State) : State :=
  modPwr (fun p => { p with dom := vmodN p.dom 1 (fun _ => .powering), attempt := vmodN p.attempt 1 (fun _ => 1) }) s

/-- The service state begins; a fault that causes it is logged (R51). -/
def enterService (cause : Nat) (s : State) : State :=
  let s := modAo (fun a => { a with service := true }) s
  if cause = 0 then s else logDev 0x0109 cause 0 0 0 s

/-- The boot ROM's own responder answers (R51, R57). -/
def romResponder (s : State) : State :=
  let s := modBoot (fun b => { b with phase := .rom, slot := 0xFF }) s
  let s := modAo (fun a => { a with service := true, fw := { a.fw with version := 0, numerics := 0 } }) s
  modHost (fun h => { h with link := { h.link with rrs := false } }) s

/-- ROOT_PLL_LOCK_DONE: at boot the clocks start and PD_HOST is begun, with one more try after a failure; after a loss
it ends the one relock attempt (R57, R79). -/
def doPllLockDone (ok : Bool) (s : State) : State :=
  if s.ao.boot.phase = .locking then
    if ok then
      beginHost (modBoot (fun b => { b with phase := .hostUp })
        (modClk (fun c => { c with pllLocked := true, onInternal := false, stopped := false }) s))
    else if s.ao.clk.lockTries = 0 then modClk (fun c => { c with lockTries := 1 }) s
    else
      let s := logDev 0x0103 2 0 0 0 s
      beginHost (modBoot (fun b => { b with phase := .rom }) s)
  else if s.ao.clk.relocking then
    let lost := s.ao.clk.lost
    if ok then
      let s := modClk (fun c => { c with relocking := false, lost := 0, pllLocked := true, onInternal := false,
                                         stopped := false }) s
      let s := logDev 0x0103 lost 1 0 0 s
      let s := modBoot (fun b => { b with phase := if b.slot = 0xFF then .rom else .running }) s
      enterService 0x0103 s
    else
      let s := modClk (fun c => { c with relocking := false }) s
      logDev 0x0103 lost 0 0 0 s
  else s

def execRootPllLockDone (ok : Bool) (s : State) : Host.Outcome State Fault Refusal := .next (doPllLockDone ok s)

/-- IMAGE_VERIFY_DONE: a valid slot runs Sorud and the service state begins; else the other slot is tried once, and
with neither valid the boot ROM's responder answers (R76, R79). -/
def doImageVerifyDone (s : State) : State :=
  let b := s.ao.boot
  if b.phase ≠ .verifying then s
  else
    let img := slotBytes s b.slot
    let bad := imageFail s.ao.fuse img
    if bad = 0 then
      let s := modFw (fun w => { w with version := field img 0x14 4, numerics := field img 0x10 4,
                                        rollbackVersion := field img 8 4, verMin := 1, verMax := 1 }) s
      let s := modBoot (fun b => { b with phase := .running }) s
      let s := modHost (fun h => { h with link := { h.link with rrs := false } }) s
      enterService 0 s
    else if b.tried.length < 2 then
      let o := 1 - b.slot
      let s := logDev 0x0101 b.slot bad o 0 s
      modBoot (fun b => { b with slot := o, tried := b.tried ++ [o], fallback := true }) s
    else romResponder s

def execImageVerifyDone (s : State) : Host.Outcome State Fault Refusal := .next (doImageVerifyDone s)

/-! ## Domain events -/

/-- PD_HOST is on during boot: headers read, slot chosen, its image read (Tables CLK-8 and CLK-10). -/
def bootHostOn (s : State) : State :=
  if s.ao.boot.phase = .rom then romResponder s
  else
    let k := firstSlot s
    modBoot (fun b => { b with phase := .verifying, slot := k, tried := [k] }) s

/-- PD_HOST powers up: the host controller's port is no longer fenced. -/
def unfenceHost (s : State) : State :=
  modMesh (fun m => { m with fifoOnce := m.fifoOnce.filter (fun c => c != 13) })
    (modHost (fun h => { h with link := { h.link with fenced := false } }) s)

/-- DOMAIN_POWER_UP_DONE (R62, R65, R66, R67). -/
def doDomainUp (d : Domain) (bad : List Nat) (s : State) : State :=
  let n := d.val
  if domOf s n ≠ .powering then s
  else
    let a := vget s.ao.pwr.attempt n 0
    if n = 1 && (s.ao.boot.phase = .hostUp || s.ao.boot.phase = .rom) && s.ao.pwr.op.isNone then
      bootHostOn (setDom 1 .on s)
    else
      let s := if a = 2 then transientFault 0xFF (unitId 0x12 n) 0x0008 0 s else s
      let s := changeDom n .on a s
      let s := unitsOn n bad s
      let s := if 2 ≤ n then modAo (fun x => { x with service := false }) s else s
      let s := if n = 1 then hostReset (unfenceHost s) else s
      advancePower 32 (finishDom n .on a 0 0 s)

def execDomainPowerUpDone (d : Domain) (badTiles : List Nat) (s : State) : Host.Outcome State Fault Refusal :=
  .next (doDomainUp d badTiles s)

/-- DOMAIN_POWER_UP_FAIL: one more attempt, then the domain is FENCED (R66); a lasting failure of PD_HOST fences every
partition, and a fenced PD_MEM leaves the device in the service state. -/
def doDomainUpFail (d : Domain) (s : State) : State :=
  let n := d.val
  if domOf s n ≠ .powering then s
  else if vget s.ao.pwr.attempt n 0 < 2 then
    if n = 1 && s.ao.pwr.op.isNone then modPwr (fun p => { p with attempt := vmodN p.attempt 1 (fun _ => 2) }) s
    else beginDom n 2 s
  else
    let s := changeDom n .fenced 2 s
    let s := lastingFence 0xFF (unitId 0x12 n) 0x0008 4 0 (partsWhere s (fun q => q.st != .free && holdsIn q n)) s
    let s := if n = 1 then fenceParts allPids 0x0002 s else s
    let s := if n = 2 then enterService 0 s else s
    advancePower 32 (finishDom n .fenced 2 stFenced 0x0114 s)

def execDomainPowerUpFail (d : Domain) (s : State) : Host.Outcome State Fault Refusal := .next (doDomainUpFail d s)

/-- DOMAIN_POWER_DOWN_DONE (R62, R65); with every switched domain off the device is in the service state again. -/
def doDomainDown (d : Domain) (s : State) : State :=
  let n := d.val
  if domOf s n ≠ .poweringDown then s
  else
    let s := changeDom n .off 1 s
    let s := unitsOff n s
    let s := if [2, 3, 4, 5, 6, 7].any (fun k => domOn s k) then s else enterService 0 s
    advancePower 32 (finishDom n .off 1 0 0 s)

def execDomainPowerDownDone (d : Domain) (s : State) : Host.Outcome State Fault Refusal := .next (doDomainDown d s)

/-- INRUSH_DELAY_EXPIRY: 1 ms after PD_TILE_W began, PD_TILE_E may begin (R65). -/
def doInrush (s : State) : State :=
  if s.ao.pwr.inrush then advancePower 32 (modPwr (fun p => { p with inrush := false }) s) else s

def execInrushDelayExpiry (s : State) : Host.Outcome State Fault Refusal := .next (doInrush s)

/-- Loss of PD_AO: the device stops and its state is lost; the next start is a cold reset (Table CLK-5). -/
def aoLost (s : State) : State :=
  let s := coldState s
  let s := modBoot (fun b => { b with phase := .stopped }) s
  setDom 0 .off s

/-- POWER_GOOD_LOSS, as Table CLK-5 states; PD_AO stops the device, PD_MEM is not powered again, the others make a
re-power (R67). -/
def doPowerGoodLoss (d : Domain) (s : State) : State :=
  let n := d.val
  if n = 0 then (if domOn s 0 then aoLost s else s)
  else if !domOn s n then s
  else
    let s := dropDom 8 n s
    if n = 2 then advancePower 32 (enterService 0x0102 s)
    else
      let s := if n = 7 then
          (partsWhere s (fun q => !q.g.churn.isEmpty)).foldl (fun s p =>
            logEvent p.val 0x0102 (unitId 0x12 7) 0 0 0 s) s
        else s
      if needsMet n (fun x => domOn s x) then
        let s := if s.ao.pwr.op.isNone then
            modPwr (fun p => { p with op := some { req := none, tag := 0, toOn := [], toOff := [], repower := some n } }) s
          else s
        advancePower 32 (beginDom n 1 s)
      else advancePower 32 s

def execPowerGoodLoss (d : Domain) (s : State) : Host.Outcome State Fault Refusal := .next (doPowerGoodLoss d s)

/-- POOL_ENTERS_SERVICE: within 1 ms of the last of PD_MEM and both tile domains (R208). -/
def doPoolIn (s : State) : State :=
  if domOn s 2 && domOn s 3 && domOn s 4 && !s.units.pool.inService then poolIn s else s

def execPoolEntersService (s : State) : Host.Outcome State Fault Refusal := .next (doPoolIn s)

/-- A lasting fault of PD_MEM as a whole: PD_MEM is FENCED until a warm or cold reset, every partition is fenced, and
the service state begins (R51, R192). -/
def memFault (unit fault tag : Nat) (s : State) : State :=
  let users := partsWhere s (fun q => q.st != .free && holdsIn q 2)
  let s := lastingFence 0xFF unit fault 5 tag users s
  let s := fenceParts allPids 0x0002 s
  let s := dropDom 8 2 s
  let s := changeDom 2 .fenced 0 s
  advancePower 32 (enterService 0x0002 s)

/-! ## Clocks (R57) -/

/-- REFCLK or root-PLL lock is lost: clocks but CCLK in PD_AO stop, every partition is fenced, the loss is logged, and
the device answers as the boot ROM's responder does. -/
def clockLoss (cause : Nat) (s : State) : State :=
  if s.ao.clk.lost != 0 || !s.ao.clk.pllLocked then s
  else
    let s := modClk (fun c => { c with lost := cause, pllLocked := false, onInternal := true, stopped := true }) s
    let s := countFence (partsWhere s (fun q => q.st == .enabled)) s
    let s := fenceParts allPids 0x0103 s
    let s := [7, 6, 5, 4, 3, 2].foldl (fun s d => dropDom 8 d s) s
    let s := logDev 0x0103 cause 2 0 0 s
    let s := modBoot (fun b => { b with phase := .rom }) (markRecheck s)
    modAo (fun a => { a with service := true }) s

/-- REFCLK_LOST: the host link, which depends on REFCLK, goes down with it (R56, R57). -/
def doRefclkLost (s : State) : State :=
  if !s.ao.clk.refclk then s
  else
    let s := clockLoss 1 (modClk (fun c => { c with refclk := false }) s)
    if s.host.link.up then hostReset (linkDown s) else s

def execRefclkLost (s : State) : Host.Outcome State Fault Refusal := .next (doRefclkLost s)

/-- ROOT_PLL_LOCK_LOST: with REFCLK present the one relock attempt is made at once (R57). -/
def doPllLost (s : State) : State :=
  if s.ao.clk.lost != 0 || !s.ao.clk.pllLocked then s
  else modClk (fun c => { c with relocking := true }) (clockLoss 2 s)

def execRootPllLockLost (s : State) : Host.Outcome State Fault Refusal := .next (doPllLost s)

/-- REFCLK_RETURN: the one relock attempt after a loss (R57). -/
def doRefclkReturn (s : State) : State :=
  if s.ao.clk.refclk then s
  else modClk (fun c => { c with refclk := true, relocking := c.lost != 0 }) s

def execRefclkReturn (s : State) : Host.Outcome State Fault Refusal := .next (doRefclkReturn s)

/-! ## Control pair A -/

/-- PAIR_A_LOCKSTEP_MISMATCH: logged, then a warm reset (R68). -/
def doPairALockstep (s : State) : State :=
  if s.ao.boot.phase = .running then warmTrigger (logDev 0x0104 0 2 0 0 s) else s

def execPairALockstepMismatch (s : State) : Host.Outcome State Fault Refusal := .next (doPairALockstep s)

/-- PAIR_A_FIRMWARE_WATCHDOG: a warm reset (R68). -/
def doPairAWatchdog (s : State) : State := if s.ao.boot.phase = .running then warmTrigger s else s

def execPairAFirmwareWatchdog (s : State) : Host.Outcome State Fault Refusal := .next (doPairAWatchdog s)

end Sys2Proof.Machine
end

