-- ==== Sys2Proof/Machine/DeviceCmd.lean ====
section
/-!
DEFINITION. The device commands of the Command Reference but the power commands: DEVICE_IDENTIFY, DEVICE_RESET,
FIRMWARE_UPDATE, DEVICE_TILE_MAP_READ, DEVICE_MEMORY_STATUS and DEVICE_POOL_CONFIG (R71, R77, R78, R80, R137 to R140,
R206, R207, R497 to R500).
-/
namespace Sys2Proof.Machine

/-! ## DEVICE_IDENTIFY and DEVICE_RESET -/

/-- The 40 bytes of DEVICE_IDENTIFY (R80); the boot ROM responder reports the two revisions as 0. -/
def identify (s : State) : List Byte :=
  let rom := s.ao.boot.phase == .rom
  toLe 4 0x00008192 ++ toLe 1 s.ao.fuse.stepping ++ toLe 1 s.ao.boot.slot ++ toLe 1 s.ao.fw.verMin
    ++ toLe 1 s.ao.fw.verMax ++ toLe 8 s.ao.fuse.serial ++ toLe 4 (if rom then 0 else s.ao.fw.version)
    ++ toLe 4 (if rom then 0 else s.ao.fw.numerics) ++ toLe 4 s.ao.fuse.rollback
    ++ toLe 1 (s.ao.boot.fallback.toNat + 2 * s.ao.service.toNat + (if s.units.pair.st = 3 then 4 else 0))
    ++ zeros 3 ++ domBytes s

/-- Row DEVICE_IDENTIFY. -/
def execDeviceIdentify (r : ReqId) (s : State) : Host.Outcome State Fault Refusal :=
  .next (runCmd r 0x0101 (fun _ => true) (fun _ _ => true) (reading (fun _ s => ansOk (identify s))) s)

/-- DEVICE_RESET accepted: the response is posted and the reset begins 1 ms later (R71, R497). -/
def acceptReset (kind : Nat) (_ : Req) (s : State) : State × Ans :=
  (modBoot (fun b => { b with resetKind := kind }) s, ansOk)

/-- Row DEVICE_RESET, WARM; a kind that is neither WARM nor COLD is answered BAD_FIELD here (R497). -/
def execDeviceResetWarm (r : ReqId) (s : State) : Host.Outcome State Fault Refusal :=
  .next (runCmd r 0x0104 (fun b => field b 0 1 != 2) (fun _ q => field q.payload 0 4 == 1)
    (answering (acceptReset 1)) s)

/-- Row DEVICE_RESET, COLD (R497). -/
def execDeviceResetCold (r : ReqId) (s : State) : Host.Outcome State Fault Refusal :=
  .next (runCmd r 0x0104 (fun b => field b 0 1 == 2) (fun _ q => field q.payload 0 4 == 2)
    (answering (acceptReset 2)) s)

/-! ## FIRMWARE_UPDATE -/

/-- The fields of R498. -/
def fwFields (r : Req) : Bool :=
  let b := r.payload
  let o := field b 12 1
  decide (4608 ≤ field b 8 4) && decide (field b 8 4 ≤ 25165824) && decide (o < 8) && o % 4 != 0 && zeroAt b 13 3

/-- Whether another request of an opcode is at work. -/
def otherRuns (s : State) (r : Req) (op : Nat) : Bool :=
  s.host.reqs.any (fun q => q.opcode == op && decide (q.id ≠ r.id) && (q.phase == .moving || !q.bulk.isEmpty))

/-- The slot that does not run; with the boot ROM responder in charge slot A is written (log entry 12). -/
def idleSlot (s : State) : Nat := if s.ao.boot.slot = 0 then 1 else 0

/-- The effect of a FIRMWARE_UPDATE whose image has arrived: the commit test of R77 sees the slot as the request leaves
it, then the slot is written and checked (R78) and the counter advances to the running image's rollback_version. -/
def fwCommit (r : Req) (s : State) : State × Ans :=
  let o := field r.payload 12 1
  let k := idleSlot s
  let img := if bit o 0 then r.bulk else slotBytes s k
  let check := imageFail s.ao.fuse img
  let want := s.ao.fw.rollbackVersion
  if bit o 1 && check == 0 && decide (field img 8 4 < want) && !bit o 2 then (s, ansRefused 0x0112)
  else
    let s := if bit o 0 then modFw (fun w => if k = 0 then { w with slotA := img } else { w with slotB := img }) s else s
    let s := if bit o 1 then
        modAo (fun a => { a with fuse := { a.fuse with rollback := max a.fuse.rollback (min want 64) } }) s
      else s
    (s, { payload := toLe 1 (if bit o 0 then k else 0xFF) ++ toLe 1 (if bit o 0 then check else 0) ++ zeros 2
            ++ toLe 4 s.ao.fuse.rollback
          resHi := ceilDiv r.bulk.length 64 })

/-- FIRMWARE_UPDATE: with WRITE the image is read from host memory first. -/
def fwBody (r : Req) (s : State) : State × Option Ans :=
  if otherRuns s r 0x0105 then (s, some (ansBusy 0 1000))
  else if bit (field r.payload 12 1) 0 && r.bulk.isEmpty then
    let n := field r.payload 8 4
    (issueDma r.fn (.bulkIn r.id) (field r.payload 0 8) [] n (modReq r.id (fun q => { q with phase := .moving }) s), none)
  else
    match fwCommit r s with
    | (t, a) => (t, some a)

/-- Row FIRMWARE_UPDATE. -/
def execFirmwareUpdate (r : ReqId) (s : State) : Host.Outcome State Fault Refusal :=
  .next (runCmd r 0x0105 (fun _ => true) (fun _ q => fwFields q) fwBody s)

/-! ## DEVICE_TILE_MAP_READ -/

/-- Whether the fuse record names a position as a bad core (1) or a bad router (2). -/
def badAt (bad : List (Nat × Nat × Nat)) (x y : Nat) : Nat :=
  match bad.find? (fun e => (e.1 == 1 || e.1 == 2) && e.2.1 == y && e.2.2 == x) with
  | some e => e.1
  | none => 0

/-- The inner loop of R138: add candidates from the seam until two positions of a half-row are hidden. -/
def hideMore (h : Nat) : Nat → Nat → List Nat → List Nat
  | 0, _, l => l
  | n + 1, k, l =>
    if 2 ≤ l.length then l
    else
      let c := if h = 0 then 65 - k else 66 + k
      hideMore h n (k + 1) (if l.contains c then l else c :: l)

/-- The hidden columns of half h of row y (R138). -/
def hiddenCols (bad : List (Nat × Nat × Nat)) (y h : Nat) : List Nat :=
  hideMore h 66 0 (((List.range 66).map (fun i => 66 * h + i)).filter (fun x => badAt bad x y != 0))

/-- The physical columns of half h of row y in logical order (R138). -/
def visibleCols (bad : List (Nat × Nat × Nat)) (y h : Nat) : List Nat :=
  let hid := hiddenCols bad y h
  ((List.range 66).map (fun i => 66 * h + i)).filter (fun x => !hid.contains x)

/-- Logical coordinates of tile t of its cluster: 8 by 8 tiles, clusters 16 across (Table SCP-5). -/
def tileX (t : Nat) : Nat := t / 64 % 16 * 8 + t % 8
def tileY (t : Nat) : Nat := t / 64 / 16 * 8 + t % 64 / 8

/-- Physical coordinates of logical tile t (R138). -/
def physOf (bad : List (Nat × Nat × Nat)) (t : Nat) : Nat × Nat :=
  (nth (visibleCols bad (tileY t) (tileX t / 64)) (tileX t % 64), tileY t)

/-- One cluster record of mode 0. -/
def clusterRec (s : State) (c : Nat) : List Byte :=
  toLe 1 c ++ toLe 1 (!s.units.unavailable.contains c).toNat ++ zeros 2
    ++ (List.range 64).flatMap (fun i =>
      match physOf s.ao.fuse.bad (64 * c + i) with
      | (x, y) => toLe 1 x ++ toLe 1 y)

/-- Mode 0, CLUSTERS (R499); a VF may name only clusters its partition holds (R140). -/
def tileMapClusters (r : Req) (s : State) : State × Ans :=
  let first := field r.payload 1 1
  let n := field r.payload 2 1
  let ids := (List.range n).map (fun i => first + i)
  if r.fn.val != 0 && !ids.all (fun c => (partAt s r.part).g.clusters.contains c) then
    (violation r.fn 7 r.opcode s, ansNotOwner)
  else (s, ansOk (toLe 2 n ++ zeros 2 ++ ids.flatMap (clusterRec s)))

/-- Row DEVICE_TILE_MAP_READ, mode CLUSTERS; an undefined mode is answered BAD_FIELD here. -/
def execDeviceTileMapReadClusters (r : ReqId) (s : State) : Host.Outcome State Fault Refusal :=
  .next (runCmd r 0x0106 (fun b => field b 0 1 != 1)
    (fun _ q => zeroAt q.payload 0 1 && zeroAt q.payload 3 1 && decide (0 < field q.payload 2 1)
      && decide (field q.payload 2 1 ≤ 28) && decide (field q.payload 1 1 + field q.payload 2 1 ≤ 128))
    (answering tileMapClusters) s)

/-- Mode 1, HIDDEN: 256 positions in ascending y, then x, with their causes (R499). -/
def tileMapHidden (r : Req) (s : State) : State × Ans :=
  if r.fn.val != 0 then (violation r.fn 6 r.opcode s, ansServiceOnly)
  else
    let bad := s.ao.fuse.bad
    let pos := (List.range 64).flatMap (fun y =>
      ((List.range 132).filter (fun x => (hiddenCols bad y (x / 66)).contains x)).map (fun x => (x, y)))
    (s, ansOk (toLe 2 256 ++ zeros 2 ++ pos.flatMap (fun p =>
      toLe 1 p.1 ++ toLe 1 p.2 ++ toLe 1 (if badAt bad p.1 p.2 = 0 then 3 else badAt bad p.1 p.2) ++ zeros 1)))

/-- Row DEVICE_TILE_MAP_READ, mode HIDDEN. -/
def execDeviceTileMapReadHidden (r : ReqId) (s : State) : Host.Outcome State Fault Refusal :=
  .next (runCmd r 0x0106 (fun b => field b 0 1 == 1) (fun _ q => q.fn.val != 0 || zeroAt q.payload 1 3)
    (answering tileMapHidden) s)

/-! ## Memory and pool -/

/-- The 400 bytes of Table CMD-5. -/
def memoryStatus (s : State) : List Byte :=
  (halfRowCounts s true ++ halfRowCounts s false).flatMap (toLe 2) ++ toLe 2 s.units.pool.metaRows
    ++ s.units.pool.rows.flatMap (toLe 2)
    ++ (List.range 5).flatMap (fun c =>
      toLe 4 (capacity s c) ++ toLe 4 (freeOf s c) ++ toLe 4 (minAll s c) ++ toLe 4 (unmetAll s c)
        ++ toLe 2 (nth s.units.pool.cache c) ++ zeros 2)
    ++ toLe 4 s.units.mem.retiredCount ++ toLe 8 (dirtyBytes s) ++ s.units.mem.corr.toList.flatMap (toLe 8)

/-- Row DEVICE_MEMORY_STATUS. -/
def execDeviceMemoryStatus (r : ReqId) (s : State) : Host.Outcome State Fault Refusal :=
  .next (runCmd r 0x0107 (fun _ => true) (fun _ _ => true) (reading (fun _ s => ansOk (memoryStatus s))) s)

/-- The rows that a request of DEVICE_POOL_CONFIG names. -/
def cfgRows (b : List Byte) : List Nat := (List.range 5).map (fun c => field b (2 * c) 2)

/-- DEVICE_POOL_CONFIG from its second test on (R207): the area is laid out afresh, with every buffer FREE. -/
def poolConfig (r : Req) (s : State) : State × Ans :=
  let rows := cfgRows r.payload
  let m := metaRowsOf rows
  let area := areaRows s.units.mem.retired (m + sumL rows)
  if allPids.any (fun p => (partOf s p).st != .free) then (s, ansRefused 0x0113)
  else if (heldHalfRows s).any (fun h => area.contains h.row) then (s, ansRefused 0x0119)
  else
    let s := modPool (fun p => { p with rows := rows, cfg := rows, metaRows := m, area := area, descs := [], dcache := [],
                                        cache := [0, 0, 0, 0, 0] }) s
    let s := modMem (fun x => { x with clean := x.clean.filter (fun h => !area.contains h.row) }) s
    (s, ansOk (toLe 2 m ++ toLe 2 (m + sumL rows)))

/-- Row DEVICE_POOL_CONFIG. -/
def execDevicePoolConfig (r : ReqId) (s : State) : Host.Outcome State Fault Refusal :=
  .next (runCmd r 0x0108 (fun _ => true)
    (fun _ q => let rows := cfgRows q.payload
                decide (nth rows 0 ≤ 4) && decide (metaRowsOf rows + sumL rows ≤ 512) && zeroAt q.payload 10 6)
    (answering poolConfig) s)

end Sys2Proof.Machine
end

