-- ==== Sys2Proof/Machine/Slots.lean ====
section
/-!
DEFINITION. The choice of Reserved slots and Churn slices (R167, R349): the set of n free indices of a frame with the
smallest largest gap, then the lowest.
-/
namespace Sys2Proof.Machine

/-- The gap from an owned index to the next owned one around a frame. -/
def gapTo (frame a b : Nat) : Nat := if cyc frame a b = 0 then frame else cyc frame a b

/-- G or G_c: the largest gap between consecutive owned indices of an ascending list; 0 when none is owned. -/
def largestGap (frame : Nat) (l : List Nat) : Nat :=
  ((l.zip (l.drop 1 ++ l.take 1)).map (fun x => gapTo frame x.1 x.2)).foldl max 0

/-- The indices from which k more can follow, each at most g after the one before, the last at most g before the
first index f of the next frame. -/
def canFollow (frame g f : Nat) (ok : List Nat) : Nat → List Nat
  | 0 => ok.filter (fun t => decide (frame + f ≤ t + g))
  | k + 1 =>
    let next := canFollow frame g f ok k
    ok.filter (fun t => next.any (fun u => decide (t < u) && decide (u ≤ t + g)))

/-- The lowest way on from index t with k more to pick. -/
def pickOn (frame g f : Nat) (ok : List Nat) : Nat → Nat → List Nat
  | 0, t => [t]
  | k + 1, t =>
    match (canFollow frame g f ok k).find? (fun u => decide (t < u) && decide (u ≤ t + g)) with
    | some u => t :: pickOn frame g f ok k u
    | none => [t]

/-- The lowest set of n allowed indices whose gaps are all at most g, none when there is none. -/
def lowestSet (frame n g : Nat) (ok : List Nat) : Option (List Nat) :=
  if n = 0 then some []
  else
    (ok.find? (fun f => (canFollow frame g f ok (n - 1)).contains f)).map (fun f => pickOn frame g f ok (n - 1) f)

/-- The smallest G for which a set exists, from g up. -/
def smallestGap (frame n : Nat) (ok : List Nat) : Nat → Nat → Option Nat
  | 0, _ => none
  | k + 1, g => if (lowestSet frame n g ok).isSome then some g else smallestGap frame n ok k (g + 1)

/-- R167: the Reserved slots of a partition. -/
def assignSlots (frame n : Nat) (taken : List Nat) : List Nat :=
  let ok := (List.range frame).filter (fun i => !taken.contains i)
  if n = 0 then []
  else match smallestGap frame n ok (frame + 1) (ceilDiv frame n) with
    | some g => (lowestSet frame n g ok).getD []
    | none => []

/-- The cyclic distance from an index to the nearest of a list. -/
def nearest (frame : Nat) (l : List Nat) (i : Nat) : Nat :=
  (l.map (fun t => min (cyc frame i t) (cyc frame t i))).foldl min frame

/-- The lowest set among those farthest from a list, trying distances downward. -/
def farthestSet (frame n g : Nat) (taken ok : List Nat) : Nat → List Nat
  | 0 => (lowestSet frame n g ok).getD []
  | d + 1 =>
    match lowestSet frame n g (ok.filter (fun i => decide (d + 1 ≤ nearest frame taken i))) with
    | some l => l
    | none => farthestSet frame n g taken ok d

/-- R349: the Churn slices of a partition. -/
def assignSlices (n : Nat) (taken : List Nat) : List Nat :=
  let ok := (List.range 100).filter (fun i => !taken.contains i)
  if n = 0 then []
  else match smallestGap 100 n ok 101 (ceilDiv 100 n) with
    | some g => if taken.isEmpty then (lowestSet 100 n g ok).getD [] else farthestSet 100 n g taken ok 50
    | none => []

end Sys2Proof.Machine
end

