-- ==== Sys2Proof/Machine/PairLink.lean ====
section
/-!
DEFINITION. What the chip sends over the Darrad link (R439, Table PAIR-2), what a mirrored partition's messages hold
(R445, Table PAIR-4), the grants as bytes (Table CMD-6) and the counter record (Table EXP-4).
-/
namespace Sys2Proof.Machine

/-! ## Layouts -/

/-- The 120 bytes of Table CMD-6 for grants as they stand (R505 section 3). -/
def grantBytes (g : Grants) (setMask : Nat) : List Byte :=
  toLe 16 (maskOf g.clusters 128) ++ toLe 4 g.win.all.length ++ toLe 4 g.win.west.length ++ toLe 4 g.win.east.length
    ++ toLe 4 (maskOf g.cores 24) ++ toLe 1 (maskOf g.ports 8) ++ toLe 1 g.churn.length ++ toLe 1 g.resSlots.length
    ++ toLe 1 g.ns.length ++ toLe 2 setMask ++ toLe 1 g.sharedW ++ toLe 1 g.stillW ++ toLe 1 g.prio
    ++ toLe 1 (g.spillAllowed.toNat + 2 * g.mirrored.toNat) ++ zeros 6
    ++ (List.range 5).flatMap (fun c => toLe 4 (nth g.min c) ++ toLe 4 (nth g.ceil c))
    ++ padTo 32 (g.ns.flatMap (fun x => toLe 1 x.1 ++ toLe 1 x.2))

/-- The header of a counter record (Table EXP-4). -/
def counterHeader (e : Experts) : List Byte :=
  toLe 8 e.firstCursor ++ toLe 4 e.tokens ++ toLe 4 e.recVersion ++ toLe 4 e.revisions ++ toLe 4 e.kept
    ++ toLe 4 e.pairs ++ zeros 4

/-- The capacity of destination d: of its expert, or W for Whey (destination 64). -/
def destCap (b : ImgBody) (d : Nat) : Nat :=
  if d = 64 then (if b.usesExperts then b.wheyW else 0)
  else match b.experts.find? (fun x => x.id == d) with
    | some x => x.cap
    | none => 0

/-- The 2,112 bytes of Table EXP-4. -/
def counterRecord (q : Part) : List Byte :=
  counterHeader q.ex ++ (List.range 65).flatMap (fun d =>
    let x := q.ex.dest.getD d (0, 0, 0, 0)
    toLe 4 x.1 ++ toLe 4 x.2.1 ++ toLe 2 x.2.2.1 ++ toLe 2 x.2.2.2 ++ toLe 4 (destCap (bodyOf q) d)
      ++ toLe 8 (nth q.ex.chosenLoad d) ++ toLe 4 (nth q.ex.fullSteps d) ++ toLe 4 (nth q.ex.windowCount d))

/-! ## The link -/

/-- Whether frames can leave: PD_NET on and the link trained. -/
def darradUp (s : State) : Bool := domOn s 5 && s.units.pair.trained && s.units.pair.link == .up

/-- The header of the next frame (Table PAIR-2). -/
def nextHdr (s : State) (flags len part tag : Nat) : DarradHdr :=
  ⟨flags, len, s.units.pair.txSeq, s.units.pair.gen, part, tag⟩

/-- Send a frame with a byte payload; frames are numbered per direction (R439). -/
def darradSend (type flags part tag : Nat) (bytes : List Byte) (s : State) : State :=
  if darradUp s then
    emit (.darrad type (nextHdr s flags bytes.length part tag) bytes)
      (modPair (fun p => { p with txSeq := (p.txSeq + 1) % 2 ^ 32 }) s)
  else s

/-- The ids that this chip holds (R109). -/
def heldIds (s : State) : List Pid := partsWhere s (fun q => q.st != .free)

/-- Number a frame whose payload the link carries by fields (R439). -/
def darradPut (flags part tag : Nat) (o : DarradHdr → Output) (s : State) : State :=
  if darradUp s then
    emit (o (nextHdr s flags 0 part tag)) (modPair (fun p => { p with txSeq := (p.txSeq + 1) % 2 ^ 32 }) s)
  else s

/-- Send HOLD: each id held with its ownership generation (Table PAIR-3). -/
def sendHold (s : State) : State :=
  darradPut 0 0xFF 0 (fun h => .hold h ((heldIds s).map (fun p => (p.val, (partOf s p).gen)))) s

/-- HOLD follows a change of the set of held ids while the pair talks (R109, R442, log entry 41). -/
def holdChanged (s : State) : State := if s.units.pair.helloSeen then sendHold s else s

/-- R109: the partner holds the id by its last mirrored state. -/
def partnerHolds (s : State) (p : Nat) : Bool := s.units.pair.partnerIds.any (fun x => x.1 == p)

/-- What the partner reported of its plan for the id. -/
def partnerPlan (s : State) (p : Nat) : Option PlanState := s.units.pair.partnerPlans.find? (fun x => x.part == p)

/-- Whether the partner holds a SEEDED plan for the id whose check passed (R449). -/
def planPasses (s : State) (p : Nat) : Bool :=
  match partnerPlan s p with
  | some x => x.st == 3 && x.reason == 0
  | none => false

/-- Whether the chip mirrors at all: paired, or resynchronising (R445, R452). -/
def mirroring (s : State) : Bool := s.units.pair.st == 3 || s.units.pair.st == 2

/-- Whether the partition's mirror is active: MIRRORED, paired, and planned for on the partner (R462). -/
def mirrorActive (s : State) (p : Pid) : Bool :=
  (partOf s p).g.mirrored && mirroring s && (match partnerPlan s p.val with | some x => x.st == 3 | none => false)

/-- What MIRROR_GRANT carries for a partition (Table PAIR-4). -/
def mirGrantOf (q : Part) : MirGrant :=
  { grants := grantBytes q.g 0x1F, seed := q.ld.seed, imageHash := (hdrOf q).hash,
    cursor := BitVec.ofNat 64 (packCursor q.ld.cursor), records := q.ld.records }

/-- Put a mirror message on the link. -/
def putMirror (p : Pid) (m : MirMsg) (s : State) : State :=
  let fl := m.resent.toNat
  match m.grant, m.step with
  | some g, _ => darradPut fl p.val m.tag (fun h => .mirGrant h g) s
  | _, some x => darradPut fl p.val m.tag (fun h => .mirStep h x) s
  | _, _ => s

/-- Send a mirror message under the next tag; it waits for its acknowledgement (R451, R452). -/
def sendMirror (p : Pid) (g : Option MirGrant) (x : Option MirStep) (s : State) : State :=
  let m : MirMsg := { tag := ((partOf s p).mirTag + 1) % 65536, grant := g, step := x }
  putMirror p m (modPart p (fun q => { q with mirTag := m.tag, mirWait := q.mirWait ++ [m] }) s)

/-- Send MIRROR_GRANT (R445). -/
def sendMirGrant (p : Pid) (s : State) : State := sendMirror p (some (mirGrantOf (partOf s p))) none s

/-- Mirror a commit that changed grants, seed or image (R445). -/
def mirrorGrantOf (p : Pid) (s : State) : State := if (partOf s p).g.mirrored && mirroring s then sendMirGrant p s else s

/-- The parameters of a session, as Table CMD-9 lays out its first 88 bytes, with QPN and PSN 0 (Table PAIR-4). -/
def parBytes (id : Nat) (x : SessPar) : List Byte :=
  toLe 1 id ++ toLe 1 x.p2p.toNat ++ toLe 1 x.port ++ toLe 1 x.mtu ++ toLe 1 x.dscp ++ toLe 1 x.pcp ++ toLe 2 x.slots
    ++ toLe 4 x.addr ++ zeros 8 ++ toLe 4 x.dataSize ++ toLe 4 x.indexSize ++ toLe 4 x.creditMs ++ toLe 8 x.dataRing
    ++ toLe 4 x.dataKey ++ toLe 4 x.indexKey ++ toLe 8 x.indexRing ++ toLe 8 x.descRing ++ toLe 8 x.statusRec
    ++ toLe 8 x.notifyAddr ++ toLe 4 x.notifyVal ++ zeros 4

/-- The parameters that Table CMD-9 names. -/
def parOf (b : List Byte) : SessPar :=
  { p2p := field b 1 1 == 1, port := field b 2 1, mtu := field b 3 1, dscp := field b 4 1, pcp := field b 5 1
    slots := field b 6 2, addr := field b 8 4, qpn := field b 0x0C 4, psn := field b 0x10 4, dataSize := field b 0x14 4
    indexSize := field b 0x18 4, creditMs := field b 0x1C 4, dataRing := field b 0x20 8, dataKey := field b 0x28 4
    indexKey := field b 0x2C 4, indexRing := field b 0x30 8, descRing := field b 0x38 8, statusRec := field b 0x40 8
    notifyAddr := field b 0x48 8, notifyVal := field b 0x50 4 }

/-- The delivery targets as they are mirrored (Table PAIR-4). -/
def mirTargets (q : Part) : List MirTarget :=
  q.targets.map (fun t => ⟨t.id, t.st, t.nextSeq, t.acked, t.released, parBytes t.id t.par⟩)

end Sys2Proof.Machine
end

