-- ==== Sys2Proof/Machine/Grants.lean ====
section
/-!
DEFINITION. PARTITION_GRANT, PARTITION_RELEASE and PARTITION_STATUS (R64, R109 to R118, R167, R183, R184, R205, R349,
R428, R492, R501, R502, R505).
-/
namespace Sys2Proof.Machine

/-! ## Shortfalls -/

/-- A shortfall record (Table CMD-3). -/
structure Short where
  reason : Nat
  kind : Nat
  scopeKind : Nat
  scope : Nat
  needed : Nat
  available : Nat
deriving DecidableEq, Repr

def shortRec (x : Short) : List Byte :=
  toLe 2 x.reason ++ toLe 1 x.kind ++ toLe 1 x.scopeKind ++ toLe 4 x.scope ++ toLe 8 x.needed ++ toLe 8 x.available

/-- The shortfall list of R492. -/
def shortList (l : List Short) : List Byte :=
  let k := l.take 168
  toLe 2 k.length ++ toLe 2 (if 168 < l.length then 1 else 0) ++ zeros 4 ++ k.flatMap shortRec

/-- The answer that carries a shortfall list, with the first record's reason. -/
def ansShort (status : Nat) (l : List Short) : Ans :=
  { status := status, reason := match l with | a :: _ => a.reason | [] => 0, payload := shortList l }

/-! ## The request of Table CMD-6 -/

/-- A request of Table CMD-6. -/
structure GrantReq where
  clusters : List Nat
  a : Nat
  w : Nat
  e : Nat
  cores : List Nat
  ports : List Nat
  churn : Nat
  slots : Nat
  set : Nat
  sharedW : Nat
  stillW : Nat
  prio : Nat
  flags : Nat
  min : List Nat
  ceil : List Nat
  ns : List (Nat × Nat)
deriving DecidableEq, Repr

/-- Remove repeats, keeping first occurrences. -/
def uniq (l : List (Nat × Nat)) : List (Nat × Nat) := l.foldl (fun a x => if a.contains x then a else a ++ [x]) []

def parseGrant (b : List Byte) : GrantReq :=
  { clusters := bitsOf (field b 0 16) 128, a := field b 0x10 4, w := field b 0x14 4, e := field b 0x18 4
    cores := bitsOf (field b 0x1C 4) 24, ports := bitsOf (field b 0x20 1) 8, churn := field b 0x21 1
    slots := field b 0x22 1, set := field b 0x24 2, sharedW := field b 0x26 1, stillW := field b 0x27 1
    prio := field b 0x28 1, flags := field b 0x29 1
    min := (List.range 5).map (fun c => field b (0x30 + 8 * c) 4)
    ceil := (List.range 5).map (fun c => field b (0x34 + 8 * c) 4)
    ns := uniq ((List.range (Nat.min 16 (field b 0x23 1))).map (fun i => (field b (0x58 + 2 * i) 1, field b (0x59 + 2 * i) 1))) }

/-- What any request of Table CMD-6 must satisfy by itself. -/
def grantLayout (b : List Byte) : Bool :=
  zeroAt b 0x1F 1 && zeroAt b 0x2A 6 && decide (field b 0x23 1 ≤ 16) && decide (field b 0x24 2 < 32)
    && zeroAt b (0x58 + 2 * field b 0x23 1) (32 - 2 * field b 0x23 1)
    && (parseGrant b).ns.all (fun x => decide (x.1 < 4) && decide (1 ≤ x.2) && decide (x.2 ≤ 16))

/-- Whether a namespace may be named: usable on an attached drive; a fenced drive and a PD_NET that is off are answered
later in Table PRT-8 (R110, R426). -/
def nsNamable (s : State) (x : Nat × Nat) : Bool :=
  let d := driveOf s x.1
  if !domOn s 5 || d.st == 3 then true
  else d.st == 2 && d.ns.any (fun i => i.nsid == x.2 && i.usable)

/-- The ranges of buffer pairs (R110); with capacity 0 a minimum is answered 0x0109 (R207). -/
def pairsInRange (s : State) (g : GrantReq) : Bool :=
  (List.range 5).all (fun c =>
    let cap := capacity s c
    decide (nth g.ceil c ≤ cap) && (cap == 0 || decide (nth g.min c ≤ cap)))

/-- Row 1 of Table PRT-8: every field in range and every holding within its range per partition (R110). -/
def grantFields (s : State) (r : Req) : Bool :=
  let g := parseGrant r.payload
  let q := (partOf s r.pid).g
  let newNs := g.ns.filter (fun x => !q.ns.contains x)
  grantLayout r.payload
    && (!bit g.set 0 || g.sharedW != 0) && (!bit g.set 2 || decide (g.prio ≤ 7)) && (!bit g.set 3 || decide (g.flags ≤ 3))
    && decide (winGib q.win + g.a + g.w + g.e ≤ 1016) && decide (q.ns.length + newNs.length ≤ 16)
    && decide (q.churn.length + g.churn ≤ 100) && decide (q.resSlots.length + g.slots ≤ 16)
    && newNs.all (nsNamable s) && (!bit g.set 4 || pairsInRange s g)

/-! ## PARTITION_GRANT -/

/-- Domains a request's additions need (R64); minima are looked at through the pool. -/
def grantNeeds (newClusters : List Nat) (g : GrantReq) (newCores newPorts : List Nat) (newNs : List (Nat × Nat)) : List Nat :=
  newClusters.map clusterDom
    ++ (if g.a + g.w + g.e = 0 then [] else [2] ++ (if g.a + g.w = 0 then [] else [3]) ++ (if g.a + g.e = 0 then [] else [4]))
    ++ (if newCores.isEmpty then [] else [6]) ++ (if newPorts.isEmpty && newNs.isEmpty then [] else [5])

/-- A domain as a grant sees it: an accepted power-down counts as off (R64). -/
def domSeen (s : State) (d : Nat) : DomSt :=
  match s.ao.pwr.op with
  | some o => if o.toOff.contains d then .off else domOf s d
  | none => domOf s d

/-- The other partitions' holdings. -/
def othersHold (s : State) (p : Pid) (t : Grants → Bool) : Bool := allPids.any (fun q => decide (q ≠ p) && t (partOf s q).g)
def othersSum (s : State) (p : Pid) (f : Grants → Nat) : Nat :=
  sumL (allPids.map (fun q => if q = p then 0 else f (partOf s q).g))

/-- Free half-rows of a half. -/
def freeHalf (s : State) (west : Bool) : Nat := (freeHalfRows s west).length

/-- Row 8 of Table PRT-8: every failing item in the order of R111. -/
def grantShorts (s : State) (p : Pid) (g : GrantReq) (newClusters newCores newPorts : List Nat) (newNs : List (Nat × Nat)) :
    List Short :=
  let q := (partOf s p).g
  let half (west : Bool) (need : Nat) : List Short :=
    if need ≤ freeHalf s west then []
    else [⟨0x0104, 2, 8, if west then 3 else 4, need * halfRowBytes, freeHalf s west * halfRowBytes⟩]
  let taken := newCores.filter (fun c => othersHold s p (fun x => x.cores.contains c))
  let oc := othersSum s p (fun x => x.churn.length)
  let os := othersSum s p (fun x => x.resSlots.length)
  (newClusters.filter (fun c => othersHold s p (fun x => x.clusters.contains c))).map (fun c => ⟨0x0101, 1, 5, c, 64, 0⟩)
    ++ half true (g.a + 2 * g.w) ++ half false (g.a + 2 * g.e)
    ++ (if taken.isEmpty then [] else [⟨0x0106, 4, 0, 0, newCores.length, newCores.length - taken.length⟩])
    ++ (newPorts.filter (fun n => othersHold s p (fun x => x.ports.contains n))).map (fun n => ⟨0x0107, 0, 6, n, 1, 0⟩)
    ++ (if g.churn != 0 && decide (100 < q.churn.length + g.churn + oc) then
          [⟨0x010A, 11, 0, 0, q.churn.length + g.churn, 100 - oc⟩] else [])
    ++ (if g.slots != 0 && decide (64 < q.resSlots.length + g.slots + os) then
          [⟨0x0116, 5, 0, 0, q.resSlots.length + g.slots, 64 - os⟩] else [])
    ++ (if bit g.set 4 then (List.range 5).filterMap (fun c =>
          let om := othersSum s p (fun x => nth x.min c)
          if capacity s c < om + nth g.min c then some ⟨0x0109, 3, 2, c, nth g.min c, capacity s c - om⟩ else none) else [])
    ++ (newNs.filter (fun n => othersHold s p (fun x => x.ns.contains n))).map (fun n =>
          ⟨0x0108, 0, 9, n.1 * 256 + n.2, 1, 0⟩)

/-- Create the I/O queue pair of a namespace (R428). -/
def createQueue (p : Pid) (x : Nat × Nat) (s : State) : State :=
  nvmePush x.1 { cid := 0, admin := true, op := 3, part := p.val, ns := x.2 } s

/-- Delete the I/O queue pair of a namespace that is released (R428). -/
def deleteQueue (x : Nat × Nat) (s : State) : State :=
  if (driveOf s x.1).queues.contains x.2 then
    nvmePush x.1 { cid := 0, admin := true, op := 4, ns := x.2 }
      (modDrive x.1 (fun d => { d with queues := d.queues.filter (fun n => n != x.2)
                                       tails := d.tails.filter (fun y => y.1 != x.2) }) s)
  else s

/-- Tile resets of clusters: their tiles are idle and zero (R73, R115); a fenced tile stays fenced. -/
def resetClusters (cl : List Nat) (s : State) : State :=
  modUnits (fun u => { u with tiles := u.tiles.filterMap (fun t =>
    if cl.contains (t.id / 64) then (if t.fenced then some { id := t.id, fenced := true } else none) else some t) }) s

/-- Contexts and flags of a partition are cleared (R176). -/
def clearSync (p : Pid) (s : State) : State :=
  modMesh (fun m => { m with barriers := m.barriers.filter (fun b => decide (b.part ≠ p))
                             flags := m.flags.filter (fun f => decide (f.part ≠ p)) }) s

/-- Add items to a partition's holdings (R111, R167, R349, R501); gives the new window part. -/
def addGrants (s : State) (p : Pid) (g : GrantReq) (win : Window) : Grants :=
  let q := (partOf s p).g
  let churn := if g.churn = 0 then q.churn else
    assignSlices (q.churn.length + g.churn) (allPids.flatMap (fun o => if o = p then [] else (partOf s o).g.churn))
  let slots := if g.slots = 0 then q.resSlots else
    assignSlots 64 (q.resSlots.length + g.slots) (allPids.flatMap (fun o => if o = p then [] else (partOf s o).g.resSlots))
  { q with
    clusters := g.clusters.foldl (fun l c => insSorted c l) q.clusters
    win := winAppend q.win win
    cores := g.cores.foldl (fun l c => insSorted c l) q.cores
    ports := g.ports.foldl (fun l c => insSorted c l) q.ports
    ns := q.ns ++ g.ns.filter (fun x => !q.ns.contains x)
    churn := churn
    resSlots := slots
    sharedW := if bit g.set 0 then g.sharedW else q.sharedW
    stillW := if bit g.set 1 then g.stillW else q.stillW
    prio := if bit g.set 2 then g.prio else q.prio
    spillAllowed := if bit g.set 3 then bit g.flags 0 else q.spillAllowed
    mirrored := if bit g.set 3 then bit g.flags 1 else q.mirrored
    min := if bit g.set 4 then g.min else q.min
    ceil := if bit g.set 4 then g.ceil else q.ceil }

/-- A change of grants or attributes while PAUSED asks for the check at resume (R112). -/
def grantsChanged (p : Pid) (s : State) : State :=
  modPart p (fun q => if q.st = .paused then { q with ld := { q.ld with recheck := true } } else q) s

/-- Rows 3 to 8 of Table PRT-8, then the commit at one point (R111, R115, R501). -/
def grantBody (r : Req) (s : State) : State × Option Ans :=
  let p := r.pid
  let q := partOf s p
  let g := parseGrant r.payload
  let ncl := g.clusters.filter (fun c => !q.g.clusters.contains c)
  let nco := g.cores.filter (fun c => !q.g.cores.contains c)
  let npo := g.ports.filter (fun c => !q.g.ports.contains c)
  let nns := g.ns.filter (fun x => !q.g.ns.contains x)
  let needs := grantNeeds ncl g nco npo nns
  let minima := bit g.set 4 && sumL g.min != 0
  let poolNeeds := if minima then [2, 3, 4] else []
  if q.st = .free && partnerHolds s p.val then (s, some (ansRefused 0x0803))
  else if bit g.set 4 && (List.range 5).any (fun c =>
      (capacity s c != 0 && nth g.ceil c != 0 && decide (nth g.ceil c < nth g.min c))
        || (q.ld.image.isSome && (hdrOf q).uniform && c != (hdrOf q).uniformClass && nth g.min c != 0)) then
    (s, some (ansRefused 0x0115))
  else if (needs ++ poolNeeds).any (fun d => domSeen s d == .fenced)
      || ncl.any (fun c => s.units.unavailable.contains c)
      || nco.any (fun c => (vget s.units.cores c {}).fenced)
      || npo.any (fun n => (portOf s n).link == .fenced)
      || nns.any (fun x => (driveOf s x.1).st == 3) then (s, some (ansFenced 0x0114))
  else if needs.any (fun d => domSeen s d == .off || domSeen s d == .poweringDown)
      || (minima && !s.units.pool.inService) then (s, some (ansRefused 0x0102))
  else if needs.any (fun d => domSeen s d == .powering) then (s, some (ansBusy 0x0103 1000))
  else
    let shorts := grantShorts s p g ncl nco npo nns
    let noQueue := nns.filter (fun x => !(driveOf s x.1).queues.contains x.2)
    if !shorts.isEmpty then (s, some (ansShort stNoResource shorts))
    else if !noQueue.isEmpty then
      (noQueue.foldl (fun s x => createQueue p x s) (modReq r.id (fun q => { q with phase := .moving }) s), none)
    else
      match takeGranules s g.a g.w g.e with
      | none => (s, some (ansShort stNoResource []))
      | some win =>
        let dirty := win.unzero.length * halfRowBytes
        let was := q.st
        let gr := addGrants s p g win
        let s := unclean (winHalfRows win) (resetClusters ncl s)
        let s := if ncl.isEmpty then s else clearSync p s
        let s := modPart p (fun q => { q with g := gr, st := if was = .free then .granted else was
                                              gen := if was = .free then s.units.pair.gen else q.gen }) s
        let s := grantsChanged p s
        let s := if was = .free then holdChanged s else s
        let s := mirrorGrantOf p s
        if dirty = 0 then (s, some (ansOk (toLe 8 0)))
        else (modReq r.id (fun x => { x with left := dirty }) s, some (ansPend (toLe 8 dirty)))

/-- Row PARTITION_GRANT. -/
def execPartitionGrant (r : ReqId) (s : State) : Host.Outcome State Fault Refusal :=
  .next (runCmd r 0x0201 (fun _ => true) grantFields grantBody s)

/-! ## PARTITION_RELEASE -/

/-- Whether a region transfer of a partition is open (Table CMD-11). -/
def transferOpen (s : State) (p : Pid) : Bool :=
  s.host.reqs.any (fun q => q.part == p.val && (q.opcode == 0x0206 || q.opcode == 0x0207) && q.phase == .moving)

/-- R502: the request names only what the partition holds, and no attribute. -/
def releaseFields (s : State) (r : Req) : Bool :=
  let g := parseGrant r.payload
  let q := (partOf s r.pid).g
  grantLayout r.payload && zeroAt r.payload 0x24 0x34
    && g.clusters.all (fun c => q.clusters.contains c) && g.cores.all (fun c => q.cores.contains c)
    && g.ports.all (fun c => q.ports.contains c) && g.ns.all (fun c => q.ns.contains c)
    && decide (g.a ≤ q.win.all.length) && decide (g.w ≤ q.win.west.length) && decide (g.e ≤ q.win.east.length)
    && decide (g.churn ≤ q.churn.length) && decide (g.slots ≤ q.resSlots.length)

/-- A released port: role NONE and link down (R368). -/
def releasePort (n : Nat) (s : State) : State :=
  modPort n (fun x => { x with role := 0, binds := [], ptp := false, link := if x.link = .fenced then .fenced else .down }) s

/-- The holdings that remain after a release. -/
def cutGrants (s : State) (p : Pid) (g : GrantReq) : Grants :=
  let q := (partOf s p).g
  { q with
    clusters := q.clusters.filter (fun c => !g.clusters.contains c)
    win := winCut q.win g.a g.w g.e
    cores := q.cores.filter (fun c => !g.cores.contains c)
    ports := q.ports.filter (fun c => !g.ports.contains c)
    ns := q.ns.filter (fun x => !g.ns.contains x)
    churn := if g.churn = 0 then q.churn else
      assignSlices (q.churn.length - g.churn) (allPids.flatMap (fun o => if o = p then [] else (partOf s o).g.churn))
    resSlots := if g.slots = 0 then q.resSlots else
      assignSlots 64 (q.resSlots.length - g.slots) (allPids.flatMap (fun o => if o = p then [] else (partOf s o).g.resSlots)) }

def releaseBody (r : Req) (s : State) : State × Ans :=
  let p := r.pid
  let g := parseGrant r.payload
  if transferOpen s p then (s, ansBusy 0 1000)
  else
    let gr := cutGrants s p g
    let s := g.ports.foldl (fun s n => releasePort n s) s
    let s := g.ns.foldl (fun s x => deleteQueue x s) s
    let s := grantsChanged p (modPart p (fun q => { q with g := gr }) s)
    (mirrorGrantOf p s, ansOk)

/-- Row PARTITION_RELEASE. -/
def execPartitionRelease (r : ReqId) (s : State) : Host.Outcome State Fault Refusal :=
  .next (runCmd r 0x0202 (fun _ => true) releaseFields (answering releaseBody) s)

/-! ## PARTITION_STATUS -/

/-- The code of a partition state (Table CMD-4). -/
def pstCode : PSt → Nat
  | .free => 0 | .granted => 1 | .enabled => 2 | .paused => 3 | .suspended => 4 | .fenced => 5 | .tearingDown => 6

/-- Section 0 (Table CMD-7). -/
def summary (s : State) (p : Pid) : List Byte :=
  let q := partOf s p
  let k := q.cnt
  toLe 1 (pstCode q.st)
    ++ toLe 1 (q.ld.image.isSome.toNat + 2 * q.ld.seed.isSome.toNat + 4 * q.ld.recreate.toNat
        + 8 * (hdrOf q).usesLaneRng.toNat + 16 * (mirrorActive s p).toNat)
    ++ toLe 2 q.cause ++ zeros 4 ++ toLe 8 (packCursor q.ld.cursor) ++ padTo 48 (hdrOf q).hash ++ toLe 8 k.steps
    ++ [k.annealed, k.greedyBudget, k.greedyCap, k.greedyChurn, k.damaged, k.capped, k.overflow, k.backlog,
        k.withdrawn].flatMap (toLe 8)
    ++ counterHeader q.ex ++ zeros 8

/-- Section 1: the buffers of each class. -/
def bufferSection (s : State) (p : Pid) : List Byte :=
  let q := partOf s p
  (List.range 5).flatMap (fun c =>
    let n := q.cnt.nobuf.getD c (0, 0, 0)
    toLe 4 (nth q.held c) ++ toLe 4 (nth q.drawn c) ++ toLe 4 (nth q.g.min c) ++ toLe 4 (ceilOf s p c)
      ++ toLe 4 (nth q.cnt.peak c) ++ toLe 4 n.1 ++ toLe 4 n.2.1 ++ toLe 4 n.2.2 ++ toLe 8 (nth q.cnt.zeroReads c)
      ++ toLe 4 (nth q.cnt.bufFaults c))

/-- Section 2: a counter set of R487. -/
def faultSection (x : FaultSet) : List Byte :=
  (x.transient.toList ++ x.lasting.toList ++ x.late.toList ++ x.partner.toList
    ++ [x.corrected, x.lapses, x.fences, x.coalesced]).flatMap (toLe 8)

/-- Section 3: the grants, the slot indices with G and G_c. -/
def grantSection (s : State) (p : Pid) : List Byte :=
  let g := (partOf s p).g
  let pad (n : Nat) (l : List Nat) : List Byte := (l ++ List.replicate (n - l.length) 0xFF).flatMap (toLe 1)
  grantBytes g 0x1F ++ pad 16 g.resSlots ++ toLe 1 (largestGap 64 g.resSlots) ++ toLe 1 (largestGap 100 g.churn)
    ++ zeros 2 ++ pad 100 g.churn

def statusBody (r : Req) (s : State) : Ans :=
  let k := field r.payload 0 1
  if r.part = 0xFF then ansOk (faultSection s.ao.faults)
  else if k = 0 then ansOk (summary s r.pid)
  else if k = 1 then ansOk (bufferSection s r.pid)
  else if k = 2 then ansOk (faultSection (partOf s r.pid).cnt.faults)
  else ansOk (grantSection s r.pid)

/-- Row PARTITION_STATUS; 0xFF is admitted with section 2 only (R505). -/
def execPartitionStatus (r : ReqId) (s : State) : Host.Outcome State Fault Refusal :=
  .next (runCmd r 0x0205 (fun _ => true)
    (fun _ q => decide (field q.payload 0 1 ≤ 3) && zeroAt q.payload 1 3 && (q.part != 0xFF || field q.payload 0 1 == 2))
    (reading statusBody) s)

end Sys2Proof.Machine
end

