-- ==== Sys2Proof/Machine/Region.lean ====
section
/-!
DEFINITION. REGION_LOAD and REGION_READ, the zeroing of windows, and seeding copies of static regions (R114 to R116,
R187, R198, R440, R448, R489, R506).
-/
namespace Sys2Proof.Machine

/-! ## Seeding: the holder's side -/

/-- The regions that a seeding copy carries: the image copy and every region marked RO (R448). -/
def staticRegions (b : ImgBody) : List Region := b.regions.filter (fun r => r.ro || r.role == .imageCopy)

/-- SEED frames of one region: 4,056 bytes a frame, the copy's last frame marked (Table PAIR-7). -/
def seedFrames (p : Pid) (copy addr : Nat) (last : Bool) : Nat → List Byte → State → State
  | 0, _, s => s
  | n + 1, bs, s =>
    if bs.isEmpty then s
    else
      let rest := bs.drop 4056
      let s := darradSend 0x0C 0 p.val copy
        (toLe 8 addr ++ toLe 4 copy ++ toLe 1 (last && rest.isEmpty).toNat ++ zeros 3 ++ bs.take 4056) s
      seedFrames p copy (addr + 4056) last n rest s

/-- The SEED frames of a copy, region by region. -/
def seedRegions (p : Pid) (copy : Nat) : List Region → State → State
  | [], s => s
  | r :: rest, s =>
    let s := seedFrames p copy r.addr rest.isEmpty (ceilDiv r.size 4056) (winRead s p r.addr r.size) s
    seedRegions p copy rest s

/-- Start a seeding copy of a partition toward its standby window (R448); copy numbers rise with each copy. -/
def startSeeding (p : Pid) (retried : Bool) (s : State) : State :=
  let q := partOf s p
  if !darradUp s || q.ld.image.isNone then s
  else
    let n := q.seedCopy + 1
    let s := modPart p (fun q => { q with seedCopy := n }) s
    let s := modPair (fun x => { x with seeding := x.seeding.filter (fun e => e.1 != p.val) ++ [(p.val, n, retried)] }) s
    seedRegions p n (staticRegions (bodyOf q)) s

/-- The holder copies again after a REGION_LOAD of a region that the image marks RO (R448). -/
def reseed (p : Pid) (wa n : Nat) (s : State) : State :=
  let q := partOf s p
  if q.g.mirrored && (match partnerPlan s p.val with | some x => x.st == 3 | none => false)
      && (staticRegions (bodyOf q)).any (fun r => decide (r.addr < wa + n) && decide (wa < r.addr + r.size)) then
    startSeeding p false s
  else s

/-! ## Transfers -/

/-- Count bulk bytes in Table HIO-5 and answer (R421, R489). -/
def finishMove (r : Req) (n : Nat) (a : Ans) (s : State) : State :=
  finish r { a with resHi := ceilDiv n 64 } (modCnt r.fn (fun k => { k with moved := satAdd 64 k.moved n }) s)

/-- Let a waiting transfer go on once its granules are zero: a load writes the bytes it holds, a read sends the bytes of
the window, and a PIPELINE_LOAD takes its turn to commit (R116). -/
def serviceTransfer (s : State) (r : Req) : State :=
  let p := r.pid
  let wa := field r.payload 0 8
  let n := field r.payload 16 8
  if r.opcode = 0x0301 then
    if r.phase == .moving && !r.bulk.isEmpty && rangeZero (partOf s p).g.win (field r.bulk 0x18 8) r.bulk.length then
      modHost (fun h => { h with reqs := h.reqs ++ [{ r with phase := .ready }] }) (dropReq r.id s)
    else s
  else if r.phase != .moving || !rangeZero (partOf s p).g.win wa n then s
  else if r.opcode = 0x0206 && !r.bulk.isEmpty then
    reseed p wa n (finishMove r n ansOk (winWrite p wa r.bulk s))
  else if r.opcode = 0x0207 && r.left = 1 then
    issueDma r.fn (.bulkOut r.id) (field r.payload 8 8) (winRead s p wa n) n (modReq r.id (fun q => { q with left := 0 }) s)
  else s

/-- Service every waiting transfer of a partition in acceptance order. -/
def serviceTransfers (p : Pid) (s : State) : State :=
  (s.host.reqs.filter (fun r => r.part == p.val && [0x0206, 0x0207, 0x0301].contains r.opcode)).foldl serviceTransfer s

/-- The fields of R506 and the range of R198. -/
def regionFields (s : State) (r : Req) : Bool :=
  let b := r.payload
  field b 0 8 % 64 == 0 && field b 8 8 % 64 == 0 && field b 16 8 % 64 == 0 && decide (64 ≤ field b 16 8)
    && decide (field b 16 8 ≤ 2 ^ 36) && zeroAt b 24 8 && inWindow (partOf s r.pid).g.win (field b 0 8) (field b 16 8)

/-- REGION_LOAD is accepted: the data are read from host memory (R101, R198). -/
def regionLoad (r : Req) (s : State) : State × Option Ans :=
  (issueDma r.fn (.bulkIn r.id) (field r.payload 8 8) [] (field r.payload 16 8)
    (modReq r.id (fun q => { q with phase := .moving }) s), none)

/-- Row REGION_LOAD. -/
def execRegionLoad (r : ReqId) (s : State) : Host.Outcome State Fault Refusal :=
  .next (runCmd r 0x0206 (fun _ => true) regionFields regionLoad s)

/-- REGION_READ is accepted: the data go to host memory once the granules are zero (R116, R198). -/
def regionRead (r : Req) (s : State) : State × Option Ans :=
  (serviceTransfers r.pid (modReq r.id (fun q => { q with phase := .moving, left := 1 }) s), none)

/-- Row REGION_READ. -/
def execRegionRead (r : ReqId) (s : State) : Host.Outcome State Fault Refusal :=
  .next (runCmd r 0x0207 (fun _ => true) regionFields regionRead s)

/-! ## Zeroing -/

/-- GRANULE_ZEROED: granule g of a mode of a window reads zero, and transfers that waited for it go on (R116). -/
def doGranuleZeroed (p : Pid) (mode g : Nat) (s : State) : State :=
  let w := (partOf s p).g.win
  match (winMode w mode)[g]? with
  | none => s
  | some x =>
    let hs := [x.a, x.b].filter (fun h => w.unzero.contains h)
    if hs.isEmpty || !domOn s 2 then s
    else
      let s := modMem (zeroHalfRows hs) s
      let s := modPart p (fun q => { q with g := { q.g with win :=
        { q.g.win with unzero := q.g.win.unzero.filter (fun h => !hs.contains h) } } }) s
      serviceTransfers p s

/-- Row GRANULE_ZEROED. -/
def execGranuleZeroed (p : Pid) (mode g : Nat) (s : State) : Host.Outcome State Fault Refusal :=
  .next (doGranuleZeroed p mode g s)

/-- Post the grant's completion: its result is the dirty bytes the answer gave (R115, R501). -/
def zeroDone (op : Nat) (part : Nat) (s : State) : State :=
  (s.host.reqs.filter (fun r => r.part == part && r.opcode == op && r.phase == .pending)).foldl
    (fun s r => complete r.id 0 0 r.left true s) s

/-- WINDOW_ZEROED: a window reads zero throughout.  A granted window's completion is posted (R115); a standby window may
be seeded, which the next HEARTBEAT tells the holder (R448). -/
def doWindowZeroed (p : Pid) (standby : Bool) (s : State) : State :=
  if !domOn s 2 then s
  else if standby then
    match s.units.pair.plans.find? (fun x => x.part == p.val) with
    | none => s
    | some x =>
      let s := modMem (zeroHalfRows x.win.unzero) s
      let clear (x : Plan) : Plan := { x with win := { x.win with unzero := [] } }
      let s := modPair (fun y => { y with plans := modFirst (fun x => x.part == p.val) clear y.plans }) s
      zeroDone 0x0B03 p.val s
  else
    let s := modMem (zeroHalfRows (partOf s p).g.win.unzero) s
    let s := modPart p (fun q => { q with g := { q.g with win := { q.g.win with unzero := [] } } }) s
    zeroDone 0x0201 p.val (serviceTransfers p s)

/-- Row WINDOW_ZEROED. -/
def execWindowZeroed (p : Pid) (standby : Bool) (s : State) : Host.Outcome State Fault Refusal :=
  .next (doWindowZeroed p standby s)

/-- BACKGROUND_ZEROING_DONE: a dirty half-row that no window holds becomes clean (R114). -/
def doBackgroundZero (west : Bool) (row : Nat) (s : State) : State :=
  let h : HR := ⟨west, row⟩
  if !domOn s 2 || !halfRowFree s (heldHalfRows s) h || s.units.mem.clean.contains h || 1023 < row then s
  else modMem (fun m => { (zeroHalfRows [h] m) with clean := m.clean ++ [h] }) s

/-- Row BACKGROUND_ZEROING_DONE. -/
def execBackgroundZeroingDone (west : Bool) (row : Nat) (s : State) : Host.Outcome State Fault Refusal :=
  .next (doBackgroundZero west row s)

end Sys2Proof.Machine
end

