-- ==== Sys2Proof/Machine/Tile.lean ====
section
/-!
DEFINITION. Tiles: reset and reload, ECC and patrol scrub, image faults (R132 to R148), and corrected-error records
(R144, R189).
-/
namespace Sys2Proof.Machine

/-- The partition that holds a cluster. -/
def clusterOwner (s : State) (c : Nat) : Option Pid := allPids.find? (fun p => (partOf s p).g.clusters.contains c)

/-- The partition that holds a tile. -/
def tileOwner (s : State) (t : Nat) : Option Pid := clusterOwner s (t / 64)

/-- The partition field of a record about a tile. -/
def ownerNo (o : Option Pid) : Nat := match o with
  | some p => p.val
  | none => 0xFF

/-- A tile's state; a tile that is not listed is idle and zero. -/
def tileOf (s : State) (t : Nat) : Tile := (s.units.tiles.find? (fun x => x.id == t)).getD { id := t }

/-- Change a tile, listing it. -/
def modTile (t : Nat) (g : Tile → Tile) (s : State) : State :=
  let x := g (tileOf s t)
  modUnits (fun u => { u with tiles := u.tiles.filter (fun y => y.id != t) ++ [x] }) s

/-- The relative number of a cluster in its partition (R230): its place in ascending cluster id. -/
def relOf (q : Part) (c : Nat) : Nat := q.g.clusters.findIdx (fun x => x == c)

/-- The placement chosen for a partition, an empty one when none is (R230). -/
def placementOf (q : Part) : PlacementDecl := (bodyOf q).placements.getD q.ld.placement {}

/-- The code section of a relative cluster under the chosen placement. -/
def codeOf (q : Part) (rel : Nat) : Option TileCode :=
  (bodyOf q).code.find? (fun c => c.placement == q.ld.placement && c.rel == rel)

/-- Whether a scoreboard entry runs on a tile of its partition: its tile group holds the tile. -/
def entryOnTile (q : Part) (t : Nat) (e : Entry) : Bool :=
  e.rel == relOf q (t / 64) && (placementOf q).groupTiles.any (fun g =>
    g.1 == e.rel && g.2.1 == e.group && g.2.2.contains (t % 64))

/-- Load a tile's regions and resident bytes from the image copy (R142). -/
def loadTile (t : Nat) (s : State) : State :=
  match tileOwner s t with
  | none => s
  | some p =>
    let q := partOf s p
    match codeOf q (relOf q (t / 64)) with
    | none => s
    | some c =>
      let rs := c.regions.filter (fun r => r.tile == t % 64)
      let bytes := c.resident.filter (fun r => r.1 == t % 64)
      if rs.isEmpty && bytes.isEmpty then s
      else modTile t (fun x => { x with regions := rs, sram := bytes.foldl (fun m b => memWriteN m b.2.1 b.2.2) [] }) s

/-- Load every tile of a partition's clusters (R142, R231). -/
def loadTiles (p : Pid) (s : State) : State :=
  (partOf s p).g.clusters.foldl (fun s c => (List.range 64).foldl (fun s i => loadTile (64 * c + i) s) s) s

/-- A tile reset (R141): register files, SRAM, regions, flags and error counters cleared; arrival bits live in the hub
and stay (R174). -/
def beginTileReset (t : Nat) (s : State) : State :=
  let s := modTile t (fun x => { id := t, resetting := true, fenced := x.fenced, retry := x.retry }) s
  modMesh (fun m => { m with
    flags := m.flags.map (fun f => { f with tiles := f.tiles.filter (fun u => u != t) }) }) s

/-- The identifier of a tile SRAM access (Table ERR-12). -/
def sramTag (t off : Nat) : Nat := t * 2 ^ 16 + off

/-- TILE_RESET_DONE: the tile reloads from the image copy, and its stage runs again from its input buffers (R145); with
no stage under way on the tile the retry ends here, as transient. -/
def doTileResetDone (t : Nat) (s : State) : State :=
  let x := tileOf s t
  if !x.resetting then s
  else
    let s := loadTile t (modTile t (fun x => { x with resetting := false }) s)
    let busy : Bool := match tileOwner s t with
      | some p => (partOf s p).sc.entries.any (fun e => e.st == .issued && entryOnTile (partOf s p) t e)
      | none => false
    match x.retry with
    | some off =>
      if busy = true then s
      else
        transientFault (ownerNo (tileOwner s t)) (unitId 0x01 t) 0x0002 (sramTag t off)
          (modTile t (fun x => { x with retry := none }) s)
    | none => s

/-- Row TILE_RESET_DONE. -/
def execTileResetDone (tile : Nat) (s : State) : Host.Outcome State Fault Refusal := .next (doTileResetDone tile s)

/-- A lasting tile fault (R146): tile and partition fenced, cluster unavailable. -/
def tileLasting (t off : Nat) (s : State) : State :=
  let o := tileOwner s t
  let s := lastingFence (ownerNo o) (unitId 0x01 t) 0x0002 2 (sramTag t off) o.toList s
  let s := modTile t (fun x => { x with fenced := true, resetting := false, retry := none }) s
  let s := modUnits (fun u => { u with unavailable := insSorted (t / 64) u.unavailable }) s
  fenceParts o.toList 0x0002 s

/-- An uncorrectable error of a tile's SRAM (R145): a good re-read is transient; otherwise the tile is reset and its
stage runs again once; an error during that retry is lasting. -/
def sramError (t off : Nat) (rereadOk : Bool) (s : State) : State :=
  let x := tileOf s t
  if !domOn s (clusterDom (t / 64)) || x.fenced then s
  else if x.retry.isSome then tileLasting t off s
  else if rereadOk then transientFault (ownerNo (tileOwner s t)) (unitId 0x01 t) 0x0002 (sramTag t off) s
  else
    let s := beginTileReset t (modTile t (fun x => { x with retry := some off }) s)
    match tileOwner s t with
    | some p => modSched p (fun c => { c with entries := c.entries.map (fun e =>
        if e.st == .issued && entryOnTile (partOf s p) t e then { e with retried := true } else e) }) s
    | none => s

/-- Row TILE_SRAM_UNCORRECTABLE. -/
def execTileSramUncorrectable (tile offset : Nat) (rereadOk : Bool) (s : State) : Host.Outcome State Fault Refusal :=
  .next (sramError tile offset rereadOk s)

/-- Whether a region of a tile covers a line of its SRAM (R134). -/
def lineCovered (x : Tile) (line : Nat) : Bool :=
  x.regions.any (fun r => decide (r.addr < 64 * line + 64) && decide (64 * line < r.addr + r.size))

/-- Count a corrected error of a tile and of its owner (R144). -/
def tileCorrected (t : Nat) (s : State) : State :=
  let s := modTile t (fun x => { x with corrected := x.corrected + 1, correctedSec := x.correctedSec + 1 }) s
  cntFaults (ownerNo (tileOwner s t)) (fun x => { x with corrected := satAdd 64 x.corrected 1 }) s

/-- TILE_PATROL_SCRUB: one line is read (R143); an uncorrectable error in a line that no region covers ends with the
line rewritten with zeros (R145). -/
def doTileScrub (t line : Nat) (corrected : Bool) (unc : Option Bool) (s : State) : State :=
  if !domOn s (clusterDom (t / 64)) || (tileOf s t).fenced then s
  else
    let s := if corrected then tileCorrected t s else s
    match unc with
    | none => s
    | some ok =>
      if lineCovered (tileOf s t) line then sramError t (64 * line) ok s
      else
        let s := if ok then s else modTile t (fun x => { x with sram := memClear x.sram (fun a => a / 64 == line) }) s
        transientFault (ownerNo (tileOwner s t)) (unitId 0x01 t) 0x0002 (sramTag t (64 * line)) s

/-- Row TILE_PATROL_SCRUB. -/
def execTilePatrolScrub (tile line : Nat) (corrected : Bool) (uncorrectable : Option Bool) (s : State) :
    Host.Outcome State Fault Refusal := .next (doTileScrub tile line corrected uncorrectable s)

/-- CORRECTED_ERRORS_SECOND: one record for each tile and channel with more than 16 corrections in the second (R144,
R189). -/
def doCorrectedSecond (s : State) : State :=
  let s1 := s.units.tiles.foldl (fun a x =>
    if 16 < x.correctedSec then logEvent (ownerNo (tileOwner s x.id)) 0x0008 (unitId 0x01 x.id) x.correctedSec 0 0 a
    else a) s
  let s2 := (List.finRange 32).foldl (fun a c =>
    let n := s.units.mem.corrSec.get c
    if 16 < n then logDev 0x0008 (unitId 0x03 c.val) n 0 0 a else a) s1
  modUnits (fun u => { u with tiles := u.tiles.map (fun x => { x with correctedSec := 0 })
                              mem := { u.mem with corrSec := Vector.replicate 32 0 } }) s2

/-- Row CORRECTED_ERRORS_SECOND. -/
def execCorrectedErrorsSecond (s : State) : Host.Outcome State Fault Refusal := .next (doCorrectedSecond s)

/-- The code of an image fault (Table ERR-10). -/
def imgFaultCode : ImgFault → Nat
  | .region => 1 | .address => 2 | .instruction => 3 | .branch => 4 | .buffer => 5 | .laneDraw => 6

/-- TILE_IMAGE_FAULT: no retry, the partition is fenced, tile and cluster stay available (R147). -/
def doTileImageFault (t : Nat) (k : ImgFault) (addr : Nat) (s : State) : State :=
  match tileOwner s t with
  | some p => imageFault p (unitId 0x01 t) (imgFaultCode k) addr s
  | none => s

/-- Row TILE_IMAGE_FAULT. -/
def execTileImageFault (tile : Nat) (kind : ImgFault) (addr : Nat) (s : State) : Host.Outcome State Fault Refusal :=
  .next (doTileImageFault tile kind addr s)

end Sys2Proof.Machine
end

