-- ==== Sys2Proof/Machine/Mesh.lean ====
section
/-!
DEFINITION. The meshes, the synchronisation network and the Reserved frame (R36, R149 to R178), with the routes that
the consistency check follows (R159, R162, R164).
-/
namespace Sys2Proof.Machine

/-! ## Routes (R151, R154, R155, R162, R164) -/

/-- Bad routers of the die as positions. -/
def badRouters (s : State) : List (Nat × Nat) := (s.ao.fuse.bad.filter (fun e => e.1 == 2)).map (fun e => (e.2.2, e.2.1))

/-- One step along a line toward a target. -/
def toward (a b : Nat) : Nat := if a < b then a + 1 else a - 1

/-- Where a straight passage steps aside to: the line before, or the one after line 0. -/
def aside (y : Nat) : Nat := if y = 0 then 1 else y - 1

/-- The positions after the first on the leg in X to column x1; a bad router is passed at the side, or, where the route
would turn there, by turning one position early toward y1 (R164).  Gives the row reached. -/
def legX (bad : List (Nat × Nat)) (x1 y1 : Nat) : Nat → Nat → Nat → List (Nat × Nat) × Nat × Nat
  | 0, x, y => ([], x, y)
  | n + 1, x, y =>
    if x = x1 then ([], x, y)
    else
      let nx := toward x x1
      if bad.contains (nx, y) then
        if nx = x1 && y != y1 then
          let ny := toward y y1
          match legX bad x1 y1 n nx ny with
          | (l, e) => ((x, ny) :: (nx, ny) :: l, e)
        else
          let dy := aside y
          let nn := toward nx x1
          match legX bad x1 y1 n nn y with
          | (l, e) => ((x, dy) :: (nx, dy) :: (nn, dy) :: (nn, y) :: l, e)
      else
        match legX bad x1 y1 n nx y with
        | (l, e) => ((nx, y) :: l, e)

/-- Positions with their coordinates exchanged. -/
def flip (p : Nat × Nat) : Nat × Nat := (p.2, p.1)

/-- The positions of an X-then-Y route, source first. -/
def routeXY (bad : List (Nat × Nat)) (a b : Nat × Nat) : List (Nat × Nat) :=
  match legX bad b.1 b.2 200 a.1 a.2 with
  | (l, x, y) =>
    match legX (bad.map flip) b.2 x 200 y x with
    | (m, _, _) => a :: l ++ m.map flip

/-- The positions of a Y-then-X route, source first. -/
def routeYX (bad : List (Nat × Nat)) (a b : Nat × Nat) : List (Nat × Nat) :=
  (routeXY (bad.map flip) (flip a) (flip b)).map flip

/-- Links of a route: consecutive positions. -/
def linksOf (l : List (Nat × Nat)) : List ((Nat × Nat) × (Nat × Nat)) := l.zip (l.drop 1)

/-- The attach position of a channel (Table NOC-4). -/
def attachOf (c : Nat) : Nat × Nat :=
  ((if c / 8 % 2 = 0 then 4 else 71) + 8 * (c % 8), if c < 16 then 0 else 63)

/-- The stop for a tile (R162), as its position. -/
def stopOfTile (t : Nat) : Nat × Nat :=
  let col := t / 64 % 16
  let row := t / 64 / 16
  let k := 2 * row + (if 4 ≤ t % 64 / 8 then 1 else 0)
  (if col ≤ 7 then 0 else 131, 4 * k + 2)

/-- The stop for a channel (R162), as its position. -/
def stopOfChan (c : Nat) : Nat × Nat :=
  (if chanWest c then 0 else 131, 4 * (if c < 16 then c % 8 else 8 + c % 8) + 2)

/-- The channels of a window mode. -/
def modeChans (m : Nat) : List Nat :=
  (List.range 32).filter (fun c => if m = 0 then true else if m = 1 then chanWest c else !chanWest c)

/-- One routed part of a bulk flow: its links, its load in thirty-seconds of a byte per ms, and the channel it enters
or leaves. -/
structure Leg where
  links : List ((Nat × Nat) × (Nat × Nat))
  load : Nat
  into : Option Nat := none
  from_ : Option Nat := none

/-- The physical position of a tile of a partition. -/
def tilePos (s : State) (q : Part) (rel local_ : Nat) : Nat × Nat :=
  physOf s.ao.fuse.bad (64 * nth q.g.clusters rel + local_)

/-- The channels that a region's flow is spread over, evenly (log entry 24). -/
def regionChans (q : Part) (i : Nat) : List Nat := modeChans (((bodyOf q).regions.getD i {}).addr / 2 ^ 40)

/-- The parts of a declared bulk flow: requests and writes go X then Y, data read from memory Y then X (Table NOC-3). -/
def flowLegs (s : State) (q : Part) (f : Flow) : List Leg :=
  let bad := badRouters s
  match f.src, f.dst with
  | .tile r l, .tile r' l' => [⟨linksOf (routeXY bad (tilePos s q r l) (tilePos s q r' l')), 32 * f.bytesPerMs, none, none⟩]
  | .tile r l, .memory i =>
    (regionChans q i).map (fun c =>
      ⟨linksOf (routeXY bad (tilePos s q r l) (attachOf c)), 32 * f.bytesPerMs / (regionChans q i).length, some c, none⟩)
  | .memory i, .tile r l =>
    (regionChans q i).map (fun c =>
      ⟨linksOf (routeYX bad (attachOf c) (tilePos s q r l)), 32 * f.bytesPerMs / (regionChans q i).length, none, some c⟩)
  | .tile r l, .ring =>
    [⟨linksOf (routeXY bad (tilePos s q r l) (stopOfTile (64 * nth q.g.clusters r + l))), 32 * f.bytesPerMs, none, none⟩]
  | .ring, .tile r l =>
    [⟨linksOf (routeXY bad (stopOfTile (64 * nth q.g.clusters r + l)) (tilePos s q r l)), 32 * f.bytesPerMs, none, none⟩]
  | .ring, .memory i =>
    (regionChans q i).map (fun c =>
      ⟨linksOf (routeXY bad (stopOfChan c) (attachOf c)), 32 * f.bytesPerMs / (regionChans q i).length, some c, none⟩)
  | .memory i, .ring =>
    (regionChans q i).map (fun c =>
      ⟨linksOf (routeYX bad (attachOf c) (stopOfChan c)), 32 * f.bytesPerMs / (regionChans q i).length, none, some c⟩)
  | .memory _, .memory _ => []
  | .ring, .ring => []

/-- Every routed part of a partition's declared bulk flows. -/
def allLegs (s : State) (q : Part) : List Leg := (bodyOf q).flows.flatMap (flowLegs s q)

/-- Load on a link. -/
def linkLoad (l : List Leg) (k : (Nat × Nat) × (Nat × Nat)) : Nat :=
  sumL (l.map (fun x => if x.links.contains k then x.load else 0))

/-- The links that carry a partition's flows, in order of first use. -/
def usedLinks (l : List Leg) : List ((Nat × Nat) × (Nat × Nat)) :=
  (l.flatMap (fun x => x.links)).foldl (fun a k => if a.contains k then a else a ++ [k]) []

/-- The partition-relative cluster nearest a position: least Manhattan distance to a tile of the cluster, lowest number
on a tie. -/
def nearestRel (s : State) (q : Part) (p : Nat × Nat) : Nat :=
  let dist (r : Nat) : Nat := ((List.range 64).map (fun i =>
    let t := tilePos s q r i
    (t.1 - p.1) + (p.1 - t.1) + (t.2 - p.2) + (p.2 - t.2))).foldl min 1000
  ((List.range q.g.clusters.length).foldl (fun (a : Nat × Nat) r => if dist r < a.2 then (r, dist r) else a) (0, 1000)).1

/-- Load across a cut: both directions of its links. -/
def cutLoad (l : List Leg) (t : (Nat × Nat) × (Nat × Nat) → Bool) : Nat :=
  sumL (l.map (fun x => x.load * (x.links.filter t).length))

def ewCut (k : (Nat × Nat) × (Nat × Nat)) : Bool := (k.1.1 == 65 && k.2.1 == 66) || (k.1.1 == 66 && k.2.1 == 65)
def nsCut (k : (Nat × Nat) × (Nat × Nat)) : Bool := (k.1.2 == 31 && k.2.2 == 32) || (k.1.2 == 32 && k.2.2 == 31)

/-- Capacity of a cut in bytes per ms: n links of two directions less those that a bad router ends (R159). -/
def cutCap (n lost : Nat) : Nat := (n - lost) * 204800000

/-- Declared Reserved flits per slot on a link. -/
def resLoad (l : List (List ((Nat × Nat) × (Nat × Nat)) × Nat)) (k : (Nat × Nat) × (Nat × Nat)) : Nat :=
  sumL (l.map (fun x => if x.1.contains k then x.2 else 0))

/-- t_bound of R169 in TCLK. -/
def tBound (g h b : Nat) : Nat := g * 2048 + 3 * h + b + 4

/-- Item 11 of Table PRT-4: Reserved slots and load, locality, edge load (R159, R169, R170). -/
def networkItem (s : State) (q : Part) : List Short :=
  let b := bodyOf q
  let bad := badRouters s
  let paths := b.resPaths.map (fun x =>
    (linksOf (routeXY bad (tilePos s q x.srcRel x.srcTile) (tilePos s q x.dstRel x.dstTile)), x.flits))
  let rlinks := (paths.flatMap (fun x => x.1)).foldl (fun a k => if a.contains k then a else a ++ [k]) []
  let most := (rlinks.map (resLoad paths)).foldl max 0
  let legs := allLegs s q
  let half : Nat := 32 * 51200000
  let links := usedLinks legs
  let n := q.g.clusters.length
  let lostEW := (bad.filter (fun p => p.1 == 65 || p.1 == 66)).length
  let lostNS := (bad.filter (fun p => p.2 == 31 || p.2 == 32)).length
  let cut (t : (Nat × Nat) × (Nat × Nat) → Bool) (cap : Nat) : List Short :=
    if n * 32 * cap < 128 * cutLoad legs t then [⟨0x0702, 10, 0, 0, ceilDiv (cutLoad legs t) 32, n * cap / 128⟩] else []
  let g := if q.g.resSlots.isEmpty then 64 else largestGap 64 q.g.resSlots
  (if q.g.resSlots.length < b.resSlots then [⟨0x0701, 5, 0, 0, b.resSlots, q.g.resSlots.length⟩] else [])
    ++ (if 512 < most then [⟨0x0701, 0, 0, 0, most, 512⟩] else [])
    ++ (links.filter (fun k => decide (half < linkLoad legs k))).map (fun k =>
        ⟨0x0702, 10, 1, nearestRel s q k.1, ceilDiv (linkLoad legs k) 32, 51200000⟩)
    ++ cut ewCut (cutCap 64 lostEW) ++ cut nsCut (cutCap 132 lostNS)
    ++ (b.resPaths.zip paths).filterMap (fun x =>
        let t := tBound g x.2.1.length ((x.2.1.map (resLoad paths)).foldl max 0)
        match x.1.need with
        | some need => if need < t then some ⟨0x0703, 13, 0, 0, t, need⟩ else none
        | none => none)
    ++ (List.range 32).filterMap (fun c =>
        let load := max (sumL (legs.map (fun l => if l.into = some c then l.load else 0)))
                        (sumL (legs.map (fun l => if l.from_ = some c then l.load else 0)))
        if half < load then some ⟨0x0704, 10, 1, nearestRel s q (attachOf c), ceilDiv load 32, 51200000⟩ else none)

/-! ## Link errors (R177, R178) -/

/-- The identifier of a router (Table ERR-9). -/
def routerUnit (x y : Nat) : Nat := unitId 0x02 (x * 256 + y)

/-- FLIT_CRC_FAIL: the flit is replayed once (R177). -/
def doFlitCrcFail (x y : Nat) (s : State) : State :=
  if domOn s (if x < 66 then 3 else 4) then modMesh (fun m => { m with replays := m.replays ++ [(x, y)] }) s else s

/-- Row FLIT_CRC_FAIL. -/
def execFlitCrcFail (x y : Nat) (s : State) : Host.Outcome State Fault Refusal := .next (doFlitCrcFail x y s)

/-- Whether a window uses channels attached in a tile domain. -/
def windowIn (q : Part) (d : Nat) : Bool :=
  !q.g.win.all.isEmpty || (if d = 3 then !q.g.win.west.isEmpty else !q.g.win.east.isEmpty)

/-- A lasting fault of the mesh: the tile domain is fenced by powering it down, and Table CLK-5 applies (R178). -/
def meshLasting (x y fault tag : Nat) (s : State) : State :=
  let d := if x < 66 then 3 else 4
  if !domOn s d then s
  else
    let hit (q : Part) : Bool := q.g.clusters.any (fun c => clusterDom c == d) || windowIn q d
    let s := lastingFence 0xFF (routerUnit x y) fault 4 tag (partsWhere s hit) s
    dropDom 8 d (fenceWhere hit 0x0102 s)

/-- FLIT_REPLAY_DONE (R177). -/
def doFlitReplayDone (x y tag : Nat) (ok : Bool) (s : State) : State :=
  if !s.units.mesh.replays.contains (x, y) then s
  else
    let s := modMesh (fun m => { m with replays := m.replays.erase (x, y) }) s
    if ok then transientFault 0xFF (routerUnit x y) 0x0003 tag s else meshLasting x y 0x0003 tag s

/-- Row FLIT_REPLAY_DONE. -/
def execFlitReplayDone (x y tag : Nat) (ok : Bool) (s : State) : Host.Outcome State Fault Refusal :=
  .next (doFlitReplayDone x y tag ok s)

/-- SYNC_LANE_MISMATCH: the lane is sampled once more; a second mismatch is lasting (R177). -/
def doSyncMismatch (x y : Nat) (again : Bool) (s : State) : State :=
  if !domOn s (if x < 66 then 3 else 4) then s
  else if again then meshLasting x y 0x0005 0 s
  else transientFault 0xFF (routerUnit x y) 0x0005 0 s

/-- Row SYNC_LANE_MISMATCH. -/
def execSyncLaneMismatch (x y : Nat) (again : Bool) (s : State) : Host.Outcome State Fault Refusal :=
  .next (doSyncMismatch x y again s)

/-- MESH_PACKET_ARRIVAL: a packet whose tag is not the destination's grant is dropped and logged (R36); ADMIN packets
carry no tag. -/
def doMeshPacket (t : Nat) (tag : Option Pid) (s : State) : State :=
  let o := tileOwner s t
  match tag with
  | none => s
  | some p =>
    if o = some p then s
    else
      let c := physOf s.ao.fuse.bad t
      limited (.router c.1 c.2) 1000000 (fun n => logEvent (ownerNo o) 0x0701 (routerUnit c.1 c.2) p.val n 0) (ownerNo o) s

/-- Row MESH_PACKET_ARRIVAL. -/
def execMeshPacketArrival (tile : Nat) (tag : Option Pid) (s : State) : Host.Outcome State Fault Refusal :=
  .next (doMeshPacket tile tag s)

/-- RESERVED_SLOT_START: the slot counter, common to the die, starts at 0 with the first tile domain and advances (R166).
-/
def doSlotStart (s : State) : State :=
  if !(domOn s 3 || domOn s 4) then s
  else modMesh (fun m => if m.slotRunning then { m with slot := (m.slot + 1) % 64 } else { m with slot := 0, slotRunning := true }) s

/-- Row RESERVED_SLOT_START. -/
def execReservedSlotStart (s : State) : Host.Outcome State Fault Refusal := .next (doSlotStart s)

/-! ## Barriers and flags (R173 to R175) -/

/-- The participant tiles of a context, as (relative cluster, local tile), when the image declares it. -/
def barrierMask (b : ImgBody) (cl : Option Nat) (ctx : Nat) : List (Nat × Nat) :=
  match b.barriers.find? (fun x => decide (x.1 = cl) && x.2.1 == ctx) with
  | some x => x.2.2.flatMap (fun m => (bitsOf m.2 64).map (fun i => (m.1, i)))
  | none => []

/-- Release a barrier whose masked bits are all set: bits cleared, generation toggled, stalled arrivals taken (R174). -/
def barrierRelease (mask : List (Nat × Nat)) (x : Barrier) : Barrier :=
  if mask.all (fun t => x.arrived.contains t) && !mask.isEmpty then
    { x with arrived := x.stalled, stalled := [], gen := !x.gen }
  else x

/-- One arrival. -/
def barrierArrive (mask : List (Nat × Nat)) (t : Nat × Nat) (next : Bool) (x : Barrier) : Barrier :=
  if next then (if x.stalled.contains t then x else { x with stalled := x.stalled ++ [t] })
  else barrierRelease mask (if x.arrived.contains t then x else { x with arrived := x.arrived ++ [t] })

/-- Whether a tile lies in the scope of a context or flag of a partition. -/
def inScope (q : Part) (cl : Option Nat) (tile : Nat) : Bool :=
  q.g.clusters.contains (tile / 64) && (match cl with
    | some r => r == relOf q (tile / 64)
    | none => true)

/-- BARRIER_ARRIVAL. -/
def doBarrier (p : Pid) (cl : Option Nat) (ctx tile : Nat) (next : Bool) (s : State) : State :=
  let q := partOf s p
  let mask := barrierMask (bodyOf q) cl ctx
  let t := (relOf q (tile / 64), tile % 64)
  if !inScope q cl tile || !mask.contains t then s
  else
    let same (x : Barrier) : Bool := decide (x.part = p) && decide (x.cluster = cl) && x.ctx == ctx
    modMesh (fun m =>
      if m.barriers.any same then { m with barriers := modFirst same (barrierArrive mask t next) m.barriers }
      else { m with barriers := m.barriers ++ [barrierArrive mask t next { part := p, cluster := cl, ctx := ctx }] }) s

/-- Row BARRIER_ARRIVAL. -/
def execBarrierArrival (p : Pid) (cluster : Option Nat) (ctx tile : Nat) (nextGen : Bool) (s : State) :
    Host.Outcome State Fault Refusal := .next (doBarrier p cluster ctx tile nextGen s)

/-- FLAG_CONTRIBUTION_CHANGE: a tile changes only its own contribution (R175). -/
def doFlag (p : Pid) (cl : Option Nat) (no tile : Nat) (set : Bool) (s : State) : State :=
  let q := partOf s p
  let b := bodyOf q
  if !inScope q cl tile || decide ((match cl with | some _ => b.clusterFlags | none => b.partFlags) ≤ no) then s
  else
    let same (x : Flag) : Bool := decide (x.part = p) && decide (x.cluster = cl) && x.no == no
    let upd (x : Flag) : Flag := { x with tiles := x.tiles.filter (fun u => u != tile) ++ (if set then [tile] else []) }
    modMesh (fun m =>
      if m.flags.any same then { m with flags := modFirst same upd m.flags }
      else { m with flags := m.flags ++ [upd { part := p, cluster := cl, no := no }] }) s

/-- Row FLAG_CONTRIBUTION_CHANGE. -/
def execFlagContributionChange (p : Pid) (cluster : Option Nat) (flag tile : Nat) (set : Bool) (s : State) :
    Host.Outcome State Fault Refusal := .next (doFlag p cluster flag tile set s)

/-- The value of a flag: the OR of its contributions. -/
def flagValue (s : State) (p : Pid) (cl : Option Nat) (no : Nat) : Bool :=
  s.units.mesh.flags.any (fun x => decide (x.part = p) && decide (x.cluster = cl) && x.no == no && !x.tiles.isEmpty)

end Sys2Proof.Machine
end

