-- ==== Sys2Proof/Machine/Float.lean ====
section
/-!
DEFINITION. The tiles' floating-point arithmetic (R130): binary32 and bf16, exact inside, rounded once to nearest even,
subnormals kept, one canonical NaN.
-/
namespace Sys2Proof.Machine

/-- A value: NaN, an infinity, or a signed dyadic number m × 2^e. -/
inductive FVal where
  | nan
  | inf (neg : Bool)
  | fin (neg : Bool) (m : Nat) (e : Int)
deriving DecidableEq, Repr

/-- The canonical NaN of R130. -/
def f32NaN : Word32 := 0x7FC00000

/-- The value of a binary32 word. -/
def fval (w : Word32) : FVal :=
  let n := w.toNat
  let s := n.testBit 31
  let x : Nat := n / 2 ^ 23 % 256
  let f : Nat := n % 2 ^ 23
  if x = 255 then (if f = 0 then .inf s else .nan)
  else if x = 0 then .fin s f (-149)
  else .fin s (f + 2 ^ 23) (Int.ofNat x - 150)

/-- Magnitude and sign as a word. -/
def fpack (neg : Bool) (mag : Nat) : Word32 := BitVec.ofNat 32 ((if neg then 2 ^ 31 else 0) + mag)

/-- Round m / 2^k to nearest, ties to even. -/
def rneShift (m k : Nat) : Nat :=
  let n := m >>> k
  let r := m % 2 ^ k
  let h := 2 ^ k
  if h < 2 * r || (2 * r == h && n % 2 == 1) then n + 1 else n

/-- m × 2^e rounded to binary32; overflow gives an infinity. -/
def fround (neg : Bool) (m : Nat) (e : Int) : Word32 :=
  if m = 0 then fpack neg 0
  else
    let q : Int := max (e + Int.ofNat (Nat.log2 m) - 23) (-149)
    let n := if e ≤ q then rneShift m (q - e).toNat else m <<< (e - q).toNat
    let b := (q + 149).toNat * 2 ^ 23 + n
    fpack neg (min b 0x7F800000)

def fnegV : FVal → FVal
  | .nan => .nan
  | .inf s => .inf (!s)
  | .fin s m e => .fin (!s) m e

/-- An exact product. -/
def fmulV : FVal → FVal → FVal
  | .nan, _ => .nan
  | _, .nan => .nan
  | .inf s, .inf t => .inf (s != t)
  | .inf s, .fin t m _ => if m = 0 then .nan else .inf (s != t)
  | .fin s m _, .inf t => if m = 0 then .nan else .inf (s != t)
  | .fin s m e, .fin t n f => .fin (s != t) (m * n) (e + f)

/-- The exact sum of two values; a zero sum is negative only when both terms are. -/
def faddV : FVal → FVal → FVal
  | .nan, _ => .nan
  | _, .nan => .nan
  | .inf s, .inf t => if s = t then .inf s else .nan
  | .inf s, .fin _ _ _ => .inf s
  | .fin _ _ _, .inf t => .inf t
  | .fin s m e, .fin t n f =>
    let g := min e f
    let a : Int := (m * 2 ^ (e - g).toNat : Nat)
    let b : Int := (n * 2 ^ (f - g).toNat : Nat)
    let v := (if s then -a else a) + (if t then -b else b)
    if v = 0 then .fin (s && t) 0 0 else .fin (decide (v < 0)) v.natAbs g

/-- A value rounded once to binary32. -/
def froundV : FVal → Word32
  | .nan => f32NaN
  | .inf s => fpack s 0x7F800000
  | .fin s m e => fround s m e

def fadd (a b : Word32) : Word32 := froundV (faddV (fval a) (fval b))
def fsub (a b : Word32) : Word32 := froundV (faddV (fval a) (fnegV (fval b)))
def fmul (a b : Word32) : Word32 := froundV (fmulV (fval a) (fval b))
/-- a × b + c, rounded once. -/
def ffma (a b c : Word32) : Word32 := froundV (faddV (fmulV (fval a) (fval b)) (fval c))
/-- The bf16 multiply-accumulate: acc + a0 b0 + a1 b1 exactly, rounded once. -/
def fdot2 (acc a0 b0 a1 b1 : Word32) : Word32 :=
  froundV (faddV (faddV (fval acc) (fmulV (fval a0) (fval b0))) (fmulV (fval a1) (fval b1)))

/-- Correctly rounded division. -/
def fdiv (a b : Word32) : Word32 :=
  match fval a, fval b with
  | .nan, _ => f32NaN
  | _, .nan => f32NaN
  | .inf _, .inf _ => f32NaN
  | .inf s, .fin t _ _ => fpack (s != t) 0x7F800000
  | .fin s _ _, .inf t => fpack (s != t) 0
  | .fin s m e, .fin t n f =>
    if n = 0 then (if m = 0 then f32NaN else fpack (s != t) 0x7F800000)
    else
      let x := m * 2 ^ 64
      fround (s != t) (2 * (x / n) + (if x % n = 0 then 0 else 1)) (e - f - 65)

/-- Compare finite values and infinities; false with a NaN. -/
def fltB (a b : Word32) : Bool :=
  match fval a, fval b with
  | .nan, _ => false
  | _, .nan => false
  | .inf s, .inf t => s && !t
  | .inf s, .fin _ _ _ => s
  | .fin _ _ _, .inf t => !t
  | .fin s m e, .fin t n f =>
    let g := min e f
    let x : Int := (m * 2 ^ (e - g).toNat : Nat)
    let y : Int := (n * 2 ^ (f - g).toNat : Nat)
    decide ((if s then -x else x) < (if t then -y else y))

def fisNaN (a : Word32) : Bool := decide (fval a = .nan)
def fleB (a b : Word32) : Bool := !fisNaN a && !fisNaN b && !fltB b a

/-- fp32 to bf16, to nearest even. -/
def toBf16 (a : Word32) : Word16 :=
  if fisNaN a then 0x7FC0 else BitVec.ofNat 16 (rneShift a.toNat 16)

/-- bf16 to fp32, exact. -/
def ofBf16 (a : Word16) : Word32 := BitVec.ofNat 32 (a.toNat * 65536)

/-- An integer to fp32. -/
def ofInt32 (i : Int) : Word32 := fround (decide (i < 0)) i.natAbs 0

/-- A value rounded to the nearest integer, ties to even. -/
def fnearest : FVal → Int
  | .fin s m e =>
    let n : Int := if 0 ≤ e then (m * 2 ^ e.toNat : Nat) else (rneShift m (-e).toNat : Nat)
    if s then -n else n
  | _ => 0

/-- fp32 to an integer format between lo and hi, saturating; a NaN gives 0. -/
def toIntSat (lo hi : Int) (a : Word32) : Int :=
  match fval a with
  | .nan => 0
  | .inf s => if s then lo else hi
  | v => max lo (min hi (fnearest v))

end Sys2Proof.Machine
end

