-- ==== Sys2Proof/Machine/Mx.lean ====
section
/-!
DEFINITION. The MX formats of near memory: packing and unpacking of blocks of 32 elements (R199 to R203).
-/
namespace Sys2Proof.Machine

/-- A row of Table MEM-4. -/
structure MxFmt where
  /-- element width, exponent bits, mantissa bits, bias; exponent bits 0 for MXINT8 -/
  w : Nat
  eb : Nat
  mb : Nat
  bias : Nat
  emax : Int
  maxCode : Nat
  /-- data bytes, dense record, A32 record -/
  d : Nat
  s : Nat
  r : Nat

/-- Formats 0 to 5 in the order of Table MEM-4. -/
def mxFmt (k : Nat) : MxFmt :=
  if k = 0 then ⟨8, 4, 3, 7, 8, 0x7E, 32, 33, 64⟩
  else if k = 1 then ⟨8, 5, 2, 15, 15, 0x7B, 32, 33, 64⟩
  else if k = 2 then ⟨6, 3, 2, 3, 4, 0x1F, 24, 25, 32⟩
  else if k = 3 then ⟨6, 2, 3, 1, 2, 0x1F, 24, 25, 32⟩
  else if k = 4 then ⟨4, 2, 1, 1, 2, 0x7, 16, 17, 32⟩
  else ⟨8, 0, 0, 0, 0, 0x7F, 32, 33, 64⟩

/-- Magnitude code of m × 2^e in a floating element format, to nearest even, saturating. -/
def mxRound (f : MxFmt) (m : Nat) (e : Int) : Nat :=
  if m = 0 then 0
  else
    let low : Int := 1 - Int.ofNat f.bias - Int.ofNat f.mb
    let q : Int := max (e + Int.ofNat (Nat.log2 m) - Int.ofNat f.mb) low
    let n := if e ≤ q then rneShift m (q - e).toNat else m <<< (e - q).toNat
    min ((q - low).toNat * 2 ^ f.mb + n) f.maxCode

/-- One element of x = m × 2^e with its sign. -/
def mxElem (f : MxFmt) (neg : Bool) (m : Nat) (e : Int) : Nat :=
  if f.eb = 0 then
    let n := fnearest (.fin neg m (e + 6))
    toTwos 8 (max (-128) (min 127 n))
  else (if neg then 2 ^ (f.w - 1) else 0) + mxRound f m e

/-- floor(log2) of a nonzero value, none for zero. -/
def flog2 : FVal → Option Int
  | .fin _ m e => if m = 0 then none else some (e + Int.ofNat (Nat.log2 m))
  | _ => none

/-- The scale and elements of a block (R202). -/
def mxPack (f : MxFmt) (vs : List FVal) : Nat × List Nat :=
  if vs.any (fun v => match v with | .fin _ _ _ => false | _ => true) then (0xFF, vs.map (fun _ => 0))
  else
    match (vs.filterMap flog2).foldl (fun a x => match a with | none => some x | some y => some (max x y)) none with
    | none => (0, vs.map (fun v => match v with | .fin s _ _ => mxElem f s 0 0 | _ => 0))
    | some l =>
      let e := min (max (l - f.emax) (-127)) 127
      ((e + 127).toNat, vs.map (fun v => match v with
        | .fin s m x => mxElem f s m (x - e)
        | _ => 0))

/-- The value of one element. -/
def mxVal (k : Nat) (c : Nat) : FVal :=
  let f := mxFmt k
  if f.eb = 0 then
    let i := ofTwos 8 c
    .fin (decide (i < 0)) i.natAbs (-6)
  else
    let s := c.testBit (f.w - 1)
    let x := c / 2 ^ f.mb % 2 ^ f.eb
    let m := c % 2 ^ f.mb
    if k = 0 && c % 128 == 0x7F then .nan
    else if k = 1 && x == 31 then (if m = 0 then .inf s else .nan)
    else if x = 0 then .fin s m (1 - Int.ofNat f.bias - Int.ofNat f.mb)
    else .fin s (m + 2 ^ f.mb) (Int.ofNat x - Int.ofNat f.bias - Int.ofNat f.mb)

/-- An element times its scale, rounded once to the tile side (R203). -/
def mxUnpack (k scale c : Nat) (fp32 : Bool) : Nat :=
  let w : Word32 := if scale = 0xFF then f32NaN
    else froundV (fmulV (mxVal k c) (.fin false 1 (Int.ofNat scale - 127)))
  if fp32 then w.toNat else (toBf16 w).toNat

/-- The D data bytes of a block: element k in bits B k to B k + B - 1 (R200). -/
def mxData (f : MxFmt) (es : List Nat) : List Byte :=
  toLe f.d ((es.zipIdx).foldl (fun a x => a + x.1 * 2 ^ (f.w * x.2)) 0)

/-- The elements of D data bytes. -/
def mxElems (f : MxFmt) (bs : List Byte) : List Nat :=
  (List.range 32).map (fun k => leNat bs / 2 ^ (f.w * k) % 2 ^ f.w)

/-- The tile-side value of a word. -/
def tileVal (fp32 : Bool) (v : Nat) : FVal :=
  if fp32 then fval (BitVec.ofNat 32 v) else fval (ofBf16 (BitVec.ofNat 16 v))

/-- Blocks of 32. -/
def blocks32 : Nat → List Nat → List (List Nat)
  | 0, _ => []
  | n + 1, l => l.take 32 :: blocks32 n (l.drop 32)

/-- Elements beyond the last one of a row are +0 (R200). -/
def mxFill (vals : List Nat) : List Nat := vals ++ List.replicate (32 * ceilDiv vals.length 32 - vals.length) 0

/-- The bytes of consecutive blocks: in MX_DENSE from the first block's scale on (R200); in MX_A32 with the zero bytes
that lie between the block before and each scale (R201). -/
def mxRow (k : Nat) (a32 fp32 : Bool) (vals : List Nat) : List Byte :=
  let f := mxFmt k
  ((blocks32 (vals.length / 32) vals).zipIdx).flatMap (fun b =>
    match mxPack f (b.1.map (tileVal fp32)) with
    | (sc, es) => (if a32 then zeros (f.r - 1 - f.d) else []) ++ toLe 1 sc ++ mxData f es)

/-- Where the bytes of `mxRow` begin, from the first block's record (R200, R201): in MX_A32 past the data of the block
before. -/
def mxLead (k : Nat) (a32 : Bool) : Nat := if a32 then 32 + (mxFmt k).d - (mxFmt k).r else 0

/-- The values of n blocks read from their row. -/
def mxRead (k : Nat) (a32 fp32 : Bool) (n : Nat) (bs : List Byte) : List Nat :=
  let f := mxFmt k
  (List.range n).flatMap (fun i =>
    let at_ := if a32 then f.r * i + 31 else f.s * i
    (mxElems f (slice bs (at_ + 1) f.d)).map (fun c => mxUnpack k (field bs at_ 1) c fp32))

/-- Bytes that n blocks take from the row offset of the first. -/
def mxLen (k : Nat) (a32 : Bool) (n : Nat) : Nat :=
  let f := mxFmt k
  if n = 0 then 0 else if a32 then f.r * (n - 1) + 32 + f.d else f.s * n

end Sys2Proof.Machine
end

