-- ==== Sys2Proof/Machine/NearMemory.lean ====
section
/-!
DEFINITION. Near-memory accesses, ECC, re-reads, retirement and patrol scrub (R185 to R203).
-/
namespace Sys2Proof.Machine

/-- The partition whose window holds a half-row. -/
def halfRowOwner (s : State) (h : HR) : Option Pid := allPids.find? (fun p => (winHalfRows (partOf s p).g.win).contains h)

/-- Whether a write meets a region marked RO after the enable (R194). -/
def writesRo (q : Part) (addr len : Nat) : Bool :=
  q.st == .enabled && (bodyOf q).regions.any (fun r =>
    r.ro && decide (r.addr < addr + len) && decide (addr < r.addr + r.size))

/-- The pixels of a MONO12P line: each pair lies in three bytes (Table MEM-3). -/
def mono12 : List Byte → List Nat
  | a :: b :: c :: rest => (16 * a.toNat + b.toNat % 16) :: (16 * c.toNat + b.toNat / 16) :: mono12 rest
  | _ => []

/-- NEAR_MEMORY_ACCESS: translated at its source (R182, R185); an address fault sends nothing toward memory.  An MX
access packs or unpacks whole blocks of 32 elements, and a read of a MONO12P region delivers its pixels (R196, R202,
R203). -/
def doNearMemory (a : MemAccess) (s : State) : State :=
  let q := partOf s a.part
  if !domOn s 2 then s
  else
    match a.mx with
    | none =>
      let n := match a.write with
        | some b => b.length
        | none => a.len
      if !inWindow q.g.win a.addr n || (a.write.isSome && writesRo q a.addr n) then
        accessFault a.part a.unit a.tile 1 a.addr s
      else
        match a.write with
        | some b => winWrite a.part a.addr b s
        | none =>
          if a.mono then emit (.memVals a.part a.addr (mono12 (winRead s a.part a.addr n))) s
          else emit (.memData a.part a.addr (winRead s a.part a.addr n)) s
    | some (k, a32) =>
      let wr := a.write.isSome
      let els := if wr then a.mxVals.length else a.len
      let n := mxLen k a32 (ceilDiv els 32)
      if !inWindow q.g.win a.addr n || (wr && writesRo q a.addr n) then
        accessFault a.part a.unit a.tile 1 a.addr s
      else if wr then winWrite a.part (a.addr + mxLead k a32) (mxRow k a32 a.mxFp32 (mxFill a.mxVals)) s
      else emit (.memVals a.part a.addr ((mxRead k a32 a.mxFp32 (ceilDiv els 32) (winRead s a.part a.addr n)).take els)) s

/-- Row NEAR_MEMORY_ACCESS. -/
def execNearMemoryAccess (a : MemAccess) (s : State) : Host.Outcome State Fault Refusal := .next (doNearMemory a s)

/-- The 256-byte unit of a DPA. -/
def unitOf (dpa : Nat) : Nat := dpa / 256 * 256

/-- The channel of a DPA as a unit identifier. -/
def chanUnit (dpa : Nat) : Nat := unitId 0x03 (dpa / 2 ^ 35 % 32)

/-- NEAR_MEMORY_UNCORRECTABLE: the response is held and one re-read goes to the head of the channel's queue (R190). -/
def doMemUncorrectable (dpa : Nat) (p : Option Pid) (s : State) : State :=
  if !domOn s 2 || s.units.mem.reread.any (fun x => x.1 == unitOf dpa) then s
  else modMem (fun m => { m with reread := m.reread ++ [(unitOf dpa, p, p.isNone)] }) s

/-- Row NEAR_MEMORY_UNCORRECTABLE. -/
def execNearMemoryUncorrectable (dpa : Nat) (part : Option Pid) (s : State) : Host.Outcome State Fault Refusal :=
  .next (doMemUncorrectable dpa part s)

/-- Retire a half-row (R191); the 33rd retirement since the last cold reset is a lasting fault of PD_MEM (R192). -/
def retireHalfRow (dpa : Nat) (s : State) : State :=
  let h := dpaHalfRow dpa
  let o := halfRowOwner s h
  if s.units.mem.retired.contains h then s
  else
    let s := modMem (fun m => { m with retired := m.retired ++ [h], retiredCount := m.retiredCount + 1
                                       clean := m.clean.filter (fun x => decide (x ≠ h)) }) s
    let s := logEvent (ownerNo o) 0x0301 dpa (dpa / 2 ^ 32) s.units.mem.retiredCount 0 s
    if 33 ≤ s.units.mem.retiredCount then memFault (chanUnit dpa) 0x0002 dpa s else s

/-- A second uncorrectable read of a unit (R191, R192). -/
def memLasting (dpa : Nat) (s : State) : State :=
  let h := dpaHalfRow dpa
  if rowReserved s h.row then memFault (chanUnit dpa) 0x0002 dpa s
  else
    let o := halfRowOwner s h
    let s := lastingFault (ownerNo o) (chanUnit dpa) 0x0002 3 dpa s
    retireHalfRow dpa (fenceParts o.toList 0x0002 s)

/-- An uncorrectable read that a patrol scrub found in a half-row no window holds: the unit is zeroed and the fault is
transient, unless the unit fails again after it (R193). -/
def scrubZero (dpa : Nat) (s : State) : State :=
  if s.units.mem.zeroed.contains dpa then memLasting dpa s
  else
    let s := modMem (fun m => { m with cells := memClear m.cells (fun a => a / 256 == dpa / 256), zeroed := m.zeroed ++ [dpa] }) s
    transientFault 0xFF (chanUnit dpa) 0x0002 dpa s

/-- The outcome of a re-read of a unit; `scrub` tells that the patrol scrubber read it. -/
def rereadEnd (dpa : Nat) (scrub ok : Bool) (s : State) : State :=
  let h := dpaHalfRow dpa
  if ok then transientFault (ownerNo (halfRowOwner s h)) (chanUnit dpa) 0x0002 dpa s
  else if scrub && !rowReserved s h.row && !(heldHalfRows s).contains h then scrubZero dpa s
  else memLasting dpa s

/-- NEAR_MEMORY_REREAD_DONE. -/
def doReread (dpa : Nat) (ok : Bool) (s : State) : State :=
  match s.units.mem.reread.find? (fun x => x.1 == unitOf dpa) with
  | none => s
  | some x =>
    rereadEnd x.1 x.2.2 ok (modMem (fun m => { m with reread := m.reread.filter (fun y => y.1 != unitOf dpa) }) s)

/-- Row NEAR_MEMORY_REREAD_DONE. -/
def execNearMemoryRereadDone (dpa : Nat) (ok : Bool) (s : State) : Host.Outcome State Fault Refusal :=
  .next (doReread dpa ok s)

/-- MEMORY_PATROL_SCRUB: the channel's scrubber reads its next 256-byte unit, in DPA order (R193). -/
def doMemScrub (ch : Nat) (corrected : Bool) (unc : Option Bool) (s : State) : State :=
  if !domOn s 2 then s
  else
    let u := vget s.units.mem.scrub ch 0
    let dpa := ch * 2 ^ 35 + u * 256
    let s := modMem (fun m => { m with scrub := vmodN m.scrub ch (fun n => (n + 1) % 2 ^ 27) }) s
    let s := if corrected then
        cntFaults (ownerNo (halfRowOwner s (dpaHalfRow dpa))) (fun x => { x with corrected := satAdd 64 x.corrected 1 })
          (modMem (fun m => { m with corr := vmodN m.corr ch (satAdd 64 · 1), corrSec := vmodN m.corrSec ch (· + 1) }) s)
      else s
    match unc with
    | some ok => rereadEnd dpa true ok s
    | none => s

/-- Row MEMORY_PATROL_SCRUB. -/
def execMemoryPatrolScrub (ch : Nat) (corrected : Bool) (uncorrectable : Option Bool) (s : State) :
    Host.Outcome State Fault Refusal := .next (doMemScrub ch corrected uncorrectable s)

end Sys2Proof.Machine
end

