-- ==== Sys2Proof/Machine/BufferOps.lean ====
section
/-!
DEFINITION. What units ask of the buffer pool: reserve, draw, unreserve, hand-off, release and access, with buffer
faults, the free-store caches and the descriptor caches (R212 to R225).
-/
namespace Sys2Proof.Machine

/-- A buffer fault (R212): counted, then handled as the requester's address fault is. -/
def bufferFault (p : Pid) (unit : Owner) (c addr : Nat) (s : State) : State :=
  accessFault p unit none 2 addr (modPCnt p (fun k => { k with bufFaults := addAt k.bufFaults c 1 }) s)

/-- Answer NO_BUFFER and let the request wait for its wake (R221); counted under its lowest short class. -/
def answerNoBuf (q : ReserveReq) (short : List (Nat × Nat)) (s : State) : State :=
  match short with
  | [] => s
  | (c, cause) :: _ =>
    let s := countNoBuf q.part c cause s
    let s := modPool (fun x => { x with waiters := x.waiters ++ [⟨q, short⟩] }) s
    if q.admission then s else emit (.reserved q.part q.by_ cause) s

/-- BUFFER_RESERVE: a request joins the contender set of its CCLK (R219), or is answered OFFLINE (R208). -/
def doReserve (q : ReserveReq) (s : State) : State :=
  let q := { q with admission := false }
  if s.units.pool.inService then modPool (fun x => { x with set := x.set ++ [q] }) s
  else answerNoBuf q ((List.range 5).filterMap (fun c => if nth q.counts c = 0 then none else some (c, 3))) s

/-- Row BUFFER_RESERVE. -/
def execBufferReserve (q : ReserveReq) (s : State) : Host.Outcome State Fault Refusal := .next (doReserve q s)

/-- Decide the first request of the ranked set (R219): the request and the classes it fell short in. -/
def decideHead (s : State) : State × Option (ReserveReq × List (Nat × Nat)) :=
  if !s.units.pool.inService then (s, none)
  else
    let s := formSet s
    match s.units.pool.cur with
    | [] => (s, none)
    | q :: rest =>
      let s := modPool (fun x => { x with cur := rest }) s
      let short := shortOf s q
      if short.isEmpty then (holdAdd q.part q.counts s, some (q, []))
      else (answerNoBuf q short s, some (q, short))

/-- Reserve for a command at its commit point: none when the pool refuses (R221, R491). -/
def reserveNow (p : Pid) (counts : List Nat) (s : State) : Option State :=
  if sumL counts = 0 then some s
  else if !s.units.pool.inService then none
  else if (shortOf s ⟨p, counts, ⟨7, 0⟩, false⟩).isEmpty then some (holdAdd p counts s)
  else none

/-- Take one drawn buffer off the undrawn count of a step (no offset) or of a sample of it. -/
def takeUndrawnIn (c : Nat) (off : Option Nat) (st : OpenStep) : OpenStep :=
  match off with
  | none => { st with undrawn := subAt st.undrawn c 1 }
  | some o =>
    let one (m : Sample) : Sample := { m with undrawn := subAt m.undrawn c 1 }
    { st with samples := modAll (fun m => m.off == o) one st.samples }

/-- Take one drawn buffer off the undrawn count of its sample or step. -/
def takeUndrawn (p : Pid) (c : Nat) (for_ : Option (Nat × Option Nat)) (s : State) : State :=
  match for_ with
  | none => s
  | some (slot, off) =>
    modSched p (fun x => { x with steps := modAll (fun st => st.slot == slot) (takeUndrawnIn c off) x.steps }) s

/-- BUFFER_DRAW (R214): refused as a buffer fault when nothing reserved is undrawn. -/
def doDraw (p : Pid) (c : Cls) (unit : Owner) (index : Nat) (for_ : Option (Nat × Option Nat)) (s : State) : State :=
  let q := partOf s p
  if !s.units.pool.inService then s
  else if nth q.held c.val ≤ nth q.drawn c.val then bufferFault p unit c.val 0 s
  else
    match drawDesc p c.val unit index for_ s with
    | (d, s) => emit (.handle unit (handleOf d)) (takeUndrawn p c.val for_ s)

/-- Row BUFFER_DRAW. -/
def execBufferDraw (p : Pid) (c : Cls) (unit : Owner) (index : Nat) (for_ : Option (Nat × Option Nat)) (s : State) :
    Host.Outcome State Fault Refusal := .next (doDraw p c unit index for_ s)

/-- BUFFER_UNRESERVE (R215). -/
def doUnreserve (p : Pid) (c : Cls) (n : Nat) (unit : Owner) (s : State) : State :=
  let q := partOf s p
  if !s.units.pool.inService then s
  else if nth q.held c.val - nth q.drawn c.val < n then bufferFault p unit c.val 0 s
  else unreserve p c.val n s

/-- Row BUFFER_UNRESERVE. -/
def execBufferUnreserve (p : Pid) (c : Cls) (n : Nat) (unit : Owner) (s : State) : Host.Outcome State Fault Refusal :=
  .next (doUnreserve p c n unit s)

/-- The buffer that a unit of a partition may use through a handle, none when R212 makes it a buffer fault. -/
def ownedBy (s : State) (p : Pid) (unit : Owner) (h : Nat) : Option Desc :=
  match lookup s h with
  | some d => if d.st == 1 && d.part == p.val && decide (d.owner = unit) then some d else none
  | none => none

/-- The class under which a fault of a handle is counted. -/
def faultCls (h : Nat) : Nat := if hCls h < 5 then hCls h else 0

/-- Whether a unit can serve a partition: units granted exclusively must be its own (R216). -/
def unitOk (s : State) (p : Pid) (o : Owner) : Bool :=
  let g := (partOf s p).g
  if o.kind = 0 then g.clusters.contains o.inst
  else if o.kind = 1 then g.cores.contains o.inst
  else if o.kind = 4 then g.ports.contains o.inst
  else if o.kind = 5 then g.ns.any (fun x => x.1 == o.inst)
  else decide (o.kind < 8)

/-- BUFFER_HAND_OFF (R216): the buffer is HANDING until the old owner's accesses are acknowledged. -/
def doHandOff (p : Pid) (unit : Owner) (h : Nat) (new : Owner) (s : State) : State :=
  if !s.units.pool.inService then s
  else
    match ownedBy s p unit h with
    | some d => if unitOk s p new then setDesc { d with st := 2, next := new } s else bufferFault p unit (faultCls h) h s
    | none => bufferFault p unit (faultCls h) h s

/-- Row BUFFER_HAND_OFF. -/
def execBufferHandOff (p : Pid) (unit : Owner) (handle : Word64) (new : Owner) (s : State) :
    Host.Outcome State Fault Refusal := .next (doHandOff p unit handle.toNat new s)

/-- Forget a buffer's cached descriptors. -/
def dropCached (c i : Nat) (s : State) : State :=
  modPool (fun q => { q with dcache := q.dcache.filter (fun x => !(x.2.1 == c && x.2.2 == i)) }) s

/-- HAND_OFF_APPLY (R216): the cached descriptor is written back and the new owner takes the buffer, map and all. -/
def doHandOffApply (c : Cls) (index : Nat) (s : State) : State :=
  let d := descOf s c.val index
  if d.st = 2 then setDesc { d with st := 1, owner := d.next } (dropCached c.val index s) else s

/-- Row HAND_OFF_APPLY. -/
def execHandOffApply (c : Cls) (index : Nat) (s : State) : Host.Outcome State Fault Refusal := .next (doHandOffApply c index s)

/-- BUFFER_RELEASE (R217). -/
def doRelease (p : Pid) (unit : Owner) (h : Nat) (s : State) : State :=
  if !s.units.pool.inService then s
  else
    match ownedBy s p unit h with
    | some d => releaseDesc d s
    | none => bufferFault p unit (faultCls h) h s

/-- Row BUFFER_RELEASE. -/
def execBufferRelease (p : Pid) (unit : Owner) (handle : Word64) (s : State) : Host.Outcome State Fault Refusal :=
  .next (doRelease p unit handle.toNat s)

/-- BUFFER_ACCESS (R212, R224): checked against the descriptor; sectors not written since the draw read as zeros. -/
def doBufferAccess (p : Pid) (unit : Owner) (h off len : Nat) (write : Option (List Byte)) (s : State) : State :=
  let n := match write with
    | some b => b.length
    | none => len
  if !s.units.pool.inService then s
  else
    match ownedBy s p unit h with
    | none => bufferFault p unit (faultCls h) h s
    | some d =>
      if classSize d.cls < off + n then bufferFault p unit d.cls h s
      else
        match write with
        | some b => bufWrite d off b s
        | none =>
          let fresh_ := ((sectorsOf off n).filter (fun k => !d.written.contains k)).length
          emit (.memData p h (bufRead s d off n)) (modPCnt p (fun k => { k with zeroReads := addAt k.zeroReads d.cls fresh_ }) s)

/-- Row BUFFER_ACCESS. -/
def execBufferAccess (p : Pid) (unit : Owner) (handle : Word64) (off len : Nat) (write : Option (List Byte)) (s : State) :
    Host.Outcome State Fault Refusal := .next (doBufferAccess p unit handle.toNat off len write s)

/-- NO_BUFFER_WAKE_TIMEOUT: 10 µs after a refusal with a class short for HEADROOM the request competes afresh (R221,
R222). -/
def doWakeTimeout (q : ReserveReq) (s : State) : State :=
  let hit (w : Waiter) : Bool := decide (w.req = q) && w.short.any (fun x => x.2 == 1)
  if s.units.pool.inService && s.units.pool.waiters.any hit then
    modPool (fun x => { x with waiters := x.waiters.eraseP hit, set := x.set ++ [q] }) s
  else s

/-- Row NO_BUFFER_WAKE_TIMEOUT. -/
def execNoBufferWakeTimeout (q : ReserveReq) (s : State) : Host.Outcome State Fault Refusal := .next (doWakeTimeout q s)

/-- FREE_STORE_FETCH_DONE: up to 128 indices reach the cache that stood at 64 or below (R223). -/
def doFetch (c : Cls) (s : State) : State :=
  if s.units.pool.inService && decide (nth s.units.pool.cache c.val ≤ 64) then
    let n := min 128 (ringFill s c.val)
    modPool (fun q => { q with cache := addAt q.cache c.val n }) s
  else s

/-- Row FREE_STORE_FETCH_DONE. -/
def execFreeStoreFetchDone (c : Cls) (s : State) : Host.Outcome State Fault Refusal := .next (doFetch c s)

/-- DESCRIPTOR_CACHE_FILL: a unit's cache of 64 descriptors takes one it missed; the oldest leaves (R212). -/
def doCacheFill (unit : Owner) (c : Cls) (index : Nat) (s : State) : State :=
  if !s.units.pool.inService || capacity s c.val ≤ index then s
  else modPool (fun q =>
    let mine := q.dcache.filter (fun x => decide (x.1 = unit))
    let rest := q.dcache.filter (fun x => decide (x.1 ≠ unit))
    if mine.contains (unit, c.val, index) then q
    else { q with dcache := rest ++ (mine ++ [(unit, c.val, index)]).drop (mine.length + 1 - 64) }) s

/-- Row DESCRIPTOR_CACHE_FILL. -/
def execDescriptorCacheFill (unit : Owner) (c : Cls) (index : Nat) (s : State) : Host.Outcome State Fault Refusal :=
  .next (doCacheFill unit c index s)

end Sys2Proof.Machine
end

