-- ==== Sys2Proof/Machine/Image.lean ====
section
/-!
DEFINITION. Pipeline images: the header and the section table (R228, R229), and the declarations that PIPELINE_LOAD
refuses with 0x0202 (R231, R134, R173, R194, R205, R230, R233, R263, R267, R271, R279, R304, R315, R318, R321, R329,
R332, R355, R362, R376, R381, R382, R472).
-/
namespace Sys2Proof.Machine

/-! ## Header and section table -/

/-- The fields of Table SCH-2. -/
def parseHeader (b : List Byte) : ImgHeader :=
  let f := field b 7 1
  { interfaceVersion := field b 6 1, usesLaneRng := bit f 0, hasSpill := bit f 1, uniform := bit f 2, live := bit f 3
    sourceRaw := bit f 4, numerics := field b 8 4, length := field b 0x10 8, copyAddress := field b 0x18 8
    hash := slice b 0x20 48, stageCount := field b 0x50 2, maxInFlight := field b 0x52 2, stepsInFlight := field b 0x54 1
    uniformClass := field b 0x55 1, batchesPerStep := field b 0x56 2, samplesPerStep := field b 0x58 4
    liveBacklog := field b 0x5C 2, stepsPerEpoch := field b 0x60 4, requiredRate := field b 0x64 4 }

/-- Whether a number lies in a range. -/
def within (lo hi n : Nat) : Bool := decide (lo ≤ n) && decide (n ≤ hi)

/-- R228 and the ranges of Table SCH-2; live_backlog is not looked at while LIVE is set (R229). -/
def headerOk (b : List Byte) (h : ImgHeader) (len : Nat) : Bool :=
  slice b 0 4 == [0x42, 0x53, 0x54, 0x49] && field b 4 2 == 1 && decide (field b 7 1 < 32) && zeroAt b 0x0C 4
    && zeroAt b 0x5E 2 && zeroAt b 0x6C 4 && zeroAt b 0x78 136
    && within 4096 1073741824 h.length && h.length == len
    && within 1 256 h.stageCount && within 1 256 h.maxInFlight && within 1 2 h.stepsInFlight
    && within 1 64 h.batchesPerStep && within 1 65536 h.samplesPerStep && within 1 1024 (field b 0x68 4)
    && (if h.uniform then decide (h.uniformClass ≤ 4) else h.uniformClass == 0)
    && (if h.live then h.stepsPerEpoch != 0 else h.liveBacklog == 0 && h.stepsPerEpoch == 0)
    && field b 0x70 8 % 16 == 0

/-- The section kinds of the table, none when an entry is broken (R229). -/
def sectionKinds (b : List Byte) (len : Nat) : Option (List Nat) :=
  let tab := field b 0x70 8
  let n := field b 0x68 4
  if len < tab + 16 * n then none
  else
    (List.range n).foldr (fun i acc =>
      let e := slice b (tab + 16 * i) 16
      match acc with
      | none => none
      | some l =>
        if within 1 12 (field e 0 2) && zeroAt e 2 2 && decide (field e 8 8 + field e 4 4 ≤ len) then
          some (field e 0 2 :: l)
        else none) (some [])

/-- Every section but TILE_CODE (6) appears exactly once. -/
def sectionsOk (l : List Nat) : Bool :=
  [1, 2, 3, 4, 5, 7, 8, 9, 10, 11, 12].all (fun k => (l.filter (fun x => x == k)).length == 1)

/-- The hash of an image: SHA-384 with its hash field zero (Table SCH-2). -/
def imageHash (b : List Byte) : List Byte := sha384 (b.take 0x20 ++ zeros 48 ++ b.drop 0x50)

/-! ## The graph (R233) -/

/-- Scope of a stage kind (Table SCH-4): some true step, some false sample, none as declared. -/
def kindScope (k : Nat) : Option Bool :=
  if within 1 9 k then some false else if within 0x0A 0x10 k || k == 0x12 then some true else none

/-- Stages reachable from a list of stages along edges, within n rounds. -/
def closure (edges : List (Nat × Nat)) : Nat → List Nat → List Nat
  | 0, l => l
  | n + 1, l => closure edges n ((edges.filter (fun e => l.contains e.1)).foldl (fun a e => insSorted e.2 a) l)

/-- Stages on a cycle: a graph is acyclic when repeatedly removing stages without inputs removes all (R233). -/
def peel (edges : List (Nat × Nat)) : Nat → List Nat → List Nat
  | 0, l => l
  | n + 1, l => peel edges n (l.filter (fun i => edges.any (fun e => e.2 == i && l.contains e.1)))

def graphOk (h : ImgHeader) (b : ImgBody) : Bool :=
  let st (i : Nat) : StageDecl := b.stages.getD i {}
  let n := b.stages.length
  let idx := List.range n
  let back := b.edges.map (fun e => (e.2, e.1))
  let cams := b.streams.filter (fun x => x.camera)
  n == h.stageCount
    && b.stages.all (fun x => within 1 0x13 x.kind && (match kindScope x.kind with
        | some k => k == x.stepScope
        | none => true))
    && b.edges.all (fun e => decide (e.1 < n) && decide (e.2 < n) && e.1 != e.2)
    && (peel b.edges n idx).isEmpty
    && b.edges.all (fun e => !(st e.1).stepScope || (st e.2).stepScope)
    && idx.all (fun i => decide ((b.edges.filter (fun e => e.1 == i)).length ≤ 8)
                      && decide ((b.edges.filter (fun e => e.2 == i)).length ≤ 8))
    && idx.all (fun i => (st i).stepScope || (st i).kind == 1 || (st i).kind == 3 || b.edges.any (fun e => e.2 == i))
    && idx.all (fun i => !(st i).stepScope || (st i).kind == 0x10 || b.edges.any (fun e => e.1 == i)
        || (closure back n [i]).all (fun j => !(st j).stepScope || (st j).kind == 0x12))
    && (!h.live || (!cams.isEmpty && cams.all (fun c => [1, 2].all (fun k =>
          b.stages.any (fun x => x.kind == k && x.stream == c.index)))))

/-! ## Other declarations -/

/-- Positions of a list that overlap: regions as (address, size). -/
def disjoint : List (Nat × Nat) → Bool
  | [] => true
  | a :: l => l.all (fun b => decide (a.1 + a.2 ≤ b.1) || decide (b.1 + b.2 ≤ a.1)) && disjoint l

/-- R134. -/
def tileRegionsOk (l : List TileRegion) : Bool :=
  (List.range 64).all (fun t =>
    let r := (l.filter (fun x => x.tile == t)).map (fun x => (x.addr, x.size))
    decide (r.length ≤ 16) && r.all (fun x => x.1 % 64 == 0 && x.2 % 64 == 0 && x.2 != 0 && decide (x.1 + x.2 ≤ 49152))
      && disjoint r)
  && l.all (fun x => decide (x.tile < 64) && decide (x.kind < 4))

/-- The operation ids that an image declares (R263, R304): of its stages and of their augmentation instances. -/
def opIds (b : ImgBody) : List Nat := b.stages.flatMap (fun x => x.opIds ++ x.augs.map (fun a => a.opId))

def distinct (l : List Nat) : Bool := l.length == (l.foldl (fun a x => insSorted x a) []).length

/-- R304: the high bytes that an image may declare. -/
def opIdOk (n : Nat) : Bool :=
  decide (n < 65536) && (within 1 0x0C (n / 256) || [0x10, 0x11, 0x20, 0x21].contains (n / 256))

/-- Columns and rows of patches of a TOKENISE stage over a sample (R267). -/
def patchGrid (d : StageDecl) (w h : Nat) : Nat × Nat :=
  if d.padEdge then (ceilDiv w d.patch, ceilDiv h d.patch) else (w / d.patch, h / d.patch)

/-- The limits of single stages (R267, R472). -/
def stageOk (d : StageDecl) : Bool :=
  (d.kind != 9 || ([8, 14, 16, 32].contains d.patch && within 1 4 d.planes && decide (d.elemFmt < 3)
      && within 1 65536 d.cap && decide ((patchGrid d d.maxW d.maxH).1 * (patchGrid d d.maxW d.maxH).2 ≤ 2 ^ 24)))
    && (!(d.kind == 5 || d.kind == 6) || decide (d.inputBytes ≤ 936000))

/-- The largest cap K of the image (R267). -/
def capK (b : ImgBody) : Nat := ((b.stages.filter (fun x => x.kind == 9)).map (fun x => x.cap)).foldl max 0

/-- A positive normal fp32 value (R318). -/
def posNormal (w : Word32) : Bool := within 0x00800000 0x7F7FFFFF w.toNat

/-- A stage of Table CHN-4. -/
def schedStageOk (x : SchedStage) : Bool := decide (x.beta.toNat < 0x7F800000) && within 1 65535 x.sweeps

/-- A schedule of R346. -/
def schedOk (l : List SchedStage) : Bool := within 1 16 l.length && l.all schedStageOk

/-- Sweeps of a schedule. -/
def schedSweeps (l : List SchedStage) : Nat := sumL (l.map (fun x => x.sweeps))

/-- R315, R318, R321, R329, R332. -/
def expertsOk (b : ImgBody) : Bool :=
  (b.dim % 64 == 0 && within 64 4096 b.dim)
    && b.experts.all (fun e => within 1 65536 e.cap && posNormal e.floor)
    && (!b.usesExperts || within 1 b.wheyW b.wheyRound)
    && (!b.tokensMode || within 2 65536 b.codebook)
    && (b.revInterval == 0 || within 16 65535 b.revInterval)

/-- R355, R362, R472: what the CHURN section declares; an image with a PACK stage declares its packing, and one that can
revise placements declares the placement run. -/
def churnOk (b : ImgBody) : Bool :=
  (match b.pack with
    | none => !b.stages.any (fun x => x.kind == 0x0E)
    | some p => decide (capK b ≤ p.lCap) && decide (1 ≤ p.lCap) && decide (p.alpha ≤ 255) && decide (p.gamma ≤ 255)
        && schedOk p.sched && within 1 (schedSweeps p.sched) p.sMin && within 100 125000 p.budgetUs)
  && (match b.place with
    | none => b.revInterval == 0 && !b.groupsE.any (fun g => g.spare)
    | some p => schedOk p.sched && decide (p.nu ≤ 65535) && decide (1 ≤ p.budgetUs))

/-- Bits added to a QP's range: 6 × (bit depth − 8) of the profile (R279). -/
def qpBdOffset (profile : Nat) : Int := if profile = 0 then 0 else if profile = 3 then 24 else 12

/-- Bytes of a block's image part (R375). -/
def blockBytes (x : StreamDecl) : Nat :=
  x.width * x.blockH * (if x.pixFmt = 0 then 2 else if x.pixFmt = 1 then 3 else 4) / 2

/-- Lower bounds of the tiles of a division (Table VID-4): uniform spacing gives floor widths. -/
def divisionOk (x : StreamDecl) : Bool :=
  if x.division = 0 then
    within 1 20 x.divCols && within 1 22 x.divRows
      && (x.divCols == 1 || decide (256 ≤ 64 * (ceilDiv x.picW 64 / x.divCols)))
      && (x.divRows == 1 || decide (64 ≤ 64 * (ceilDiv x.picH 64 / x.divRows)))
  else decide (x.division < 3) && within 1 32 x.divK

/-- Luma samples of the largest segment of a picture (Table VID-4). -/
def segPixels (x : StreamDecl) : Nat :=
  if x.division = 0 then
    min x.picW (64 * ceilDiv (ceilDiv x.picW 64) x.divCols) * min x.picH (64 * ceilDiv (ceilDiv x.picH 64) x.divRows)
  else if x.division = 1 then x.picW * min x.picH (64 * x.divK)
  else x.picW * min x.picH 64

/-- R271, R279, R375, R376, R381, R382, R472 for one stream. -/
def streamOk (x : StreamDecl) : Bool :=
  decide (x.index < 64)
    && (!x.camera || (decide (x.port < 8) && within 64 16384 x.width && x.width % 2 == 0 && decide (x.pixFmt < 3)
          && (if x.lineMode then within 1 4096 x.blockH && x.winH % 64 == 0 && x.winH % x.blockH == 0 && within 64 16384 x.winH
              else within 64 16384 x.blockH && x.winH == x.blockH && x.winH % 8 == 0)
          && x.payloadBytes % 64 == 0 && within 512 9088 x.payloadBytes && decide (x.chunkBytes ≤ 4096)
          && (x.payloadType != 1 || x.chunkBytes == 0)
          && within 100 1000000 x.blockTimeoutUs && within 1000 10000000 x.streamTimeoutUs
          && decide (x.resendDelayUs ≤ 1000) && within 100 10000 x.resendTimeoutUs))
    && (!x.coded || (divisionOk x && (x.encode || decide (segPixels x ≤ 7812500))
          && (!x.encode || (within 1 256 x.irap && within 1 2 x.refs && decide (x.rateMode < 4)
                && [x.qpInit, x.qpMin, x.qpMax, x.qpI, x.qpP].all (fun v =>
                      decide (-(qpBdOffset x.profile) ≤ v) && decide (v ≤ 51))))))

/-- Streams per port and per partition (Limits of Camera Ingest), each index once. -/
def streamsOk (l : List StreamDecl) : Bool :=
  l.all streamOk && distinct (l.map (fun x => x.index))
    && decide ((l.filter (fun x => x.camera)).length ≤ 64)
    && (List.range 8).all (fun n => decide ((l.filter (fun x => x.camera && x.port == n)).length ≤ 16))

/-- R205: buffers fit the largest class or the uniform class, and reservations stay in the uniform class. -/
def buffersOk (h : ImgHeader) (b : ImgBody) : Bool :=
  b.bufferSizes.all (fun n => decide (n ≤ classSize (if h.uniform then h.uniformClass else 4)))
    && (!h.uniform || (List.range 5).all (fun c =>
          c == h.uniformClass || (nth b.perSample c == 0 && nth b.perStep c == 0)))

/-- Every declaration that PIPELINE_LOAD refuses with 0x0202 (step 1 of R231). -/
def contentOk (h : ImgHeader) (b : ImgBody) : Bool :=
  graphOk h b && decide (b.regions.length ≤ 256)
    && (match b.regions.find? (fun r => r.role == .imageCopy) with
        | some r => r.addr == h.copyAddress && decide (h.length ≤ r.size)
        | none => false)
    && b.code.all (fun c => tileRegionsOk c.regions)
    && within 1 8 b.placements.length && b.placements.all (fun p => within 1 128 p.clusters)
    && distinct (b.placements.map (fun p => p.clusters))
    && decide (b.clusterCtx ≤ 16) && decide (b.clusterFlags ≤ 32) && decide (b.partCtx ≤ 8) && decide (b.partFlags ≤ 16)
    && buffersOk h b && (opIds b).all opIdOk && distinct (opIds b) && b.stages.all stageOk
    && expertsOk b && churnOk b && streamsOk b.streams

/-- The image that bytes hold, when they pass structure and every declared range (R229, R231 step 1). -/
def readImage (b : List Byte) (len : Nat) : Option Image :=
  let h := parseHeader b
  if b.length == len && headerOk b h len && (match sectionKinds b len with
      | some l => sectionsOk l
      | none => false) && imageHash b == h.hash then
    let body := Config.imageBody b
    if contentOk h body then some ⟨h, body⟩ else none
  else none

/-- Whether the device lacks the interface version or the numerics revision of an image (R231 step 2). -/
def versionShort (s : State) (h : ImgHeader) : Bool :=
  h.numerics != s.ao.fw.numerics || decide (h.interfaceVersion < s.ao.fw.verMin) || decide (s.ao.fw.verMax < h.interfaceVersion)

/-- R300: whether an image uses Dill. -/
def usesDill (b : ImgBody) : Bool :=
  !(opIds b).isEmpty || b.stages.any (fun x => x.kind == 0x12 || x.kind == 0x0E) || b.revInterval != 0
    || b.groupsE.any (fun g => g.spare)

/-- The placement of R230 for a number of granted clusters: the largest that fits, as an index. -/
def choosePlacement (b : ImgBody) (granted : Nat) : Option Nat :=
  (List.range b.placements.length).foldl (fun (best : Option Nat) i =>
    let n := (b.placements.getD i {}).clusters
    if granted < n then best
    else match best with
      | none => some i
      | some j => if (b.placements.getD j {}).clusters < n then some i else best) none

/-- Steps of an epoch: the header's for a live image, else from the permutation (R246); 0 when it has none. -/
def epochSteps (h : ImgHeader) (b : ImgBody) : Nat :=
  if h.live then h.stepsPerEpoch else ceilDiv b.permLength h.samplesPerStep

/-- A region by its role. -/
def regionOf (b : ImgBody) (r : Role) : Option Region := b.regions.find? (fun x => x.role == r)
/-- A region by its role and stream or expert. -/
def regionFor (b : ImgBody) (r : Role) (k : Nat) : Option Region := b.regions.find? (fun x => x.role == r && x.of_ == k)

end Sys2Proof.Machine
end

