-- ==== Sys2Proof/Machine/Check.lean ====
section
/-!
DEFINITION. The consistency check (R119 to R124, Table PRT-4), as a function of a partition's grants, image and
settings and of the device's state.
-/
namespace Sys2Proof.Machine

/-- What the check sees of ports: from the ports as configured, or from a takeover plan (R447, R448). -/
structure PortView where
  role : Nat → Nat
  bound : Nat → Bool

/-- What the check finds. -/
structure Checked where
  shorts : List Short := []
  placement : Nat := 0xFF
  spilled : List Nat := []
  plain : Nat := 0
  spill : Nat := 0
deriving DecidableEq, Repr

/-- A shortfall that names no amount. -/
def plainShort (reason : Nat) : Short := ⟨reason, 0, 0, 0, 0, 0⟩

/-! ## Item 2: recreate records (R232) -/

/-- Whether records cover steps in order from an epoch and a step (R232, R246). -/
def recordsCover (steps : Nat) : Nat → Nat → List (List Byte) → Bool
  | _, _, [] => true
  | e, st, r :: rest =>
    let f := unpackCursor (field r 0 8)
    let l := unpackCursor (field r 8 8)
    f.epoch == e && f.step == st && l.epoch == e && l.step == st
      && recordsCover steps (if st + 1 < steps then e else e + 1) (if st + 1 < steps then st + 1 else 0) rest

def recordsItem (s : State) (q : Part) : List Short :=
  let i := hdrOf q
  let start := match q.ld.records with
    | r :: _ => field r 0 8
    | [] => 0
  if !q.ld.recreate then []
  else if q.ld.records.any (fun r => field r 0x10 4 != s.ao.fw.numerics) then [plainShort 0x020A]
  else if q.ld.records.isEmpty || q.ld.records.any (fun r => slice r 0x20 48 != i.hash) || start != packCursor q.ld.cursor
      || !recordsCover (epochSteps i (bodyOf q)) q.ld.cursor.epoch q.ld.cursor.step q.ld.records then [plainShort 0x020B]
  else []

/-! ## Item 3: the cursor (R11, R246) -/

def cursorItem (q : Part) : List Short :=
  let n := epochSteps (hdrOf q) (bodyOf q)
  let c := q.ld.cursor
  if n != 0 && (decide (n < c.step) || (c.step == n && c.epoch == 65535)) then [⟨0x020C, 0, 0, 0, c.step, n⟩] else []

/-! ## Item 4: tiles, SRAM, spill, scoreboard (R123, R124, R230, R241) -/

/-- Segments of a cluster by falling rounded size, declared order on a tie: taking them in this order takes the fewest.
-/
def insSeg (x : SpillSeg) : List SpillSeg → List SpillSeg
  | [] => [x]
  | y :: ys => if ceilDiv y.bytes 4096 < ceilDiv x.bytes 4096 then x :: y :: ys else y :: insSeg x ys

/-- The segments spilled to cover an excess. -/
def takeSegs (excess : Nat) : List SpillSeg → List SpillSeg
  | [] => []
  | x :: xs => if excess = 0 then [] else x :: takeSegs (excess - 4096 * ceilDiv x.bytes 4096) xs

/-- What relative cluster r spills: bytes per tile and the cost in 1/256 ns, or its shortfall. -/
def clusterSpill (q : Part) (k r need : Nat) : Except Short (Nat × Nat) :=
  let segs := ((bodyOf q).spill.filter (fun x => x.placement == k && x.rel == r)).foldl (fun a x => insSeg x a) []
  if need ≤ 49152 then .ok (0, 0)
  else if !(q.g.spillAllowed && (hdrOf q).hasSpill) || segs.isEmpty then .error ⟨0x0205, 2, 1, r, need * 64, 49152 * 64⟩
  else
    let took := takeSegs (need - 49152) segs
    let n := sumL (took.map (fun x => 4096 * ceilDiv x.bytes 4096))
    if n < need - 49152 || need < 4 * n then .error ⟨0x0206, 2, 1, r, n * 64, need * 64 / 4⟩
    else .ok (n, sumL (took.map (fun x => x.uses * 2 * (4096 * ceilDiv x.bytes 4096 * 64) * 10)))

/-- Window bytes for spilled segments: the declared spill area, else the window beyond the declared regions (log entry
25). -/
def spillRoom (q : Part) : Nat :=
  match regionOf (bodyOf q) .spillArea with
  | some r => r.size
  | none => winGib q.g.win * gib - sumL ((bodyOf q).regions.map (fun r => r.size))

/-- Item 4 with the placement, the spilled bytes and the rates of R124. -/
def tilesItem (q : Part) : Checked :=
  let b := bodyOf q
  let h := hdrOf q
  match choosePlacement b q.g.clusters.length with
  | none =>
    let least := (b.placements.map (fun p => p.clusters)).foldl min 128
    { shorts := [⟨0x0204, 1, 0, 0, 64 * least, 64 * q.g.clusters.length⟩] }
  | some k =>
    let pl := b.placements.getD k {}
    let rels := List.range pl.clusters
    let res := rels.map (fun r => clusterSpill q k r (nth pl.sramPerTile r))
    let bytes := res.map (fun x => match x with | .ok v => v.1 * 64 | .error _ => 0)
    let worst := (rels.map (fun r => nth pl.tcNs r)).foldl max 0
    let slow := (rels.map (fun r => nth pl.tcNs r * 256 + (match res.getD r (.ok (0, 0)) with
      | .ok v => v.2
      | .error _ => 0))).foldl max 0
    let total := sumL bytes
    let plain := if worst = 0 then 0 else 10 ^ 12 / worst
    let spill := if slow = 0 then 0 else 256 * 10 ^ 12 / slow
    let board := rels.filterMap (fun r =>
      let n := h.maxInFlight * nth pl.sampleEntries r + h.stepsInFlight * nth pl.stepEntries r
      if 256 < n then some (⟨0x020E, 9, 1, r, n, 256⟩ : Short) else none)
    { shorts :=
        res.filterMap (fun x => match x with | .ok _ => none | .error e => some e)
        ++ (if spillRoom q < total then [⟨0x0206, 2, 0, 0, total, spillRoom q⟩] else [])
        ++ (if total != 0 && decide (256 * 10 ^ 9 < h.requiredRate * slow) then
              [⟨0x0207, 7, 0, 0, h.requiredRate * 1000, spill⟩] else [])
        ++ board
      placement := k, spilled := bytes, plain := plain, spill := spill }

/-! ## Item 5: regions (R194, R195, R314) -/

/-- Table MEM-3. -/
def layoutOk (r : Region) : Bool :=
  let rank := max 1 r.extents.length
  if r.layout = 1 then decide (r.format < 7) && decide (rank ≤ 4)
  else if r.layout = 2 then decide (r.format < 7) && rank == 2
  else if r.layout = 3 then [0, 2, 5, 6].contains r.format && decide (rank ≤ 4)
  else if r.layout = 4 then r.format == 7 && (match r.extents.getLast? with | some n => n % 2 == 0 | none => true)
  else if r.layout = 5 || r.layout = 6 then within 8 13 r.format && decide (rank ≤ 4)
  else r.layout == 7

/-- Bytes of a region beyond the granules of its mode. -/
def regionExcess (w : Window) (r : Region) : Nat :=
  let have_ := (winMode w (r.addr / 2 ^ 40)).length * gib
  min r.size (r.addr % 2 ^ 40 + r.size - have_)

/-- Whether a region holds stem, router, expert, Whey or codebook data (R314). -/
def stemRole (r : Role) : Bool := [Role.stem, .router, .expertWeights, .whey, .codebook].contains r

/-- The first failure of one region against those declared before it (R194). -/
def regionFail (w : Window) (before : List Region) (r : Region) : Option Short :=
  let x := regionExcess w r
  if x != 0 then some ⟨if stemRole r.role then 0x020D else 0x0301, 2, 0, 0, r.size, r.size - x⟩
  else if r.addr % 4096 != 0 || r.pitches.any (fun p => p % 64 != 0)
      || (r.layout == 3 && (match r.pitches with | p :: _ => p % 4096 != 0 | [] => false)) then some (plainShort 0x0302)
  else if !layoutOk r then some (plainShort 0x0303)
  else if before.any (fun b => decide (r.addr < b.addr + b.size) && decide (b.addr < r.addr + r.size)) then
    some (plainShort 0x0304)
  else none

/-- The first failure of the regions in declared order. -/
def regionsFail (w : Window) : List Region → List Region → Option Short
  | _, [] => none
  | before, r :: rest => match regionFail w before r with
    | some x => some x
    | none => regionsFail w (before ++ [r]) rest

/-! ## Item 8: codec and stills (R25, R271 to R275, R285, R286) -/

/-- The luma picture size and sample rate that a level up to 6.1 allows (H.265 Annex A), by general_level_idc. -/
def levelLimits (idc : Nat) : Option (Nat × Nat) :=
  match ([(30, 36864, 552960), (60, 122880, 3686400), (63, 245760, 7372800), (90, 552960, 16588800),
      (93, 983040, 33177600), (120, 2228224, 66846720), (123, 2228224, 133693440), (150, 8912896, 267386880),
      (153, 8912896, 534773760), (156, 8912896, 1069547520), (180, 35651584, 1069547520),
      (183, 35651584, 2139095040)] : List (Nat × Nat × Nat)).find? (fun x => x.1 == idc) with
  | some x => some x.2
  | none => none

/-- Bits of luma and chroma per luma sample of a profile as stored (R285); a decode stream is stored as declared by its
profile. -/
def packedBits (profile : Nat) : Nat := if profile = 0 then 12 else if profile = 1 then 15 else if profile = 2 then 20 else 12

/-- Segments of a picture (Table VID-4). -/
def segCount (x : StreamDecl) : Nat :=
  if x.division = 0 then x.divCols * x.divRows
  else if x.division = 1 then ceilDiv (ceilDiv x.picH 64) x.divK
  else ceilDiv x.picH 64

/-- Bytes of reference area that a stream needs (R285, R286). -/
def referenceBytes (x : StreamDecl) : Nat :=
  let slot := ceilDiv x.picW 64 * ceilDiv x.picH 64 * (4096 * packedBits x.profile / 8 + 64)
  (if x.encode then x.refs + 1 else x.dpbSlots) * slot + 4096 * segCount x

/-- Pixels per second of one core for a stream (Table VID-2, R275). -/
def coreRate (x : StreamDecl) : Nat :=
  if !x.encode then 500000000
  else (if x.profile < 2 then 300000000 else 200000000) / (if x.lossless then 2 else 1)

def codecItem (q : Part) : List Short :=
  let b := bodyOf q
  let l := b.streams.filter (fun x => x.coded)
  let okProfile (x : StreamDecl) : Bool := decide (x.profile < 4) && x.chromaOk
  let good := l.filter okProfile
  -- the sum over streams of pixel rate over core rate, in cores × 3,000,000,000
  let need := sumL (good.map (fun x => x.pixelRate * (3000000000 / coreRate x)))
  let cores := ceilDiv need 3000000000
  (if q.g.cores.length < cores then [⟨0x0401, 4, 0, 0, cores, q.g.cores.length⟩] else [])
    ++ l.flatMap (fun x =>
      if !okProfile x then [⟨0x0402, 0, 3, x.index, 0, 0⟩]
      else
        let bad := !within 64 16384 x.picW || !within 64 16384 x.picH || (match levelLimits x.levelIdc with
          | none => true
          | some m => decide (m.1 < x.picW * x.picH) || decide (8 * m.1 < x.picW * x.picW)
              || decide (8 * m.1 < x.picH * x.picH) || decide (m.2 < x.pixelRate))
        let have_ := match regionFor b .referenceArea x.index with
          | some r => r.size
          | none => 0
        (if bad then [⟨0x0403, 0, 3, x.index, 0, 0⟩] else [])
          ++ (if x.encode && x.lossless && (x.rateMode != 3 || !x.highTier) then [⟨0x0404, 0, 3, x.index, 0, 0⟩] else [])
          ++ (if have_ < referenceBytes x then [⟨0x0405, 2, 3, x.index, referenceBytes x, have_⟩] else []))
    ++ (if (usesJpeg q || usesInflate q) && q.g.stillW == 0 then [⟨0x0406, 0, 0, 0, 1, 0⟩] else [])

/-! ## Item 9: experts (R321, R331) -/

/-- The first rule of R331 that a placement breaks: 0x0501 a count, 0x0503 a group that is not declared. -/
def placementFail (b : ImgBody) (pl : List (Nat × List Nat)) : Nat :=
  let hosted := pl.flatMap (fun x => x.2)
  if pl.any (fun x => match b.experts.find? (fun e => e.id == x.1) with
      | some e => !within 1 (min 4 e.rMax) x.2.length
      | none => true)
    || b.experts.any (fun e => !pl.any (fun x => x.1 == e.id)) || !distinct (pl.map (fun x => x.1)) || !distinct hosted then 0x0501
  else if hosted.any (fun g => !b.groupsE.any (fun x => x.id == g)) then 0x0503
  else 0

def expertsItem (q : Part) (clusters : Nat) : List Short :=
  let b := bodyOf q
  let tok := 2 * b.dim
  let slots := (hdrOf q).samplesPerStep * capK b
  let out := b.groupsE.filter (fun g => decide (clusters ≤ g.rel))
  let fail := placementFail b b.placement0
  let room (g : Nat) : Option Nat := (b.groupsE.find? (fun x => x.id == g)).map (fun x => x.freeBytes)
  if !b.usesExperts then []
  else
    (if decide (64 < b.experts.length) || b.experts.isEmpty || b.experts.any (fun e => decide (63 < e.id) || !within 1 4 e.rMax)
        || !distinct (b.experts.map (fun e => e.id)) || fail == 0x0501 then
      [⟨0x0501, 0, 0, 0, b.experts.length, 64⟩] else [])
    ++ (if b.wheyW < slots then [⟨0x0502, 14, 0, 0, slots, b.wheyW⟩] else [])
    ++ (if !within 1 255 b.groupsE.length || b.groupsE.any (fun g => decide (254 < g.id)) || !distinct (b.groupsE.map (fun g => g.id))
        || !out.isEmpty || fail == 0x0503 || (room b.wheyGroup).isNone then
      [⟨0x0503, 0, 1, (out.getD 0 {}).rel, 0, 0⟩] else [])
    ++ b.experts.flatMap (fun e => (b.placement0.filter (fun x => x.1 == e.id)).flatMap (fun x => x.2.filterMap (fun g =>
        match room g with
        | some n => if n < e.cap * tok then some ⟨0x0504, 2, 4, e.id, e.cap * tok, n⟩ else none
        | none => none)))
    ++ (match room b.wheyGroup with
        | some n => if n < b.wheyRound * tok then [⟨0x0504, 2, 0, 0, b.wheyRound * tok, n⟩] else []
        | none => [])

/-! ## Item 10: Churn (R337, R338, R345, R351, R356, R360, R362) -/

/-- P of R338 for int64 coefficients. -/
def probStatic (n coup groups : Nat) : Nat := 36 * n + 2 * coup * 10 + 128 * groups
/-- D of R338. -/
def probDynamic (n : Nat) : Nat := 16 * n + 4160

/-- Table CHN-2 and R338 for an int64 problem. -/
def probFits (n coup groups : Nat) : Bool :=
  within 1 16384 n && decide (coup ≤ 1048576) && decide (groups ≤ 4096)
    && decide (probStatic n coup groups + probDynamic n ≤ 16777216)

/-- The least packing budget in µs (R360), none when no useful time is left in a slice.  Times are in units of
1/1536 ns: a byte at 102.4 GB/s takes 15 of them and an ACLK 640. -/
def packNeedUs (n groups coup dmax gc : Nat) : Option Nat :=
  let us : Nat := 1536000
  let tSweep := (n - groups) * (24 + ceilDiv n 256 + 2 * ceilDiv dmax 16) * 640
  let tLoad := (probStatic n coup groups + probDynamic n) * 15 + 2 * us
  let tSave := probDynamic n * 15 + 2 * us
  let spent := tLoad + tSave + us
  if 100 * us ≤ spent then none
  else some ((ceilDiv tSweep (100 * us - spent) * gc + 1) * 100)

def churnItem (s : State) (q : Part) : List Short :=
  let b := bodyOf q
  let sN := (hdrOf q).samplesPerStep
  let bN := (hdrOf q).batchesPerStep
  let uses := hasKind q 0x0E || b.revInterval != 0
  let coup := bN * (sN * (sN - 1) / 2)
  let gc := if q.g.churn.isEmpty then 100 else largestGap 100 q.g.churn
  let spares := (b.groupsE.filter (fun g => g.spare)).length
  let cands := (b.experts.filter (fun e =>
    decide (sumL ((b.placement0.filter (fun x => x.1 == e.id)).map (fun x => (x.2.filter (fun g =>
      !b.groupsE.any (fun y => y.id == g && y.spare))).length)) < e.rMax))).length
  if !uses then []
  else
    (if q.g.churn.isEmpty || !domOn s 7 then [⟨0x0601, 11, 0, 0, 1, q.g.churn.length⟩] else [])
    ++ (if !hasKind q 0x0E then []
        else if bN < 2 || 16384 < sN * bN || 4096 < sN || !probFits (sN * bN) coup sN then [⟨0x0602, 0, 0, 0, sN * bN, 16384⟩]
        else
          let budget := match b.pack with
            | some p => p.budgetUs
            | none => 0
          match packNeedUs (sN * bN) sN coup (sN - 1) gc with
          | none => [⟨0x0603, 12, 0, 0, 2 ^ 32 - 1, budget⟩]
          | some need => if budget < need then [⟨0x0603, 12, 0, 0, need, budget⟩] else [])
    ++ (if spares != 0 && (decide (63 < cands) || !probFits (spares * (cands + 1)) (cands * (spares * (spares - 1) / 2)) spares) then
          [⟨0x0602, 0, 0, 0, cands, 63⟩] else [])

/-! ## Item 12: ports and namespaces -/

def portsItem (q : Part) (v : PortView) : List Short :=
  let b := bodyOf q
  let slots := (b.slotsUsed ++ (b.streams.filter (fun x => x.segBytes != 0)).map (fun x => x.archiveSlot)).foldl
    (fun a x => insSorted x a) []
  let cams := b.streams.filter (fun x => x.camera)
  let inPorts := (cams.map (fun x => x.port)).foldl (fun a x => insSorted x a) []
  let dl := ((b.stages.filter (fun x => x.kind == 0x10)).map (fun x => x.port)).filter (fun n => decide (n < 8))
  let all := dl.foldl (fun a x => insSorted x a) inPorts
  (slots.filter (fun k => decide (q.g.ns.length ≤ k))).map (fun k => ⟨0x0117, 0, 7, k, 1, 0⟩)
    ++ (all.filter (fun n => !q.g.ports.contains n)).map (fun n => ⟨0x0901, 0, 6, n, 1, 0⟩)
    ++ (all.filter (fun n => q.g.ports.contains n && ((inPorts.contains n && (dl.contains n || v.role n != 1))
          || (dl.contains n && v.role n != 2)))).map (fun n => ⟨0x0902, 0, 6, n, 0, 0⟩)
    ++ (cams.filter (fun x => q.g.ports.contains x.port && !v.bound x.index)).map (fun x => ⟨0x0902, 0, 3, x.index, 0, 0⟩)
    ++ inPorts.filterMap (fun n =>
        let bps := sumL ((cams.filter (fun x => x.port == n)).map (fun x => x.wireBps))
        if 200000000000 < bps then some ⟨0x0903, 8, 6, n, ceilDiv bps 1000000, 200000⟩ else none)

/-! ## The whole check -/

/-- Items 2 to 13 on an image that is present (R119): `pair` adds the reasons that a takeover's check leaves out. -/
def checkItems (s : State) (p : Pid) (q : Part) (v : PortView) (pair : Bool) : Checked :=
  let b := bodyOf q
  let h := hdrOf q
  let t := tilesItem q
  let clusters := if t.placement = 0xFF then q.g.clusters.length else (b.placements.getD t.placement {}).clusters
  let q' : Part := { q with ld := { q.ld with placement := t.placement } }
  { t with shorts :=
      (if usesDill b && q.ld.seed.isNone then [plainShort 0x020F] else [])
      ++ recordsItem s q ++ cursorItem q ++ t.shorts
      ++ (regionsFail q.g.win [] b.regions).toList
      ++ (List.range 5).filterMap (fun c =>
          let need := nth b.perSample c + nth b.perStep c
          if nth q.g.min c < need then some ⟨0x0208, 3, 2, c, need, nth q.g.min c⟩ else none)
      ++ (if h.live && !within 1 1024 h.liveBacklog then [⟨0x0209, 0, 0, 0, h.liveBacklog, 1024⟩] else [])
      ++ codecItem q ++ expertsItem q clusters ++ churnItem s q ++ networkItem s q' ++ portsItem q v
      ++ (if !pair then []
          else
            (if !q.g.mirrored then []
             else if s.units.pair.st != 3 then [plainShort 0x0801]
             else if !planPasses s p.val then [plainShort 0x0802] else [])
            ++ (if partnerHolds s p.val then [plainShort 0x0803] else [])) }

/-- The stream bindings and roles of the ports that a partition holds. -/
def ownPorts (s : State) (p : Pid) : PortView :=
  { role := fun n => (portOf s n).role
    bound := fun i => (partOf s p).g.ports.any (fun n => (portOf s n).binds.any (fun b => b.1 == i)) }

/-- The check of a partition as it stands: item 1 stops it for 0x0201 to 0x0203 (R119); the image copy in the window must
still verify. -/
def runCheck (s : State) (p : Pid) : Checked :=
  let q := partOf s p
  match q.ld.image with
  | none => { shorts := [plainShort 0x0201] }
  | some i =>
    if imageHash (winRead s p i.hdr.copyAddress i.hdr.length) != i.hdr.hash then { shorts := [plainShort 0x0202] }
    else if versionShort s i.hdr then { shorts := [plainShort 0x0203] }
    else checkItems s p q (ownPorts s p) true

end Sys2Proof.Machine
end

