-- ==== Sys2Proof/Machine/PipelineCmd.lean ====
section
/-!
DEFINITION. PIPELINE_LOAD, PARTITION_ENABLE, PIPELINE_PAUSE, PIPELINE_RESUME and PIPELINE_STEP_DIGEST (R112, R115,
R119, R231, R232, R245, R248, R503, R507 to R509, Table CMD-11).
-/
namespace Sys2Proof.Machine

/-! ## PIPELINE_LOAD -/

/-- The fields of R507. -/
def loadFields (_ : State) (r : Req) : Bool :=
  let b := r.payload
  decide (field b 24 1 ≤ 1) && zeroAt b 25 3 && (field b 24 1 == 1 || field b 28 4 == 0)

/-- The step records that a recreate load names, as they stand in STEP_RECORDS (R232). -/
def suppliedRecords (s : State) (p : Pid) (b : ImgBody) (n : Nat) : List (List Byte) :=
  match regionOf b .stepRecords with
  | some r => (List.range (min n r.entries)).map (fun i => winRead s p (r.addr + 128 * i) 128)
  | none => []

/-- A loaded image's streams, none opened yet. -/
def freshStreams (b : ImgBody) : List Stream := b.streams.map (fun d => { index := d.index })

/-- Steps 5 to 7 of R231: the image copy, the tiles and the cursor; the seed is cleared (R300). -/
def commitLoad (r : Req) (i : Image) (s : State) : State :=
  let p := r.pid
  let q := partOf s p
  let s := winWrite p i.hdr.copyAddress r.bulk s
  let k := (choosePlacement i.body q.g.clusters.length).getD 0xFF
  let recs := if field r.payload 24 1 = 1 then suppliedRecords s p i.body (field r.payload 28 4) else []
  let cur := unpackCursor (field r.payload 16 8)
  let ld : Loaded := { image := some i, recreate := field r.payload 24 1 == 1, records := recs, recCount := field r.payload 28 4,
                       cursor := cur, loadedInPause := q.st == .paused, recheck := q.st == .paused, placement := k }
  let s := modPart p (fun q => { q with ld := ld, sc := { next := cur, boundaries := q.sc.boundaries }, ex := { placement := i.body.placement0 }
                                        streams := freshStreams i.body, runs := q.runs.filter (fun x => x.kind != 1) }) s
  let s := if q.g.clusters.isEmpty then s else loadTiles p s
  reseed p i.hdr.copyAddress i.hdr.length (mirrorGrantOf p s)

/-- R231: steps 1 to 4, then the commit; the bytes wait for the granules of the copy to be zero (R116). -/
def loadBody (r : Req) (s : State) : State × Option Ans :=
  let p := r.pid
  let q := partOf s p
  let n := field r.payload 8 8
  if transferOpen s p then (s, some (ansBusy 0 1000))
  else if !within 4096 1073741824 n then (s, some (ansRefused 0x0202))
  else if r.bulk.isEmpty then
    (issueDma r.fn (.bulkIn r.id) (field r.payload 0 8) [] n (modReq r.id (fun x => { x with phase := .moving }) s), none)
  else
    match readImage r.bulk n with
    | none => (s, some (ansRefused 0x0202))
    | some i =>
      if versionShort s i.hdr then (s, some (ansRefused 0x0203))
      else if i.hdr.uniform && (List.range 5).any (fun c => c != i.hdr.uniformClass && nth q.g.min c != 0) then
        (s, some (ansRefused 0x0115))
      else if (match regionOf i.body .imageCopy with
          | some x => regionExcess q.g.win x != 0
          | none => true) then (s, some (ansRefused 0x0301))
      else if !rangeZero q.g.win i.hdr.copyAddress n then (modReq r.id (fun x => { x with phase := .moving }) s, none)
      else
        let s := commitLoad r i s
        let k := if q.g.clusters.isEmpty then 0xFF else (partOf s p).ld.placement
        (s, some { payload := toLe 1 k ++ zeros 7 ++ i.hdr.hash, resHi := ceilDiv n 64 })

/-- Row PIPELINE_LOAD. -/
def execPipelineLoad (r : ReqId) (s : State) : Host.Outcome State Fault Refusal :=
  .next (runCmd r 0x0301 (fun _ => true) loadFields loadBody s)

/-! ## Enable and resume -/

/-- The payload of R503. -/
def checkPayload (c : Checked) : List Byte :=
  toLe 4 (min c.plain (2 ^ 32 - 1)) ++ toLe 4 (min c.spill (2 ^ 32 - 1)) ++ toLe 1 c.placement ++ zeros 3
    ++ c.spilled.flatMap (toLe 4)

/-- Whether a stream is open (Table at R510: OPEN or STALLED). -/
def streamOpen (x : Stream) : Bool := x.codec.st == 1 || x.codec.st == 4

/-- The declaration of a stream. -/
def declOf (q : Part) (i : Nat) : Option StreamDecl := (bodyOf q).streams.find? (fun d => d.index == i)

/-- The standing reservation of a camera stream (R378, R491). -/
def standingFor (q : Part) (x : Stream) : List Nat :=
  match declOf q x.index with
  | some d => if d.camera then d.standing else [0, 0, 0, 0, 0]
  | none => [0, 0, 0, 0, 0]

/-- The standing reservations of the camera streams that are about to open (R378, R491). -/
def standingOf (q : Part) : List Nat :=
  (List.range 5).map (fun c => sumL ((q.streams.filter (fun x => !streamOpen x)).map (fun x => nth (standingFor q x) c)))

/-- Draw a lane key for every tile of a partition (R309): the keys are entropy, so free values (log entry 27). -/
def drawLaneKeys (p : Pid) (s : State) : State :=
  (partOf s p).g.clusters.foldl (fun s c => (List.range 64).foldl (fun s i =>
    match fresh s with
    | (v, s) => modTile (64 * c + i) (fun t => { t with laneKey := some (BitVec.ofNat 128 v), laneRedraws := [] }) s) s) s

/-- A stream opened or reopened (R289, R294, R377): a camera stream starts at its next window with an IRAP picture.  One
that is open goes on and codes an IRAP picture next. -/
def openStream (res : Nat) (x : Stream) : Stream :=
  if x.codec.st = 1 || x.codec.st = 4 then { x with codec := { x.codec with forceIrap := true } }
  else
    let codec : CodecSt := { x.codec with st := 1, closing := false, forceIrap := true, sinceIrap := 0, lastSeq := none, refCounts := []
                                          rate := {}, segOuts := [], slicesOut := 0, picBytes := [], gapFrom := none }
    { x with everOpened := true, w0 := x.nextWin, last := none, blocks := [], ranges := [], codec := codec, res := res
             wins := x.wins.filter (fun w => w.encoded) }

/-- Open the camera streams of a partition. -/
def openStreams (p : Pid) (s : State) : State :=
  let q := partOf s p
  let open_ (x : Stream) : Stream := match declOf q x.index with
    | some d => if d.camera then openStream (nth d.standing d.windowClass) x else x
    | none => x
  modPart p (fun q => { q with streams := q.streams.map open_ }) s

/-- Install a placement that waited (R333, R335): the version advances, and newly hosted groups are loaded. -/
def installPlacement (p : Pid) (s : State) : State :=
  match (partOf s p).ex.ready with
  | none => s
  | some pl =>
    let x := (partOf s p).ex
    let s := modEx p (fun e => { e with placement := pl, version := e.version + 1, ready := none, readyKind := 0 }) s
    loadTiles p (logEvent p.val 0x0501 (x.version + 1) x.revisions x.readyKind 0 s)

/-- What both commits do: tiles reloaded if the placement changed, the state ENABLED, admission at the cursor, the camera
streams open, and lane keys drawn when the image uses them (R119, R231, R294, R309, R335). -/
def goOn (p : Pid) (c : Checked) (payload : List Byte) (s : State) : State :=
  let was := (partOf s p).ld.placement
  let s := modPart p (fun q => { q with
    st := .enabled
    ld := { q.ld with lastCheck := payload, placement := c.placement, spilled := c.spilled, recheck := false, loadedInPause := false }
    sc := { q.sc with next := { q.ld.cursor with off := 0 }, wait := .none, asking := false, pausing := false, pauseReq := none,
                      fenceAtBoundary := 0 } }) s
  let s := if was = c.placement then s else loadTiles p s
  let s := openStreams p s
  let s := if (hdrOf (partOf s p)).usesLaneRng then drawLaneKeys p s else s
  installPlacement p s

/-- What comes before the check (R115, R298, R359, R491, Table CMD-11). -/
def enableGate (r : Req) (s : State) : Option Ans :=
  let q := partOf s r.pid
  let n := q.g.win.unzero.length
  if transferOpen s r.pid then some (ansBusy 0 1000)
  else if n != 0 then some (ansBusy 0x0105 (500 * n))
  else if (hdrOf q).usesLaneRng && s.ao.ent.st == 3 then some (ansFenced 0x0114)
  else if q.ld.recreate && q.ld.records.any (fun x => field x 0x14 1 == 0) && s.units.churn.fenced then some (ansFenced 0x0114)
  else none

/-- PARTITION_ENABLE (R119): the counters are zeroed when it commits (Table GUA-6). -/
def enableBody (r : Req) (s : State) : State × Ans :=
  let p := r.pid
  match enableGate r s with
  | some a => (s, a)
  | none =>
    match reserveNow p (standingOf (partOf s p)) s with
    | none => (s, { status := stNoBuffer, reason := 0x010B, retry := 10 })
    | some s' =>
      let c := runCheck s' p
      if !c.shorts.isEmpty then (s, ansShort stRefused c.shorts)
      else
        let pay := checkPayload c
        (goOn p c pay (modPart p (fun q => { q with cnt := { peak := q.held } }) s'), ansOk pay)

/-- Row PARTITION_ENABLE. -/
def execPartitionEnable (r : ReqId) (s : State) : Host.Outcome State Fault Refusal :=
  .next (runCmd r 0x0203 (fun _ => true) (fun _ _ => true) (answering enableBody) s)

/-- Whether PIPELINE_RESUME runs the check again (R112). -/
def mustCheck (q : Part) : Bool := q.ld.recheck || q.ld.lastCheck.isEmpty

/-- The check result that a resume without a check keeps. -/
def keptCheck (q : Part) : Checked := { placement := q.ld.placement, spilled := q.ld.spilled }

/-- PIPELINE_RESUME (R112, R491, R503). -/
def resumeBody (r : Req) (s : State) : State × Ans :=
  let p := r.pid
  match enableGate r s with
  | some a => (s, a)
  | none =>
    match reserveNow p (standingOf (partOf s p)) s with
    | none => (s, { status := stNoBuffer, reason := 0x010B, retry := 10 })
    | some s' =>
      if !mustCheck (partOf s p) then (goOn p (keptCheck (partOf s p)) (partOf s p).ld.lastCheck s', ansOk (partOf s p).ld.lastCheck)
      else
        let c := runCheck s' p
        if !c.shorts.isEmpty then (s, ansShort stRefused c.shorts)
        else (goOn p c (checkPayload c) s', ansOk (checkPayload c))

/-- Row PIPELINE_RESUME. -/
def execPipelineResume (r : ReqId) (s : State) : Host.Outcome State Fault Refusal :=
  .next (runCmd r 0x0303 (fun _ => true) (fun _ _ => true) (answering resumeBody) s)

/-! ## Pause and digest -/

/-- PIPELINE_PAUSE (R248, R508): pending until PAUSED; a second pause while one waits is answered BUSY. -/
def pauseBody (r : Req) (s : State) : State × Ans :=
  if (partOf s r.pid).sc.pausing then (s, ansBusy 0 1000) else (s, ansPend)

/-- Row PIPELINE_PAUSE: the answer comes first, then admission stops. -/
def execPipelinePause (r : ReqId) (s : State) : Host.Outcome State Fault Refusal :=
  let s' := runCmd r 0x0302 (fun _ => true) (fun _ _ => true) (answering pauseBody) s
  .next (match findReq s r, findReq s' r with
    | some a, some b =>
      if a.phase == .ready && b.phase == .pending && b.opcode == 0x0302 then beginPause b.pid (some r) s' else s'
    | _, _ => s')

/-- PIPELINE_STEP_DIGEST (R245, R509): the record of a step in the ring, as it stands in the window. -/
def digestBody (r : Req) (s : State) : Ans :=
  let q := partOf s r.pid
  match regionOf (bodyOf q) .stepRecords with
  | none => ansBad
  | some x =>
    let ring := q.sc.recRing
    let k := ring.findIdx (fun e => packCursor e.1 == field r.payload 0 8)
    -- the ring holds the newest records; the oldest of them was record number recTotal − length
    if k < ring.length then
      let n := q.sc.recTotal - ring.length + k
      ansOk (winRead s r.pid (x.addr + 128 * (n % max 1 x.entries)) 128)
    else ansBad

/-- Row PIPELINE_STEP_DIGEST. -/
def execPipelineStepDigest (r : ReqId) (s : State) : Host.Outcome State Fault Refusal :=
  .next (runCmd r 0x0304 (fun _ => true) (fun _ _ => true) (reading digestBody) s)

end Sys2Proof.Machine
end

