-- ==== Sys2Proof/Machine/Dill.lean ====
section
/-!
DEFINITION. Dill, its logical index, the epoch permutation keys and Gumbel-max (R301 to R305, R310 to R312).
-/
namespace Sys2Proof.Machine

/-- The state of Dill: four 32-bit words. -/
structure DillSt where
  x0 : Word32
  x1 : Word32
  x2 : Word32
  x3 : Word32
deriving DecidableEq, Repr

/-- Word i of a 128-bit value. -/
def word128 (v : BitVec 128) (i : Nat) : Word32 := v.extractLsb' (32 * i) 32

/-- The five key words (R301). -/
def dillKey (seed : BitVec 128) : List Word32 :=
  let k := (List.range 4).map (word128 seed)
  k ++ [k.foldl (fun a b => a ^^^ b) 0x3A5DC7B1]

/-- inject(s) of R302. -/
def dillInject (k : List Word32) (n : Nat) (x : DillSt) : DillSt :=
  let key (i : Nat) : Word32 := k.getD ((n + i) % 5) 0
  ⟨x.x0 + key 0, x.x1 + key 1, x.x2 + key 2, x.x3 + key 3 + BitVec.ofNat 32 n⟩

/-- round() of R302. -/
def dillRound (x : DillSt) : DillSt :=
  let a := x.x0 + x.x1
  let d := (x.x3 ^^^ a).rotateLeft 16
  let c := x.x2 + d
  let b := (x.x1 ^^^ c).rotateLeft 12
  let a := a + b
  let d := (d ^^^ a).rotateLeft 8
  let c := c + d
  let b := (b ^^^ c).rotateLeft 20
  ⟨a, b, c, d⟩

def dillRounds : Nat → DillSt → DillSt
  | 0, x => x
  | n + 1, x => dillRounds n (dillRound x)

/-- Dill(seed, index) (R302). -/
def dill (seed index : BitVec 128) : BitVec 128 :=
  let k := dillKey seed
  let x : DillSt := ⟨word128 index 0, word128 index 1, word128 index 2, word128 index 3⟩
  let x := dillInject k 2 (dillRounds 5 (dillInject k 1 (dillRounds 5 (dillInject k 0 x))))
  x.x3 ++ x.x2 ++ x.x1 ++ x.x0

/-- A logical index (R303). -/
def dillIndex (epoch sample op element : Nat) : BitVec 128 :=
  BitVec.ofNat 128 (epoch % 2 ^ 16 * 2 ^ 112 + sample % 2 ^ 40 * 2 ^ 72 + op % 2 ^ 16 * 2 ^ 56 + element % 2 ^ 56)

/-- The sample id of a draw that belongs to a step (R303). -/
def stepScopeId (step : Nat) : Nat := 2 ^ 39 + step % 2 ^ 38

/-! ## The permutation (R305) -/

/-- Insert by key, equal keys by ascending id. -/
def insKey (x : Nat × List Nat) : List (Nat × List Nat) → List (Nat × List Nat)
  | [] => [x]
  | y :: ys =>
    if x.1 < y.1 || (x.1 == y.1 && decide (x.2.headD 0 < y.2.headD 0)) then x :: y :: ys else y :: insKey x ys

/-- The permutation of epoch e: each key holder is a group, in recorded order, under the key of its first sample id. -/
def permutationOf (seed : BitVec 128) (e : Nat) (groups : List (List Nat)) : List Nat :=
  ((groups.map (fun g => ((dill seed (dillIndex e (g.headD 0) 0x1000 0)).toNat, g))).foldl
    (fun a x => insKey x a) []).flatMap (fun x => x.2)

/-! ## Gumbel-max (R310 to R312) -/

/-- T of R310: round(2^24 × log2(1 + j ÷ 256)). -/
def log2Table : List Nat :=
  [0, 94364, 188362, 281996, 375270, 468185, 560745, 652952, 744810, 836320, 927485, 1018309, 1108793, 1198939, 1288752, 1378232,
    1467383, 1556207, 1644705, 1732882, 1820738, 1908277, 1995500, 2082410, 2169009, 2255299, 2341283, 2426963, 2512340, 2597417, 2682196, 2766679,
    2850868, 2934766, 3018374, 3101694, 3184728, 3267478, 3349946, 3432134, 3514044, 3595678, 3677038, 3758124, 3838941, 3919488, 3999768, 4079782,
    4159533, 4239023, 4318251, 4397222, 4475935, 4554394, 4632599, 4710552, 4788255, 4865709, 4942916, 5019878, 5096595, 5173071, 5249305, 5325300]
  ++ [5401057, 5476578, 5551864, 5626916, 5701737, 5776327, 5850688, 5924821, 5998727, 6072409, 6145867, 6219103, 6292118, 6364913, 6437490, 6509850,
    6581994, 6653924, 6725641, 6797146, 6868440, 6939525, 7010402, 7081072, 7151536, 7221795, 7291852, 7361706, 7431359, 7500812, 7570066, 7639123,
    7707984, 7776649, 7845119, 7913397, 7981483, 8049377, 8117082, 8184598, 8251926, 8319067, 8386022, 8452793, 8519380, 8585785, 8652008, 8718050,
    8783912, 8849596, 8915102, 8980431, 9045584, 9110562, 9175366, 9239998, 9304457, 9368745, 9432863, 9496811, 9560591, 9624203, 9687648, 9750928]
  ++ [9814042, 9876993, 9939780, 10002404, 10064867, 10127170, 10189312, 10251295, 10313120, 10374787, 10436298, 10497652, 10558852, 10619897, 10680789, 10741528,
    10802114, 10862550, 10922835, 10982970, 11042956, 11102794, 11162484, 11222028, 11281425, 11340677, 11399784, 11458748, 11517568, 11576245, 11634780, 11693175,
    11751428, 11809542, 11867517, 11925353, 11983051, 12040612, 12098037, 12155325, 12212479, 12269497, 12326382, 12383133, 12439752, 12496238, 12552593, 12608817,
    12664911, 12720875, 12776710, 12832416, 12887994, 12943445, 12998770, 13053968, 13109041, 13163988, 13218811, 13273511, 13328087, 13382540, 13436871, 13491080]
  ++ [13545168, 13599135, 13652983, 13706711, 13760320, 13813810, 13867183, 13920438, 13973576, 14026597, 14079503, 14132294, 14184969, 14237530, 14289978, 14342312,
    14394532, 14446641, 14498638, 14550523, 14602297, 14653961, 14705514, 14756958, 14808293, 14859519, 14910637, 14961648, 15012551, 15063347, 15114037, 15164621,
    15215099, 15265473, 15315742, 15365906, 15415967, 15465925, 15515779, 15565531, 15615181, 15664730, 15714177, 15763523, 15812769, 15861915, 15910962, 15959909,
    16008758, 16057508, 16106160, 16154714, 16203172, 16251532, 16299796, 16347964, 16396036, 16444013, 16491896, 16539683, 16587377, 16634976, 16682482, 16729896]
  ++ [16777216]

/-- log2q of R310. -/
def log2q (n : Nat) : Nat :=
  let e := n.log2
  let f := (if 23 ≤ e then n >>> (e - 23) else n <<< (23 - e)) % 2 ^ 23
  let j := f / 2 ^ 15
  let t := f % 2 ^ 15
  e * 2 ^ 24 + nth log2Table j + ((nth log2Table (j + 1) - nth log2Table j) * t + 16384) / 2 ^ 15

/-- 2^-24 in fp32. -/
def twoM24 : Word32 := 0x33800000

/-- The noise of a candidate (R311). -/
def gumbel (y : BitVec 128) : Word32 :=
  let u := (word128 y 0).toNat
  let a := max (33 * 2 ^ 24 - log2q (2 * u + 1)) 1
  let g : Int := 24 * 2 ^ 24 - Int.ofNat (log2q a)
  ffma 0x3F317218 (fmul (ofInt32 g) twoM24) 0x3EBBA795

/-- Whether a score takes part in a draw: neither NaN nor negative infinity. -/
def drawable (w : Word32) : Bool := !fisNaN w && w != 0xFF800000

/-- The Gumbel-max draw of R312: the candidate with the largest key, the lowest index on a tie. -/
def gumbelMax (cands : List (Nat × Word32 × BitVec 128)) : Option Nat :=
  (cands.foldl (fun (best : Option (Nat × Word32)) c =>
    if !drawable c.2.1 then best
    else
      let k := fadd c.2.1 (gumbel c.2.2)
      match best with
      | none => some (c.1, k)
      | some b => if fltB b.2 k then some (c.1, k) else best) none).map (fun x => x.1)

end Sys2Proof.Machine
end

