-- ==== Sys2Proof/Machine/Transform.lean ====
section
/-!
DEFINITION. Pixel arithmetic: the JPEG inverse transform (R251), crop, resize and warp (R257 to R261), the augmentation
catalogue (R263 to R266), and tokenisation with background skip (R267 to R269).
-/
namespace Sys2Proof.Machine

/-! ## Planes -/

/-- Pixel (row y, column x) of a plane. -/
def pix (p : Plane) (y x : Nat) : Nat := nth p.px (y * p.w + x)

/-- A plane from a function of row and column. -/
def mkPlane (w h fmt : Nat) (f : Nat → Nat → Nat) : Plane :=
  ⟨w, h, fmt, (List.range h).flatMap (fun y => (List.range w).map (fun x => f y x))⟩

/-- The largest value of an integer format. -/
def fmtMax (fmt : Nat) : Nat := if fmt = 0 then 255 else 65535

/-- A pixel as fp32, exactly: u8 and u16 as integers, bf16 and fp32 as they are (R130). -/
def toF (fmt v : Nat) : Word32 :=
  if fmt < 2 then ofInt32 v else if fmt = 2 then ofBf16 (BitVec.ofNat 16 v) else BitVec.ofNat 32 v

/-- An fp32 value in a format (R130). -/
def ofF (fmt : Nat) (w : Word32) : Nat :=
  if fmt < 2 then (toIntSat 0 (fmtMax fmt) w).toNat else if fmt = 2 then (toBf16 w).toNat else w.toNat

/-- An integer in a format: clamped, or converted. -/
def ofI (fmt : Nat) (i : Int) : Nat :=
  if fmt < 2 then (min (max i 0) (fmtMax fmt)).toNat else ofF fmt (ofInt32 i)

/-- Change every pixel of a plane through fp32 into a format. -/
def mapF (fmt : Nat) (f : Word32 → Word32) (p : Plane) : Plane :=
  { p with fmt := fmt, px := p.px.map (fun v => ofF fmt (f (toF p.fmt v))) }

/-! ## The JPEG inverse transform (R251) -/

/-- K[n][k] of R251: magnitudes 2,896, 4,017, 3,784, 3,406, 2,276, 1,567 and 799 by the angle (2n + 1)k. -/
def idctK (n k : Nat) : Int :=
  if k = 0 then 2896
  else
    let a := (2 * n + 1) * k % 32
    let m (i : Nat) : Int := ([4096, 4017, 3784, 3406, 2896, 2276, 1567, 799, 0] : List Int).getD i 0
    if a ≤ 8 then m a else if a ≤ 16 then -(m (16 - a)) else if a ≤ 24 then -(m (a - 16)) else m (32 - a)

/-- Reconstruct one 8 × 8 block: coefficients times quantisers as F[8u + v]; the result is row major. -/
def idct (f : List Int) (prec : Nat) : List Nat :=
  let sum8 (g : Nat → Int) : Int := (List.range 8).foldl (fun a i => a + g i) 0
  let t (y u : Nat) : Int := (sum8 (fun v => idctK y v * f.getD (8 * u + v) 0) + 1024) / 2048
  (List.range 8).flatMap (fun y => (List.range 8).map (fun x =>
    let s := (sum8 (fun u => idctK x u * t y u) + 16384) / 32768
    (min (max (s + 2 ^ (prec - 1)) 0) (2 ^ prec - 1)).toNat))

/-! ## Warp (R257 to R261) -/

/-- The tap of an edge mode on one axis of n pixels, none for CONSTANT outside (R260). -/
def edgeTap (mode n : Nat) (t : Int) : Option Nat :=
  if 0 ≤ t ∧ t < n then some t.toNat
  else if mode = 0 then none
  else if mode = 1 then some (min (max t 0) (Int.ofNat (n - 1))).toNat
  else if mode = 2 then
    if n ≤ 1 then some 0
    else
      let r := (t % (2 * (Int.ofNat n - 1))).toNat
      some (if r ≤ n - 1 then r else 2 * (n - 1) - r)
  else some (t % (Int.ofNat n)).toNat

/-- One BICUBIC weight at distance d ÷ 256 in units of 1/16,384, ties away from zero (R259). -/
def cubicW (d : Int) : Int :=
  let n : Int := if d ≤ 256 then 3 * d * d * d - 1280 * d * d + 33554432
                 else -(d * d * d) + 1280 * d * d - 524288 * d + 67108864
  if 0 ≤ n then (n + 1024) / 2048 else -((-n + 1024) / 2048)

/-- Taps and weights of a kernel on one axis: integer position, phase, AREA count. -/
def kernelTaps (k : Nat) (xi : Int) (f n : Nat) : List (Int × Int) :=
  if k = 0 then [(if 128 ≤ f then xi + 1 else xi, 1)]
  else if k = 1 then [(xi, 256 - Int.ofNat f), (xi + 1, Int.ofNat f)]
  else if k = 2 then
    let w0 := cubicW (Int.ofNat f + 256)
    let w2 := cubicW (256 - Int.ofNat f)
    let w3 := cubicW (512 - Int.ofNat f)
    [(xi - 1, w0), (xi, 16384 - w0 - w2 - w3), (xi + 1, w2), (xi + 2, w3)]
  else (List.range n).map (fun i => (xi + Int.ofNat i, 1))

/-- Whether a job is within R257 and R259. -/
def warpOk (j : WarpJob) (p : Plane) : Bool :=
  within 1 16384 j.outW && within 1 16384 j.outH && within 1 16384 j.boxW && within 1 16384 j.boxH
    && decide (j.boxX + j.boxW ≤ p.w) && decide (j.boxY + j.boxH ≤ p.h) && decide (p.fmt < 4) && decide (j.outFmt < 4)
    && decide (j.kernel < 4) && decide (j.edge < 4)
    && [j.a00, j.a01, j.a02, j.a10, j.a11, j.a12].all (fun a => decide (-2147483648 ≤ a) && decide (a ≤ 2147483647))
    && (j.kernel != 3 || (j.a01 == 0 && j.a10 == 0 && j.a00 % 65536 == 0 && j.a11 % 65536 == 0
        && decide (65536 ≤ j.a00) && decide (j.a00 ≤ 1048576) && decide (65536 ≤ j.a11) && decide (j.a11 ≤ 1048576)))

/-- 2^-s as fp32, for s up to 28. -/
def twoNeg (s : Nat) : Word32 := BitVec.ofNat 32 ((127 - s) * 2 ^ 23)

/-- Output pixel (row i, column j) of a warp job. -/
def warpPixel (jb : WarpJob) (p : Plane) (i j : Nat) : Nat :=
  let area := jb.kernel == 3
  let jj : Int := Int.ofNat j
  let ii : Int := Int.ofNat i
  let x := if area then jb.a00 * jj + jb.a02 else (jb.a00 * (2 * jj + 1) + jb.a01 * (2 * ii + 1) + 2 * jb.a02 - 65536) / 2
  let y := if area then jb.a11 * ii + jb.a12 else (jb.a10 * (2 * jj + 1) + jb.a11 * (2 * ii + 1) + 2 * jb.a12 - 65536) / 2
  let xs := kernelTaps jb.kernel (x / 65536) ((x / 256) % 256).toNat (jb.a00 / 65536).toNat
  let ys := kernelTaps jb.kernel (y / 65536) ((y / 256) % 256).toNat (jb.a11 / 65536).toNat
  let tap (ty tx : Int) : Nat := match edgeTap jb.edge jb.boxH ty, edgeTap jb.edge jb.boxW tx with
    | some a, some b => pix p (jb.boxY + a) (jb.boxX + b)
    | _, _ => jb.const_
  if p.fmt < 2 then
    let acc : Int := ys.foldl (fun a t => a + t.2 * (xs.foldl (fun b u => b + u.2 * Int.ofNat (tap t.1 u.1)) 0)) 0
    let n : Int := Int.ofNat (xs.length * ys.length)
    ofI jb.outFmt (if jb.kernel = 0 then acc
      else if jb.kernel = 1 then (acc + 32768) / 65536
      else if jb.kernel = 2 then (acc + 134217728) / 268435456
      else (acc + n / 2) / n)
  else if area = true then
    let sum := ys.foldl (fun a t => xs.foldl (fun b u => fadd b (toF p.fmt (tap t.1 u.1))) a) (0 : Word32)
    ofF jb.outFmt (fdiv sum (ofInt32 (Int.ofNat (xs.length * ys.length))))
  else
    let s := if jb.kernel = 0 then 0 else if jb.kernel = 1 then 8 else 14
    let w (k : Int) : Word32 := fmul (ofInt32 k) (twoNeg s)
    ofF jb.outFmt (ys.foldl (fun a t =>
      ffma (w t.2) (xs.foldl (fun b u => ffma (w u.2) (toF p.fmt (tap t.1 u.1)) b) (0 : Word32)) a) (0 : Word32))

/-- A whole warp job. -/
def warp (j : WarpJob) (p : Plane) : Plane := mkPlane j.outW j.outH j.outFmt (warpPixel j p)

/-! ## Augmentation (R263 to R266) -/

/-- What the draws of an operation depend on. -/
structure DrawCtx where
  seed : BitVec 128
  epoch : Nat
  sample : Nat
  op : Nat

/-- The draw of an element (R264). -/
def drawAt (c : DrawCtx) (element : Nat) : Nat := (dill c.seed (dillIndex c.epoch c.sample c.op element)).toNat
/-- Element index of parameter m. -/
def paramAt (m : Nat) : Nat := 2 ^ 55 + m
/-- An integer draw in 0 to n − 1. -/
def drawInt (c : DrawCtx) (element n : Nat) : Nat := drawAt c element % 2 ^ 64 * n / 2 ^ 64
/-- A real draw in lo to hi. -/
def drawReal (c : DrawCtx) (element : Nat) (lo hi : Word32) : Word32 :=
  ffma (fmul (ofInt32 (Int.ofNat (drawAt c element % 2 ^ 24))) twoM24) (fsub hi lo) lo
/-- A Bernoulli draw against p × 2^24. -/
def drawBern (c : DrawCtx) (element p24 : Nat) : Bool := decide (drawAt c element % 2 ^ 24 < p24)

/-- A crop of every plane. -/
def cropTo (x y w h : Nat) (ps : List Plane) : List Plane :=
  ps.map (fun p => mkPlane w h p.fmt (fun i j => pix p (y + i) (x + j)))

/-- One quarter turn; the sense of rotation is open (log entry 28). -/
def quarter (p : Plane) : Plane :=
  if Config.rotClockwise then mkPlane p.h p.w p.fmt (fun i j => pix p (p.h - 1 - j) i)
  else mkPlane p.h p.w p.fmt (fun i j => pix p j (p.w - 1 - i))

def turns : Nat → Plane → Plane
  | 0, p => p
  | n + 1, p => turns n (quarter p)

/-- The fp32 value nearest 1 ÷ √5,592,405 (Table IMG-8). -/
def noiseKappa : Word32 := 0x39DDB3D8

/-- YCBCR_TO_RGB on one pixel, with v the three values and o the offset. -/
def toRgb (fmt y cb cr : Nat) : Nat × Nat × Nat :=
  let o : Int := if fmt = 0 then 128 else 2048
  let b : Int := Int.ofNat cb - o
  let r : Int := Int.ofNat cr - o
  let yy : Int := Int.ofNat y
  (ofI fmt (yy + (91881 * r + 32768) / 65536), ofI fmt (yy - (22554 * b + 46802 * r + 32768) / 65536),
   ofI fmt (yy + (116130 * b + 32768) / 65536))

/-- The chain of augmentations: the planes, and before a crop the planes it cut with its origin (AFFINE adds it). -/
structure AugSt where
  ps : List Plane
  uncut : Option (List Plane × Nat × Nat) := none

def sizeOf2 (ps : List Plane) : Nat × Nat := match ps with
  | p :: _ => (p.w, p.h)
  | [] => (0, 0)

/-- One operation of Table IMG-8. -/
def augment (c : DrawCtx) (a : AugOp) (st : AugSt) : AugSt :=
  let ps := st.ps
  let w := (sizeOf2 ps).1
  let h := (sizeOf2 ps).2
  let code := a.opId / 256
  let all (f : Word32 → Word32) : AugSt := { ps := ps.map (mapF a.outFmt f) }
  if code = 1 then
    if drawBern c (paramAt 0) a.p24 then
      { ps := ps.map (fun p => if a.axis = 0 then mkPlane p.w p.h p.fmt (fun y x => pix p y (p.w - 1 - x))
                               else mkPlane p.w p.h p.fmt (fun y x => pix p (p.h - 1 - y) x)) }
    else { ps := ps }
  else if code = 2 then { ps := ps.map (turns (drawInt c (paramAt 0) 4)) }
  else if code = 3 then
    let x := drawInt c (paramAt 0) (w - a.w + 1)
    let y := drawInt c (paramAt 1) (h - a.h + 1)
    { ps := cropTo x y a.w a.h ps, uncut := some (ps, x, y) }
  else if code = 4 then
    let cands := (List.range a.cands.length).map (fun i =>
      (i, (a.cands.getD i (0, 0, 0)).2.2, dill c.seed (dillIndex c.epoch c.sample c.op (2 ^ 55 + 256 + i))))
    let k := a.cands.getD ((gumbelMax cands).getD 0) (0, 0, 0)
    { ps := cropTo k.1 k.2.1 a.w a.h ps, uncut := some (ps, k.1, k.2.1) }
  else if code = 5 then
    let m := a.matrices.getD (drawInt c (paramAt 0) a.matrices.length) {}
    let src := st.uncut.getD (ps, 0, 0)
    { ps := src.1.map (fun p =>
        let jb : WarpJob := { m with boxX := 0, boxY := 0, boxW := p.w, boxH := p.h, outFmt := a.outFmt
                                     a02 := m.a02 + 65536 * Int.ofNat src.2.1, a12 := m.a12 + 65536 * Int.ofNat src.2.2 }
        warp jb p) }
  else if code = 6 then
    let b := drawReal c (paramAt 0) a.lo a.hi
    all (fun v => fadd v b)
  else if code = 7 then
    let k := drawReal c (paramAt 0) a.lo a.hi
    all (fun v => ffma k (fsub v a.m) a.m)
  else if code = 8 then
    let l := a.luts.getD (drawInt c (paramAt 0) a.luts.length) []
    { ps := ps.map (fun p => { p with px := p.px.map (fun v => nth l v) }) }
  else if code = 9 then
    let sg := drawReal c (paramAt 0) a.lo a.hi
    let noisy (i : Nat) (p : Plane) : Plane :=
      mkPlane p.w p.h a.outFmt (fun y x =>
        let d := drawAt c (i * 2 ^ 48 + y * 2 ^ 24 + x)
        let u := bits d 11 0 + bits d 23 12 + bits d 35 24 + bits d 47 36
        ofF a.outFmt (ffma sg (fmul (ofInt32 (Int.ofNat u - 8190)) noiseKappa) (toF p.fmt (pix p y x))))
    { ps := (List.range ps.length).map (fun i => noisy i (ps.getD i ⟨0, 0, 0, []⟩)) }
  else if code = 10 then
    let rects := (List.range a.rects.length).map (fun r =>
      (drawInt c (paramAt (2 * r)) w, drawInt c (paramAt (2 * r + 1)) h, a.rects.getD r (0, 0, 0)))
    { ps := ps.map (fun p => mkPlane p.w p.h p.fmt (fun y x =>
        rects.foldl (fun v r => if r.1 ≤ x ∧ x < r.1 + r.2.2.1 ∧ r.2.1 ≤ y ∧ y < r.2.1 + r.2.2.2.1 then r.2.2.2.2 else v)
          (pix p y x))) }
  else if code = 11 then
    { ps := (List.range ps.length).map (fun i =>
        mapF a.outFmt (fun v => fmul (fsub v (a.mean.getD i 0)) (a.invStd.getD i 0)) (ps.getD i ⟨0, 0, 0, []⟩)) }
  else if code = 12 then
    match ps with
    | y :: cb :: cr :: rest =>
      let px := (List.range y.px.length).map (fun i => toRgb y.fmt (nth y.px i) (nth cb.px i) (nth cr.px i))
      { ps := { y with px := px.map (fun v => v.1) } :: { y with px := px.map (fun v => v.2.1) }
              :: { y with px := px.map (fun v => v.2.2) } :: rest }
    | _ => { ps := ps }
  else { ps := ps }

/-- An AUGMENT stage on a sample's planes. -/
def augmentAll (seed : BitVec 128) (epoch sid : Nat) (ops : List AugOp) (ps : List Plane) : List Plane :=
  (ops.foldl (fun st a => augment ⟨seed, epoch, sid, a.opId⟩ a st) { ps := ps }).ps

/-! ## Tokenisation (R267 to R269) -/

/-- Pixel of a patch grid; beyond the sample it reads 0. -/
def patPix (p : Plane) (y x : Nat) : Nat := if x < p.w && y < p.h then pix p y x else 0

/-- Least and largest of the values of a format: floats compare under R130. -/
def lessF (fmt a b : Nat) : Bool := if fmt < 2 then decide (a < b) else fltB (toF fmt a) (toF fmt b)

/-- Minimum and maximum of a patch of the luma plane. -/
def patRange (p : Plane) (side py px : Nat) : Nat × Nat :=
  let vals := (List.range side).flatMap (fun y => (List.range side).map (fun x => patPix p (py * side + y) (px * side + x)))
  vals.foldl (fun (a : Nat × Nat) v => (if lessF p.fmt v a.1 then v else a.1, if lessF p.fmt a.2 v then v else a.2))
    (vals.headD 0, vals.headD 0)

/-- Whether a patch is background (R268). -/
def isBackground (fmt bg tau : Nat) (r : Nat × Nat) : Bool :=
  if fmt < 2 then decide (bg ≤ r.1 + tau) && decide (r.2 ≤ bg + tau)
  else fleB (fsub (toF fmt bg) (toF fmt tau)) (toF fmt r.1) && fleB (toF fmt r.2) (fadd (toF fmt bg) (toF fmt tau))

/-- The rank of a patch's contrast. -/
def contrast (fmt : Nat) (r : Nat × Nat) : Nat :=
  if fmt < 2 then r.2 - r.1 else (fsub (toF fmt r.2) (toF fmt r.1)).toNat

/-- Insert by falling contrast, rising patch on a tie. -/
def insPatch (x : Nat × Nat) : List (Nat × Nat) → List (Nat × Nat)
  | [] => [x]
  | y :: ys => if y.2 < x.2 then x :: y :: ys else y :: insPatch x ys

/-- The kept patches, ascending, and how many the cap dropped (R268). -/
def keptPatches (d : StageDecl) (luma : Plane) (marked : List Nat) : List Nat × Nat :=
  let g := patchGrid d luma.w luma.h
  let r (k : Nat) : Nat × Nat := patRange luma d.patch (k / g.1) (k % g.1)
  let kept := (List.range (g.1 * g.2)).filter (fun k => marked.contains k || !isBackground luma.fmt d.bg d.tau (r k))
  if kept.length ≤ d.cap then (kept, 0)
  else
    let top := (((kept.map (fun k => (k, contrast luma.fmt (r k)))).foldl (fun a x => insPatch x a) []).take d.cap).map (fun x => x.1)
    (top.foldl (fun a k => insSorted k a) [], kept.length - d.cap)

/-- The elements of one token: row, column, plane (R269). -/
def tokenData (d : StageDecl) (ps : List Plane) (cols k : Nat) : List Nat :=
  (List.range d.patch).flatMap (fun y => (List.range d.patch).flatMap (fun x => (ps.take d.planes).map (fun p =>
    let v := patPix p (k / cols * d.patch + y) (k % cols * d.patch + x)
    if p.fmt = d.elemFmt then v else ofF d.elemFmt (toF p.fmt v))))

/-- A TOKENISE stage on a sample: tokens in ascending patch order, the grid, and what the cap dropped. -/
def tokenise (d : StageDecl) (ps : List Plane) (marked : List Nat) : List Token × Nat × Nat × Nat :=
  match ps with
  | [] => ([], 0, 0, 0)
  | luma :: _ =>
    let g := patchGrid d luma.w luma.h
    let k := keptPatches d luma marked
    (k.1.map (fun p => { p := p, data := tokenData d ps g.1 p }), g.1, g.2, k.2)

/-- Bytes of an element of a token format. -/
def elemBytes (fmt : Nat) : Nat := if fmt = 0 then 1 else if fmt = 3 then 4 else 2

/-- The token list of Table IMG-9. -/
def tokenListBytes (d : StageDecl) (x : Sample) : List Byte :=
  let n := 0x40 + 4 * x.tokens.length
  toLe 2 x.off ++ toLe 2 (x.damaged.toNat + 2 * x.capped.toNat) ++ toLe 4 x.tokens.length ++ toLe 4 (x.cols * x.rows)
    ++ toLe 2 x.cols ++ toLe 2 x.rows ++ toLe 1 d.patch ++ toLe 1 d.planes ++ toLe 1 d.elemFmt ++ zeros 45
    ++ x.tokens.flatMap (fun t => toLe 4 t.p) ++ zeros ((64 - n % 64) % 64)
    ++ x.tokens.flatMap (fun t => t.data.flatMap (toLe (elemBytes d.elemFmt)))

end Sys2Proof.Machine
end

