-- ==== Sys2Proof/Machine/Stage.lean ====
section
/-!
DEFINITION. The scoreboard: entries and their readiness, the end of a stage, skips and damaged samples (R234 to R238,
R241, R254, R316).
-/
namespace Sys2Proof.Machine

/-! ## The graph -/

def stageAt (q : Part) (k : Nat) : StageDecl := (bodyOf q).stages.getD k {}

/-- Recording stages are over before a sample is admitted (R22): a sample's board starts after INGEST and ENCODE. -/
def recordingKind (k : Nat) : Bool := k == 1 || k == 2

/-- The stages whose hand-offs a stage takes in. -/
def predsOf (q : Part) (k : Nat) : List Nat := ((bodyOf q).edges.filter (fun e => e.2 == k)).map (fun e => e.1)

/-- The stages of a sample's board whose hand-offs a stage takes in. -/
def samplePreds (q : Part) (k : Nat) : List Nat := (predsOf q k).filter (fun j => !recordingKind (stageAt q j).kind)

/-- The stages reachable only through a set, within n rounds (R235). -/
def onlyThrough (q : Part) : Nat → List Nat → List Nat
  | 0, l => l
  | n + 1, l =>
    let more := (List.range (bodyOf q).stages.length).filter (fun k =>
      !l.contains k && !(stageAt q k).stepScope && !(samplePreds q k).isEmpty && (samplePreds q k).all (fun j => l.contains j))
    onlyThrough q n (l ++ more)

/-- The home cluster of a sample offset (R316). -/
def homeOf (q : Part) (off : Nat) : Nat :=
  (placementOf q).homes.foldl (fun a h => if h.2 ≤ off then h.1 else a) 0

/-- Where a placement puts a stage: relative cluster and tile group. -/
def placesOf (q : Part) (k : Nat) : List (Nat × Nat) :=
  ((placementOf q).map.filter (fun m => m.1 == k)).map (fun m => m.2)

/-- Where a sample stage runs: on the sample's home cluster when the placement maps it there, else on the first place
that it maps. -/
def samplePlace (q : Part) (k off : Nat) : Nat × Nat :=
  let l := placesOf q k
  match l.find? (fun x => x.1 == homeOf q off) with
  | some x => x
  | none => l.headD (homeOf q off, 0)

/-- Where a step stage runs: every place that the placement maps it to. -/
def stepPlaces (q : Part) (k : Nat) : List (Nat × Nat) := let l := placesOf q k; if l.isEmpty then [(0, 0)] else l

/-! ## Entries -/

/-- The lowest entry number that is free on a cluster. -/
def freeEntry (l : List Entry) (rel : Nat) : Nat :=
  let used := (l.filter (fun e => e.rel == rel)).map (fun e => e.no)
  ((List.range (used.length + 1)).find? (fun i => !used.contains i)).getD used.length

/-- Put an entry on the board. -/
def addEntry (k : Nat) (step : Bool) (off slot : Nat) (place : Nat × Nat) (l : List Entry) : List Entry :=
  l ++ [{ rel := place.1, no := freeEntry l place.1, st := .waiting, stage := k, stepScope := step, off := off, slot := slot
          pend := 0, group := place.2 }]

/-- The sample-scope entries of an admitted sample. -/
def addSample (q : Part) (slot off : Nat) (l : List Entry) : List Entry :=
  (List.range (bodyOf q).stages.length).foldl (fun l k =>
    let d := stageAt q k
    if d.stepScope || recordingKind d.kind then l else addEntry k false off slot (samplePlace q k off) l) l

/-- The step-scope entries of an open step: a preparation step runs its PERMUTE stages only (R246). -/
def addStep (q : Part) (slot : Nat) (prep : Bool) (l : List Entry) : List Entry :=
  (List.range (bodyOf q).stages.length).foldl (fun l k =>
    let d := stageAt q k
    if !d.stepScope || (prep && d.kind != 0x12) then l
    else (stepPlaces q k).foldl (fun l x => addEntry k true 0 slot x l) l) l

def stepIn (q : Part) (slot : Nat) : Option OpenStep := q.sc.steps.find? (fun x => x.slot == slot)

/-- Whether the recording stages of an entry's live sample have handed its window on (R20, R22). -/
def windowHanded (q : Part) (e : Entry) : Bool :=
  match (stepIn q e.slot).bind (fun st => st.samples.find? (fun x => x.off == e.off)) with
  | some x => (match x.win with
    | some k => (match (q.streams.find? (fun y => y.index == k.1)).bind (fun y => y.wins.find? (fun w => w.seq == k.2)) with
      | some w => w.encoded
      | none => true)
    | none => true)
  | none => true

/-- Whether a stage's hand-off to an entry is complete: nothing of the stage is left on the board for the sample, or for
the whole step once every sample is admitted. -/
def handedOn (q : Part) (e : Entry) (k : Nat) : Bool :=
  if recordingKind (stageAt q k).kind then e.stepScope || windowHanded q e
  else if (stageAt q k).stepScope then !q.sc.entries.any (fun x => x.slot == e.slot && x.stage == k)
  else if e.stepScope then
    (match stepIn q e.slot with
      | some st => st.prep || decide (st.count ≤ st.samples.length)
      | none => false)
    && !q.sc.entries.any (fun x => x.slot == e.slot && x.stage == k)
  else !q.sc.entries.any (fun x => x.slot == e.slot && x.off == e.off && !x.stepScope && x.stage == k)

/-- Whether an entry waits for the list builder (R243). -/
def waitsLists (q : Part) (e : Entry) : Bool :=
  (stageAt q e.stage).kind == 0x0B && (match stepIn q e.slot with | some st => !st.lists | none => true)

/-- Whether every sample of a step is in: a step stage without inputs starts only then. -/
def stepFull (q : Part) (e : Entry) : Bool :=
  !e.stepScope || (match stepIn q e.slot with
    | some st => st.prep || decide (st.count ≤ st.samples.length)
    | none => false)

/-- An entry with its pending hand-offs counted, READY when none is left (R238). -/
def refreshEntry (q : Part) (e : Entry) : Entry :=
  if e.st == .waiting then
    let n := ((predsOf q e.stage).filter (fun k => !handedOn q e k)).length + (waitsLists q e).toNat
    { e with pend := n, st := if n = 0 && stepFull q e then .ready else .waiting }
  else e

/-- Bring the board up to date. -/
def refreshBoard (p : Pid) (s : State) : State :=
  let q := partOf s p
  modSched p (fun c => { c with entries := c.entries.map (refreshEntry q) }) s

/-! ## Samples -/

def modStep (p : Pid) (slot : Nat) (g : OpenStep → OpenStep) (s : State) : State :=
  modSched p (fun c => { c with steps := modAll (fun x => x.slot == slot) g c.steps }) s

def modSample (p : Pid) (slot off : Nat) (g : Sample → Sample) (s : State) : State :=
  modStep p slot (fun st => { st with samples := modAll (fun x => x.off == off) g st.samples }) s

def sampleAt (s : State) (p : Pid) (slot off : Nat) : Option Sample :=
  match stepIn (partOf s p) slot with
  | some st => st.samples.find? (fun x => x.off == off)
  | none => none

/-- The epoch of an open step. -/
def epochOf (s : State) (p : Pid) (slot : Nat) : Nat :=
  match stepIn (partOf s p) slot with
  | some st => st.first.epoch
  | none => 0

/-- A sample without entries left is complete: what it reserved and never drew returns (R215, R235, R241). -/
def closeSamples (p : Pid) (slot : Nat) (s : State) : State :=
  let q := partOf s p
  match stepIn q slot with
  | none => s
  | some st =>
    (st.samples.filter (fun x => !x.done && !q.sc.entries.any (fun e => e.slot == slot && e.off == x.off && !e.stepScope))).foldl
      (fun s x =>
        let s := unreserveAll p x.undrawn s
        modSample p slot x.off (fun x => { x with done := true, undrawn := [0, 0, 0, 0, 0] }) s) s

/-- Entries leave the board and those that waited for them may become READY (R234, R238). -/
def entriesDone (p : Pid) (slot : Nat) (t : Entry → Bool) (s : State) : State :=
  let s := modSched p (fun c => { c with entries := c.entries.filter (fun e => !(e.slot == slot && t e)) }) s
  refreshBoard p (closeSamples p slot s)

/-- A transient record for a tile group's retry that succeeded (R145): tiles of the entry's group whose reset was its
retry. -/
def groupRetryOver (p : Pid) (e : Entry) (s : State) : State :=
  let q := partOf s p
  let mine (t : Tile) : Bool := t.retry.isSome && q.g.clusters.contains (t.id / 64) && entryOnTile q t.id e
  (s.units.tiles.filter mine).foldl (fun s t =>
    transientFault p.val (unitId 0x01 t.id) 0x0002 (sramTag t.id (t.retry.getD 0))
      (modTile t.id (fun x => { x with retry := none }) s)) s

/-- The end of one entry: its stage is DONE and its outputs handed on. -/
def entryDone (p : Pid) (e : Entry) (s : State) : State :=
  let s := if e.retried then groupRetryOver p e s else s
  entriesDone p e.slot (fun x => x.rel == e.rel && x.no == e.no) s

/-- The sample entry of a stage kind. -/
def sampleEntry (q : Part) (slot off stage : Nat) : Option Entry :=
  q.sc.entries.find? (fun e => e.slot == slot && e.off == off && !e.stepScope && e.stage == stage)

/-- The end of a sample's stage that a unit ran. -/
def sampleStageDone (p : Pid) (slot off stage : Nat) (s : State) : State :=
  match sampleEntry (partOf s p) slot off stage with
  | some e => entryDone p e s
  | none => s

/-- Skip a stage of a sample and everything reachable only through it (R235): skipped outputs are empty, and TOKENISE
yields no token. -/
def skipFrom (p : Pid) (slot off stage : Nat) (s : State) : State :=
  let q := partOf s p
  let l := onlyThrough q (bodyOf q).stages.length [stage]
  let noTok := l.any (fun k => (stageAt q k).kind == 9)
  let s := modSample p slot off (fun x => { x with skipped := true, tokens := if noTok then [] else x.tokens }) s
  entriesDone p slot (fun e => e.off == off && !e.stepScope && l.contains e.stage) s

/-- A damaged sample: counted, skipped at its decode or fetch stage, and yielding no token (R254, R291, R303). -/
def damageSample (p : Pid) (slot off stage : Nat) (s : State) : State :=
  let s := modSample p slot off (fun x => { x with damaged := true, tokens := [] }) s
  let s := modPCnt p (fun k => { k with damaged := satAdd 64 k.damaged 1 }) s
  skipFrom p slot off stage s

/-- The words that name a sample in a record (Table ERR-10): the id's low 32 bits, and its high byte with a code and an
engine. -/
def sampleArg1 (id code eng : Nat) : Nat := id / 2 ^ 32 % 256 + code % 256 * 256 + eng % 65536 * 65536

/-- Planes that a stage leaves on a sample. -/
def setPlanes (p : Pid) (slot off : Nat) (ps : List Plane) (s : State) : State :=
  modSample p slot off (fun x => { x with planes := ps }) s

end Sys2Proof.Machine
end

