-- ==== Sys2Proof/Machine/Storage.lean ====
section
/-!
DEFINITION. Drives and the NVMe host: attach and detach, fetches, archive writes, completions, timeouts and protocol
violations (R425 to R437, R519, R520).
-/
namespace Sys2Proof.Machine

def driveUnit (n : Nat) : Nat := unitId 0x0D n

/-! ## Namespaces -/

/-- Order of (root port, NSID) pairs. -/
def nsLess (a b : Nat × Nat) : Bool := decide (a.1 < b.1) || (a.1 == b.1 && decide (a.2 < b.2))

def insNs (x : Nat × Nat) : List (Nat × Nat) → List (Nat × Nat)
  | [] => [x]
  | y :: ys => if nsLess x y then x :: y :: ys else y :: insNs x ys

/-- The namespace slots of a partition: its granted pairs in ascending order. -/
def nsSlots (q : Part) : List (Nat × Nat) := q.g.ns.foldl (fun a x => insNs x a) []

/-- What Identify reported of a namespace. -/
def nsInfo (s : State) (x : Nat × Nat) : Option NsInfo := (driveOf s x.1).ns.find? (fun i => i.nsid == x.2)

def lbaBytes (i : NsInfo) : Nat := if i.lba4k then 4096 else 512

/-- The partition that holds a namespace. -/
def nsHolder (s : State) (x : Nat × Nat) : Option Pid := allPids.find? (fun p => (partOf s p).g.ns.contains x)

/-- Whether any namespace of a drive is granted. -/
def nsGranted (s : State) (n : Nat) : Bool := allPids.any (fun p => (partOf s p).g.ns.any (fun x => x.1 == n))

/-! ## Submission (R431) -/

/-- I/O commands of a partition that are outstanding on a namespace. -/
def outstanding (d : Drive) (part ns : Nat) : Nat :=
  (d.cmds.filter (fun c => !c.admin && c.part == part && c.ns == ns)).length

/-- Submit an I/O command, or let it wait behind 64 outstanding ones. -/
def nvmeIo (n : Nat) (c : NvmeCmd) (s : State) : State :=
  let d := driveOf s n
  if outstanding d c.part c.ns < 64 && !d.waiting.any (fun x => x.part == c.part && x.ns == c.ns) then nvmePush n c s
  else modDrive n (fun d => { d with waiting := d.waiting ++ [c] }) s

/-- Submit waiting commands while their partition has places. -/
def nvmePump (n : Nat) : Nat → State → State
  | 0, s => s
  | k + 1, s =>
    let d := driveOf s n
    match d.waiting.find? (fun c => decide (outstanding d c.part c.ns < 64)) with
    | none => s
    | some c => nvmePump n k (nvmePush n c (modDrive n (fun d => { d with waiting := d.waiting.erase c }) s))

/-- Bytes of one command: the smaller of MDTS and 1 MiB, in whole blocks. -/
def cmdBytes (d : Drive) (lba : Nat) : Nat :=
  max lba ((if d.mdts = 0 then 2 ^ 20 else min d.mdts (2 ^ 20)) / lba * lba)

/-- Split a run of blocks into consecutive commands. -/
def splitCmds (c : NvmeCmd) (per lba : Nat) : Nat → Nat → List NvmeCmd
  | 0, _ => []
  | fuel + 1, left =>
    if left = 0 then []
    else
      let n := min left (per / lba)
      { c with blocks := n, apLen := n * lba }
        :: splitCmds { c with lba := c.lba + n, off := c.off + n * lba } per lba fuel (left - n)

/-! ## FETCH (R430, R431) -/

/-- A sample whose stored data cannot be used (R303, R430, R434): cause 1 invalid index, 2 reserved id, 3 media error. -/
def damagedFetch (p : Pid) (slot off stage cause : Nat) (s : State) : State :=
  let id := match sampleAt s p slot off with
    | some x => x.id
    | none => 0
  damageSample p slot off stage (logEvent p.val 0x0203 id (sampleArg1 id cause 0) 0 0 s)

/-- The namespace, first LBA and blocks of an index entry, when it is valid (R430). -/
def indexEntry (s : State) (p : Pid) (e : List Byte) (maxBytes : Nat) : Option ((Nat × Nat) × Nat × Nat × Nat) :=
  match (nsSlots (partOf s p))[field e 0 1]? with
  | none => none
  | some x =>
    match nsInfo s x with
    | none => none
    | some i =>
      let len := field e 4 4
      let n := ceilDiv len (lbaBytes i)
      if field e 1 1 = 0 && zeroAt e 2 2 && decide (1 ≤ len) && decide (len ≤ maxBytes)
          && decide (field e 8 8 + n ≤ i.blocks) then some (x, field e 8 8, n, lbaBytes i)
      else none

/-- Issue the reads of a sample. -/
def startFetch (p : Pid) (slot off stage : Nat) (s : State) : State :=
  let q := partOf s p
  match sampleAt s p slot off, regionOf (bodyOf q) .index with
  | some x, some r =>
    match indexEntry s p (winRead s p (r.addr + 16 * x.id) 16) (min 16777216 (stageAt q stage).inputBytes) with
    | none => damagedFetch p slot off stage 1 s
    | some (ns, lba, n, bs) =>
      let c : NvmeCmd := { cid := 0, admin := false, op := 0, part := p.val, ns := ns.2, sample := some (slot, off)
                           stage := stage, lba := lba }
      (splitCmds c (cmdBytes (driveOf s ns.1) bs) bs n n).foldl (fun s c => nvmeIo ns.1 c s) s
  | some _, none => damagedFetch p slot off stage 1 s
  | none, _ => s

/-! ## The archive writer (R432) -/

/-- The recording ring of a stream. -/
def recRegion (b : ImgBody) (i : Nat) : Option Region := regionFor b .recordingRing i

def streamOf (q : Part) (i : Nat) : Option Stream := q.streams.find? (fun x => x.index == i)
def modStream (p : Pid) (i : Nat) (g : Stream → Stream) (s : State) : State :=
  modPart p (fun q => { q with streams := modAll (fun x => x.index == i) g q.streams }) s
def modCodec (p : Pid) (i : Nat) (g : CodecSt → CodecSt) (s : State) : State :=
  modStream p i (fun x => { x with codec := g x.codec }) s

/-- Write the next complete segment of a stream's recording ring, in recording order; segment n goes to block
n × (blocks of a segment) of the namespace slot (log entry 33). -/
def startArchive (p : Pid) (i : Nat) (s : State) : State :=
  let q := partOf s p
  match declOf q i, streamOf q i with
  | some d, some x =>
    match (nsSlots q)[d.archiveSlot]? with
    | none => s
    | some ns =>
      match nsInfo s ns with
      | none => s
      | some info =>
        let bs := lbaBytes info
        if x.codec.arch != 0 || d.segBytes = 0 || x.codec.recOff / d.segBytes ≤ x.codec.archived
            || (driveOf s ns.1).st != 2 then s
        else
          let n := d.segBytes / bs
          let c : NvmeCmd := { cid := 0, admin := false, op := 1, part := p.val, ns := ns.2
                               seg := some (i, x.codec.archived), lba := x.codec.archived * n }
          (splitCmds c (cmdBytes (driveOf s ns.1) bs) bs n n).foldl (fun s c => nvmeIo ns.1 c s)
            (modCodec p i (fun k => { k with arch := 1 }) s)
  | _, _ => s

/-- A dataset index entry (R430). -/
def indexBytes (slot len lba : Nat) : List Byte := toLe 1 slot ++ zeros 3 ++ toLe 4 len ++ toLe 8 lba

/-- The segment in hand is archived: its windows' index entries are written and it may be overwritten (R432). -/
def archived (p : Pid) (i : Nat) (s : State) : State :=
  let q := partOf s p
  match declOf q i, streamOf q i with
  | some d, some x =>
    let bs := match (nsSlots q)[d.archiveSlot]? with
      | some ns => (match nsInfo s ns with
        | some info => lbaBytes info
        | none => 512)
      | none => 512
    let end_ := (x.codec.archived + 1) * d.segBytes
    let fin := x.codec.recWins.filter (fun w => decide (w.off + w.len ≤ end_))
    let s := match regionOf (bodyOf q) .index with
      | some r => fin.foldl (fun s w =>
          let e := indexBytes d.archiveSlot w.len (w.off / bs)
          modSched p (fun c => { c with idxNew := c.idxNew ++ [(w.seq * 64 + i, e)] })
            (winWrite p (r.addr + 16 * (w.seq * 64 + i)) e s)) s
      | none => s
    let s := modCodec p i (fun k => { k with arch := 0, archived := k.archived + 1
                                             recWins := k.recWins.filter (fun w => !decide (w.off + w.len ≤ end_)) }) s
    startArchive p i s
  | _, _ => s

/-! ## Outcomes (R434, R435) -/

/-- Whether a partition uses a drive only to write its archive. -/
def archiveOnly (q : Part) (n : Nat) : Bool :=
  !hasKind q 3 && (bodyOf q).streams.any (fun d => d.segBytes != 0 && (match (nsSlots q)[d.archiveSlot]? with
    | some ns => ns.1 == n
    | none => false))

/-- Stop the archive writers that use a drive: the ring fills and the windows that follow become a gap (R20, R435). -/
def stopArchive (p : Pid) (n : Nat) (s : State) : State :=
  let q := partOf s p
  let hit (x : Stream) : Bool := match declOf q x.index with
    | some d => d.segBytes != 0 && (match (nsSlots q)[d.archiveSlot]? with
      | some ns => ns.1 == n
      | none => false)
    | none => false
  modPart p (fun q => { q with streams := q.streams.map (fun x =>
    if hit x then { x with codec := { x.codec with arch := 3 } } else x) }) s

/-- Grants that wait for a queue pair of a drive take their turn again (R428). -/
def wakeGrants (s : State) : State :=
  modHost (fun h => { h with reqs := h.reqs.filter (fun r => !(r.opcode == 0x0201 && r.phase == .moving))
    ++ (h.reqs.filter (fun r => r.opcode == 0x0201 && r.phase == .moving)).map (fun r => { r with phase := .ready }) }) s

/-- A lasting drive fault: CC.EN cleared, the link held down, every command dead; each partition that holds a namespace
is fenced, but an archive only stops (R434, R435). -/
def driveLasting (n part code tag : Nat) (s : State) : State :=
  let users := partsWhere s (fun q => q.g.ns.any (fun x => x.1 == n))
  let s := lastingFence part (driveUnit n) code 2 tag users s
  let req := (driveOf s n).req
  let s := modDrive n (fun d => { d with
    st := 3, phase := 0, rate := 0, width := 0, req := none, queues := [], waiting := [], tails := []
    dead := d.dead ++ d.cmds.map (fun c => c.cid), cmds := [], lasting := satAdd 64 d.lasting 1 }) s
  let s := emit (.nvmeCtl n 0) (logDev 0x0906 (driveUnit n) 2 0 0 s)
  let s := completeOpt req 0 0 2 s
  let s := users.foldl (fun s p => if archiveOnly (partOf s p) n then stopArchive p n s else fencePart p 0x0002 s) s
  wakeGrants s

/-- The tag of a command in a record: root port, SQ id and command identifier (Table ERR-4, log entry 32). -/
def nvmeTag (n : Nat) (c : NvmeCmd) : Nat := n * 2 ^ 32 + sqOf c * 2 ^ 16 + c.cid

/-- A transient drive fault (R434). -/
def driveTransient (n : Nat) (c : NvmeCmd) (s : State) : State :=
  modDrive n (fun d => { d with transient := satAdd 64 d.transient 1 })
    (transientFault c.part (driveUnit n) c.first (nvmeTag n c) s)

/-- Reissue a command under a new identifier: its one retry. -/
def nvmeReissue (n : Nat) (c : NvmeCmd) (code : Nat) (media : Bool) (s : State) : State :=
  nvmePush n { c with retried := true, first := code, mediaErr := media } s

/-- What a command that is complete lets go on. -/
def nvmeDone (n : Nat) (c : NvmeCmd) (s : State) : State :=
  let d := driveOf s n
  let mine (x : NvmeCmd) : Bool := !x.admin && x.part == c.part && x.op == c.op
  match pidOf c.part with
  | none => s
  | some p =>
    if c.op = 0 then
      match c.sample with
      | some k => if (d.cmds ++ d.waiting).any (fun x => mine x && decide (x.sample = c.sample)) then s
                  else sampleStageDone p k.1 k.2 c.stage s
      | none => s
    else if c.op = 1 then
      match c.seg with
      | some k => if (d.cmds ++ d.waiting).any (fun x => mine x && decide (x.seg = c.seg)) then s
                  else nvmeIo n { cid := 0, admin := false, op := 2, part := c.part, ns := c.ns, seg := c.seg }
                         (modCodec p k.1 (fun k => { k with arch := 2 }) s)
      | none => s
    else if c.op = 2 then
      match c.seg with
      | some k => archived p k.1 s
      | none => s
    else if c.op = 3 then
      let s := modDrive n (fun d => { d with queues := if d.queues.contains c.ns then d.queues else d.queues ++ [c.ns] }) s
      if d.cmds.any (fun x => x.op == 3 && x.part == c.part) then s else wakeGrants s
    else s

/-- A command failed for good as a repeated media error: its sample is damaged (R254, R434). -/
def nvmeMedia (n : Nat) (c : NvmeCmd) (s : State) : State :=
  let s := modDrive n (fun d => { d with media := satAdd 64 d.media 1 }) s
  match pidOf c.part, c.sample with
  | some p, some k =>
    let s := nvmeFenceWhere (fun x => x.part == c.part && decide (x.sample = c.sample)) s
    damagedFetch p k.1 k.2 c.stage 3 s
  | _, _ => s

/-- The fault code of a completion: a poisoned TLP is a PCIe error (R485). -/
def cqeFault (e : NvmeCqe) : Nat := if e.poisoned then 0x000B else 0x1000 + e.sct * 256 + e.sc

/-- The outcome of a command (Table HIO-7). -/
def nvmeOutcome (n : Nat) (c : NvmeCmd) (e : NvmeCqe) (s : State) : State :=
  let s := modDrive n (fun d => { d with cmds := d.cmds.erase c }) s
  let bad := e.poisoned || e.sct != 0 || e.sc != 0
  let media := !e.poisoned && e.sct == 2 && e.sc == 0x81 && c.op == 0 && !c.admin
  if !bad then nvmeDone n c (if c.retried then driveTransient n c s else s)
  else if c.op = 6 && c.admin then s
  else if media && !c.retried then nvmeReissue n c (cqeFault e) true s
  else if media && c.mediaErr then nvmeMedia n c s
  else if (e.dnr && !e.poisoned) || c.retried then driveLasting n c.part (cqeFault e) (nvmeTag n c) s
  else nvmeReissue n c (cqeFault e) false s

/-- A protocol violation of a drive (Table HIO-8), by its row. -/
def driveViolation (n row : Nat) (s : State) : State :=
  let s := modDrive n (fun d => { d with violations := satAdd 64 d.violations 1 }) s
  partnerViolation (.drive n) 0xFF (driveUnit n) 3 row 0 s

/-- A completion that comes too late (R433, R474). -/
def driveLate (n cid rung : Nat) (s : State) : State :=
  let s := modDrive n (fun d => { d with dead := d.dead.erase cid, late := satAdd 64 d.late 1 }) s
  lateDiscard 0xFF (driveUnit n) rung cid s

/-- Whether a completion names a submission queue and a head within it. -/
def cqeKnown (d : Drive) (e : NvmeCqe) : Bool :=
  (e.sqid == 0 || d.queues.contains e.sqid) && decide (e.sqHead < sqSize d e.sqid)
    && decide ((sqTailOf d e.sqid + sqSize d e.sqid - e.sqHead) % sqSize d e.sqid
        ≤ (d.cmds.filter (fun c => sqOf c == e.sqid)).length + d.dead.length)

/-- NVME_COMPLETION (R434, R436). -/
def doNvmeCompletion (n : Nat) (e : NvmeCqe) (s : State) : State :=
  let d := driveOf s n
  if !domOn s 5 || !(d.st == 1 || d.st == 2) then s
  else if d.dead.contains e.cid then driveLate n e.cid (if e.sqid = 0 then 14 else 13) s
  else if !cqeKnown d e then driveViolation n 1 s
  else
    match d.cmds.find? (fun c => c.cid == e.cid && sqOf c == e.sqid) with
    | some c =>
      let s := if e.poisoned then driveViolation n 5 s else s
      nvmePump n 256 (nvmeOutcome n c e s)
    | none => if e.cid < d.nextCid then driveLate n e.cid (if e.sqid = 0 then 14 else 13) (driveViolation n 2 s)
              else driveViolation n 1 s

/-- Row NVME_COMPLETION. -/
def execNvmeCompletion (port : Nat) (e : NvmeCqe) (s : State) : Host.Outcome State Fault Refusal :=
  .next (doNvmeCompletion port e s)

/-- A command that outlasted its bound is fenced and reissued once (R433). -/
def nvmeTimeout (n cid : Nat) (admin : Bool) (s : State) : State :=
  match (driveOf s n).cmds.find? (fun c => c.cid == cid && c.admin == admin) with
  | none => s
  | some c =>
    let s := modDrive n (fun d => { d with timeouts := satAdd 64 d.timeouts 1 }) s
    let s := nvmeFence n c s
    if c.retried then driveLasting n c.part 0x0001 (nvmeTag n c) s else nvmeReissue n c 0x0001 false s

/-- Row NVME_IO_TIMEOUT. -/
def execNvmeIoTimeout (port cid : Nat) (s : State) : Host.Outcome State Fault Refusal := .next (nvmeTimeout port cid false s)

/-- NVME_ADMIN_TIMEOUT; an Abort that times out is not sent again. -/
def doAdminTimeout (n cid : Nat) (s : State) : State :=
  match (driveOf s n).cmds.find? (fun c => c.cid == cid && c.admin) with
  | some c => if c.op = 6 then modDrive n (fun d => { d with cmds := d.cmds.erase c, dead := d.dead ++ [cid]
                                                             timeouts := satAdd 64 d.timeouts 1 }) s
              else nvmeTimeout n cid true s
  | none => s

/-- Row NVME_ADMIN_TIMEOUT. -/
def execNvmeAdminTimeout (port cid : Nat) (s : State) : Host.Outcome State Fault Refusal := .next (doAdminTimeout port cid s)

/-- A controller failure: reset once with the open commands reissued, and lasting within 10 s of the last (R434). -/
def controllerFailure (n code : Nat) (s : State) : State :=
  let d := driveOf s n
  if d.st != 2 then s
  else if (match d.lastReset with
      | some t => decide (s.time - t < 10000000000)
      | none => false) then driveLasting n 0xFF code 0 s
  else
    let open_ := d.cmds.filter (fun c => c.op != 6)
    let s := modDrive n (fun d => { d with lastReset := some s.time, dead := d.dead ++ d.cmds.map (fun c => c.cid)
                                           cmds := [], tails := [] }) s
    let s := emit (.nvmeCtl n 2) s
    let s := d.queues.foldl (fun s k => nvmePush n { cid := 0, admin := true, op := 3, ns := k } s) s
    open_.foldl (fun s c => nvmeReissue n c code false s) s

/-- Row NVME_CONTROLLER_FATAL. -/
def execNvmeControllerFatal (port : Nat) (s : State) : Host.Outcome State Fault Refusal := .next (controllerFailure port 0x0009 s)

/-- DRIVE_LINK_DOWN: a controller failure while the drive's signal is present; without it the commands end under their
timeouts. -/
def doDriveLinkDown (n : Nat) (signal : Bool) (s : State) : State :=
  if (driveOf s n).st != 2 then s
  else if signal then controllerFailure n 0x000A s
  else modDrive n (fun d => { d with rate := 0, width := 0 }) s

/-- Row DRIVE_LINK_DOWN. -/
def execDriveLinkDown (port : Nat) (signal : Bool) (s : State) : Host.Outcome State Fault Refusal :=
  .next (doDriveLinkDown port signal s)

/-! ## Drive DMA (R429) -/

/-- Whether a command's aperture takes a DMA: a read command's takes drive writes only, a write command's reads only. -/
def apertureTakes (c : NvmeCmd) (addr len : Nat) (write : Bool) : Bool :=
  !c.admin && decide (c.aperture ≤ addr) && decide (addr + len ≤ c.aperture + c.apLen)
    && ((c.op == 0 && write) || (c.op == 1 && !write))

/-- The buffer that a root port fills for a sample (owner kind 5). -/
def inputBuffer (s : State) (n part : Nat) (k : Nat × Nat) : Option Desc :=
  s.units.pool.descs.find? (fun d => d.st == 1 && d.part == part && decide (d.owner = ⟨5, n⟩) && decide (d.for_ = some (k.1, some k.2)))

/-- DRIVE_DMA: through its command's aperture to the sample's buffer or the recording ring; any other DMA is answered
Completer Abort and is a violation (R429, R436). -/
def doDriveDma (n addr len : Nat) (write : Option (List Byte)) (s : State) : State :=
  let m := match write with
    | some b => b.length
    | none => len
  if !domOn s 5 || (driveOf s n).st != 2 then s
  else
    match (driveOf s n).cmds.find? (fun c => apertureTakes c addr m write.isSome) with
    | none => emit (.completerAbort n) (driveViolation n 3 s)
    | some c =>
      let at_ := c.off + (addr - c.aperture)
      match write, c.sample, c.seg, pidOf c.part with
      | some b, some k, _, some _ =>
        (match inputBuffer s n c.part k with
          | some d => if at_ + m ≤ classSize d.cls then bufWrite d at_ b s else s
          | none => s)
      | none, _, some k, some p =>
        (match recRegion (bodyOf (partOf s p)) k.1, declOf (partOf s p) k.1 with
          | some r, some d => emit (.memData p addr (winRead s p (r.addr + (k.2 * d.segBytes + at_) % max 1 r.size) m)) s
          | _, _ => s)
      | _, _, _, _ => s

/-- Row DRIVE_DMA. -/
def execDriveDma (port addr len : Nat) (write : Option (List Byte)) (s : State) : Host.Outcome State Fault Refusal :=
  .next (doDriveDma port addr len write s)

/-- DRIVE_MSIX_WRITE: one vector for each completion queue; any other is dropped as a violation (R436). -/
def doDriveMsix (n v : Nat) (s : State) : State :=
  if !domOn s 5 || (driveOf s n).st != 2 then s
  else if v ≤ (driveOf s n).queues.length then s
  else driveViolation n 4 s

/-- Row DRIVE_MSIX_WRITE. -/
def execDriveMsixWrite (port vector : Nat) (s : State) : Host.Outcome State Fault Refusal := .next (doDriveMsix port vector s)

/-! ## Attach and detach (R427) -/

def portFields (_ : State) (r : Req) : Bool := decide (field r.payload 0 1 < 4) && zeroAt r.payload 1 3

/-- STORAGE_ATTACH (R427). -/
def attachBody (r : Req) (s : State) : State × Ans :=
  let n := field r.payload 0 1
  let d := driveOf s n
  if !domOn s 5 || !(d.st == 0 || d.st == 4 || (d.st == 3 && !nsGranted s n)) then (s, ansRefused 0x0118)
  else (emit (.nvmeCtl n 1) (modDrive n (fun d => { d with st := 1, phase := 0, tried := false, req := some r.id, ns := []
                                                           cmds := [], waiting := [], tails := [] }) s), ansPend)

/-- Row STORAGE_ATTACH. -/
def execStorageAttach (r : ReqId) (s : State) : Host.Outcome State Fault Refusal :=
  .next (runCmd r 0x0A01 (fun _ => true) portFields (answering attachBody) s)

/-- The end of a detach: the link is down (R519). -/
def detachDone (n outcome : Nat) (s : State) : State :=
  let req := (driveOf s n).req
  let s := modDrive n (fun d => { d with st := 4, phase := 0, rate := 0, width := 0, req := none, ns := [], queues := []
                                         waiting := [], tails := [], dead := d.dead ++ d.cmds.map (fun c => c.cid), cmds := [] }) s
  completeOpt req 0 0 outcome (logDev 0x0906 (driveUnit n) 3 0 0 s)

/-- STORAGE_DETACH (R427): refused while a namespace is granted, BUSY while another operation of the port runs. -/
def detachBody (r : Req) (s : State) : State × Ans :=
  let n := field r.payload 0 1
  let d := driveOf s n
  if nsGranted s n then (s, ansRefused 0x0118)
  else if d.req.isSome then (s, ansBusy 0 1000)
  else if d.st = 2 then (emit (.nvmeCtl n 3) (modDrive n (fun d => { d with phase := 3, req := some r.id }) s), ansPend)
  else (modDrive n (fun d => { d with phase := if d.st = 3 then 5 else 4, req := some r.id }) s, ansPend)

/-- Row STORAGE_DETACH: a port without a running drive is done at once. -/
def execStorageDetach (r : ReqId) (s : State) : Host.Outcome State Fault Refusal :=
  let s' := runCmd r 0x0A02 (fun _ => true) portFields (answering detachBody) s
  .next ([0, 1, 2, 3].foldl (fun s n =>
    let d := driveOf s n
    if d.phase = 5 then detachDone n 1 s
    else if d.phase = 4 then completeOpt d.req 0 0 0 (modDrive n (fun d => { d with phase := 0, req := none }) s)
    else s) s')

/-- A counter word of STORAGE_STATUS. -/
def driveCounters (d : Drive) : List Byte :=
  [d.commands, d.transient, d.lasting, d.timeouts, d.media, d.violations, d.late].flatMap (toLe 8)

/-- STORAGE_STATUS (R520). -/
def storageStatus (r : Req) (s : State) : Ans :=
  let n := field r.payload 0 1
  let d := driveOf s n
  let entry (i : NsInfo) : List Byte :=
    let h := match nsHolder s (n, i.nsid) with
      | some p => p.val
      | none => 0xFF
    toLe 1 i.nsid ++ toLe 1 i.lba4k.toNat ++ toLe 1 i.usable.toNat ++ toLe 1 h ++ zeros 4 ++ toLe 8 i.blocks
  ansOk (toLe 1 d.rate ++ toLe 1 d.width ++ toLe 1 d.st ++ toLe 1 d.ns.length ++ toLe 4 d.mdts ++ driveCounters d
    ++ padTo 256 ((d.ns.take 16).flatMap entry))

/-- Row STORAGE_STATUS. -/
def execStorageStatus (r : ReqId) (s : State) : Host.Outcome State Fault Refusal :=
  .next (runCmd r 0x0A03 (fun _ => true) portFields (reading storageStatus) s)

/-- A step of an attach failed: it is retried once, and a second failure leaves the drive fenced (R427). -/
def attachFailed (n phase code : Nat) (s : State) : State :=
  if (driveOf s n).tried then driveLasting n 0xFF code 0 s
  else emit (.nvmeCtl n 1) (modDrive n (fun d => { d with tried := true, phase := phase }) s)

/-- A step of an attach succeeded: on its retry that is a transient fault. -/
def attachStep (n code : Nat) (g : Drive → Drive) (s : State) : State :=
  let s := if (driveOf s n).tried then
      modDrive n (fun d => { d with transient := satAdd 64 d.transient 1 }) (transientFault 0xFF (driveUnit n) code 0 s)
    else s
  modDrive n (fun d => { g d with tried := false }) s

/-- The attach is over. -/
def attachDone (n st outcome count : Nat) (s : State) : State :=
  let req := (driveOf s n).req
  let s := modDrive n (fun d => { d with st := st, phase := 0, req := none }) s
  completeOpt req 0 0 (outcome + count * 256) (logDev 0x0906 (driveUnit n) outcome 0 0 s)

/-- ROOT_PORT_LINK_UP: training and enumeration end (R425, R427). -/
def doRootPortUp (n : Nat) (f : PortFound) (s : State) : State :=
  let d := driveOf s n
  if d.st != 1 || d.phase != 0 then s
  else
    match f with
    | .noDrive => attachDone n 0 0 0 s
    | .failed => attachFailed n 0 0x0004 s
    | .drive rate width => attachStep n 0x0004 (fun d => { d with rate := rate, width := width, phase := 1 }) s

/-- Row ROOT_PORT_LINK_UP. -/
def execRootPortLinkUp (port : Nat) (found : PortFound) (s : State) : Host.Outcome State Fault Refusal :=
  .next (doRootPortUp port found s)

/-- CONTROLLER_STATUS_CHANGE: the attach or detach moves on (R427). -/
def doControllerStatus (n : Nat) (st : CtrlStatus) (s : State) : State :=
  let d := driveOf s n
  if d.st = 1 && d.phase = 1 && decide (st = .notReady) then modDrive n (fun d => { d with phase := 2 }) s
  else if d.st = 1 && (d.phase == 1 || d.phase == 2) then
    match st with
    | .ready mdts mqes ns =>
      if d.phase = 2 then
        attachDone n 2 1 ns.length (attachStep n 0x0001 (fun d => { d with mdts := mdts, mqes := mqes, ns := ns, lastReset := none }) s)
      else s
    | .failed => attachFailed n 1 0x0009 s
    | _ => s
  else if d.st = 2 && d.phase = 3 && decide (st = .shutdown) then detachDone n 0 s
  else s

/-- Row CONTROLLER_STATUS_CHANGE. -/
def execControllerStatusChange (port : Nat) (st : CtrlStatus) (s : State) : Host.Outcome State Fault Refusal :=
  .next (doControllerStatus port st s)

/-- CONTROLLER_READY_TIMEOUT: CAP.TO ran out (R427). -/
def doReadyTimeout (n : Nat) (s : State) : State :=
  let d := driveOf s n
  if d.st = 1 && (d.phase == 1 || d.phase == 2) then attachFailed n 1 0x0001 s else s

/-- Row CONTROLLER_READY_TIMEOUT. -/
def execControllerReadyTimeout (port : Nat) (s : State) : Host.Outcome State Fault Refusal := .next (doReadyTimeout port s)

/-- DETACH_SHUTDOWN_TIMEOUT: shutdown was not confirmed in 10 s (R427, R519). -/
def doShutdownTimeout (n : Nat) (s : State) : State :=
  let d := driveOf s n
  if d.st = 2 && d.phase = 3 then detachDone n 1 s else s

/-- Row DETACH_SHUTDOWN_TIMEOUT. -/
def execDetachShutdownTimeout (port : Nat) (s : State) : Host.Outcome State Fault Refusal := .next (doShutdownTimeout port s)

end Sys2Proof.Machine
end

