-- ==== Sys2Proof/Machine/Live.lean ====
section
/-!
DEFINITION. Windows of camera streams between ingest, encoder and training: backlog, release, window records
(R19 to R22, R226, R378 to R380).
-/
namespace Sys2Proof.Machine

def streamUnit (i : Nat) : Nat := unitId 0x0B i

/-- The sample id of a live window (R19). -/
def liveId (i w : Nat) : Nat := w * 64 + i

def modWin (p : Pid) (i w : Nat) (g : Win → Win) (s : State) : State :=
  modStream p i (fun x => { x with wins := modFirst (fun y => y.seq == w) g x.wins }) s

def windowAt (s : State) (p : Pid) (i w : Nat) : Option Win :=
  (streamOf (partOf s p) i).bind (fun x => x.wins.find? (fun y => y.seq == w))

/-- The front end of a stream: the core at position index mod n of the granted cores (R270). -/
def frontEnd (q : Part) (i : Nat) : Owner := ⟨1, q.g.cores.getD (i % max 1 q.g.cores.length) 0⟩

/-- Log a recording gap (R20, R379). -/
def logGap (p : Pid) (i first last : Nat) (s : State) : State := logEvent p.val 0x0201 (streamUnit i) first last 0 s

/-- Release a window's buffer (R226). -/
def dropBuffer (p : Pid) (i w : Nat) (s : State) : State :=
  match (windowAt s p i w).bind (fun y => y.buf) with
  | some b =>
    let d := descOf s b.1 b.2
    let s := if s.units.pool.inService && d.st != 0 && d.part == p.val then releaseDesc d s else s
    modWin p i w (fun y => { y with buf := none }) s
  | none => s

/-- Whether training still has a use for a window: it waits, is admitted, or may be admitted again (R21, R248). -/
def wanted (q : Part) (i w : Nat) : Bool :=
  q.sc.liveQ.contains (i, w) || q.sc.perm.contains (liveId i w)
    || q.sc.steps.any (fun st => st.samples.any (fun x => decide (x.win = some (i, w))))

/-- Whether a window's record still waits for its line set (R386): the other streams may bring theirs. -/
def setWaits (q : Part) (x : Stream) (w : Win) : Bool :=
  match declOf q x.index with
  | some d => d.lineSet.isSome && !w.compared && decide (x.nextWin < w.seq + 64)
  | none => false

/-- Drop the windows of a stream that are coded, resolved and no longer wanted, with their buffers. -/
def sweepStream (p : Pid) (s : State) (x : Stream) : State :=
  let q := partOf s p
  let gone := x.wins.filter (fun w => w.done && (w.encoded || w.uncoded) && !wanted q x.index w.seq && !setWaits q x w)
  let s := gone.foldl (fun s w => dropBuffer p x.index w.seq s) s
  modStream p x.index (fun y => { y with wins := y.wins.filter (fun w => !gone.any (fun g => g.seq == w.seq)) }) s

def sweepWins (p : Pid) (s : State) : State := (partOf s p).streams.foldl (fun s x => sweepStream p s x) s

/-- Recorded windows of a stream that wait for training. -/
def backlogOf (q : Part) (i : Nat) : List (Nat × Nat) := q.sc.liveQ.filter (fun x => x.1 == i)

/-- A complete window joins the training queue; with the backlog full the stream's oldest leaves it (R21). -/
def joinBacklog (p : Pid) (i w : Nat) (s : State) : State :=
  let q := partOf s p
  if !(hdrOf q).live then s
  else
    let l := backlogOf q i
    let s := match l with
      | o :: _ => if (hdrOf q).liveBacklog ≤ l.length then
          modPCnt p (fun k => { k with backlog := satAdd 64 k.backlog 1 })
            (modSched p (fun c => { c with liveQ := c.liveQ.erase o }) (logEvent p.val 0x0202 (streamUnit i) o.2 0 0 s))
        else s
      | [] => s
    sweepWins p (modSched p (fun c => { c with liveQ := c.liveQ ++ [(i, w)] }) s)

/-- The window record of Table ING-2 (R380). -/
def windowRecord (i : Nat) (w : Win) : List Byte :=
  toLe 4 w.seq ++ toLe 1 i ++ toLe 1 (w.unsync.toNat + 2 * w.misaligned.toNat + 4 * w.count.isNone.toNat) ++ zeros 2
    ++ toLe 8 (w.cameraTime.getD 0) ++ toLe 8 w.deviceTime ++ toLe 4 (w.count.getD 0) ++ toLe 2 (min w.resent 65535) ++ zeros 2

/-- Return what a stream's standing reservation holds undrawn (R215). -/
def returnStanding (p : Pid) (i : Nat) (s : State) : State :=
  let q := partOf s p
  match declOf q i, streamOf q i with
  | some d, some x =>
    let s := (List.range 5).foldl (fun s c =>
      unreserve p c (if c = d.windowClass then x.res else nth d.standing c) s) s
    modStream p i (fun x => { x with res := 0 }) s
  | _, _ => s

/-- Close a stream (R294). -/
def closeStream (p : Pid) (i : Nat) (s : State) : State :=
  returnStanding p i (modStream p i (fun x => { x with codec := { x.codec with st := 0, closing := false }
                                                       blocks := [], ranges := [], last := none }) s)

end Sys2Proof.Machine
end

