-- ==== Sys2Proof/Machine/Codec.lean ====
section
/-!
DEFINITION. The HEVC cores: segments and engines, rate control, strip-speed bias, slice emission, damaged instances and
engine faults (R270 to R294, Tables VID-4 to VID-7).
-/
namespace Sys2Proof.Machine

def coreOf (s : State) (c : Nat) : Core := vget s.units.cores c {}
def modCore (c : Nat) (g : Core → Core) (s : State) : State := modUnits (fun u => { u with cores := vmodN u.cores c g }) s
def coreUnit (c : Nat) : Nat := unitId 0x05 c

/-! ## Division (Table VID-4) -/

/-- CTU rows of a picture. -/
def ctuRows (d : StreamDecl) : Nat := ceilDiv d.picH 64

/-- First row of a segment and the row after its last. -/
def segRows (d : StreamDecl) (seg : Nat) : Nat × Nat :=
  let n := ctuRows d
  if d.division = 0 then
    let t := seg / max 1 d.divCols
    (t * n / max 1 d.divRows, (t + 1) * n / max 1 d.divRows)
  else if d.division = 1 then (seg * d.divK, min n ((seg + 1) * d.divK))
  else (seg, seg + 1)

/-- The slice that a segment belongs to. -/
def sliceOf (d : StreamDecl) (seg : Nat) : Nat :=
  if d.division = 0 then seg / max 1 d.divCols else if d.division = 1 then seg else seg / max 1 d.divK

/-- Segments of a slice in coding order. -/
def sliceSegs (d : StreamDecl) (sl : Nat) : List Nat := (List.range (segCount d)).filter (fun g => sliceOf d g == sl)

/-- Slices of a picture. -/
def sliceCount (d : StreamDecl) : Nat := if segCount d = 0 then 0 else sliceOf d (segCount d - 1) + 1

/-- Bits of row r over the segments that are complete. -/
def rowBitsAt (d : StreamDecl) (outs : List SegOut) (r : Nat) : Nat :=
  sumL (outs.map (fun o =>
    let x := segRows d o.seg
    if decide (x.1 ≤ r) && decide (r < x.2) then nth o.rowBits (r - x.1) else 0))

/-- Whether every segment with a row at or below r is complete. -/
def rowsDone (d : StreamDecl) (outs : List SegOut) (r : Nat) : Bool :=
  (List.range (segCount d)).all (fun g => decide (r < (segRows d g).1) || outs.any (fun o => o.seg == g))

/-! ## Rate control (R279 to R281) -/

/-- QpBdOffset of a stream's profile. -/
def bdOffset (d : StreamDecl) : Int := qpBdOffset d.profile

/-- F_c of row g: the fullness after the last picture whose final row is below g − 3, B / 2 before the first. -/
def fullnessAt (d : StreamDecl) (rt : RateSt) (r : Nat) : Int :=
  let n := max 1 (ctuRows d)
  let done := (rt.n * n + r - 3) / n
  if done = 0 || rt.n * n + r < 3 then d.bucket.tdiv 2 else rt.fHist.getD (rt.n - done) (d.bucket.tdiv 2)

/-- The QP of one row (R280). -/
def rowQp (d : StreamDecl) (rt : RateSt) (irap : Bool) (done : Int) (r : Nat) (qPrev : Int) : Int :=
  let n : Int := Int.ofNat (max 1 (ctuRows d))
  let kn : Nat := r - 3
  let k : Int := Int.ofNat kn
  let t := if irap then d.tI else d.tP
  let b := d.bucket
  let ahead := fullnessAt d rt r + done - (t * k).tdiv n
  let qt := if irap then d.qpI else d.qpP
  let q :=
    if d.rateMode ≤ 1 then
      let q := d.qpInit + (ahead - b.tdiv 2).tdiv (max 1 (b.tdiv 32))
      let q := min (max q (qPrev - 2)) (qPrev + 2)
      if d.rateMode = 1 && decide (b - b.tdiv 8 < ahead) then d.qpMax else q
    else if d.rateMode = 2 then
      let qp := if r = 0 then qt else qPrev
      if decide (0 < k) && decide (d.capC < (done * n).tdiv k) then max qt (qp + 1) else max qt (qp - 1)
    else qt
  min (max q d.qpMin) d.qpMax

/-- QPs of rows r, r + 1, … of the picture in work, m of them, from the bits of its rows. -/
def rowQps (d : StreamDecl) (rt : RateSt) (irap : Bool) (bits : Nat → Nat) : Nat → Nat → Int → List Int
  | 0, _, _ => []
  | m + 1, r, qPrev =>
    let q := rowQp d rt irap (Int.ofNat (sumL ((List.range (r - 3)).map bits))) r qPrev
    q :: rowQps d rt irap bits m (r + 1) q

/-- QPs of the first m rows of the picture in work. -/
def pictureQps (d : StreamDecl) (k : CodecSt) (irap : Bool) (m : Nat) : List Int :=
  rowQps d k.rate irap (rowBitsAt d k.segOuts) m 0 (if k.rate.n = 0 then d.qpInit else k.rate.qPrev)

/-- The end of a picture with A bits (R280): the bucket, filler bytes, and whether it overran (R281). -/
def pictureEnd (d : StreamDecl) (rt : RateSt) (irap : Bool) (a : Int) (qLast : Int) : RateSt × Nat × Bool :=
  let f0 := if rt.n = 0 then d.bucket.tdiv 2 else rt.f
  let t := if irap then d.tI else d.tP
  let f1 := f0 + a - t
  let filler := if d.rateMode = 0 && decide (f1 < 0) then ceilDiv f1.natAbs 8 else 0
  let fill8 : Int := Int.ofNat (8 * filler)
  let f := if d.rateMode = 0 then f1 + fill8 else if d.rateMode = 1 then max 0 f1 else f0
  let overrun := if d.rateMode ≤ 1 then decide (d.bucket < f) else d.rateMode == 2 && decide (d.capC < a)
  ({ n := rt.n + 1, f := f, fHist := (f :: rt.fHist).take 8, qPrev := qLast }, filler, overrun)

/-- A filler-data NAL unit of n bytes (PRESUMED: H.265 7.3.2.8, log entry 34). -/
def fillerNal (n : Nat) : List Byte := if n = 0 then [] else padTo n ([0x4C, 0x01] ++ List.replicate (n - 3) 0xFF ++ [0x80])

/-! ## Pictures -/

/-- The window whose picture is in work: the oldest that is to be coded and is not. -/
def codingWin (x : Stream) : Option Win := x.wins.find? (fun w => !w.encoded && !w.uncoded)

/-- Whether a picture is an IRAP picture (R271, R274, R289): forced, every G pictures, and after windows that were not
coded. -/
def isIrap (d : StreamDecl) (k : CodecSt) (w : Win) : Bool :=
  k.forceIrap || decide (d.irap ≤ k.sinceIrap) || (match k.lastSeq with
    | some n => n + 1 != w.seq
    | none => true)

/-- The strip-speed bias toward a reference, none when either count is missing (R283, R387). -/
def biasRows (d : StreamDecl) (cur ref : Option Nat) : Int :=
  match cur, ref with
  | some c, some r =>
    let rho : Int := Int.ofNat d.rho
    let v := (ofTwos 32 ((c + 2 ^ 32 - r % 2 ^ 32) % 2 ^ 32) * rho + 32768) / 65536
    if d.down then -v else v
  | _, _ => 0

/-- Whether a reference is not fetched: its biased window lies outside the picture and its padding for every CTU row
(R284). -/
def notFetched (d : StreamDecl) (bias : Int) : Bool :=
  let h : Int := Int.ofNat d.picH
  let n : Int := Int.ofNat (ctuRows d)
  decide (h + 64 ≤ bias - 128) || decide (64 * (n - 1) + bias + 192 ≤ -64)

/-- Whether a picture codes no inter prediction at all: INTRA_ONLY (R284). -/
def intraOnly (d : StreamDecl) (k : CodecSt) (w : Win) : Bool :=
  let refs := k.refCounts.take d.refs
  !isIrap d k w && refs.all (fun c => notFetched d (biasRows d w.count c))

/-! ## Planes for training -/

/-- Put planes side by side. -/
def hcat (a b : Plane) : Plane :=
  if a.w = 0 then b else mkPlane (a.w + b.w) a.h a.fmt (fun y x => if x < a.w then pix a y x else pix b y (x - a.w))

/-- Put planes one under the other. -/
def vcat (a b : Plane) : Plane := if a.h = 0 then b else ⟨a.w, a.h + b.h, a.fmt, a.px ++ b.px⟩

def emptyPlane : Plane := ⟨0, 0, 0, []⟩

/-- The reconstruction of a picture from its segments, component by component. -/
def reconPlanes (d : StreamDecl) (outs : List SegOut) : List Plane :=
  let comps := (outs.map (fun o => o.recon.length)).foldl max 0
  let part (g c : Nat) : Plane := match outs.find? (fun o => o.seg == g) with
    | some o => o.recon.getD c emptyPlane
    | none => emptyPlane
  let rowOf (sl c : Nat) : Plane :=
    if d.division = 0 then (sliceSegs d sl).foldl (fun a g => hcat a (part g c)) emptyPlane
    else (sliceSegs d sl).foldl (fun a g => vcat a (part g c)) emptyPlane
  (List.range comps).map (fun c => (List.range (sliceCount d)).foldl (fun a sl => vcat a (rowOf sl c)) emptyPlane)

/-- The pixels of a window as its camera sent them (Table MEM-3). -/
def rawPlane (d : StreamDecl) (bs : List Byte) : Plane :=
  let get (i : Nat) : Nat :=
    if d.pixFmt = 0 then field bs i 1
    else if d.pixFmt = 1 then
      let b := i / 2 * 3
      if i % 2 = 0 then field bs b 1 * 16 + field bs (b + 1) 1 % 16 else field bs (b + 2) 1 * 16 + field bs (b + 1) 1 / 16
    else field bs (2 * i) 2
  mkPlane d.width d.winH (if d.pixFmt = 0 then 0 else 1) (fun y x => get (y * d.width + x))

/-- Bytes of a window. -/
def windowBytes (d : StreamDecl) : Nat := blockBytes d * (d.winH / max 1 d.blockH)

/-- The bytes in a window's buffer. -/
def windowData (s : State) (d : StreamDecl) (w : Win) : List Byte :=
  match w.buf with
  | some b => bufRead s (descOf s b.1 b.2) 0 (windowBytes d)
  | none => []

/-- Hand a coded window to the samples that were admitted for it. -/
def handWindow (p : Pid) (i w : Nat) (ps : List Plane) (s : State) : State :=
  let hit (x : Sample) : Bool := decide (x.win = some (i, w))
  let s := modSched p (fun c => { c with steps := c.steps.map (fun st =>
    { st with samples := modAll hit (fun x => { x with planes := ps }) st.samples }) }) s
  refreshBoard p s

/-! ## Emission (R288) -/

/-- Write bytes into a ring region at a running offset. -/
def ringWrite (p : Pid) (r : Region) (off : Nat) (bs : List Byte) (s : State) : State :=
  let at_ := off % max 1 r.size
  let n := r.size - at_
  winWrite p r.addr (bs.drop n) (winWrite p (r.addr + at_) (bs.take n) s)

/-- One slice with its emission record (Table VID-5). -/
def emitSlice (p : Pid) (i sl : Nat) (w : Win) (bs : List Byte) (flags : Nat) (qpSum : Int) (s : State) : State :=
  match streamOf (partOf s p) i with
  | none => s
  | some x =>
    let k := x.codec
    let e : Emission := { offset := k.ringOff, length := bs.length, picture := k.pictures, window := w.seq, slice := sl
                          flags := flags, qpSum := qpSum, crc := crc32 bs }
    let s := match regionFor (bodyOf (partOf s p)) .bitstreamRing i with
      | some r => ringWrite p r k.ringOff bs s
      | none => s
    modCodec p i (fun k => { k with
      ringOff := k.ringOff + bs.length
      emitted := k.emitted ++ [e]
      slices := satAdd 64 k.slices 1
      bits := satAdd 64 k.bits (8 * bs.length)
      qpSum := k.qpSum + qpSum
      slicesOut := sl + 1
      picBytes := k.picBytes ++ bs }) s

/-- Append a coded window to the recording ring, at a block boundary of its namespace; a gap's picture gets no entry
(R379, R380, R432). -/
def recordWindow (p : Pid) (i : Nat) (w : Win) (s : State) : State :=
  let q := partOf s p
  match recRegion (bodyOf q) i, streamOf q i with
  | some r, some x =>
    let bs := x.codec.picBytes
    let al := match ((declOf q i).bind (fun d => (nsSlots q)[d.archiveSlot]?)).bind (nsInfo s) with
      | some info => lbaBytes info
      | none => 512
    let s := ringWrite p r x.codec.recOff bs s
    let e : RecWin := ⟨w.seq, x.codec.recOff, bs.length, windowRecord i w⟩
    startArchive p i (modCodec p i (fun k => { k with
      recOff := k.recOff + ceilDiv bs.length al * al
      recWins := if w.gap then k.recWins else k.recWins ++ [e] }) s)
  | _, _ => s

/-- The last slice of a picture is out: counters, the window is coded, training gets its planes, and a closing stream
ends (R226, R281, R289, R294). -/
def finishPicture (p : Pid) (i : Nat) (d : StreamDecl) (w : Win) (irap : Bool) (rt : RateSt) (overrun intra : Bool) (s : State) :
    State :=
  let q := partOf s p
  let outs := match streamOf q i with
    | some x => x.codec.segOuts
    | none => []
  let raw := (hdrOf q).sourceRaw
  let ps := if raw then [rawPlane d (windowData s d w)] else reconPlanes d outs
  let s := recordWindow p i w s
  let s := modWin p i w.seq (fun y => { y with encoded := true, planes := ps }) s
  let s := modCodec p i (fun k => { k with
    pictures := satAdd 64 k.pictures 1
    overruns := satAdd 64 k.overruns overrun.toNat
    intraOnly := satAdd 64 k.intraOnly intra.toNat
    rate := rt, segOuts := [], slicesOut := 0, picBytes := []
    refCounts := (w.count :: k.refCounts).take d.refs
    lastSeq := some w.seq
    sinceIrap := if irap then 1 else k.sinceIrap + 1
    forceIrap := w.gap }) s
  let s := if overrun then limited (.overrun p i) 1000000000 (fun n => logEvent p.val 0x0403 (streamUnit i) n 0 0) p.val s else s
  let s := if raw && !w.gap then s else dropBuffer p i w.seq s
  let s := handWindow p i w.seq ps s
  let s := sweepWins p s
  match streamOf (partOf s p) i with
  | some x => if x.codec.closing && x.wins.all (fun y => y.encoded || y.uncoded) then closeStream p i s else s
  | none => s

/-- Emit the next slices of the picture in work, in order (R288). -/
def emitSlices (p : Pid) (i : Nat) (d : StreamDecl) (w : Win) : Nat → State → State
  | 0, s => s
  | fuel + 1, s =>
    match streamOf (partOf s p) i with
    | none => s
    | some x =>
      let k := x.codec
      let sl := k.slicesOut
      let segs := sliceSegs d sl
      let outs := segs.filterMap (fun g => k.segOuts.find? (fun o => o.seg == g))
      if sliceCount d ≤ sl || outs.length < segs.length then s
      else
        let irap := isIrap d k w
        let intra := intraOnly d k w
        let lastRow := (segRows d (segs.getLastD 0)).2
        let firstRow := (segRows d (segs.headD 0)).1
        let qps := pictureQps d k irap lastRow
        let qpSum := (qps.drop firstRow).foldl (fun a q => a + q + bdOffset d) 0
        let bs := outs.flatMap (fun o => o.bytes)
        let flags := (sl == 0).toNat + 4 * irap.toNat + 8 * intra.toNat
        if sl + 1 < sliceCount d then emitSlices p i d w fuel (emitSlice p i sl w bs flags qpSum s)
        else
          let a : Nat := 8 * (k.picBytes.length + bs.length)
          match pictureEnd d k.rate irap (Int.ofNat a) (qps.getLastD d.qpInit) with
          | (rt, filler, overrun) =>
            finishPicture p i d w irap rt overrun intra
              (emitSlice p i sl w (bs ++ fillerNal filler) (flags + 2 + 16 * overrun.toNat) qpSum s)

/-! ## Engines (R276) -/

/-- The core on which a job may run: the lowest free core of its partition; a retry goes to another core when one is
granted and in service (R291). -/
def freeCore (s : State) (j : SegJob) : Option Nat :=
  let mine := ((partOf s j.part).g.cores.foldl (fun a c => insSorted c a) []).filter (fun c => !(coreOf s c).fenced)
  let others := mine.filter (fun c => decide (j.prevCore ≠ some c))
  let pool := if others.isEmpty then mine else others
  pool.find? (fun c => (coreOf s c).job.isNone)

/-- Free engines take waiting segments, in the order in which they became ready. -/
def startSegs : Nat → State → State
  | 0, s => s
  | n + 1, s =>
    if !domOn s 6 then s
    else
      match s.units.segQ.find? (fun j => (freeCore s j).isSome) with
      | none => s
      | some j =>
        match freeCore s j with
        | none => s
        | some c =>
          let s := modUnits (fun u => { u with segQ := u.segQ.erase j }) s
          startSegs n (modCore c (fun k => { k with job := some j }) s)

/-- Whether a segment of the picture in work may start (R276, R281). -/
def segReady (s : State) (p : Pid) (x : Stream) (d : StreamDecl) (w : Win) (seg : Nat) : Bool :=
  let k := x.codec
  let rows := segRows d seg
  let same (j : SegJob) : Bool := decide (j.part = p) && j.stream == x.index && j.win == w.seq && j.seg == seg
  let running (g : Nat) : Bool := s.units.cores.toList.any (fun c => match c.job with
    | some j => decide (j.part = p) && j.stream == x.index && j.win == w.seq && j.seg == g
    | none => false)
  decide (seg < segCount d) && decide (rows.2 ≤ w.groupsReady)
    && !k.segOuts.any (fun o => o.seg == seg) && !s.units.segQ.any same && !running seg
    && (d.division != 2 || seg == 0 || running (seg - 1) || k.segOuts.any (fun o => o.seg == seg - 1))
    && (decide (rows.1 < 4) || rowsDone d k.segOuts (rows.1 - 4))

/-- SEGMENT_READY: a segment of the picture in work goes to a free engine or waits (R276). -/
def doSegmentReady (p : Pid) (i seg : Nat) (s : State) : State :=
  let q := partOf s p
  match streamOf q i, declOf q i with
  | some x, some d =>
    (match codingWin x with
      | some w =>
        if domOn s 6 && (x.codec.st == 1 || x.codec.st == 4) && d.encode && segReady s p x d w seg then
          startSegs 24 (modUnits (fun u => { u with segQ := u.segQ ++ [{ part := p, stream := i, win := w.seq, seg := seg }] }) s)
        else s
      | none => s)
  | _, _ => s

/-- Row SEGMENT_READY. -/
def execSegmentReady (p : Pid) (stream seg : Nat) (s : State) : Host.Outcome State Fault Refusal :=
  .next (doSegmentReady p stream seg s)

/-- Issue the decode of a sample's picture (R236, R277): one segment per picture (log entry 35). -/
def startDecode (p : Pid) (slot off stage : Nat) (s : State) : State :=
  let i := (stageAt (partOf s p) stage).stream
  let id := match sampleAt s p slot off with
    | some x => x.id
    | none => 0
  let s := modCodec p i (fun k => { k with st := 1 }) s
  startSegs 24 (modUnits (fun u => { u with segQ := u.segQ ++ [{ part := p, stream := i, win := id, seg := 0, sample := some (slot, off) }] }) s)

/-! ## Faults (R291 to R293) -/

def segTimeout_ : Nat := 65536
def segEngine_ : Nat := 65537

/-- The fault code of a segment's failure (R485); an engine's own failure is UNCORRECTABLE (log entry 36). -/
def segFault (code : Nat) : Nat := if code = segTimeout_ then 0x0001 else if code = segEngine_ then 0x0002 else 0x0200 + code

/-- A lasting engine fault (R293, R479). -/
def coreLasting (c : Nat) (j : SegJob) (code : Nat) (s : State) : State :=
  let s := lastingFence j.part.val (coreUnit c) (segFault code) 2 (segTag j) [j.part] s
  let s := modCore c (fun k => { k with fenced := true, job := none }) s
  let s := fencePart j.part 0x0002 s
  if (List.range 24).all (fun k => (coreOf s k).fenced) then fenceWhere usesHevc 0x0002 s else s

/-- The position of a sample id in its decode instance: the group, and the place in it (R23). -/
def instanceOf (b : ImgBody) (id : Nat) : Nat × Nat :=
  let g := b.groups.findIdx (fun l => l.contains id)
  if g < b.groups.length then (g, (b.groups.getD g []).findIdx (fun x => x == id)) else (b.groups.length + id, 0)

/-- Whether damage has stopped a sample's decode instance before it (R291). -/
def instanceStopped (q : Part) (epoch id : Nat) : Bool :=
  let k := instanceOf (bodyOf q) id
  q.sc.stopped.any (fun x => x.1 == epoch && x.2.1 == k.1 && decide (x.2.2 ≤ k.2))

/-- Every admitted picture of a stopped instance from a position on is DAMAGED (R291). -/
def damageInstance (p : Pid) (stage epoch : Nat) (s : State) : State :=
  let q := partOf s p
  let hits := q.sc.steps.flatMap (fun st => if st.first.epoch == epoch then
    (st.samples.filter (fun x => !x.damaged && instanceStopped q epoch x.id && (sampleEntry q st.slot x.off stage).isSome)).map
      (fun x => (st.slot, x.off)) else [])
  hits.foldl (fun s k =>
    damageSample p k.1 k.2 stage (killJobs (fun j => decide (j.part = p) && decide (j.sample = some k)) (fun _ => false) (fun _ => false) s)) s

/-- The decode stage of a sample. -/
def decodeStage (q : Part) (slot off : Nat) : Nat :=
  match q.sc.entries.find? (fun e => e.slot == slot && e.off == off && !e.stepScope && (stageAt q e.stage).kind == 4) with
  | some e => e.stage
  | none => 0

/-- The same error twice: the codec-error event, the instance stops, and its pictures from there on are DAMAGED. -/
def segDamaged (j : SegJob) (k : Nat × Nat) (c code off ctu : Nat) (s : State) : State :=
  let p := j.part
  let id := match sampleAt s p k.1 k.2 with
    | some x => x.id
    | none => 0
  let e := epochOf s p k.1
  let s := logEvent p.val 0x0402 id (sampleArg1 id code c) off ctu s
  let s := modCodec p j.stream (fun x => { x with st := 2, errCode := code, errCtu := ctu, errOff := off, errId := id }) s
  let i := instanceOf (bodyOf (partOf s p)) id
  let stage := decodeStage (partOf s p) k.1 k.2
  damageInstance p stage e (modSched p (fun x => { x with stopped := x.stopped ++ [(e, i.1, i.2)] }) s)

/-- A run that failed with a code (and for a decode error its offset and CTU): it is run once more, and a second failure
is damage when it repeats the first, otherwise lasting. -/
def segFailed (c : Nat) (j : SegJob) (code off ctu : Nat) (s : State) : State :=
  let s := modCore c (fun k => { k with job := none }) s
  match j.prev with
  | none => modUnits (fun u => { u with segQ := { j with attempt := 1, prev := some (code, off), prevCore := some c } :: u.segQ }) s
  | some x =>
    match j.sample with
    | some k => if x = (code, off) && decide (code < segTimeout_) then segDamaged j k c code off ctu s else coreLasting c j code s
    | none => coreLasting c j code s

/-- A run that succeeded: on the retry that is a transient fault of the engine that failed. -/
def segOk (c : Nat) (j : SegJob) (s : State) : State :=
  let s := modCore c (fun k => { k with job := none }) s
  match j.prev with
  | some x =>
    modCodec j.part j.stream (fun k => { k with transient := satAdd 64 k.transient 1 })
      (transientFault j.part.val (coreUnit (j.prevCore.getD c)) (segFault x.1) (segTag j) s)
  | none => s

/-- A coded segment joins its picture, and slices go out (R288). -/
def segCoded (j : SegJob) (rb : List Nat) (bs : List Byte) (ps : List Plane) (s : State) : State :=
  let p := j.part
  let s := modCodec p j.stream (fun k => { k with segOuts := k.segOuts ++ [⟨j.seg, rb, bs, ps⟩] }) s
  let q := partOf s p
  match streamOf q j.stream, declOf q j.stream with
  | some x, some d =>
    (match codingWin x with
      | some w => if w.seq = j.win then emitSlices p j.stream d w (sliceCount d) s else s
      | none => s)
  | _, _ => s

/-- A decoded picture (R272). -/
def segDecoded (j : SegJob) (k : Nat × Nat) (ps : List Plane) (slices bits : Nat) (s : State) : State :=
  let p := j.part
  let s := modCodec p j.stream (fun c => { c with pictures := satAdd 64 c.pictures 1, slices := satAdd 64 c.slices slices
                                                  bits := satAdd 64 c.bits bits }) s
  sampleStageDone p k.1 k.2 (decodeStage (partOf s p) k.1 k.2) (setPlanes p k.1 k.2 ps s)

/-- SEGMENT_COMPLETE: a dead tag is discarded (R474), otherwise the outcome of R291 and R292. -/
def doSegmentComplete (c tag : Nat) (res : SegResult) (s : State) : State :=
  let k := coreOf s c
  let mine := match k.job with
    | some j => segTag j == tag
    | none => false
  match k.job with
  | some j =>
    if mine then
      startSegs 24 (match res, j.sample with
        | .coded rb bs ps, none => segCoded j rb bs ps (segOk c j s)
        | .decoded ps sl bits, some x => segDecoded j x ps sl bits (segOk c j s)
        | .error code off ctu, _ => segFailed c j code off ctu s
        | .engineFault, _ => segFailed c j segEngine_ 0 0 s
        | _, _ => s)
    else if k.dead.contains tag then
      lateDiscard j.part.val (coreUnit c) 8 tag (modCore c (fun k => { k with dead := k.dead.erase tag }) s)
    else s
  | none =>
    if k.dead.contains tag then
      let part := match allPids.find? (fun p => (partOf s p).g.cores.contains c) with
        | some p => p.val
        | none => 0xFF
      lateDiscard part (coreUnit c) 8 tag (modCore c (fun k => { k with dead := k.dead.erase tag }) s)
    else s

/-- Row SEGMENT_COMPLETE. -/
def execSegmentComplete (core tag : Nat) (res : SegResult) (s : State) : Host.Outcome State Fault Refusal :=
  .next (doSegmentComplete core tag res s)

/-- SEGMENT_TIMEOUT: the job is fenced, its tag is dead, and it is issued again once (R292). -/
def doSegmentTimeout (c : Nat) (s : State) : State :=
  match (coreOf s c).job with
  | some j => startSegs 24 (segFailed c j segTimeout_ 0 0 (modCore c (fun k => { k with dead := k.dead ++ [segTag j] }) s))
  | none => s

/-- Row SEGMENT_TIMEOUT. -/
def execSegmentTimeout (core : Nat) (s : State) : Host.Outcome State Fault Refusal := .next (doSegmentTimeout core s)

end Sys2Proof.Machine
end

