-- ==== Sys2Proof/Machine/Ingest.lean ====
section
/-!
DEFINITION. Camera ingest: GVSP blocks, windows, resends, line sets, the PTP clock, stream and port commands
(R367 to R390, R510, R516, Table CMD-8).
-/
namespace Sys2Proof.Machine

/-! ## Violations (R389, Table ING-5) -/

/-- A camera violation of a stream, by its row. -/
def cameraViolation (p : Pid) (i row : Nat) (s : State) : State :=
  let n := match declOf (partOf s p) i with
    | some d => d.port
    | none => 8
  let s := modStream p i (fun x => { x with cnt := { x.cnt with violations := satAdd 64 x.cnt.violations 1 } }) s
  let s := modPort n (fun x => { x with violations := satAdd 64 x.violations 1 }) s
  partnerViolation (.stream p i) p.val (streamUnit i) 1 row 0 s

/-- The holder of a port, in a record. -/
def portHolder (s : State) (n : Nat) : Option Pid := allPids.find? (fun p => (partOf s p).g.ports.contains n)
def portPart (s : State) (n : Nat) : Nat := match portHolder s n with
  | some p => p.val
  | none => 0xFF

def portUnit (n : Nat) : Nat := unitId 0x0A n

/-- A violation where no stream is known. -/
def portViolation (n row : Nat) (s : State) : State :=
  let s := modPort n (fun x => { x with violations := satAdd 64 x.violations 1 }) s
  partnerViolation (.port n) (portPart s n) (portUnit n) 1 row 0 s

def modIng (p : Pid) (i : Nat) (g : IngCnt → IngCnt) (s : State) : State :=
  modStream p i (fun x => { x with cnt := g x.cnt }) s

/-! ## Geometry (R375 to R378) -/

/-- Payload packets of a block (R375). -/
def packetsOf (d : StreamDecl) : Nat := ceilDiv (blockBytes d + d.chunkBytes) (max 1 d.payloadBytes)

/-- Bytes of payload packet n. -/
def packetLen (d : StreamDecl) (n : Nat) : Nat :=
  if n < packetsOf d then d.payloadBytes else blockBytes d + d.chunkBytes - (packetsOf d - 1) * d.payloadBytes

/-- Blocks of a window. -/
def blocksPerWin (d : StreamDecl) : Nat := max 1 (d.winH / max 1 d.blockH)

/-- Line groups of a window. -/
def groupCount (d : StreamDecl) : Nat := ceilDiv d.winH 64

/-- Whether a packet of a block needs nothing more. -/
def resolvedId (b : Block) (n : Nat) : Bool := b.st != 0 || b.got.contains n || b.lost.contains n

/-- Whether every byte of a line group is written or lost (R378). -/
def groupReady (d : StreamDecl) (bs : List Block) (w g : Nat) : Bool :=
  let ib := blockBytes d
  let line := ib / max 1 d.blockH
  let a := g * 64 * line
  let e := min (windowBytes d) ((g + 1) * 64 * line)
  (List.range (blocksPerWin d)).all (fun j =>
    let lo := max a (j * ib) - j * ib
    let hi := min e ((j + 1) * ib) - j * ib
    decide (e ≤ j * ib) || decide ((j + 1) * ib ≤ a) ||
      (match bs.find? (fun b => b.win == w && b.j == j) with
        | some b => (List.range ((hi - 1) / d.payloadBytes + 1 - lo / d.payloadBytes)).all (fun k =>
            resolvedId b (lo / d.payloadBytes + k + 1))
        | none => false))

/-- Leading line groups that are ready. -/
def readyGroups (d : StreamDecl) (bs : List Block) (w : Nat) : Nat :=
  ((List.range (groupCount d)).takeWhile (groupReady d bs w)).length

/-! ## Encoder counts (R387) -/

/-- Look for a chunk from the end of the chunk data: each chunk's data is followed by its id and its length, most
significant byte first (PRESUMED: the GigE Vision layout, log entry 37). -/
def findChunk (id : Nat) (bs : List Byte) : Nat → Nat → Option (List Byte)
  | 0, _ => none
  | fuel + 1, end_ =>
    if end_ < 8 then none
    else
      let len := beNat (slice bs (end_ - 4) 4)
      if end_ - 8 < len then none
      else if beNat (slice bs (end_ - 8) 4) = id then some (slice bs (end_ - 8 - len) len)
      else findChunk id bs fuel (end_ - 8 - len)

/-- The encoder count in a block's chunk data. -/
def encoderCount (d : StreamDecl) (b : Block) : Option Nat :=
  match d.encChunk with
  | none => none
  | some (id, off, big) =>
    match findChunk id (memReadN b.chunk 0 d.chunkBytes) 512 d.chunkBytes with
    | some c => if off + 4 ≤ c.length then some (if big then beNat (slice c off 4) else field c off 4) else none
    | none => none

/-! ## Windows -/

/-- Whether the recording ring can take another window (R20, R435). -/
def canRecord (q : Part) (d : StreamDecl) (x : Stream) : Bool :=
  match recRegion (bodyOf q) d.index with
  | none => true
  | some r => d.segBytes = 0 || (x.codec.arch != 3
      && decide (x.codec.recOff / d.segBytes + 1 - x.codec.archived < r.size / d.segBytes))

/-- Bring a stream's standing reservation back to its size as buffers return (R378). -/
def refill (p : Pid) (i : Nat) (d : StreamDecl) : Nat → State → State
  | 0, s => s
  | n + 1, s =>
    match streamOf (partOf s p) i with
    | none => s
    | some x =>
      if nth d.standing d.windowClass ≤ x.res + (x.wins.filter (fun w => w.buf.isSome)).length then s
      else
        match reserveNow p ([0, 0, 0, 0, 0].set d.windowClass 1) s with
        | some s' => refill p i d n (modStream p i (fun x => { x with res := x.res + 1 }) s')
        | none => s

/-- A window's first block: it gets a buffer of the standing reservation, or it is a gap that codes no picture (R20,
R378). -/
def newWindow (p : Pid) (i : Nat) (d : StreamDecl) (w : Nat) (s : State) : State :=
  let s := refill p i d 1024 s
  let q := partOf s p
  match streamOf q i with
  | none => s
  | some x =>
    if x.wins.any (fun y => y.seq == w) then s
    else
      let add (y : Win) (s : State) : State :=
        modStream p i (fun x => { x with wins := x.wins ++ [y], nextWin := max x.nextWin (w + 1) }) s
      if !canRecord q d x then
        modCodec p i (fun k => { k with gapFrom := some (k.gapFrom.getD w) })
          (add { seq := w, gap := true, uncoded := true, noRing := true } s)
      else
        let s := match x.codec.gapFrom with
          | some f => modCodec p i (fun k => { k with gapFrom := none }) (logGap p i f (w - 1) s)
          | none => s
        if x.res = 0 || !s.units.pool.inService then
          add { seq := w, gap := true, uncoded := true } s
        else
          match drawDesc p d.windowClass (frontEnd q i) 0 none s with
          | (b, s) => modStream p i (fun x => { x with res := x.res - 1 }) (add { seq := w, buf := some (b.cls, b.index) } s)

/-- The record of a window in the recording ring follows its window. -/
def refreshRecord (p : Pid) (i w : Nat) (s : State) : State :=
  match windowAt s p i w with
  | some y => modCodec p i (fun k => { k with recWins := modAll (fun r => r.seq == w) (fun r => { r with record := windowRecord i y }) k.recWins }) s
  | none => s

/-- Compare the camera times of a window over its line set (R386). -/
def compareSet (p : Pid) (w : Nat) (set : Nat × Nat) (s : State) : State :=
  let q := partOf s p
  let is := ((bodyOf q).streams.filter (fun d => match d.lineSet with
    | some x => x.1 == set.1
    | none => false)).map (fun d => d.index)
  let times := is.map (fun i => match windowAt s p i w with
    | some y => if y.compared then none else y.cameraTime
    | none => none)
  if times.isEmpty || times.any (fun t => t.isNone) then s
  else
    let ts := times.map (fun t => t.getD 0)
    let spread := ts.foldl max 0 - ts.foldl min (ts.headD 0)
    let bad := decide (set.2 < spread)
    let s := is.foldl (fun s i =>
      let s := modWin p i w (fun y => { y with compared := true, misaligned := bad }) s
      let s := if bad then modIng p i (fun c => { c with misaligned := satAdd 64 c.misaligned 1 }) s else s
      refreshRecord p i w s) s
    if bad then limited (.lineSet p set.1) 1000000000 (fun _ => logEvent p.val 0x0902 set.1 w spread 0) p.val s else s

/-- A window whose blocks are all resolved: a gap is logged and never trained, a complete window joins the training
queue (R20, R21, R379). -/
def finishWindow (p : Pid) (i : Nat) (d : StreamDecl) (w : Win) (gap : Bool) (s : State) : State :=
  let s := modWin p i w.seq (fun y => { y with done := true, gap := gap, groupsReady := groupCount d }) s
  let s := if gap && !w.noRing then logGap p i w.seq w.seq s else s
  let s := match d.lineSet with
    | some x => compareSet p w.seq x s
    | none => s
  let s := if gap then s else joinBacklog p i w.seq s
  let s := modStream p i (fun x => { x with blocks := x.blocks.filter (fun b => decide (x.nextBlk < b.uid + 256 + blocksPerWin d)) }) s
  sweepWins p s

/-- Bring a window up to date after a change of one of its blocks. -/
def updateWin (p : Pid) (i : Nat) (d : StreamDecl) (w : Nat) (s : State) : State :=
  match streamOf (partOf s p) i with
  | none => s
  | some x =>
    match x.wins.find? (fun y => y.seq == w) with
    | none => s
    | some y =>
      if y.done then s
      else
        let bs := x.blocks.filter (fun b => b.win == w)
        let s := modWin p i w (fun y => { y with groupsReady := max y.groupsReady (readyGroups d x.blocks w) }) s
        let gap := y.gap || bs.any (fun b => decide (2 ≤ b.st)) || decide (bs.length < blocksPerWin d)
        if bs.all (fun b => b.st != 0) && (y.cut || decide (blocksPerWin d ≤ bs.length)) then finishWindow p i d y gap s else s

/-! ## Blocks and ranges (R381 to R383) -/

def modBlock (p : Pid) (i uid : Nat) (g : Block → Block) (s : State) : State :=
  modStream p i (fun x => { x with blocks := modFirst (fun b => b.uid == uid) g x.blocks }) s

def blockAt (s : State) (p : Pid) (i uid : Nat) : Option Block :=
  (streamOf (partOf s p) i).bind (fun x => x.blocks.find? (fun b => b.uid == uid))

/-- Whether every packet of a block that carries image bytes has come (R375): one that carries chunk bytes alone holds
no line. -/
def linesWhole (d : StreamDecl) (b : Block) : Bool :=
  (List.range (ceilDiv (blockBytes d) (max 1 d.payloadBytes))).all (fun k => b.got.contains (k + 1))

/-- A block with nothing left to wait for has lost lines, unless only chunk bytes are missing (R379). -/
def checkBlock (p : Pid) (i : Nat) (d : StreamDecl) (uid : Nat) (s : State) : State :=
  match streamOf (partOf s p) i, blockAt s p i uid with
  | some x, some b =>
    let s := if b.st == 0 && (b.tail || decide (packetsOf d < b.nxt)) && !x.ranges.any (fun r => r.block == uid) then
        modBlock p i uid (fun b => { b with st := if linesWhole d b then 1 else 2 }) s
      else s
    updateWin p i d b.win s
  | _, _ => s

/-- Open a range of missing packets; beyond 256 open ranges it is lost at once (R381, R382). -/
def openRange (p : Pid) (i : Nat) (d : StreamDecl) (uid : Nat) (ids : List Nat) (s : State) : State :=
  match streamOf (partOf s p) i with
  | none => s
  | some x =>
    if ids.isEmpty then checkBlock p i d uid s
    else
      let s := modBlock p i uid (fun b => { b with nxt := max b.nxt (ids.getLastD 0 + 1) }) s
      if 256 ≤ x.ranges.length then
        checkBlock p i d uid (modIng p i (fun c => { c with lost := satAdd 64 c.lost 1 })
          (modBlock p i uid (fun b => { b with lost := b.lost ++ ids }) s))
      else modStream p i (fun x => { x with ranges := x.ranges ++ [⟨x.nextRange, uid, ids, 0⟩], nextRange := x.nextRange + 1 }) s

/-- The tail of a block and a missing trailer become a range (R381). -/
def openTail (p : Pid) (i : Nat) (d : StreamDecl) (uid : Nat) (s : State) : State :=
  match blockAt s p i uid with
  | some b =>
    if b.tail || b.st != 0 then s
    else
      let ids := ((List.range (packetsOf d + 2)).drop b.nxt).filter (fun n => !b.got.contains n)
      openRange p i d uid ids (modBlock p i uid (fun b => { b with tail := true }) s)
  | none => s

def closeRange (p : Pid) (i id : Nat) (s : State) : State :=
  modStream p i (fun x => { x with ranges := x.ranges.filter (fun r => r.id != id) }) s

/-- A range is lost: its packets never come (R382, R383). -/
def loseRange (p : Pid) (i : Nat) (d : StreamDecl) (r : Range) (s : State) : State :=
  let s := closeRange p i r.id s
  let s := modBlock p i r.block (fun b => { b with lost := b.lost ++ r.ids.filter (fun n => !b.got.contains n) }) s
  checkBlock p i d r.block (modIng p i (fun c => { c with lost := satAdd 64 c.lost 1 }) s)

/-- A range is received: recovered after the first or second request; one that nothing was requested for is neither
(R383). -/
def rangeReceived (p : Pid) (i bid : Nat) (r : Range) (s : State) : State :=
  let s := closeRange p i r.id s
  if r.tries = 0 then s
  else if r.tries = 1 then modIng p i (fun c => { c with recovered := satAdd 64 c.recovered 1 }) s
  else
    let s := modIng p i (fun c => { c with recoveredRetry := satAdd 64 c.recoveredRetry 1 }) s
    let s := cntFaults p.val (fun x => { x with transient := vmodN x.transient 10 (satAdd 64 · 1) }) s
    limited (.recovered p i) 1000000000 (fun _ => logEvent p.val 0x0001 (streamUnit i) 0x0001 bid (r.ids.headD 0)) p.val s

/-- Put a block on a stream: its window is opened if need be. -/
def newBlock (p : Pid) (i : Nat) (d : StreamDecl) (bid seq : Nat) (s : State) : State :=
  match streamOf (partOf s p) i with
  | none => s
  | some x =>
    let w := x.w0 + seq / blocksPerWin d
    let s := newWindow p i d w s
    modStream p i (fun x => { x with
      blocks := x.blocks ++ [{ uid := x.nextBlk, win := w, j := seq % blocksPerWin d, blockId := bid }]
      nextBlk := x.nextBlk + 1
      last := some (bid, seq) }) s

/-- The block id n after one (R377): ids 1 to 65,535 in standard mode. -/
def idAfter (d : StreamDecl) (bid n : Nat) : Nat := if d.extId then (bid + n) % 2 ^ 64 else (bid - 1 + n) % 65535 + 1

/-- Forward distance between block ids, none when the delta is no forward one (R377). -/
def forwardDelta (d : StreamDecl) (a b : Nat) : Option Nat :=
  if d.extId then
    let k := (b + 2 ^ 64 - a % 2 ^ 64) % 2 ^ 64
    if 1 ≤ k && k ≤ 2 ^ 32 then some k else none
  else
    let k := (b + 65535 - a % 65535) % 65535
    if 1 ≤ k && k ≤ 32767 then some k else none

/-- Skipped blocks open as whole ranges (R381). -/
def skipBlocks (p : Pid) (i : Nat) (d : StreamDecl) (bid seq : Nat) : Nat → Nat → State → State
  | 0, _, s => s
  | n + 1, k, s =>
    let s := newBlock p i d (idAfter d bid k) (seq + k) s
    let uid := match streamOf (partOf s p) i with
      | some x => x.nextBlk - 1
      | none => 0
    let s := modBlock p i uid (fun b => { b with tail := true }) s
    skipBlocks p i d bid seq n (k + 1) (openRange p i d uid (List.range (packetsOf d + 2)) s)

/-- Place the first packet of a block id (R377, R381): none when it is dropped. -/
def placeBlock (p : Pid) (i : Nat) (d : StreamDecl) (bid : Nat) (s : State) : State × Bool :=
  match streamOf (partOf s p) i with
  | none => (s, false)
  | some x =>
    let busy := x.wins.any (fun w => !w.done)
    let counted (s : State) : State := modIng p i (fun c => { c with blocks := satAdd 64 c.blocks 1 }) s
    match x.last with
    | none =>
      if x.codec.closing then (s, false)
      else
        let s := modStream p i (fun x => { x with w0 := x.nextWin, codec := { x.codec with st := 1 } }) s
        (counted (newBlock p i d bid 0 s), true)
    | some (last, seq) =>
      match forwardDelta d last bid with
      | none => (cameraViolation p i 8 s, false)
      | some k =>
        let w := x.w0 + (seq + k) / blocksPerWin d
        if x.codec.closing && (!busy || decide (x.nextWin ≤ w)) then (s, false)
        else
          let s := x.blocks.foldl (fun s b => if b.st == 0 then openTail p i d b.uid s else s) s
          let s := skipBlocks p i d last seq (k - 1) 1 s
          (counted (newBlock p i d bid (seq + k) s), true)

/-- A block is rejected: its lines are lost (R373, R374). -/
def rejectBlock (p : Pid) (i : Nat) (d : StreamDecl) (b : Block) (row : Nat) (s : State) : State :=
  let s := cameraViolation p i row s
  let s := modStream p i (fun x => { x with ranges := x.ranges.filter (fun r => r.block != b.uid) }) s
  updateWin p i d b.win (modBlock p i b.uid (fun b => { b with st := 3 }) s)

/-- The window takes the times of the leader of its first block (R380, R385). -/
def leaderTimes (p : Pid) (i : Nat) (b : Block) (ts : Nat) (s : State) : State :=
  let un := !s.units.ptp.locked
  let now := s.time
  let s := modBlock p i b.uid (fun b => { b with cameraTime := ts, deviceTime := now, unsync := un, led := true }) s
  if b.j = 0 then modWin p i b.win (fun y => { y with cameraTime := some ts, deviceTime := now, unsync := un }) s else s

/-- Write a payload packet: image bytes into the window buffer, the rest into the chunk area (R375, R378). -/
def writePayload (p : Pid) (i : Nat) (d : StreamDecl) (b : Block) (n : Nat) (bs : List Byte) (s : State) : State :=
  let ib := blockBytes d
  let k := (n - 1) * d.payloadBytes
  let img := bs.take (ib - k)
  let s := match (windowAt s p i b.win).bind (fun y => y.buf) with
    | some x => if img.isEmpty then s else bufWrite (descOf s x.1 x.2) (b.j * ib + k) img s
    | none => s
  modBlock p i b.uid (fun b => { b with chunk := memWriteN b.chunk (k + img.length - ib) (bs.drop img.length) }) s

/-- A packet that is new to its block is taken (R375, R381, R383). -/
def acceptPacket (p : Pid) (i : Nat) (d : StreamDecl) (b : Block) (n : Nat) (payload : Bool) (s : State) : State :=
  let s := modBlock p i b.uid (fun b => { b with got := b.got ++ [n] }) s
  let s := modIng p i (fun c => { c with packets := satAdd 64 c.packets 1 }) s
  let s := if b.asked.contains n then modWin p i b.win (fun y => { y with resent := y.resent + 1 }) s else s
  let s := if payload && decide (b.nxt < n) then openRange p i d b.uid ((List.range n).drop b.nxt) s else s
  let s := if n ≤ packetsOf d then modBlock p i b.uid (fun b => { b with nxt := max b.nxt (n + 1) }) s else s
  match streamOf (partOf s p) i, blockAt s p i b.uid with
  | some x, some c =>
    let s := (x.ranges.filter (fun r => r.block == b.uid && r.ids.all (fun k => c.got.contains k))).foldl
      (fun s r => rangeReceived p i b.blockId r s) s
    if c.st == 0 && (List.range (packetsOf d)).all (fun k => c.got.contains (k + 1)) then
      let s := modStream p i (fun x => { x with ranges := x.ranges.filter (fun r => r.block != b.uid) }) s
      let s := modBlock p i b.uid (fun b => { b with st := 1 }) s
      let s := if b.j = 0 then modWin p i b.win (fun y => { y with count := encoderCount d c }) s else s
      updateWin p i d b.win s
    else checkBlock p i d b.uid s
  | _, _ => s

/-- Whether packets of a stream reach it: its port is up in the ingest role and it is bound and open. -/
def streamReachable (s : State) (p : Pid) (i : Nat) (d : StreamDecl) (x : Stream) : Bool :=
  let n := portOf s d.port
  domOn s 5 && d.camera && (partOf s p).g.ports.contains d.port && n.role == 1 && n.link == .up
    && n.binds.any (fun b => b.1 == i) && streamOpen x

/-- What every GVSP packet meets first (R373, R377, R383): the block it belongs to.  n is its packet id. -/
def gvspEnter (p : Pid) (i bid n : Nat) (ext ok gone : Bool) (s : State) : State × Option (StreamDecl × Block) :=
  match declOf (partOf s p) i, streamOf (partOf s p) i with
  | some d, some x =>
    if !streamReachable s p i d x then (s, none)
    else
      let s := modPort d.port (fun y => { y with frames := satAdd 64 y.frames 1 }) s
      if ext != d.extId then (cameraViolation p i 4 s, none)
      else if !ok || (!d.extId && (bid == 0 || decide (65535 < bid))) then (cameraViolation p i 3 s, none)
      else
        let known (s : State) : Option Block := (streamOf (partOf s p) i).bind (fun x => x.blocks.findRev? (fun b => b.blockId == bid))
        match known s, gone with
        | some b, true =>
          ((x.ranges.filter (fun r => r.block == b.uid && r.ids.contains n)).foldl (fun s r => loseRange p i d r s) s, none)
        | none, true => (s, none)
        | some b, false => (s, some (d, b))
        | none, false =>
          match placeBlock p i d bid s with
          | (s, false) => (s, none)
          | (s, true) => (s, (known s).map (fun b => (d, b)))
  | _, _ => (s, none)

/-- What a packet of a known block meets next: rejected and complete blocks, packets declared lost, and duplicates
(R383, Table ING-5). -/
def gvspFilter (p : Pid) (i : Nat) (b : Block) (n : Nat) (s : State) : State × Bool :=
  if b.st = 3 then (cameraViolation p i 9 s, false)
  else if b.lost.contains n then (modIng p i (fun c => { c with late := satAdd 64 c.late 1 }) s, false)
  else if b.got.contains n then
    if b.st = 1 && !b.asked.contains n then (cameraViolation p i 9 s, false)
    else (modIng p i (fun c => { c with duplicates := satAdd 64 c.duplicates 1 }) s, false)
  else (s, true)

/-- GVSP_LEADER (R373, R374, R377). -/
def doLeader (p : Pid) (i : Nat) (l : Leader) (s : State) : State :=
  match gvspEnter p i l.blockId 0 l.extId l.wellFormed l.unavailable s with
  | (s, none) => s
  | (s, some (d, b)) =>
    match gvspFilter p i b 0 s with
    | (s, false) => s
    | (s, true) =>
      if l.allIn || !([1, 0x4001].contains l.payloadType) || decide (2 < l.pixelFormat) then rejectBlock p i d b 5 s
      else if l.payloadType != d.payloadType || l.pixelFormat != d.pixFmt || l.sizeX != d.width || l.sizeY != d.blockH
          || l.offPad != 0 then rejectBlock p i d b 6 s
      else acceptPacket p i d b 0 false (leaderTimes p i b l.timestamp s)

/-- Row GVSP_LEADER. -/
def execGvspLeader (p : Pid) (stream : Nat) (l : Leader) (s : State) : Host.Outcome State Fault Refusal :=
  .next (doLeader p stream l s)

/-- GVSP_PAYLOAD (R375, R381). -/
def doPayload (p : Pid) (i : Nat) (k : Payload) (s : State) : State :=
  match gvspEnter p i k.blockId k.packetId k.extId k.wellFormed false s with
  | (s, none) => s
  | (s, some (d, b)) =>
    if b.st != 3 && (k.packetId == 0 || decide (packetsOf d < k.packetId) || k.bytes.length != packetLen d k.packetId) then
      cameraViolation p i 7 s
    else
      match gvspFilter p i b k.packetId s with
      | (s, false) => s
      | (s, true) => acceptPacket p i d b k.packetId true (writePayload p i d b k.packetId k.bytes s)

/-- Row GVSP_PAYLOAD. -/
def execGvspPayload (p : Pid) (stream : Nat) (k : Payload) (s : State) : Host.Outcome State Fault Refusal :=
  .next (doPayload p stream k s)

/-- GVSP_TRAILER (R375). -/
def doTrailer (p : Pid) (i : Nat) (t : Trailer) (s : State) : State :=
  match gvspEnter p i t.blockId t.packetId t.extId true t.unavailable s with
  | (s, none) => s
  | (s, some (d, b)) =>
    if b.st != 3 && t.packetId != packetsOf d + 1 then cameraViolation p i 7 s
    else
      match gvspFilter p i b t.packetId s with
      | (s, false) => s
      | (s, true) => acceptPacket p i d b t.packetId false s

/-- Row GVSP_TRAILER. -/
def execGvspTrailer (p : Pid) (stream : Nat) (t : Trailer) (s : State) : Host.Outcome State Fault Refusal :=
  .next (doTrailer p stream t s)

/-! ## Timers (R381, R382) -/

/-- BLOCK_TIMEOUT: the oldest open block whose tail is not open yet. -/
def doBlockTimeout (p : Pid) (i : Nat) (s : State) : State :=
  match streamOf (partOf s p) i, declOf (partOf s p) i with
  | some x, some d =>
    (match x.blocks.find? (fun b => b.st == 0 && !b.tail) with
      | some b => openTail p i d b.uid s
      | none => s)
  | _, _ => s

/-- Row BLOCK_TIMEOUT. -/
def execBlockTimeout (p : Pid) (stream : Nat) (s : State) : Host.Outcome State Fault Refusal := .next (doBlockTimeout p stream s)

/-- STREAM_TIMEOUT: the stream is stalled, its window in progress is cut short, and the next block restarts the sequence
(R377, R381). -/
def doStreamTimeout (p : Pid) (i : Nat) (s : State) : State :=
  match streamOf (partOf s p) i, declOf (partOf s p) i with
  | some x, some d =>
    if x.codec.st != 1 || !d.camera then s
    else
      let s := modStream p i (fun x => { x with codec := { x.codec with st := 4 }, last := none
                                                wins := x.wins.map (fun w => if w.done then w else { w with cut := true }) }) s
      let s := logEvent p.val 0x0901 (streamUnit i) (x.nextWin - 1) 0 0 s
      (x.wins.filter (fun w => !w.done)).foldl (fun s w => updateWin p i d w.seq s) s
  | _, _ => s

/-- Row STREAM_TIMEOUT. -/
def execStreamTimeout (p : Pid) (stream : Nat) (s : State) : Host.Outcome State Fault Refusal := .next (doStreamTimeout p stream s)

/-- Runs of consecutive ids: first and last. -/
def runsOf : List Nat → List (Nat × Nat)
  | [] => []
  | n :: rest =>
    match runsOf rest with
    | (a, b) :: more => if n + 1 = a then (n, b) :: more else (n, n) :: (a, b) :: more
    | [] => [(n, n)]

/-- Ask the camera for what a range still misses (R382). -/
def requestRange (p : Pid) (i : Nat) (d : StreamDecl) (r : Range) (s : State) : State :=
  match blockAt s p i r.block with
  | none => s
  | some b =>
    let miss := r.ids.filter (fun n => !b.got.contains n)
    let bind := ((portOf s d.port).binds.find? (fun x => x.1 == i)).getD (i, 0, 0, 0)
    let s := (runsOf miss).foldl (fun s k => emit (.gvcpResend d.port bind.2.2.2 bind.2.1 b.blockId k.1 k.2 d.extId) s) s
    let s := modBlock p i r.block (fun b => { b with asked := b.asked ++ miss }) s
    let s := modStream p i (fun x => { x with ranges := modFirst (fun y => y.id == r.id) (fun y => { y with tries := y.tries + 1 }) x.ranges }) s
    modIng p i (fun c => { c with requests := satAdd 64 c.requests (runsOf miss).length }) s

/-- A timer of an open range: it is asked for again while it has tries, otherwise it is lost. -/
def rangeTimer (p : Pid) (i id : Nat) (first : Bool) (s : State) : State :=
  match streamOf (partOf s p) i, declOf (partOf s p) i with
  | some x, some d =>
    (match x.ranges.find? (fun r => r.id == id) with
      | some r =>
        if first then (if r.tries = 0 then requestRange p i d r s else s)
        else if r.tries = 1 then requestRange p i d r s
        else if 2 ≤ r.tries then loseRange p i d r s
        else s
      | none => s)
  | _, _ => s

/-- Row RESEND_DELAY_EXPIRY: the first request of a range. -/
def execResendDelayExpiry (p : Pid) (stream range : Nat) (s : State) : Host.Outcome State Fault Refusal :=
  .next (rangeTimer p stream range true s)

/-- Row RESEND_TIMEOUT: the second request, or the loss of the range. -/
def execResendTimeout (p : Pid) (stream range : Nat) (s : State) : Host.Outcome State Fault Refusal :=
  .next (rangeTimer p stream range false s)

/-! ## PTP (R384) -/

/-- Set device time back by an offset. -/
def shiftTime (off : Int) (s : State) : State := { s with time := (Int.ofNat s.time - off).toNat }

def modPtp (g : PtpSt → PtpSt) (s : State) : State := modUnits (fun u => { u with ptp := g u.ptp }) s

/-- An offset is known: above 1 ms it forces a step and unlocks; 16 in a row below 100 ns lock; a locked clock follows. -/
def ptpOffset (diff : Int) (s : State) : State :=
  let off := diff - s.units.ptp.delay
  let s := modPtp (fun x => { x with offset := off, syncDiff := diff, waiting := none }) s
  if 1000000 < off.natAbs then
    let part := match s.units.ptp.port with
      | some n => portPart s n
      | none => 0xFF
    let v := toTwos 64 (-off)
    let s := logEvent part 0x0903 v (v / 2 ^ 32) 0 0 s
    shiftTime off (modPtp (fun x => { x with locked := false, good := 0 }) s)
  else
    let s := modPtp (fun x =>
      let g := if off.natAbs < 100 then min 16 (x.good + 1) else 0
      { x with good := g, locked := x.locked || decide (16 ≤ g) }) s
    if s.units.ptp.locked then shiftTime off s else s

/-- Whether a port carries the chip's PTP clock and is up. -/
def ptpHere (s : State) (n : Nat) : Bool := domOn s 5 && decide (s.units.ptp.port = some n) && (portOf s n).link == .up

def countFrame (n : Nat) (s : State) : State := modPort n (fun x => { x with frames := satAdd 64 x.frames 1 }) s

/-- PTP_SYNC: a one-step Sync gives the offset, a two-step one waits for its Follow_Up; a Delay_Req goes out. -/
def doPtpSync (n : Nat) (origin rx : Int) (twoStep : Bool) (s : State) : State :=
  if !ptpHere s n then s
  else
    let s := countFrame n s
    let s := if twoStep then modPtp (fun x => { x with waiting := some rx }) s else ptpOffset (rx - origin) s
    emit (.ptpDelayReq n) s

/-- Row PTP_SYNC. -/
def execPtpSync (port : Nat) (originNs rxNs : Int) (twoStep : Bool) (s : State) : Host.Outcome State Fault Refusal :=
  .next (doPtpSync port originNs rxNs twoStep s)

/-- PTP_FOLLOW_UP. -/
def doFollowUp (n : Nat) (origin : Int) (s : State) : State :=
  if !ptpHere s n then s
  else
    match s.units.ptp.waiting with
    | some rx => ptpOffset (rx - origin) (countFrame n s)
    | none => countFrame n s

/-- Row PTP_FOLLOW_UP. -/
def execPtpFollowUp (port : Nat) (originNs : Int) (s : State) : Host.Outcome State Fault Refusal := .next (doFollowUp port originNs s)

/-- PTP_DELAY_RESP: the mean path delay of the default delay mechanism. -/
def doDelayResp (n : Nat) (rx tx : Int) (s : State) : State :=
  if !ptpHere s n then s else modPtp (fun x => { x with delay := (x.syncDiff + (rx - tx)).tdiv 2 }) (countFrame n s)

/-- Row PTP_DELAY_RESP. -/
def execPtpDelayResp (port : Nat) (rxNs txNs : Int) (s : State) : Host.Outcome State Fault Refusal :=
  .next (doDelayResp port rxNs txNs s)

/-- PTP_ANNOUNCE: the better master, by priority and then identity, is kept (log entry 38). -/
def doAnnounce (n master prio : Nat) (s : State) : State :=
  if !ptpHere s n then s
  else
    modPtp (fun x => match x.master with
      | some (m, q) => if prio < q || (prio == q && master < m) then { x with master := some (master, prio), good := 0 } else x
      | none => { x with master := some (master, prio) }) (countFrame n s)

/-- Row PTP_ANNOUNCE. -/
def execPtpAnnounce (port master prio : Nat) (s : State) : Host.Outcome State Fault Refusal := .next (doAnnounce port master prio s)

/-- PTP_SYNC_TIMEOUT: three Sync intervals without one unlock the clock, which runs on. -/
def doSyncTimeout (s : State) : State := modPtp (fun x => { x with locked := false, good := 0, waiting := none }) s

/-- Row PTP_SYNC_TIMEOUT. -/
def execPtpSyncTimeout (s : State) : Host.Outcome State Fault Refusal := .next (doSyncTimeout s)

/-! ## Port commands (R368, R371, R516) -/

/-- A binding of Table CMD-8. -/
def bindingAt (b : List Byte) (k : Nat) : Nat × Nat × Nat × Nat :=
  let o := 16 + 12 * k
  (field b o 1, field b (o + 2) 2, field b (o + 4) 2, field b (o + 8) 4)

def bindingsOf (b : List Byte) : List (Nat × Nat × Nat × Nat) := (List.range (field b 0x0B 1)).map (bindingAt b)

/-- The fields of a port configuration by themselves (Table CMD-8, R371). -/
def portCfgOk (b : List Byte) : Bool :=
  let role := field b 1 1
  let fl := field b 3 1
  let mask := 32 - field b 2 1
  let bs := bindingsOf b
  decide (field b 0 1 < 8) && decide (role ≤ 2) && decide (fl < 8) && zeroAt b 0x0C 4
    && (if bit fl 0 then within 1 4094 (field b 8 2) else field b 8 2 == 0) && decide (field b 0x0A 1 ≤ 127)
    && (role == 0 || within 8 30 (field b 2 1)) && decide (bs.length ≤ 16) && (role == 1 || (bs.isEmpty && !bit fl 1))
    && (List.range bs.length).all (fun k => zeroAt b (17 + 12 * k) 1 && zeroAt b (22 + 12 * k) 2)
    && bs.all (fun x => decide (1024 ≤ x.2.2.1) && x.2.2.2 / 2 ^ mask == field b 4 4 / 2 ^ mask)
    && distinct (bs.map (fun x => x.2.2.1)) && distinct (bs.map (fun x => x.1))

/-- Whether the image assigns every bound stream to the port (R371). -/
def bindsAssigned (body : ImgBody) (n : Nat) (bs : List (Nat × Nat × Nat × Nat)) : Bool :=
  bs.all (fun x => body.streams.any (fun d => d.index == x.1 && d.camera && d.port == n))

/-- A configured port (R368, R371). -/
def portFrom (b : List Byte) (x : Port) : Port :=
  let fl := field b 3 1
  let role := field b 1 1
  { x with role := role, prefix_ := field b 2 1, vlan := if bit fl 0 then some (field b 8 2) else none, ptp := bit fl 1
           ptpUdp := bit fl 2, addr := field b 4 4, ptpDomain := field b 0x0A 1, binds := bindingsOf b
           link := if role = 0 && x.link != .fenced then .down else x.link }

/-- Install a port configuration; the chip's PTP clock follows the port that turns it on (R384). -/
def setPort (b : List Byte) (s : State) : State :=
  let n := field b 0 1
  let s := modPort n (portFrom b) s
  if bit (field b 3 1) 1 then modPtp (fun x => if decide (x.port = some n) then x else { port := some n }) s
  else modPtp (fun x => if decide (x.port = some n) then {} else x) s

/-- INGEST_PORT_CONFIG. -/
def portConfigBody (r : Req) (s : State) : State × Ans :=
  let b := r.payload
  let n := field b 0 1
  let p := r.pid
  if b.length != 16 + 12 * field b 0x0B 1 then (violation r.fn 5 0x0801 s, ansBadLength)
  else if !portCfgOk b then (violation r.fn 8 0x0801 s, ansBad)
  else
    match portHolder s n with
    | none => (s, ansRefused 0x0901)
    | some h =>
      if h ≠ p then (s, ansNotOwner)
      else if !bindsAssigned (bodyOf (partOf s p)) n (bindingsOf b) then (violation r.fn 8 0x0801 s, ansBad)
      else if bit (field b 3 1) 1 && (match s.units.ptp.port with
          | some m => m != n
          | none => false) then (s, ansRefused 0x0902)
      else (grantsChanged p (setPort b s), ansOk)

/-- Row INGEST_PORT_CONFIG. -/
def execIngestPortConfig (r : ReqId) (s : State) : Host.Outcome State Fault Refusal :=
  .next (runCmd r 0x0801 (fun _ => true) (fun _ _ => true) (answering portConfigBody) s)

/-- A stream record of INGEST_STATUS. -/
def ingestRecord (q : Part) (i : Nat) : List Byte :=
  match streamOf q i with
  | none => toLe 1 i ++ zeros 87
  | some x =>
    let c := x.cnt
    toLe 1 i ++ toLe 1 (if x.codec.st = 1 then 1 else if x.codec.st = 4 then 2 else 0) ++ zeros 2 ++ toLe 4 x.nextWin
      ++ [c.blocks, c.packets, c.requests, c.recovered, c.recoveredRetry, c.lost, c.duplicates, c.late, c.violations,
          c.misaligned].flatMap (toLe 8)

/-- The code of a link state (Table CMD-4). -/
def linkCode : LinkSt → Nat
  | .down => 0 | .up => 1 | .fenced => 2

/-- INGEST_STATUS (R516). -/
def ingestStatusBody (r : Req) (s : State) : Ans :=
  let n := field r.payload 0 1
  let x := portOf s n
  match portHolder s n with
  | none => ansRefused 0x0901
  | some h =>
    if h ≠ r.pid then ansNotOwner
    else
      let is := (x.binds.map (fun b => b.1)).foldl (fun a i => insSorted i a) []
      let ptp := if decide (s.units.ptp.port = some n) then (if s.units.ptp.locked then 2 else 1) else 0
      let off := if decide (s.units.ptp.port = some n) then toTwos 32 s.units.ptp.offset else 0
      ansOk (toLe 1 (linkCode x.link) ++ toLe 1 x.role ++ toLe 1 ptp ++ toLe 1 is.length ++ toLe 4 off
        ++ [x.frames, x.dropped, x.violations, x.pauses].flatMap (toLe 8)
        ++ is.flatMap (ingestRecord (partOf s r.pid)))

/-- Row INGEST_STATUS. -/
def execIngestStatus (r : ReqId) (s : State) : Host.Outcome State Fault Refusal :=
  .next (runCmd r 0x0802 (fun _ => true) (fun _ r => decide (field r.payload 0 1 < 8) && zeroAt r.payload 1 3)
    (reading ingestStatusBody) s)

/-! ## Stream commands (R294, R510) -/

/-- The stream index names a declared stream (R510). -/
def streamFields (s : State) (r : Req) : Bool := (declOf (partOf s r.pid) (field r.payload 0 1)).isSome && zeroAt r.payload 1 3

/-- STREAM_OPEN: the standing reservation of a camera stream is taken first (R491). -/
def streamOpenBody (r : Req) (s : State) : State × Ans :=
  let p := r.pid
  let i := field r.payload 0 1
  match declOf (partOf s p) i, streamOf (partOf s p) i with
  | some d, some x =>
    let ans (s : State) : Ans := match streamOf (partOf s p) i with
      | some x => ansOk (toLe 4 x.w0 ++ zeros 4)
      | none => ansBad
    if streamOpen x then (s, ans s)
    else
      match reserveNow p (standingFor (partOf s p) x) s with
      | none => (s, { status := stNoBuffer, reason := 0x010B, retry := 10 })
      | some s =>
        let s := modStream p i (openStream (nth d.standing d.windowClass)) s
        (s, ans s)
  | _, _ => (s, ansBad)

/-- Row STREAM_OPEN. -/
def execStreamOpen (r : ReqId) (s : State) : Host.Outcome State Fault Refusal :=
  .next (runCmd r 0x0401 (fun _ => true) streamFields (answering streamOpenBody) s)

/-- STREAM_CLOSE: at once when no picture is in work, otherwise at the next picture boundary (R294). -/
def streamCloseBody (r : Req) (s : State) : State × Ans :=
  let p := r.pid
  let i := field r.payload 0 1
  match streamOf (partOf s p) i with
  | some x =>
    if !streamOpen x then (s, ansOk)
    else if x.wins.any (fun w => !w.done || (!w.encoded && !w.uncoded)) then
      (modCodec p i (fun k => { k with closing := true }) s, ansOk)
    else (closeStream p i s, ansOk)
  | none => (s, ansBad)

/-- Row STREAM_CLOSE. -/
def execStreamClose (r : ReqId) (s : State) : Host.Outcome State Fault Refusal :=
  .next (runCmd r 0x0402 (fun _ => true) streamFields (answering streamCloseBody) s)

/-- STREAM_STATUS: the 88 bytes of R510. -/
def streamStatusBody (r : Req) (s : State) : Ans :=
  let q := partOf s r.pid
  let i := field r.payload 0 1
  match declOf q i, streamOf q i with
  | some d, some x =>
    let k := x.codec
    ansOk (toLe 1 k.st ++ toLe 1 (!d.encode).toNat ++ zeros 2 ++ toLe 4 x.nextWin
      ++ [k.pictures, k.slices, k.bits, k.overruns, k.transient, k.intraOnly].flatMap (toLe 8) ++ toLe 8 (toTwos 64 k.qpSum)
      ++ toLe 1 k.errCode ++ zeros 3 ++ toLe 4 k.errCtu ++ toLe 8 k.errOff ++ toLe 8 k.errId)
  | _, _ => ansBad

/-- Row STREAM_STATUS. -/
def execStreamStatus (r : ReqId) (s : State) : Host.Outcome State Fault Refusal :=
  .next (runCmd r 0x0403 (fun _ => true) streamFields (reading streamStatusBody) s)

end Sys2Proof.Machine
end

