-- ==== Sys2Proof/Machine/Deliver.lean ====
section
/-!
DEFINITION. Batch delivery to trainers: BDP sessions, slots, credits and sequences, messages, acknowledgement, close and
reopen, peer-to-peer delivery, and the answer to trainer violations (R391 to R414, R517, R518, Tables DLV-2 to DLV-4).
-/
namespace Sys2Proof.Machine

/-! ## Targets -/

def targetOf (q : Part) (t : Nat) : Option Target := q.targets.find? (fun x => x.id == t)

def modTarget (p : Pid) (t : Nat) (g : Target → Target) (s : State) : State :=
  modPart p (fun q => { q with targets := modFirst (fun x => x.id == t) g q.targets }) s

/-- Whether a target has an open session: OPENING or OPEN (R397). -/
def Target.live (x : Target) : Bool := x.st == 1 || x.st == 2

/-- The unit of a target in records (Table ERR-9). -/
def targetUnit (x : Target) : Nat := unitId 0x0C (x.par.port * 256 + x.id)

/-- Whether sequence a lies ahead of b modulo 2^64. -/
def seqAhead (a b : Nat) : Bool :=
  let d := cyc (2 ^ 64) b a
  d != 0 && decide (d < 2 ^ 63)

/-- The sequence before one. -/
def seqPred (n : Nat) : Nat := (n + 2 ^ 64 - 1) % 2 ^ 64

/-- The last sequence sent. -/
def lastSent (x : Target) : Nat := seqPred x.nextSeq

/-- The first sequence that is not acknowledged, or the next one. -/
def firstUnacked (x : Target) : Nat := match x.sent with
  | a :: _ => a.seq
  | [] => x.nextSeq

/-- Free credits (R399); only an OPEN session provides any (R396). -/
def creditsFree (x : Target) : Nat :=
  if x.st = 2 then x.par.slots - cyc (2 ^ 64) x.released (lastSent x) - x.reserved else 0

/-- The targets of the batches of a step, by batch index (R394, Table SCH-4). -/
def stepTargets (q : Part) : List Nat :=
  match (bodyOf q).stages.find? (fun x => x.kind == 0x10) with
  | some d => (List.range (hdrOf q).batchesPerStep).map (fun b => nth d.targets b)
  | none => []

/-- Batches per step that the image maps to a target. -/
def batchesTo (q : Part) (t : Nat) : Nat := ((stepTargets q).filter (fun x => x == t)).length

/-- A trainer violation of Table DLV-4 by its row (R413). -/
def trainerViolation (p : Pid) (x : Target) (row detail : Nat) (s : State) : State :=
  let s := modTarget p x.id (fun x => { x with cnViol := satAdd 64 x.cnViol 1 }) s
  partnerViolation (.session p x.id) p.val (targetUnit x) 2 row detail s

/-- A transient fault of a session. -/
def bdpTransient (p : Pid) (x : Target) (fault seq : Nat) (s : State) : State :=
  transientFault p.val (targetUnit x) fault seq
    (modTarget p x.id (fun x => { x with cnTransient := satAdd 64 x.cnTransient 1 }) s)

/-! ## Messages (Table DLV-2) -/

def bdpHeader (type target flags : Nat) : List Byte := toLe 1 type ++ toLe 1 1 ++ toLe 1 target ++ toLe 1 flags ++ zeros 4

/-- HELLO. -/
def helloMsg (q : Part) (x : Target) : List Byte :=
  bdpHeader 0x01 x.id 0 ++ toLe 8 (firstUnacked x) ++ toLe 2 x.par.slots ++ zeros 2 ++ toLe 4 x.par.dataSize
    ++ toLe 4 x.par.indexSize ++ toLe 4 x.par.creditMs ++ zeros 16 ++ padTo 16 (hdrOf q).hash

/-- BATCH_READY without RESENT. -/
def readyMsg (q : Part) (st : OpenStep) (t : Nat) (b : Batch) (seq : Nat) : List Byte :=
  bdpHeader 0x02 t (2 * st.nonRec.toNat + 4 * (st.packMode == 1).toNat) ++ toLe 8 seq ++ toLe 8 (packCursor st.first)
    ++ toLe 1 b.idx ++ toLe 1 (bodyOf q).tokensMode.toNat ++ toLe 2 (bodyOf q).dim ++ toLe 4 b.data.length
    ++ toLe 4 b.index.length ++ toLe 4 b.tokens ++ toLe 4 (crc32c b.data) ++ toLe 4 (crc32c b.index)
    ++ toLe 2 b.samples.length ++ zeros 14

/-- A BATCH_READY with RESENT set. -/
def asResent (m : List Byte) : List Byte := m.take 3 ++ toLe 1 (field m 3 1 ||| 1) ++ m.drop 4

/-- CLOSE. -/
def closeMsg (x : Target) (cause : Nat) : List Byte :=
  bdpHeader 0x03 x.id 0 ++ toLe 8 (lastSent x) ++ toLe 2 cause ++ zeros 46

/-! ## Sending -/

/-- Whether a session's transport can carry anything now: its port's link, or its function's requests. -/
def canSend (s : State) (x : Target) : Bool :=
  if x.par.p2p then domOn s 1 && canDma s (if h : x.par.reqFn < 65 then ⟨x.par.reqFn, h⟩ else 0)
  else domOn s 5 && (portOf s x.par.port).link == .up

/-- A write of a session: RDMA WRITE, or posted writes under the requester ID fixed at open (R401, R411). -/
def sessWrite (p : Pid) (x : Target) (addr : Nat) (bs : List Byte) (s : State) : State :=
  if bs.isEmpty then s
  else if x.par.p2p then
    let f : Fn := if h : x.par.reqFn < 65 then ⟨x.par.reqFn, h⟩ else 0
    issueDma f (.p2pWrite p x.id) (addr % 2 ^ 64) bs bs.length
      (modCnt f (fun k => { k with p2p := satAdd 64 k.p2p bs.length }) s)
  else emit (.rdmaWrite p x.id (addr % 2 ^ 64) bs) s

/-- The SEND of a BATCH_READY; a P2P session writes it into its descriptor ring and then writes its notify value (R411).
-/
def sessReady (p : Pid) (x : Target) (seq : Nat) (m : List Byte) (s : State) : State :=
  if x.par.p2p then
    let s := sessWrite p x (x.par.descRing + 64 * (seq % max 1 x.par.slots)) m s
    if x.par.notifyAddr = 0 then s else sessWrite p x x.par.notifyAddr (toLe 4 x.par.notifyVal) s
  else emit (.bdp p x.id m) s

/-- The three parts of a batch in the order of R401. -/
def sessBatch (p : Pid) (x : Target) (b : Sent) (m : List Byte) (s : State) : State :=
  let k := b.seq % max 1 x.par.slots
  let s := sessWrite p x (x.par.dataRing + k * x.par.dataSize) b.data s
  let s := sessWrite p x (x.par.indexRing + k * x.par.indexSize) b.index s
  let s := modTarget p x.id (fun x => { x with cnBytes := satAdd 64 x.cnBytes (b.data.length + b.index.length) }) s
  sessReady p x b.seq m s

/-- R399: a slot is written only up to released_through + slot count. -/
def slotFree (x : Target) (seq : Nat) : Bool := decide (cyc (2 ^ 64) x.released seq ≤ x.par.slots)

/-- Change a batch in flight. -/
def modSent (p : Pid) (t seq : Nat) (g : Sent → Sent) (s : State) : State :=
  modTarget p t (fun x => { x with sent := modFirst (fun b => b.seq == seq) g x.sent }) s

/-- Whether the DELIVER entry of a step has been issued (R400). -/
def delivering (q : Part) (slot : Nat) : Bool :=
  q.sc.entries.any (fun e => e.slot == slot && (stageAt q e.stage).kind == 0x10 && e.st == .issued)

/-- The next new batch of a target: of the oldest delivering step, the lowest batch index without a sequence (R400). -/
def nextBatch (q : Part) (t : Nat) : Option (OpenStep × Batch) :=
  (q.sc.steps.filter (fun st => delivering q st.slot)).findSome? (fun st =>
    (st.batches.find? (fun b => b.target == t && b.seq.isNone)).map (fun b => (st, b)))

def modBatch (p : Pid) (slot idx : Nat) (g : Batch → Batch) (s : State) : State :=
  modStep p slot (fun st => { st with batches := modFirst (fun b => b.idx == idx) g st.batches }) s

/-- Send what a session has ready, n things at most: HELLO, batches to send again in sequence order, then new batches,
each of which turns a reserved credit into a sent batch (R396, R399, R401, R410). -/
def pumpTarget (p : Pid) (t : Nat) : Nat → State → State
  | 0, s => s
  | n + 1, s =>
    let q := partOf s p
    match targetOf q t with
    | none => s
    | some x =>
      if !x.live || q.st = .fenced || q.st = .tearingDown || !canSend s x then s
      else if x.st = 1 then
        if x.helloSent then s
        else emit (.bdp p t (helloMsg q x)) (modTarget p t (fun x => { x with helloSent := true }) s)
      else
        match x.sent.find? (fun b => !b.timer) with
        | some b =>
          if !slotFree x b.seq then s
          else
            let s := sessBatch p x b (asResent b.msg) (modSent p t b.seq (fun b => { b with timer := true }) s)
            pumpTarget p t n (modTarget p t (fun x => { x with cnResends := satAdd 64 x.cnResends 1 }) s)
        | none =>
          match nextBatch q t with
          | none => s
          | some (st, b) =>
            if !slotFree x x.nextSeq then s
            else
              let k : Sent := { seq := x.nextSeq, slot := st.slot, batch := b.idx, first := st.first, data := b.data, index := b.index
                                msg := readyMsg q st t b x.nextSeq }
              let s := modBatch p st.slot b.idx (fun b => { b with seq := some k.seq }) s
              let s := modTarget p t (fun x => { x with
                nextSeq := (x.nextSeq + 1) % 2 ^ 64
                reserved := x.reserved - 1
                sent := x.sent ++ [k]
                cnBatches := satAdd 64 x.cnBatches 1 }) s
              pumpTarget p t n (sessBatch p x k k.msg s)

/-- Everything that a target can send now. -/
def pump (p : Pid) (t : Nat) (s : State) : State := pumpTarget p t 1024 s

/-- Every target of a partition. -/
def pumpAll (p : Pid) (s : State) : State := (partOf s p).targets.foldl (fun s x => pump p x.id s) s

/-! ## Close (R409) -/

/-- Close a session: CLOSE goes out unless the queue pair is in error or the trainer closed, and the close is logged; the
batches that are not acknowledged stay. -/
def closeSession (p : Pid) (t cause : Nat) (notice : Bool) (s : State) : State :=
  match targetOf (partOf s p) t with
  | none => s
  | some x =>
    if !x.live then s
    else
      let s := if notice && !x.par.p2p && canSend s x then emit (.bdp p t (closeMsg x cause)) s else s
      let s := killDma (fun d => decide (d.kind = .p2pWrite p t)) s
      let s := modTarget p t (fun x => { x with
        st := 3, cause := cause, closedAt := s.time, sent := x.sent.map (fun b => { b with timer := false }) }) s
      logEvent p.val 0x0904 (targetUnit x) cause (firstUnacked x) 0 s

/-! ## Acknowledgement -/

/-- Once every batch of a step is acknowledged, the buffers that its port still owns are released (R405, log entry 42). -/
def releaseSent (p : Pid) (slot : Nat) (s : State) : State :=
  match stepIn (partOf s p) slot with
  | some st =>
    if st.batches.all (fun b => b.acked) then
      releaseWhere (fun d => d.part == p.val && d.for_ == some (slot, none) && d.owner.kind == 4 && d.st == 1) s
    else s
  | none => s

/-- One batch is acknowledged; a resend or rewrite that it needed was a transient fault (R405 to R407). -/
def ackBatch (p : Pid) (t : Nat) (b : Sent) (s : State) : State :=
  let s := modBatch p b.slot b.batch (fun k => { k with acked := true }) s
  let s := match targetOf (partOf s p) t with
    | some x => if b.naked then bdpTransient p x 0x0003 b.seq s else if b.resent then bdpTransient p x 0x0001 b.seq s else s
    | none => s
  releaseSent p b.slot s

/-- acked_through and released_through as a trainer reports them (R398, R405, Table DLV-4). -/
def applySeqs (p : Pid) (t a r : Nat) (s : State) : State :=
  match targetOf (partOf s p) t with
  | none => s
  | some x =>
    let badA := a != x.acked && (!seqAhead a x.acked || seqAhead a (lastSent x))
    let acked := if badA then x.acked else a
    let badR := r != x.released && !seqAhead r x.released
    let high := !badR && seqAhead r acked
    let released := if badR then x.released else if high then acked else r
    let s := if badA then trainerViolation p x 3 1 s else s
    let s := if badR then trainerViolation p x 3 2 s else s
    let s := if high then trainerViolation p x 4 0 s else s
    let done := x.sent.filter (fun b => !seqAhead b.seq acked)
    let s := modTarget p t (fun x => { x with acked := acked, released := released
                                              sent := x.sent.filter (fun b => seqAhead b.seq acked) }) s
    done.foldl (fun s b => ackBatch p t b s) s

/-- An UPDATE: it opens an OPENING session (R396), applies both sequences, and lets what waits for credit go. -/
def applyUpdate (p : Pid) (t a r : Nat) (s : State) : State :=
  match targetOf (partOf s p) t with
  | none => s
  | some x =>
    let s := applySeqs p t a r s
    let s := if x.st = 1 then
        let s := modTarget p t (fun x => { x with st := 2 }) s
        if x.helloResent then bdpTransient p x 0x0001 (firstUnacked x) s else s
      else s
    pump p t s

/-- A NAK_BATCH: the one rewrite of a batch, or a lasting delivery fault that closes the session (R407). -/
def applyNak (p : Pid) (t seq : Nat) (s : State) : State :=
  match targetOf (partOf s p) t with
  | none => s
  | some x =>
    match x.sent.find? (fun b => b.seq == seq && b.timer) with
    | none => trainerViolation p x 5 0 s
    | some b =>
      if b.naked then closeSession p t 7 true (lastingFault p.val (targetUnit x) 0x0003 1 seq s)
      else pump p t (modSent p t seq (fun b => { b with naked := true, resent := false, timer := false }) s)

/-- The layout of a trainer's message that is right but for its target: length, type, version and zero bytes. -/
def trainerMsgOk (m : List Byte) : Bool :=
  m.length == 64 && field m 1 1 == 1 && zeroAt m 3 5
    && (match field m 0 1 with
        | 0x81 => zeroAt m 0x18 40
        | 0x82 => zeroAt m 0x11 47
        | 0x03 => zeroAt m 0x12 46
        | _ => false)

/-- A trainer's SEND on a session (R413, Table DLV-4): the device keeps 16 receives posted at each instant.  A message
after a close by ACK_TIMEOUT at the same instant is a late discard (R414). -/
def trainerSend (p : Pid) (t : Nat) (m : List Byte) (s : State) : State :=
  match targetOf (partOf s p) t with
  | none => s
  | some x =>
    if !domOn s 5 || x.par.p2p then s
    else if !x.live then
      if x.cause = 4 && x.closedAt = s.time then lateDiscard p.val (targetUnit x) 7 (firstUnacked x) s
      else trainerViolation p x 9 0 s
    else
      let left := if x.rqTime = s.time then x.rqLeft else 16
      if left = 0 then emit (.rnrNak p t) (trainerViolation p x 6 0 s)
      else
        let s := modTarget p t (fun x => { x with rqLeft := left - 1, rqTime := s.time }) s
        if !trainerMsgOk m then trainerViolation p x 1 (field m 0 1) s
        else if field m 2 1 != t then trainerViolation p x 2 (field m 2 1) s
        else if field m 0 1 = 0x81 then applyUpdate p t (field m 8 8) (field m 0x10 8) s
        else if field m 0 1 = 0x82 then applyNak p t (field m 8 8) s
        else
          let c := field m 0x10 2
          closeSession p t (if within 1 7 c then c else 1) false s

/-- BDP_UPDATE: the message's own type byte says what it is. -/
def doBdpUpdate (p : Pid) (t : Nat) (m : List Byte) (s : State) : State := trainerSend p t m s

/-- Row BDP_UPDATE. -/
def execBdpUpdate (p : Pid) (target : Nat) (msg : List Byte) (s : State) : Host.Outcome State Fault Refusal :=
  .next (doBdpUpdate p target msg s)

/-- BDP_NAK_BATCH. -/
def doBdpNak (p : Pid) (t : Nat) (m : List Byte) (s : State) : State := trainerSend p t m s

/-- Row BDP_NAK_BATCH. -/
def execBdpNakBatch (p : Pid) (target : Nat) (msg : List Byte) (s : State) : Host.Outcome State Fault Refusal :=
  .next (doBdpNak p target msg s)

/-- BDP_CLOSE_RECEIVED. -/
def doBdpClose (p : Pid) (t : Nat) (m : List Byte) (s : State) : State := trainerSend p t m s

/-- Row BDP_CLOSE_RECEIVED. -/
def execBdpCloseReceived (p : Pid) (target : Nat) (msg : List Byte) (s : State) : Host.Outcome State Fault Refusal :=
  .next (doBdpClose p target msg s)

/-! ## Timers -/

/-- Whether a session's timers run: a fenced partition's sessions send nothing further (R478). -/
def timersRun (q : Part) (x : Target) : Bool := x.live && q.st != .fenced && q.st != .tearingDown

/-- BDP_ACK_TIMER_EXPIRY: of HELLO (none) or of a batch; one resend, then the session closes (R406). -/
def doAckTimer (p : Pid) (t : Nat) (seq : Option Nat) (s : State) : State :=
  let q := partOf s p
  let again (s : State) : State := modTarget p t (fun x => { x with cnResends := satAdd 64 x.cnResends 1 }) s
  match targetOf q t with
  | none => s
  | some x =>
    if !timersRun q x then s
    else match seq with
      | none =>
        if x.st != 1 || !x.helloSent then s
        else if x.helloResent then closeSession p t 4 true s
        else
          let s := modTarget p t (fun x => { x with helloResent := true }) (again s)
          if canSend s x then emit (.bdp p t (helloMsg q x)) s else s
      | some n =>
        match x.sent.find? (fun b => b.seq == n && b.timer) with
        | none => s
        | some b =>
          if b.resent then closeSession p t 4 true s
          else
            let s := modSent p t n (fun b => { b with resent := true }) (again s)
            if canSend s x then sessReady p x n (asResent b.msg) s else s

/-- Row BDP_ACK_TIMER_EXPIRY. -/
def execBdpAckTimerExpiry (p : Pid) (target : Nat) (seq : Option Nat) (s : State) : Host.Outcome State Fault Refusal :=
  .next (doAckTimer p target seq s)

/-- Whether admission waits on a session for credits (R240, R408). -/
def awaited (q : Part) (x : Target) : Bool := q.sc.wait == .credit && decide (creditsFree x < batchesTo q x.id)

/-- CREDIT_TIMER_EXPIRY (R408). -/
def doCreditTimer (p : Pid) (t : Nat) (s : State) : State :=
  let q := partOf s p
  match targetOf q t with
  | some x => if timersRun q x && x.par.creditMs != 0 && awaited q x then closeSession p t 3 true s else s
  | none => s

/-- Row CREDIT_TIMER_EXPIRY. -/
def execCreditTimerExpiry (p : Pid) (target : Nat) (s : State) : Host.Outcome State Fault Refusal :=
  .next (doCreditTimer p target s)

/-! ## The RC transport (R392, R393) -/

/-- Act on a live RoCEv2 session. -/
def onRc (p : Pid) (t : Nat) (g : Target → State → State) (s : State) : State :=
  match targetOf (partOf s p) t with
  | some x => if x.live && !x.par.p2p && domOn s 5 then g x s else s
  | none => s

/-- RC_ACK_TIMEOUT: retry count 1; the second puts the queue pair in error. -/
def doRcTimeout (p : Pid) (t : Nat) (s : State) : State :=
  onRc p t (fun x s => if x.rcTried then closeSession p t 5 false s else modTarget p t (fun x => { x with rcTried := true }) s) s

/-- Row RC_ACK_TIMEOUT. -/
def execRcAckTimeout (p : Pid) (target : Nat) (s : State) : Host.Outcome State Fault Refusal := .next (doRcTimeout p target s)

/-- RNR_NAK_RECEIVED: RNR retry count 1. -/
def doRnrNak (p : Pid) (t : Nat) (s : State) : State :=
  onRc p t (fun x s => if x.rnrTried then closeSession p t 5 false s else modTarget p t (fun x => { x with rnrTried := true }) s) s

/-- Row RNR_NAK_RECEIVED. -/
def execRnrNakReceived (p : Pid) (target : Nat) (s : State) : Host.Outcome State Fault Refusal := .next (doRnrNak p target s)

/-- RC_TRANSPORT_ACK: the message was delivered; a retry that it needed was a transient fault (R467). -/
def doRcAck (p : Pid) (t : Nat) (s : State) : State :=
  onRc p t (fun x s =>
    let s := modTarget p t (fun x => { x with rcTried := false, rnrTried := false }) s
    if x.rcTried || x.rnrTried then bdpTransient p x 0x0001 (firstUnacked x) s else s) s

/-- Row RC_TRANSPORT_ACK. -/
def execRcTransportAck (p : Pid) (target : Nat) (s : State) : Host.Outcome State Fault Refusal := .next (doRcAck p target s)

/-- CNP_RECEIVED: the send rate is halved, to no lower than 1 Gb/s. -/
def doCnp (p : Pid) (t : Nat) (s : State) : State :=
  onRc p t (fun _ s => modTarget p t (fun x => { x with rate := max (x.rate / 2) 1000000000, cnCnp := satAdd 64 x.cnCnp 1 }) s) s

/-- Row CNP_RECEIVED. -/
def execCnpReceived (p : Pid) (target : Nat) (s : State) : Host.Outcome State Fault Refusal := .next (doCnp p target s)

/-- RATE_INCREASE_TICK: 10 Gb/s more, up to the line rate. -/
def doRateTick (p : Pid) (t : Nat) (s : State) : State :=
  onRc p t (fun _ s => modTarget p t (fun x => { x with rate := min (x.rate + 10000000000) 200000000000 }) s) s

/-- Row RATE_INCREASE_TICK. -/
def execRateIncreaseTick (p : Pid) (target : Nat) (s : State) : Host.Outcome State Fault Refusal := .next (doRateTick p target s)

/-- REMOTE_ACCESS_ERROR_NAK: the session closes without retry, its queue pair in error (Table DLV-4). -/
def doRemoteAccess (p : Pid) (t : Nat) (s : State) : State :=
  onRc p t (fun x s => closeSession p t 6 false (trainerViolation p x 8 0 s)) s

/-- Row REMOTE_ACCESS_ERROR_NAK. -/
def execRemoteAccessErrorNak (p : Pid) (target : Nat) (s : State) : Host.Outcome State Fault Refusal :=
  .next (doRemoteAccess p target s)

/-- RDMA_REQUEST_TO_DEVICE: answered with a remote access error NAK; the session closes (Table DLV-4). -/
def doRdmaToDevice (p : Pid) (t : Nat) (s : State) : State :=
  onRc p t (fun x s => closeSession p t 6 true (emit (.accessNak p t) (trainerViolation p x 7 0 s))) s

/-- Row RDMA_REQUEST_TO_DEVICE. -/
def execRdmaRequestToDevice (p : Pid) (target : Nat) (s : State) : Host.Outcome State Fault Refusal :=
  .next (doRdmaToDevice p target s)

/-! ## Peer-to-peer (R411, R412) -/

/-- A read or write that failed twice: logged and the session closed (R412, R467). -/
def p2pFailed (p : Pid) (x : Target) (s : State) : State :=
  closeSession p x.id 5 false (lastingFault p.val (targetUnit x) 0x000B 1 (firstUnacked x) s)

/-- The status record as the device acts on it: the sequences first, then each increase of nak_count (R412, R414). -/
def applyStatus (p : Pid) (x : Target) (b : List Byte) (s : State) : State :=
  let n := field b 0x1C 4
  let s := applySeqs p x.id (field b 0 8) (field b 8 8) s
  let s := if n = x.nakCount then s
           else applyNak p x.id (field b 0x10 8) (modTarget p x.id (fun x => { x with nakCount := n }) s)
  pump p x.id s

/-- P2P_STATUS_POLL: the read of the record with its outcome. -/
def doP2pPoll (p : Pid) (t : Nat) (r : DmaResult) (s : State) : State :=
  let q := partOf s p
  match targetOf q t with
  | none => s
  | some x =>
    if !timersRun q x || !x.par.p2p || !canSend s x then s
    else match r with
      | .error => if x.pollTried then p2pFailed p x s else modTarget p t (fun x => { x with pollTried := true }) s
      | .ok b =>
        let s := if x.pollTried then bdpTransient p x 0x000B (firstUnacked x) (modTarget p t (fun x => { x with pollTried := false }) s)
                 else s
        applyStatus p x b s

/-- Row P2P_STATUS_POLL. -/
def execP2pStatusPoll (p : Pid) (target : Nat) (rec_ : DmaResult) (s : State) : Host.Outcome State Fault Refusal :=
  .next (doP2pPoll p target rec_ s)

/-! ## Commands (R395, R410, R517, R518) -/

/-- The fields of DELIVERY_OPEN by themselves (Table CMD-9, R395). -/
def openFieldsOk (b : List Byte) : Bool :=
  let x := parOf b
  decide (field b 0 1 < 64) && decide (field b 1 1 ≤ 1) && decide (x.dscp < 64) && decide (x.pcp < 8) && within 1 256 x.slots
    && x.dataSize % 64 == 0 && x.indexSize % 64 == 0 && (x.creditMs == 0 || within 10 600000 x.creditMs)
    && decide (x.qpn < 2 ^ 24) && decide (x.psn < 2 ^ 24) && zeroAt b 0x54 4
    && (if x.p2p then zeroAt b 2 4 && zeroAt b 8 12 && zeroAt b 0x28 8 && x.descRing % 64 == 0 && x.statusRec % 64 == 0
        else decide (x.port < 8) && within 1 3 x.mtu && zeroAt b 0x38 28)

/-- The image's needs of a target (R395): slots for a step's batches, and slots that hold the largest batch. -/
def slotsFit (q : Part) (t : Nat) (x : SessPar) : Bool :=
  match (bodyOf q).stages.find? (fun d => d.kind == 0x10) with
  | some d => decide (batchesTo q t ≤ x.slots) && decide (d.maxData ≤ x.dataSize) && decide (d.maxIndex ≤ x.indexSize)
  | none => true

/-- Whether the trainer's address lies on the port's subnet. -/
def onSubnet (x : Port) (addr : Nat) : Bool := addr / 2 ^ (32 - x.prefix_) == x.addr / 2 ^ (32 - x.prefix_)

/-- The function whose requester ID a P2P session carries (R411). -/
def requesterOf (s : State) (p : Pid) : Nat := if fnExists s (fnOfPart p) then p.val + 1 else 0

/-- Open a session on a target; a CLOSED target goes on with its sequences, and both of the trainer's start one before the
first that is not acknowledged (R398, R410). -/
def openTarget (p : Pid) (b : List Byte) (s : State) : State × Ans :=
  let t := field b 0 1
  let par := { parOf b with reqFn := requesterOf s p }
  match fresh s with
  | (v, s) => match fresh s with
    | (w, s) =>
      let qpn := if par.p2p then 0 else v % 2 ^ 24
      let psn := if par.p2p then 0 else w % 2 ^ 24
      let n := field b 0x58 8
      let old := (targetOf (partOf s p) t).getD { id := t, nextSeq := n, acked := seqPred n, released := seqPred n }
      let x : Target := { old with
        st := if par.p2p then 2 else 1, cause := 0, par := par, devQpn := BitVec.ofNat 32 qpn, devPsn := BitVec.ofNat 32 psn
        sent := old.sent.map (fun k => { k with resent := false, naked := false, timer := false })
        acked := seqPred (firstUnacked old), released := seqPred (firstUnacked old)
        rate := 200000000000, helloSent := false, helloResent := false, rcTried := false, rnrTried := false
        rqLeft := 16, rqTime := 0, nakCount := 0, pollTried := false }
      let s := modPart p (fun q => { q with targets := q.targets.filter (fun y => decide (y.id < t)) ++ [x]
                                                ++ q.targets.filter (fun y => decide (t < y.id)) }) s
      (pump p t s, ansOk (toLe 4 qpn ++ toLe 4 psn ++ toLe 8 (firstUnacked x)))

/-- DELIVERY_OPEN: the answers in the order of R395. -/
def deliveryOpenBody (r : Req) (s : State) : State × Ans :=
  let b := r.payload
  let p := r.pid
  let q := partOf s p
  let par := parOf b
  let holder := portHolder s par.port
  if !par.p2p && (match holder with | some h => decide (h ≠ p) | none => false) then (s, ansNotOwner)
  else if !par.p2p && holder.isNone then (s, ansRefused 0x0901)
  else if !par.p2p && (portOf s par.port).role != 2 then (s, ansRefused 0x0902)
  else if (match targetOf q (field b 0 1) with | some x => x.live | none => false) then (s, ansBusy 0 1000)
  else if (!par.p2p && !onSubnet (portOf s par.port) par.addr) || !slotsFit q (field b 0 1) par then
    (violation r.fn 8 0x0901 s, ansBad)
  else openTarget p b s

/-- Row DELIVERY_OPEN. -/
def execDeliveryOpen (r : ReqId) (s : State) : Host.Outcome State Fault Refusal :=
  .next (runCmd r 0x0901 (fun _ => true) (fun _ r => openFieldsOk r.payload) (answering deliveryOpenBody) s)

/-- DELIVERY_CLOSE (R517): a target without a session is BAD_FIELD. -/
def deliveryCloseBody (r : Req) (s : State) : State × Ans :=
  (closeSession r.pid (field r.payload 0 1) 1 true s, ansOk)

/-- Row DELIVERY_CLOSE. -/
def execDeliveryClose (r : ReqId) (s : State) : Host.Outcome State Fault Refusal :=
  .next (runCmd r 0x0902 (fun _ => true)
    (fun s r => zeroAt r.payload 1 3 && (match targetOf (partOf s r.pid) (field r.payload 0 1) with
      | some x => x.live
      | none => false)) (answering deliveryCloseBody) s)

/-- A record of DELIVERY_STATUS (R518). -/
def targetRecord (q : Part) (t : Nat) : List Byte :=
  match targetOf q t with
  | none => zeros 88
  | some x =>
    toLe 1 x.st ++ toLe 1 x.cause ++ toLe 1 x.par.p2p.toNat ++ toLe 1 x.par.port
      ++ toLe 4 (if x.live && !x.par.p2p then x.rate / 1000000000 else 0) ++ toLe 8 x.nextSeq ++ toLe 8 x.acked ++ toLe 8 x.released
      ++ toLe 2 (creditsFree x) ++ toLe 2 x.reserved ++ zeros 4
      ++ [x.cnBatches, x.cnBytes, x.cnResends, x.cnCnp, x.cnTransient, x.cnViol].flatMap (toLe 8)

/-- DELIVERY_STATUS. -/
def deliveryStatusBody (r : Req) (s : State) : Ans :=
  let q := partOf s r.pid
  let n := field r.payload 1 1
  ansOk (toLe 2 n ++ zeros 6 ++ (List.range n).flatMap (fun i => targetRecord q (field r.payload 0 1 + i)))

/-- Row DELIVERY_STATUS. -/
def execDeliveryStatus (r : ReqId) (s : State) : Host.Outcome State Fault Refusal :=
  .next (runCmd r 0x0903 (fun _ => true)
    (fun _ r => within 1 32 (field r.payload 1 1) && decide (field r.payload 0 1 + field r.payload 1 1 ≤ 64) && zeroAt r.payload 2 2)
    (reading deliveryStatusBody) s)

end Sys2Proof.Machine
end

