-- ==== Sys2Proof/Machine/Ethernet.lean ====
section
/-!
DEFINITION. The Ethernet ports as links: training, link loss and fence, the frames that belong to no stream or session,
ARP, ICMP and PAUSE (R367 to R370, R372, R389, R391, R393, Table ING-5).
-/
namespace Sys2Proof.Machine

/-- Partitions that a fence of a port takes it from. -/
def portUsers (s : State) (n : Nat) : List Pid := allPids.filter (fun p => (partOf s p).g.ports.contains n)

/-- A fenced port's stream stops: its windows in work become gaps (R389). -/
def stopStream (p : Pid) (i : Nat) (s : State) : State :=
  match streamOf (partOf s p) i with
  | none => s
  | some x =>
    if !streamOpen x then s
    else
      let open_ := x.wins.filter (fun w => !w.done)
      let s := open_.foldl (fun s w =>
        dropBuffer p i w.seq (if w.noRing then s else logGap p i w.seq w.seq s)) s
      modStream p i (fun x => { x with codec := { x.codec with st := 3 }, blocks := [], ranges := [], last := none
                                       wins := x.wins.filter (fun w => w.done) }) s

/-- A lasting fault of a port: it is fenced until PD_NET next powers up, its streams stop, and no partition is fenced
(R55, R389). -/
def fenceEthPort (n code : Nat) (s : State) : State :=
  let x := portOf s n
  let s := lastingFence (portPart s n) (portUnit n) code 2 0 (portUsers s n) s
  let s := modPort n (fun x => { x with link := .fenced, trainTried := false, training := false }) s
  let s := logEvent (portPart s n) 0x0905 (portUnit n) 2 0 0 s
  match portHolder s n with
  | some p => x.binds.foldl (fun s b => stopStream p b.1 s) s
  | none => s

/-- ARP requests for the cameras of a port (R369). -/
def askCameras (n : Nat) (s : State) : State :=
  ((portOf s n).binds.map (fun b => b.2.2.2)).foldl (fun s a => emit (.arpRequest n a) s) s

/-- ETHERNET_LINK_UP: training completes on a configured port; a retry that it needed was a transient fault. -/
def doEthUp (n : Nat) (s : State) : State :=
  let x := portOf s n
  if !domOn s 5 || x.link != .down || x.role = 0 then s
  else
    let s := modPort n (fun x => { x with link := .up, trainTried := false, training := false }) s
    let s := logEvent (portPart s n) 0x0905 (portUnit n) 1 0 0 s
    let s := if x.trainTried then transientFault (portPart s n) (portUnit n) 0x0004 0 s else s
    let s := askCameras n s
    match portHolder s n with
    | some p => pumpAll p s
    | none => s

/-- Row ETHERNET_LINK_UP. -/
def execEthernetLinkUp (port : Nat) (s : State) : Host.Outcome State Fault Refusal := .next (doEthUp port s)

/-- A port's link goes down. -/
def ethDown (n : Nat) (s : State) : State :=
  if (portOf s n).link != .up then s
  else logEvent (portPart s n) 0x0905 (portUnit n) 0 0 0 (modPort n (fun x => { x with link := .down, training := false }) s)

/-- ETHERNET_LINK_DOWN: a loss of signal is no device fault; the port is LINK_DOWN (R389). -/
def doEthDown (n : Nat) (s : State) : State := ethDown n s

/-- Row ETHERNET_LINK_DOWN. -/
def execEthernetLinkDown (port : Nat) (s : State) : Host.Outcome State Fault Refusal := .next (doEthDown port s)

/-- LINK_RETRAIN_TICK: every 100 ms a LINK_DOWN port trains again. -/
def doRetrainTick (n : Nat) (s : State) : State :=
  let x := portOf s n
  if domOn s 5 && x.link == .down && x.role != 0 then modPort n (fun x => { x with training := true }) s else s

/-- Row LINK_RETRAIN_TICK. -/
def execLinkRetrainTick (port : Nat) (s : State) : Host.Outcome State Fault Refusal := .next (doRetrainTick port s)

/-- LINK_TRAINING_FAIL: with signal present; retried once, at the next retraining, then the port is fenced (R389). -/
def doTrainingFail (n : Nat) (s : State) : State :=
  let x := portOf s n
  if !domOn s 5 || x.link != .down || x.role = 0 then s
  else if x.trainTried then fenceEthPort n 0x0004 s
  else modPort n (fun x => { x with trainTried := true, training := false }) s

/-- Row LINK_TRAINING_FAIL. -/
def execLinkTrainingFail (port : Nat) (s : State) : Host.Outcome State Fault Refusal := .next (doTrainingFail port s)

/-! ## Frames -/

/-- Whether a port takes frames. -/
def portTakes (s : State) (n : Nat) : Bool := domOn s 5 && (portOf s n).link == .up && (portOf s n).role != 0

/-- A frame that is dropped and counted (R370). -/
def dropFrame (n : Nat) (s : State) : State := modPort n (fun x => { x with dropped := satAdd 64 x.dropped 1 }) s

/-- A violation at a delivery port that no session is known for: the unit is target 0xFF of the port (R413). -/
def deliveryPortViolation (n row : Nat) (s : State) : State :=
  let s := modPort n (fun x => { x with violations := satAdd 64 x.violations 1 }) s
  partnerViolation (.port n) (portPart s n) (unitId 0x0C (n * 256 + 0xFF)) 2 row 0 s

/-- A UDP datagram for a delivery port: ICRC and session are checked (R391, Table DLV-4). -/
def deliveryFrame (n : Nat) (f : EthFrame) (s : State) : State :=
  let bound := match portHolder s n with
    | some p => (partOf s p).targets.any (fun x => x.live && !x.par.p2p && x.par.port == n && x.par.addr == f.srcAddr
        && x.devQpn.toNat == f.qpn)
    | none => false
  if f.dstPort != 4791 || !f.icrcOk then dropFrame n s
  else if bound then dropFrame n s
  else deliveryPortViolation n 9 s

/-- A UDP datagram for an ingest port: of a bound stream it is malformed, from elsewhere it is unbound (R372, Table ING-5).
-/
def ingestFrame (n : Nat) (f : EthFrame) (s : State) : State :=
  match (portOf s n).binds.find? (fun b => b.2.2.1 == f.dstPort && b.2.2.2 == f.srcAddr), portHolder s n with
  | some b, some p => cameraViolation p b.1 3 s
  | _, _ => portViolation n 2 s

/-- ETHERNET_FRAME_RECEIVED: a frame that no other row takes (R370, R372, R391). -/
def doEthFrame (n : Nat) (f : EthFrame) (s : State) : State :=
  if !portTakes s n then s
  else
    let x := portOf s n
    let s := countFrame n s
    if !f.fcsOk || !f.toUs then dropFrame n s
    else if 9216 < f.size || (f.vlan.isSome && f.vlan != x.vlan) || (f.ether == 0 && f.ipFragment) then
      (if x.role = 1 then portViolation n 1 s else deliveryPortViolation n 1 s)
    else if f.ether != 0 || f.proto != 17 then dropFrame n s
    else if x.role = 1 then ingestFrame n f s
    else deliveryFrame n f s

/-- Row ETHERNET_FRAME_RECEIVED. -/
def execEthernetFrameReceived (port : Nat) (fr : EthFrame) (s : State) : Host.Outcome State Fault Refusal :=
  .next (doEthFrame port fr s)

/-- GVCP_MESSAGE_RECEIVED: dropped as a violation (Table ING-5). -/
def doGvcp (n : Nat) (s : State) : State :=
  if portTakes s n && (portOf s n).role == 1 then portViolation n 10 (countFrame n s) else s

/-- Row GVCP_MESSAGE_RECEIVED. -/
def execGvcpMessageReceived (port : Nat) (s : State) : Host.Outcome State Fault Refusal := .next (doGvcp port s)

/-- ARP_REQUEST_RECEIVED: answered for the port's own address (R369). -/
def doArp (n target sender : Nat) (s : State) : State :=
  if !portTakes s n then s
  else
    let s := countFrame n s
    if target = (portOf s n).addr then emit (.arpReply n sender) s else s

/-- Row ARP_REQUEST_RECEIVED. -/
def execArpRequestReceived (port target sender : Nat) (s : State) : Host.Outcome State Fault Refusal :=
  .next (doArp port target sender s)

/-- ICMP_ECHO_REQUEST: answered with an echo reply (R369). -/
def doIcmp (n sender : Nat) (body : List Byte) (s : State) : State :=
  if portTakes s n then emit (.icmpReply n sender body) (countFrame n s) else s

/-- Row ICMP_ECHO_REQUEST. -/
def execIcmpEchoRequest (port sender : Nat) (body : List Byte) (s : State) : Host.Outcome State Fault Refusal :=
  .next (doIcmp port sender body s)

/-- PAUSE_FRAME_RECEIVED: counted; an ingest port ignores it, and a delivery port's pause of a PCP only delays its frames
(R369, R393). -/
def doPauseFrame (n : Nat) (s : State) : State :=
  if portTakes s n then modPort n (fun x => { x with pauses := satAdd 64 x.pauses 1 }) (countFrame n s) else s

/-- Row PAUSE_FRAME_RECEIVED. -/
def execPauseFrameReceived (port : Nat) (_pfcMask : Option Nat) (s : State) : Host.Outcome State Fault Refusal :=
  .next (doPauseFrame port s)

end Sys2Proof.Machine
end

