-- ==== Sys2Proof/Machine/Random.lean ====
section
/-!
DEFINITION. The entropy source, seeds, test evaluations of Dill and lane keys (R296 to R300, R308, R309, R511 to R513).
-/
namespace Sys2Proof.Machine

/-! ## The source -/

/-- The bytes of a block, bits 7:0 first (R6, R300). -/
def blockBytes384 (b : BitVec 384) : List Byte := toLe 48 b.toNat

/-- Whether a request waits for conditioned output (R299). -/
def waitsEntropy (r : Req) : Bool := (r.opcode == 0x0501 || r.opcode == 0x0502) && r.phase == .moving

/-- Set a partition's seed; it is mirrored with the grants (R300, R445). -/
def setSeed (p : Pid) (v : BitVec 128) (s : State) : State := mirrorGrantOf p (modLd p (fun l => { l with seed := some v }) s)

/-- What a waiting request needs, in bytes. -/
def entropyNeed (r : Req) : Nat := if r.opcode = 0x0501 then 48 else field r.payload 0 2

/-- Answer a request whose bytes are together (R299, R300). -/
def entropyAnswer (r : Req) (bs : List Byte) (s : State) : State :=
  if r.opcode = 0x0501 then finish r (ansOk (bs.take 16)) (setSeed r.pid (BitVec.ofNat 128 (leNat (bs.take 16))) s)
  else finish r (ansOk (bs.take (field r.payload 0 2))) s

/-- Give buffered blocks to the requests that wait, in acceptance order; each block goes to one of them (R299). -/
def serveEntropy : Nat → State → State
  | 0, s => s
  | n + 1, s =>
    match s.ao.ent.blocks, s.host.reqs.find? waitsEntropy with
    | b :: rest, some r =>
      let bs := r.bulk ++ blockBytes384 b
      let s := modEnt (fun e => { e with blocks := rest, delivered := satAdd 64 e.delivered 1 }) s
      serveEntropy n (if entropyNeed r ≤ bs.length then entropyAnswer r bs s else modReq r.id (fun q => { q with bulk := bs }) s)
    | _, _ => s

/-- ENTROPY_BLOCK_READY: the conditioner's block is buffered, 16 at most, and waiting requests are served. -/
def doEntropyBlock (b : BitVec 384) (s : State) : State :=
  if s.ao.ent.st != 1 then s
  else serveEntropy 32 (modEnt (fun e => if e.blocks.length < 16 then { e with blocks := e.blocks ++ [b] } else e) s)

/-- Row ENTROPY_BLOCK_READY. -/
def execEntropyBlockReady (block : BitVec 384) (s : State) : Host.Outcome State Fault Refusal := .next (doEntropyBlock block s)

def entropyUnit : Nat := unitId 0x10 0

/-- A second failure: the source is fenced, and requests that wait are answered FENCED (R298). -/
def entropyFence (test : Nat) (s : State) : State :=
  let s := logDev 0x0107 test 0 0 0 s
  let s := lastingFence 0xFF entropyUnit 0x0007 2 0 [] s
  let s := modEnt (fun e => { e with st := 3, blocks := [] }) s
  (s.host.reqs.filter waitsEntropy).foldl (fun s r => finish r (ansFenced 0x0114) s) s

/-- ENTROPY_HEALTH_FAIL: 1 repetition count, 2 adaptive proportion.  The buffer is discarded and the source restarts once;
a failure before the restart completes is lasting (R297, R298). -/
def doEntropyFail (test : Nat) (s : State) : State :=
  if s.ao.ent.st = 3 then s
  else
    let was := s.ao.ent.st
    let s := modEnt (fun e => { e with
      repFails := if test = 1 then satAdd 32 e.repFails 1 else e.repFails
      propFails := if test = 1 then e.propFails else satAdd 32 e.propFails 1 }) s
    if was = 2 then entropyFence test s else modEnt (fun e => { e with st := 2, blocks := [], test := test }) s

/-- Row ENTROPY_HEALTH_FAIL. -/
def execEntropyHealthFail (test : Nat) (s : State) : Host.Outcome State Fault Refusal := .next (doEntropyFail test s)

/-- ENTROPY_RESTART_DONE: the start-up test ends; a restart that passes was a transient fault (R297, R298). -/
def doEntropyRestart (pass : Bool) (s : State) : State :=
  let e := s.ao.ent
  if e.st = 0 then modEnt (fun e => { e with st := if pass then 1 else 2 }) s
  else if e.st != 2 then s
  else if pass then
    let s := modEnt (fun e => { e with st := 1, transient := satAdd 32 e.transient 1 }) s
    transientFault 0xFF entropyUnit 0x0007 0 (logDev 0x0107 e.test 1 0 0 s)
  else entropyFence e.test s

/-- Row ENTROPY_RESTART_DONE. -/
def execEntropyRestartDone (pass : Bool) (s : State) : Host.Outcome State Fault Refusal := .next (doEntropyRestart pass s)

/-! ## Commands -/

/-- Wait for conditioned output, or be answered at once (R298, R299). -/
def askEntropy (r : Req) (s : State) : State × Option Ans :=
  if s.ao.ent.st = 3 then (s, some (ansFenced 0x0114))
  else (serveEntropy 100 (modReq r.id (fun q => { q with phase := .moving }) s), none)

/-- The fields of RANDOM_SEED_SET (R511). -/
def seedFields (_ : State) (r : Req) : Bool :=
  decide (field r.payload 16 1 ≤ 1) && zeroAt r.payload 17 3 && (field r.payload 16 1 == 0 || zeroAt r.payload 0 16)

/-- RANDOM_SEED_SET (R300, R511): in PAUSED only once a load has completed since the pause began. -/
def seedBody (r : Req) (s : State) : State × Option Ans :=
  let q := partOf s r.pid
  if q.st = .paused && !q.ld.loadedInPause then (s, some (ansRefused 0x0113))
  else if field r.payload 16 1 = 1 then askEntropy r s
  else (setSeed r.pid (BitVec.ofNat 128 (field r.payload 0 16)) s, some (ansOk (zeros 16)))

/-- Row RANDOM_SEED_SET. -/
def execRandomSeedSet (r : ReqId) (s : State) : Host.Outcome State Fault Refusal :=
  .next (runCmd r 0x0501 (fun _ => true) seedFields seedBody s)

/-- RANDOM_ENTROPY_READ (R299, R512): 16 to 4,064 bytes in whole 16-byte units. -/
def entropyReadBody (r : Req) (s : State) : State × Option Ans :=
  let n := field r.payload 0 2
  if !within 16 4064 n || n % 16 != 0 then (violation r.fn 5 0x0502 s, some ansBadLength) else askEntropy r s

/-- Row RANDOM_ENTROPY_READ. -/
def execRandomEntropyRead (r : ReqId) (s : State) : Host.Outcome State Fault Refusal :=
  .next (runCmd r 0x0502 (fun _ => true) (fun _ r => zeroAt r.payload 2 2) entropyReadBody s)

/-- RANDOM_STATUS (R512). -/
def randomStatusBody (_ : Req) (s : State) : Ans :=
  let e := s.ao.ent
  ansOk (toLe 1 e.st ++ toLe 1 e.blocks.length ++ zeros 2 ++ toLe 4 e.repFails ++ toLe 4 e.propFails ++ toLe 4 e.transient
    ++ toLe 8 e.delivered)

/-- Row RANDOM_STATUS. -/
def execRandomStatus (r : ReqId) (s : State) : Host.Outcome State Fault Refusal :=
  .next (runCmd r 0x0503 (fun _ => true) (fun _ _ => true) (reading randomStatusBody) s)

/-! ## RANDOM_EVALUATE (R308, R513) -/

/-- I_j of R308. -/
def evalIndex (j : Nat) : BitVec 128 := dillIndex 5 (j * 1048577) 0 (j * 2 ^ 40 + j)

/-- The outputs of a range of j, 16 bytes each. -/
def evalBytes (seed : BitVec 128) (first last : Nat) : List Byte :=
  (List.range (last + 1 - first)).flatMap (fun i => toLe 16 (dill seed (evalIndex (first + i))).toNat)

/-- What a RANDOM_EVALUATE request computes. -/
def evalOf (b : List Byte) : List Byte := evalBytes (BitVec.ofNat 128 (field b 0 16)) (field b 20 2) (field b 22 2)

/-- The evaluation ends: the outputs are written to the host when asked, then the digest is answered. -/
def evalFinish (r : Req) (s : State) : State :=
  let out := evalOf r.payload
  let d := sha384 out
  if bit (field r.payload 18 1) 0 then
    issueDma r.fn (.bulkOut r.id) (field r.payload 24 8) out out.length
      (modReq r.id (fun q => { q with phase := .moving, bulk := d }) s)
  else finish r (ansOk d) s

/-- The fields of R513. -/
def evalFields (_ : State) (r : Req) : Bool :=
  let b := r.payload
  decide (field b 16 1 ≤ 1) && decide (field b 17 1 < 128) && (field b 16 1 == 0 || field b 17 1 == 0) && decide (field b 18 1 ≤ 1)
    && zeroAt b 19 1 && decide (field b 20 2 ≤ field b 22 2)

/-! ## Lane keys (R309) -/

/-- The key of a lane: its own once it was redrawn, otherwise the tile's. -/
def laneKeyOf (t : Tile) (lane : Nat) : Option (BitVec 128) :=
  match t.laneRedraws.find? (fun x => x.1 == lane) with
  | some x => some x.2
  | none => t.laneKey

/-- Output n of a lane. -/
def laneOutput (key : BitVec 128) (lane n : Nat) : BitVec 128 := dill key (BitVec.ofNat 128 (lane * 2 ^ 64 + n))

/-- LANE_KEY_EXHAUSTED: a lane that reaches n = 2^64 has its key redrawn from entropy, a free value (log entry 27); a fenced
source has none to give. -/
def doLaneExhausted (tile lane : Nat) (s : State) : State :=
  if (tileOf s tile).laneKey.isNone || 16 ≤ lane || s.ao.ent.st = 3 then s
  else match fresh s with
    | (v, s) => modTile tile (fun t => { t with
        laneRedraws := t.laneRedraws.filter (fun x => x.1 != lane) ++ [(lane, BitVec.ofNat 128 v)] }) s

/-- Row LANE_KEY_EXHAUSTED. -/
def execLaneKeyExhausted (tile lane : Nat) (s : State) : Host.Outcome State Fault Refusal := .next (doLaneExhausted tile lane s)

end Sys2Proof.Machine
end

