-- ==== Sys2Proof/Machine/Routing.lean ====
section
/-!
DEFINITION. Expert routing: router scores, the choice of experts, the list builder, and the combination of expert
outputs (R315 to R330).
-/
namespace Sys2Proof.Machine

/-! ## Scores -/

/-- The logical index of a token (R267). -/
def tokenIndex (off p : Nat) : Nat := off * 2 ^ 24 + p

/-- bf16 words of a byte list. -/
def words16 : Nat → List Byte → List Word16
  | 0, _ => []
  | n + 1, bs => BitVec.ofNat 16 (field bs 0 2) :: words16 n (bs.drop 2)

/-- Row i of a region whose rows are D bf16 elements: the router matrix by expert id, the codebook by entry. -/
def bfRow (s : State) (p : Pid) (role : Role) (d i : Nat) : List Word16 :=
  match regionOf (bodyOf (partOf s p)) role with
  | some r => words16 d (winRead s p (r.addr + 2 * d * i) (2 * d))
  | none => words16 d []

/-- The sum of R317: two products a step, rounded once. -/
def dotPairs : List Word16 → List Word16 → Word32 → Word32
  | a :: b :: h, c :: d :: r, acc => dotPairs h r (fdot2 acc (ofBf16 a) (ofBf16 c) (ofBf16 b) (ofBf16 d))
  | _, _, acc => acc

/-- R317: a NaN or a score of at most 0 is +0. -/
def routerScore (bias : Word32) (h row : List Word16) : Word32 :=
  let v := dotPairs h row bias
  if fisNaN v || fleB v 0 then 0 else v

/-- R318: whether a score reaches the floor. -/
def eligible (floor v : Word32) : Bool := fleB floor v

/-- R318: the 71-bit key of a token's score and logical index. -/
def routeKey (v : Word32) (idx : Nat) : Nat := v.toNat % 2 ^ 31 * 2 ^ 40 + (2 ^ 40 - 1 - idx)

/-! ## The radix select (R320) -/

/-- The digit at which the need is met, from v downward, with what is still needed of it. -/
def pickDigit (h : Nat → Nat) : Nat → Nat → Nat × Nat
  | 0, need => (0, need)
  | v + 1, need => if h (v + 1) < need then pickDigit h v (need - h (v + 1)) else (v + 1, need)

/-- How many keys continue a prefix with digit v in the pass that looks at the byte at bit sh. -/
def digitCount (keys : List Nat) (sh pre v : Nat) : Nat :=
  (keys.filter (fun k => k >>> (sh + 8) == pre && (k >>> sh) % 256 == v)).length

/-- The passes of R320 with n + 1 to go. -/
def radixGo (keys : List Nat) : Nat → Nat → Nat → Nat
  | 0, _, pre => pre
  | n + 1, need, pre =>
    let sh := 8 * n
    let d := pickDigit (digitCount keys sh pre) 255 need
    let pre' := pre * 256 + d.1
    if digitCount keys sh pre d.1 = d.2 || n = 0 then pre' <<< sh else radixGo keys n d.2 pre'

/-- The threshold of an expert over its eligible keys: 0 while its capacity takes them all. -/
def radixThr (keys : List Nat) (cap : Nat) : Nat := if keys.length ≤ cap then 0 else radixGo keys 9 cap 0

/-! ## The tokens of a step -/

/-- Tokens of a step in ascending logical index: sample offset and token. -/
def stepTokens (st : OpenStep) : List (Nat × Token) := st.samples.flatMap (fun x => x.tokens.map (fun t => (x.off, t)))

/-- A token's score for an expert, +0 when it has none. -/
def scoreOf (t : Token) (e : Nat) : Word32 :=
  match t.scores.find? (fun x => x.1 == e) with
  | some x => x.2
  | none => 0

/-- The keys of the tokens that are eligible for an expert. -/
def eligibleKeys (st : OpenStep) (e : ExpertDecl) : List Nat :=
  ((stepTokens st).filter (fun x => eligible e.floor (scoreOf x.2 e.id))).map
    (fun x => routeKey (scoreOf x.2 e.id) (tokenIndex x.1 x.2.p))

/-- The experts that choose a token, in ascending id (R319, R320). -/
def chosenFor (thr : List (ExpertDecl × Nat)) (off : Nat) (t : Token) : List Nat :=
  (List.range 64).filter (fun id => thr.any (fun x =>
    x.1.id == id && eligible x.1.floor (scoreOf t id) && decide (x.2 ≤ routeKey (scoreOf t id) (tokenIndex off t.p))))

/-- Change every token of a sample. -/
def mapTokens (g : Nat → Token → Token) (st : OpenStep) : OpenStep :=
  { st with samples := st.samples.map (fun x => { x with tokens := x.tokens.map (g x.off) }) }

/-- ROUTE's choice over a step with its counts (R319, R320, R330). -/
def chooseTokens (b : ImgBody) (st : OpenStep) : OpenStep :=
  let thr := b.experts.map (fun e => (e, radixThr (eligibleKeys st e) e.cap))
  let st' := mapTokens (fun off t => { t with chosen := chosenFor thr off t }) st
  let toks := stepTokens st'
  let count (e : Nat) : Nat := (toks.filter (fun x => x.2.chosen.contains e)).length
  let whey := (toks.filter (fun x => x.2.chosen.isEmpty)).length
  let elig (e : Nat) : Nat := match b.experts.find? (fun x => x.id == e) with
    | some x => (eligibleKeys st x).length
    | none => 0
  { st' with chosen := (List.range 64).map count ++ [whey], eligible := (List.range 64).map elig ++ [toks.length] }

/-! ## Words that no event reported -/

/-- n free bf16 words: what private tile code computed and no event reported (log entry 29). -/
def freshWords (n : Nat) (s : State) : List Word16 × State :=
  ((List.range n).map (fun i => BitVec.ofNat 16 (Config.freeNat (s.freeCtr + i))), { s with freeCtr := s.freeCtr + n })

/-- Give a token its D-element embedding. -/
def fillH (d : Nat) (x : List Token × State) (t : Token) : List Token × State :=
  if t.h.length = d then (x.1 ++ [t], x.2)
  else match freshWords d x.2 with
    | (w, s) => (x.1 ++ [{ t with h := w }], s)

/-- The destinations of a token: its experts, or Whey (64). -/
def destsOf (t : Token) : List Nat := if t.chosen.isEmpty then [64] else t.chosen

/-- Give a token the output of every destination that no event reported. -/
def fillY (d : Nat) (x : List Token × State) (t : Token) : List Token × State :=
  let lack := (destsOf t).filter (fun e => !t.ys.any (fun y => y.1 == e && y.2.length == d))
  let r := lack.foldl (fun (a : List (Nat × List Word16) × State) e => match freshWords d a.2 with
    | (w, s) => (a.1 ++ [(e, w)], s)) (t.ys.filter (fun y => y.2.length == d), x.2)
  (x.1 ++ [{ t with ys := r.1 }], r.2)

/-- Change the tokens of the samples of a step that a test picks, threading free values. -/
def fillTokens (p : Pid) (slot : Nat) (pick : Sample → Bool) (g : List Token × State → Token → List Token × State)
    (s : State) : State :=
  match stepIn (partOf s p) slot with
  | none => s
  | some st => (st.samples.filter pick).foldl (fun s x =>
      match x.tokens.foldl g ([], s) with
      | (ts, s) => modSample p slot x.off (fun x => { x with tokens := ts }) s) s

/-! ## ROUTE and the list builder -/

/-- The home clusters of a placement in ascending relative id (R316). -/
def homeRels (q : Part) : List Nat :=
  let l := (placementOf q).homes.foldl (fun a h => insSorted h.1 a) []
  if l.isEmpty then [0] else l

/-- A home cluster scores its tokens (R317). -/
def scoreHome (p : Pid) (slot rel : Nat) (s : State) : State :=
  let q := partOf s p
  let b := bodyOf q
  let mine (x : Sample) : Bool := homeOf q x.off == rel
  let s := fillTokens p slot mine (fillH b.dim) s
  let rows := b.experts.map (fun e => (e, bfRow s p .router b.dim e.id))
  let score (t : Token) : Token := { t with scores := rows.map (fun x => (x.1.id, routerScore x.1.bias t.h x.2)) }
  modStep p slot (fun st => { st with samples := modAll mine (fun x => { x with tokens := x.tokens.map score }) st.samples }) s

/-- Whether an entry of a stage kind is on the board for a step, on a cluster if one is named. -/
def onBoard (q : Part) (slot kind : Nat) (rel : Option Nat) : Bool :=
  q.sc.entries.any (fun e => e.slot == slot && (stageAt q e.stage).kind == kind && (match rel with
    | some r => e.rel == r
    | none => true))

/-- ROUTE_COUNTS_REPORT: a home cluster whose part of ROUTE is complete reports its counts; when every cluster has, the
choice of R319 stands and the step waits for the list builder (R243, R320, R323). -/
def doRouteCounts (p : Pid) (slot rel : Nat) (s : State) : State :=
  let q := partOf s p
  match stepIn q slot with
  | none => s
  | some st =>
    if q.st != .enabled || !(homeRels q).contains rel || st.reported.contains rel || !hasKind q 0x0A || st.prep
        || st.samples.length < st.count || onBoard q slot 0x0A (some rel)
        || st.samples.any (fun x => homeOf q x.off == rel && !x.done) then s
    else
      let s := modStep p slot (fun st => { st with reported := insSorted rel st.reported }) (scoreHome p slot rel s)
      if (homeRels q).length ≤ st.reported.length + 1 then
        let s := modStep p slot (chooseTokens (bodyOf q)) s
        modCtrl (fun c => { c with lists := c.lists ++ [(p, slot)] }) s
      else s

/-- Row ROUTE_COUNTS_REPORT. -/
def execRouteCountsReport (p : Pid) (slot rel : Nat) (s : State) : Host.Outcome State Fault Refusal :=
  .next (doRouteCounts p slot rel s)

/-- The groups of an expert in a placement. -/
def groupsOf (pl : List (Nat × List Nat)) (e : Nat) : List Nat :=
  match pl.find? (fun x => x.1 == e) with
  | some x => x.2
  | none => []

/-- Tokens of one home cluster that go to a destination, 64 for Whey (R323). -/
def countAt (q : Part) (st : OpenStep) (rel e : Nat) : Nat :=
  ((stepTokens st).filter (fun x => homeOf q x.1 == rel && (destsOf x.2).contains e)).length

/-- q[e] of R324: ranks per replica. -/
def ranksPer (total replicas : Nat) : Nat := if total = 0 then 0 else ceilDiv total replicas

/-- A destination record of Table EXP-2. -/
def destRecord (b : ImgBody) (st : OpenStep) (e : Nat) : List Byte :=
  let g := if e = 64 then [b.wheyGroup] else groupsOf st.place e
  let q := if e = 64 then b.wheyRound else ranksPer (nth st.chosen e) g.length
  toLe 4 (nth st.chosen e) ++ toLe 4 q ++ toLe 1 g.length ++ zeros 3
    ++ (List.range 4).flatMap (fun i => toLe 1 (g.getD i 0xFF))

/-- The first and count words of a home cluster for each destination. -/
def homeRecord (q : Part) (st : OpenStep) (before : List Nat) (rel : Nat) : List Byte :=
  (List.range 65).flatMap (fun e =>
    toLe 4 (sumL (before.map (fun r => countAt q st r e))) ++ toLe 4 (countAt q st rel e))

/-- The step lists of Table EXP-2 (R324, R325). -/
def listBytes (q : Part) (st : OpenStep) : List Byte :=
  let b := bodyOf q
  let hs := homeRels q
  toLe 8 (packCursor st.first) ++ toLe 4 (stepTokens st).length ++ toLe 4 st.placeVer
    ++ toLe 2 (ceilDiv (nth st.chosen 64) (max 1 b.wheyRound)) ++ toLe 2 hs.length ++ zeros 12
    ++ (List.range 65).flatMap (destRecord b st)
    ++ hs.flatMap (fun r => homeRecord q st (hs.filter (fun x => decide (x < r))) r)

/-- The tile group that an expert entry runs: the entry's group counts the declared groups of its cluster in order. -/
def entryGroup (q : Part) (e : Entry) : Option Nat :=
  (((bodyOf q).groupsE.filter (fun g => g.rel == e.rel))[e.group]?).map (fun g => g.id)

/-- Whether the replica on a group receives a token (R322, R324). -/
def groupBusy (b : ImgBody) (st : OpenStep) (g : Nat) : Bool :=
  (g == b.wheyGroup && decide (0 < nth st.chosen 64))
    || st.place.any (fun x => (List.range x.2.length).any (fun r =>
        x.2.getD r 256 == g && decide (r * ranksPer (nth st.chosen x.1) x.2.length < nth st.chosen x.1)))

/-- The entries that R322 marks SKIPPED once the lists stand. -/
def routeSkips (q : Part) (st : OpenStep) (e : Entry) : Bool :=
  let k := (stageAt q e.stage).kind
  if (stepTokens st).isEmpty then [0x0B, 0x0C, 0x0D].contains k
  else [0x0C, 0x0D].contains k && (match entryGroup q e with
    | some g => !groupBusy (bodyOf q) st g
    | none => false)

/-- LIST_BUILD_DONE: the builder writes the lists of the request it serves, marks skips and lets the waiting entries
become READY (R243, R322, R325). -/
def doListBuild (s : State) : State :=
  match s.ao.ctrl.lists with
  | [] => s
  | (p, slot) :: rest =>
    let s := modCtrl (fun c => { c with lists := rest }) s
    let q := partOf s p
    match stepIn q slot with
    | none => s
    | some st =>
      let s := match regionOf (bodyOf q) .lists with
        | some r => winWrite p r.addr (listBytes q st) s
        | none => s
      let s := modStep p slot (fun st => { st with lists := true }) s
      entriesDone p slot (fun e => e.stepScope && routeSkips q st e) s

/-- Row LIST_BUILD_DONE. -/
def execListBuildDone (s : State) : Host.Outcome State Fault Refusal := .next (doListBuild s)

/-! ## Results of tile code -/

/-- The trunk's embeddings of a sample, one per kept token in order (R315). -/
def setEmbeddings (p : Pid) (slot off : Nat) (hs : List (List Word16)) (s : State) : State :=
  let go (ts : List Token) : List Token := (ts.zipIdx).map (fun x => { x.1 with h := hs.getD x.2 x.1.h })
  modSample p slot off (fun x => { x with tokens := go x.tokens }) s

/-- An expert's outputs for the tokens it was sent (R328). -/
def setOutputs (p : Pid) (slot e : Nat) (ys : List (Nat × List Word16)) (s : State) : State :=
  let g (off : Nat) (t : Token) : Token :=
    match ys.find? (fun y => y.1 == tokenIndex off t.p) with
    | some y => if (destsOf t).contains e then { t with ys := t.ys.filter (fun x => x.1 != e) ++ [(e, y.2)] } else t
    | none => t
  modStep p slot (mapTokens g) s

/-! ## RETURN -/

/-- The output of a destination as fp32 elements. -/
def yOf (t : Token) (e : Nat) : List Word32 :=
  match t.ys.find? (fun x => x.1 == e) with
  | some y => y.2.map ofBf16
  | none => []

/-- r_t of R328, or the embedding itself in an image without experts. -/
def combine (b : ImgBody) (t : Token) : List Word32 :=
  let r := t.h.map ofBf16
  if !b.usesExperts then r
  else if t.chosen.isEmpty then r.zipWith fadd (yOf t 64)
  else
    let sum := t.chosen.foldl (fun a e => fadd a (scoreOf t e)) 0
    t.chosen.foldl (fun r e => (yOf t e).zipWith (fun y x => ffma (fdiv (scoreOf t e) sum) y x) r) r

/-- Squared distance of R329. -/
def codeDist (r : List Word32) (c : List Word16) : Word32 :=
  (r.zip c).foldl (fun d x => let v := fsub x.1 (ofBf16 x.2)
                              ffma v v d) 0

/-- The nearest codebook entry, the lowest one on a tie. -/
def nearestCode (r : List Word32) (book : List (List Word16)) : Nat :=
  (book.zipIdx.foldl (fun (best : Nat × Option Word32) x =>
    let d := codeDist r x.1
    match best.2 with
    | none => (x.2, some d)
    | some m => if fltB d m then (x.2, some d) else best) (0, none)).1

/-- A token's output bytes (R329). -/
def outBytes (b : ImgBody) (book : List (List Word16)) (t : Token) : List Byte :=
  let r := combine b t
  if b.tokensMode then toLe 2 (nearestCode r book) else r.flatMap (fun x => toLe 2 (toBf16 x).toNat)

/-- Combine every token of a step: what RETURN leaves for ASSEMBLE (R328, R329). -/
def returnOutputs (p : Pid) (slot : Nat) (s : State) : State :=
  let b := bodyOf (partOf s p)
  let s := fillTokens p slot (fun _ => true) (fillH b.dim) s
  let s := if b.usesExperts then fillTokens p slot (fun _ => true) (fillY b.dim) s else s
  let book := if b.tokensMode then (List.range b.codebook).map (bfRow s p .codebook b.dim) else []
  modStep p slot (mapTokens (fun _ t => { t with out := outBytes b book t })) s

/-! ## Counters (R330) -/

/-- Flags of Table EXP-4: FULL and SKIPPED. -/
def destFlags (b : ImgBody) (st : OpenStep) (d : Nat) : Nat :=
  (d != 64 && decide (destCap b d < nth st.eligible d)).toNat + 2 * (nth st.chosen d == 0).toNat

/-- The step's counters join the record at its boundary. -/
def commitCounters (p : Pid) (st : OpenStep) (s : State) : State :=
  let b := bodyOf (partOf s p)
  if !b.usesExperts then s
  else
    let reps (d : Nat) : Nat := if d = 64 then 1 else (groupsOf st.place d).length
    let full (d : Nat) : Nat := destFlags b st d % 2
    modEx p (fun e => { e with
      firstCursor := packCursor st.first
      tokens := (stepTokens st).length
      recVersion := st.placeVer
      pairs := sumL (st.chosen.take 64)
      dest := (List.range 65).map (fun d => (nth st.chosen d, nth st.eligible d, reps d, destFlags b st d))
      chosenLoad := (List.range 65).map (fun d => nth e.chosenLoad d + nth st.chosen d)
      fullSteps := (List.range 65).map (fun d => nth e.fullSteps d + full d)
      windowCount := (List.range 65).map (fun d => nth e.window d + nth st.chosen d)
      window := (List.range 65).map (fun d => nth e.window d + nth st.chosen d) }) s

end Sys2Proof.Machine
end

