-- ==== Sys2Proof/Machine/Still.lean ====
section
/-!
DEFINITION. The still-decode engines and the crop/resize/warp units: service by rotation, reruns, damaged images and
engine faults (R251 to R262).
-/
namespace Sys2Proof.Machine

/-! ## Rotation (R171, R255) -/

def deficitOf (l : List (Nat × Nat)) (p : Nat) : Nat :=
  match l.find? (fun x => x.1 == p) with
  | some x => x.2
  | none => 0

def setDeficit (p v : Nat) (l : List (Nat × Nat)) : List (Nat × Nat) := l.filter (fun x => x.1 != p) ++ [(p, v)]

/-- Visits that a waiting partition needs before its first job's cost is covered. -/
def visitsNeeded (l : List (Nat × Nat)) (x : Nat × Nat × Nat) : Nat := ceilDiv (x.2.1 - deficitOf l x.1) (max 1 x.2.2)

/-- Deficit-weighted rotation over (partition, cost of its first job, weight), in rotation order: who is served and the
deficits after its job. -/
def rotate (l : List (Nat × Nat)) (ws : List (Nat × Nat × Nat)) : Option (Nat × List (Nat × Nat)) :=
  match ws with
  | [] => none
  | w :: rest =>
    let best := rest.foldl (fun a x => if visitsNeeded l x < visitsNeeded l a then x else a) w
    let k := visitsNeeded l best
    let passed := ws.takeWhile (fun x => x.1 != best.1)
    let add (l : List (Nat × Nat)) (x : Nat × Nat × Nat) : List (Nat × Nat) :=
      let n := if x.1 == best.1 || passed.any (fun y => y.1 == x.1) then k else k - 1
      setDeficit x.1 (deficitOf l x.1 + n * x.2.2) l
    let l' := ws.foldl add (l.filter (fun x => ws.any (fun w => w.1 == x.1)))
    some (best.1, setDeficit best.1 (deficitOf l' best.1 - best.2.1) l')

/-! ## Engines -/

def engineOf (s : State) (jpeg : Bool) (i : Nat) : Engine :=
  if jpeg then vget s.units.jpeg i {} else vget s.units.inflate i {}

def modEngine (jpeg : Bool) (i : Nat) (g : Engine → Engine) (s : State) : State :=
  modUnits (fun u => if jpeg then { u with jpeg := vmodN u.jpeg i g } else { u with inflate := vmodN u.inflate i g }) s

def engineCount (jpeg : Bool) : Nat := if jpeg then 8 else 16
def engineUnit (jpeg : Bool) (i : Nat) : Nat := unitId (if jpeg then 6 else 7) i

/-- The first job of each partition that waits for a kind, in queue order. -/
def firstJobs (jpeg : Bool) (l : List StillJob) : List StillJob :=
  l.foldl (fun a j => if j.jpeg == jpeg && !a.any (fun x => decide (x.part = j.part)) then a ++ [j] else a) []

/-- Waiting partitions in rotation order from an engine's last partition, which may go on while its deficit lasts. -/
def waitingParts (s : State) (e : Engine) (js : List StillJob) : List (Nat × Nat × Nat) :=
  let from_ := match e.lastPart with
    | some p => p.val
    | none => 63
  let ws := js.map (fun j => (j.part.val, j.bytes, (partOf s j.part).g.stillW))
  let key (x : Nat × Nat × Nat) : Nat :=
    if x.1 == from_ && decide (x.2.1 ≤ deficitOf e.deficit x.1) then 0 else (x.1 + 64 - from_ - 1) % 64 + 1
  (ws.filter (fun x => decide (0 < x.2.2))).foldl (fun a x =>
    a.takeWhile (fun y => decide (key y ≤ key x)) ++ [x] ++ a.dropWhile (fun y => decide (key y ≤ key x))) []

/-- A free engine takes its next job (R255). -/
def startStill (jpeg : Bool) (i : Nat) (s : State) : State :=
  let e := engineOf s jpeg i
  if e.fenced || e.job.isSome || !domOn s 6 then s
  else
    let js := firstJobs jpeg s.units.stillQ
    match rotate e.deficit (waitingParts s e js) with
    | none => s
    | some (p, l) =>
      match js.find? (fun j => j.part.val == p) with
      | none => s
      | some j =>
        let s := modUnits (fun u => { u with stillQ := u.stillQ.erase j }) s
        modEngine jpeg i (fun e => { e with job := some j, lastPart := some j.part, deficit := l }) s

/-- Free engines take jobs, the lowest first. -/
def startStills (s : State) : State :=
  let s := (List.range 8).foldl (fun s i => startStill true i s) s
  (List.range 16).foldl (fun s i => startStill false i s) s

/-! ## PNG rows (R252) -/

def absDiff (a b : Int) : Nat := (a - b).natAbs

/-- The PNG predictor of three neighbours. -/
def paeth (a b c : Nat) : Nat :=
  let q : Int := Int.ofNat a + Int.ofNat b - Int.ofNat c
  let pa := absDiff q (Int.ofNat a)
  let pb := absDiff q (Int.ofNat b)
  let pc := absDiff q (Int.ofNat c)
  if pa ≤ pb && pa ≤ pc then a else if pb ≤ pc then b else c

/-- Reverse the filter of one row: the bytes so far are kept newest first. -/
def unfilterRow (ft bpp : Nat) (prior : List Byte) (bs : List Byte) : List Byte :=
  ((bs.zipIdx).foldl (fun (out : List Byte) x =>
    let a := if bpp ≤ x.2 then (out.getD (bpp - 1) 0).toNat else 0
    let b := (prior.getD x.2 0).toNat
    let c := if bpp ≤ x.2 then (prior.getD (x.2 - bpp) 0).toNat else 0
    let add := if ft = 1 then a else if ft = 2 then b else if ft = 3 then (a + b) / 2
               else if ft = 4 then paeth a b c else 0
    BitVec.ofNat 8 (x.1.toNat + add) :: out) []).reverse

/-- Reverse the filters of every row. -/
def unfilter (bpp : Nat) : List Byte → List (Nat × List Byte) → List (List Byte)
  | _, [] => []
  | prior, r :: rs =>
    let x := unfilterRow r.1 bpp prior r.2
    x :: unfilter bpp x rs

/-- The planes of a PNG: one per channel, 16-bit samples converted from big-endian. -/
def pngPlanes (w h channels depth : Nat) (rows : List (Nat × List Byte)) : List Plane :=
  let bps := depth / 8
  let rec_ := unfilter (channels * bps) [] rows
  (List.range channels).map (fun c => mkPlane w h (if depth = 16 then 1 else 0) (fun y x =>
    beNat (slice (rec_.getD y []) ((x * channels + c) * bps) bps)))

/-- The plane of a JPEG component (R251). -/
def jpegPlane (c : JpegComp) : Plane :=
  let cols := ceilDiv c.w 8
  let done := c.blocks.map (fun b => idct (b.zipWith (fun f q => f * Int.ofNat q) c.quant) c.prec)
  mkPlane c.w c.h (if c.prec = 12 then 1 else 0) (fun y x => nth (done.getD (y / 8 * cols + x / 8) []) (y % 8 * 8 + x % 8))

/-! ## Jobs -/

/-- What a run gave: planes, or an error code with its offset; a PNG filter type above 4 is error FILTER. -/
def stillOut : StillResult → Except (Nat × Nat) (List Plane)
  | .jpeg cs => .ok (cs.map jpegPlane)
  | .png w h ch depth rows => if rows.any (fun r => decide (4 < r.1)) then .error (9, Config.filterOffset rows)
                              else .ok (pngPlanes w h ch depth rows)
  | .error c o => .error (c, o)

/-- The marker of a run that timed out, in place of a code. -/
def stillTimeout_ : Nat := 65536

/-- The fault code of an engine's failure (R485). -/
def stillFault (code : Nat) : Nat := if code = stillTimeout_ then 0x0001 else 0x0100 + code

/-- The id of a sample of an open step. -/
def sampleId (s : State) (p : Pid) (slot off : Nat) : Nat :=
  match sampleAt s p slot off with
  | some x => x.id
  | none => 0

/-- Log a damaged sample of the codec or the still engines and skip it. -/
def stillDamaged (j : StillJob) (i code off : Nat) (s : State) : State :=
  let id := sampleId s j.part j.slot j.off
  damageSample j.part j.slot j.off j.stage (logEvent j.part.val 0x0401 id (sampleArg1 id code i) off 0 s)

/-- Whether the image of a partition uses the engines of a kind. -/
def usesStill (jpeg : Bool) (q : Part) : Bool := q.st != .free && (if jpeg then usesJpeg q else usesInflate q)

/-- A second failure that does not repeat the first: the engine is fenced and the job moves to another engine; a job that
had moved already, or finds no engine, fences its partition, and with no engine left every partition whose image uses
the kind (R234, R254, R479). -/
def engineLasting (j : StillJob) (i code : Nat) (s : State) : State :=
  let s := lastingFence j.part.val (engineUnit j.jpeg i) (stillFault code) 2 (stillTag j) (partsWhere s (usesStill j.jpeg)) s
  let s := modEngine j.jpeg i (fun e => { e with fenced := true, job := none }) s
  if (List.range (engineCount j.jpeg)).all (fun k => (engineOf s j.jpeg k).fenced) then
    fenceWhere (usesStill j.jpeg) 0x0002 s
  else if j.moved then fencePart j.part 0x0002 s
  else modUnits (fun u => { u with stillQ := { j with attempt := 0, prev := none, moved := true } :: u.stillQ }) s

/-- The end of a run with an error or a timeout (R254, R255). -/
def stillFailed (j : StillJob) (i code off : Nat) (s : State) : State :=
  match j.prev with
  | none => modEngine j.jpeg i (fun e => { e with job := some { j with attempt := 1, prev := some (code, off) } }) s
  | some x =>
    if x = (code, off) && code != stillTimeout_ then
      stillDamaged j i code off (modEngine j.jpeg i (fun e => { e with job := none }) s)
    else engineLasting j i code s

/-- A run that succeeded: a success on the rerun is a transient fault of the engine (R254). -/
def stillDone (j : StillJob) (i : Nat) (ps : List Plane) (s : State) : State :=
  let s := match j.prev with
    | some x => transientFault j.part.val (engineUnit j.jpeg i) (stillFault x.1) (stillTag j) s
    | none => s
  let s := modEngine j.jpeg i (fun e => { e with job := none }) s
  sampleStageDone j.part j.slot j.off j.stage (setPlanes j.part j.slot j.off ps s)

/-- STILL_JOB_COMPLETE; the completion of a fenced job is discarded (R474). -/
def doStillComplete (jpeg : Bool) (i : Nat) (res : StillResult) (s : State) : State :=
  let e := engineOf s jpeg i
  match e.job, e.dead with
  | some j, _ =>
    startStills (match stillOut res with
      | .ok ps => stillDone j i ps s
      | .error x => if x.1 = 0 then s else stillFailed j i x.1 x.2 s)
  | none, d :: rest =>
    lateDiscard d.1 (engineUnit jpeg i) 9 d.2 (modEngine jpeg i (fun e => { e with dead := rest }) s)
  | none, [] => s

/-- Row STILL_JOB_COMPLETE. -/
def execStillJobComplete (jpeg : Bool) (engine : Nat) (res : StillResult) (s : State) : Host.Outcome State Fault Refusal :=
  .next (doStillComplete jpeg engine res s)

/-- STILL_JOB_TIMEOUT: the job is fenced and handled as an engine fault (R255). -/
def doStillTimeout (jpeg : Bool) (i : Nat) (s : State) : State :=
  match (engineOf s jpeg i).job with
  | some j => startStills (stillFailed j i stillTimeout_ 0 s)
  | none => s

/-- Row STILL_JOB_TIMEOUT. -/
def execStillJobTimeout (jpeg : Bool) (engine : Nat) (s : State) : Host.Outcome State Fault Refusal :=
  .next (doStillTimeout jpeg engine s)

/-! ## Crop/resize/warp units (R257 to R262) -/

def warpHead (s : State) (c : Nat) : Option WarpTask :=
  (s.units.warpQ.find? (fun x => x.1 == c)).map (fun x => x.2)

/-- Take the first task of a cluster's queue. -/
def warpPop (c : Nat) (s : State) : State := modUnits (fun u => { u with warpQ := u.warpQ.eraseP (fun x => x.1 == c) }) s

/-- The warp jobs that a task names. -/
def warpJobs (s : State) (t : WarpTask) : List WarpJob := (stageAt (partOf s t.part) t.stage).warps

/-- Whether every job of a task is within R257. -/
def warpTaskOk (s : State) (t : WarpTask) : Bool :=
  match sampleAt s t.part t.slot t.off with
  | some x => (warpJobs s t).all (fun j => warpOk j (x.planes.getD j.plane ⟨0, 0, 0, []⟩))
  | none => false

/-- WARP_JOB_COMPLETE: the task at the head of the unit writes its planes (R258 to R261); one outside R257 is an address
fault of the unit (R185). -/
def doWarpComplete (c : Nat) (s : State) : State :=
  match warpHead s c with
  | none => s
  | some t =>
    let s := warpPop c s
    match sampleAt s t.part t.slot t.off with
    | none => s
    | some x =>
      if !warpTaskOk s t then fencePart t.part 0x0302 (logEvent t.part.val 0x0302 (unitId 0x08 c) 1 0 0 s)
      else
        let s := if t.retried then transientFault t.part.val (unitId 0x08 c) 0x0005 0 s else s
        let ps := (warpJobs s t).map (fun j => warp j (x.planes.getD j.plane ⟨0, 0, 0, []⟩))
        sampleStageDone t.part t.slot t.off t.stage (setPlanes t.part t.slot t.off ps s)

/-- Row WARP_JOB_COMPLETE. -/
def execWarpJobComplete (cluster : Nat) (s : State) : Host.Outcome State Fault Refusal := .next (doWarpComplete cluster s)

/-- WARP_PARITY_ERROR: the job is run again once; a second failure is a lasting fault of the unit (R262). -/
def doWarpParity (c : Nat) (s : State) : State :=
  match warpHead s c with
  | none => s
  | some t =>
    if !t.retried then
      modUnits (fun u => { u with warpQ := modFirst (fun x => x.1 == c) (fun x => (x.1, { x.2 with retried := true })) u.warpQ }) s
    else
      let s := lastingFence t.part.val (unitId 0x08 c) 0x0005 2 0 [t.part] (warpPop c s)
      let s := modUnits (fun u => { u with unavailable := insSorted c u.unavailable }) s
      fencePart t.part 0x0002 s

/-- Row WARP_PARITY_ERROR. -/
def execWarpParityError (cluster : Nat) (s : State) : Host.Outcome State Fault Refusal := .next (doWarpParity cluster s)

end Sys2Proof.Machine
end

