-- ==== Sys2Proof/Machine/Churn.lean ====
section
/-!
DEFINITION. Churn: problems, moves, results, slices, packing and placement (R332, R336 to R366, Tables CHN-2 to CHN-5).
-/
namespace Sys2Proof.Machine

/-! ## The chain (R341 to R344) -/

/-- What a chain works on: state, fields, energy and the holder of each group. -/
structure Work where
  x : Array Bool
  f : Array Int
  e : Int
  hold : Array Nat

/-- The members of a state that are 1, as a number whose bit i is x_i. -/
def stateNat (x : List Bool) : Nat := x.foldr (fun b a => b.toNat + 2 * a) 0

/-- Repair a group: exactly one member stays at 1, else the lowest-index member alone (R341). -/
def repairGroup (a : Array Bool × Nat) (g : List Nat) : Array Bool × Nat :=
  if (g.filter (fun i => a.1.getD i false)).length = 1 then a
  else (g.foldl (fun x i => x.setIfInBounds i (i == g.headD 0)) a.1, a.2 + 1)

/-- f_i = h_i + the sum of J_ij x_j (R336). -/
def fieldsAt (pr : Prob) (x : Array Bool) : Array Int :=
  pr.js.foldl (fun f c =>
    let f := if x.getD c.2.1 false then f.modify c.1 (· + c.2.2) else f
    if x.getD c.1 false then f.modify c.2.1 (· + c.2.2) else f) pr.h.toArray

/-- E of R336. -/
def energyAt (pr : Prob) (x : Array Bool) : Int :=
  pr.js.foldl (fun e c => if x.getD c.1 false && x.getD c.2.1 false then e + c.2.2 else e)
    (pr.h.zipIdx.foldl (fun e h => if x.getD h.2 false then e + h.1 else e) pr.c)

/-- The holder of a group: its member at 1. -/
def holderOf (x : Array Bool) (g : List Nat) : Nat := (g.find? (fun i => x.getD i false)).getD (g.headD 0)

def workOf (pr : Prob) (x : List Bool) : Work :=
  let a := x.toArray
  { x := a, f := fieldsAt pr a, e := energyAt pr a, hold := (pr.groups.map (holderOf a)).toArray }

/-- The state after step 0 (R341). -/
def chainStart (pr : Prob) : ChainSt :=
  let x0 := ((List.range pr.n).map (fun i => pr.start.contains i)).toArray
  match pr.groups.foldl repairGroup (x0, 0) with
  | (x, k) =>
    let b := (energyAt pr x, x.toList)
    { x := x.toList, e := b.1, best := b, comm := b, fin := b, repaired := k }

/-- The group of each variable. -/
def groupIndex (pr : Prob) : Array (Option Nat) :=
  pr.groups.zipIdx.foldl (fun a g => g.1.foldl (fun a i => a.setIfInBounds i (some g.2)) a)
    (List.replicate pr.n none).toArray

/-- Couplings between members of one group. -/
def innerJs (pr : Prob) (grp : Array (Option Nat)) : List (Nat × Nat × Int) :=
  pr.js.filter (fun c => (grp.getD c.1 none).isSome && grp.getD c.1 none == grp.getD c.2.1 none)

/-- J of two variables, 0 without a coupling. -/
def jOf (l : List (Nat × Nat × Int)) (a i : Nat) : Int :=
  match l.find? (fun c => (c.1 == a && c.2.1 == i) || (c.1 == i && c.2.1 == a)) with
  | some c => c.2.2
  | none => 0

/-- ΔE of candidate i, none for the holder of a group (R342). -/
def deltaOf (grp : Array (Option Nat)) (inner : List (Nat × Nat × Int)) (w : Work) (i : Nat) : Option Int :=
  match grp.getD i none with
  | none => some ((if w.x.getD i false then -1 else 1) * w.f.getD i 0)
  | some g =>
    let a := w.hold.getD g 0
    if a = i then none else some (w.f.getD i 0 - w.f.getD a 0 - jOf inner a i)

/-- Change one variable: the fields of its neighbours follow (R344). -/
def setVar (pr : Prob) (i : Nat) (v : Bool) (w : Work) : Work :=
  if w.x.getD i false = v then w
  else
    let d : Int := if v then 1 else -1
    { w with
      x := w.x.setIfInBounds i v
      f := pr.js.foldl (fun f c => if c.1 = i then f.modify c.2.1 (· + d * c.2.2)
                                   else if c.2.1 = i then f.modify c.1 (· + d * c.2.2) else f) w.f }

/-- The Dill index fields of a run (R343). -/
structure RunIx where
  seed : BitVec 128
  epoch : Nat
  sample : Nat
  op : Nat

/-- The candidates of step q with their scores and Dill outputs (R342, R343). -/
def candidates (pr : Prob) (grp : Array (Option Nat)) (inner : List (Nat × Nat × Int)) (ix : RunIx) (beta : Word32) (q : Nat)
    (w : Work) : List (Nat × Word32 × BitVec 128) :=
  (List.range pr.n).filterMap (fun i => (deltaOf grp inner w i).map (fun d =>
    (i, fmul (ofInt32 (-d)) beta, dill ix.seed (dillIndex ix.epoch ix.sample ix.op (q * 2 ^ 14 + i)))))

/-- Apply a move (R344). -/
def applyMove (pr : Prob) (grp : Array (Option Nat)) (inner : List (Nat × Nat × Int)) (i : Nat) (w : Work) : Work :=
  let d := (deltaOf grp inner w i).getD 0
  let w' := match grp.getD i none with
    | none => setVar pr i (!w.x.getD i false) w
    | some g =>
      let w := setVar pr i true (setVar pr (w.hold.getD g 0) false w)
      { w with hold := w.hold.setIfInBounds g i }
  { w' with e := w.e + d }

/-- n steps from step q: the work and the running best (R342, R344). -/
def chainSteps (pr : Prob) (grp : Array (Option Nat)) (inner : List (Nat × Nat × Int)) (ix : RunIx) (beta : Word32) :
    Nat → Nat → Work → Int × List Bool → Work × (Int × List Bool)
  | 0, _, w, b => (w, b)
  | n + 1, q, w, b =>
    let w := match gumbelMax (candidates pr grp inner ix beta q w) with
      | some i => applyMove pr grp inner i w
      | none => w
    chainSteps pr grp inner ix beta n (q + 1) w (if w.e < b.1 then (w.e, w.x.toList) else b)

/-- β of the sweep after n completed ones. -/
def betaAt : List SchedStage → Nat → Word32
  | [], _ => 0
  | s :: rest, n => if n < s.sweeps then s.beta else betaAt rest (n - s.sweeps)

/-- Steps of a sweep (R344). -/
def sweepSteps (pr : Prob) : Nat := pr.n - pr.groups.length

/-- k more sweeps of a chain: at the end of each the running best becomes the committed best (R344). -/
def chainSweeps (pr : Prob) (grp : Array (Option Nat)) (inner : List (Nat × Nat × Int)) (ix : RunIx) (sched : List SchedStage) :
    Nat → Work → ChainSt → ChainSt
  | 0, _, c => c
  | k + 1, w, c =>
    let n := sweepSteps pr
    match chainSteps pr grp inner ix (betaAt sched c.sweeps) n (c.q + 1) w c.best with
    | (w, b) =>
      let c := { c with
        x := w.x.toList, e := w.e, best := b, comm := b, fin := (w.e, w.x.toList)
        commSweep := if b.1 < c.comm.1 then c.sweeps + 1 else c.commSweep
        sweeps := c.sweeps + 1, steps := c.steps + n, q := c.q + n, trace := w.e :: c.trace }
      chainSweeps pr grp inner ix sched k w c

/-- A chain taken on to a sweep count. -/
def chainTo (pr : Prob) (ix : RunIx) (sched : List SchedStage) (k : Nat) (c : ChainSt) : ChainSt :=
  let grp := groupIndex pr
  chainSweeps pr grp (innerJs pr grp) ix sched (k - c.sweeps) (workOf pr c.x) c

def ixOf (r : Run) : RunIx := ⟨r.seed, r.epoch, r.sample, r.op⟩

/-- The chain of a run after k sweeps from its beginning (R353). -/
def runAt (r : Run) (k : Nat) : ChainSt := chainTo r.prob (ixOf r) r.sched k (chainStart r.prob)

/-! ## Results (R347, R348) -/

/-- The 2,048 bytes of a state. -/
def stateBytes (x : List Bool) : List Byte := toLe 2048 (stateNat x)

/-- The result of Table CHN-5. -/
def resultBytes (tag flags : Nat) (k : Int) (c : ChainSt) : List Byte :=
  toLe 8 tag ++ toLe 4 c.sweeps ++ toLe 2 flags ++ toLe 2 c.repaired ++ toLe 12 (toTwos 96 c.comm.1) ++ toLe 2 (toTwos 16 k)
    ++ zeros 2 ++ toLe 12 (toTwos 96 c.fin.1) ++ toLe 4 c.commSweep ++ toLe 8 c.steps ++ zeros 8 ++ stateBytes c.comm.2
    ++ stateBytes c.fin.2

/-- The trace records that fit a region (R348). -/
def traceBytes (c : ChainSt) (len : Nat) : List Byte :=
  ((c.trace.reverse.take (len / 16)).zipIdx).flatMap (fun x => toLe 12 (toTwos 96 x.1) ++ toLe 4 (x.2 + 1))

/-! ## Problems in memory (R337 to R340) -/

/-- Bytes of a coefficient by format (R340). -/
def coefBytes (fmt : Nat) : Nat := nth [2, 4, 8, 4] fmt

/-- SRAM bytes of R338: P + D. -/
def sramBytes (n coup groups fmt : Nat) : Nat :=
  36 * n + 2 * coup * (coefBytes fmt + 2) + 128 * groups + 16 * n + 4160

def align64 (n : Nat) : Nat := (n + 63) / 64 * 64

/-- Offsets of h, couplings, groups, start state, and the end (R340). -/
def probOffsets (n coup groups fmt : Nat) (start : Bool) : Nat × Nat × Nat × Nat × Nat :=
  let h := align64 160
  let c := align64 (h + n * coefBytes fmt)
  let g := align64 (c + coup * (4 + coefBytes fmt))
  let x := align64 (g + 128 * groups)
  (h, c, g, x, if start then x + 2048 else g + 128 * groups)

/-- A coefficient as an integer, before scaling its 32-bit pattern for fp32. -/
def coefAt (b : List Byte) (fmt off : Nat) : Int :=
  if fmt = 3 then Int.ofNat (field b off 4) else ofTwos (8 * coefBytes fmt) (field b off (coefBytes fmt))

/-- floor(log2) of a finite fp32 magnitude, none for zero. -/
def log2Floor (w : Word32) : Option Int := match fval w with
  | .fin _ m e => if m = 0 then none else some (e + Int.ofNat m.log2)
  | _ => none

/-- k of R339 over a list of fp32 words. -/
def scaleExp (l : List Word32) : Int :=
  let ms := l.filterMap log2Floor
  match ms with
  | [] => 0
  | m :: rest => 30 - rest.foldl max m

/-- A word times 2^k, to the nearest integer, ties to even. -/
def scaled (k : Int) (w : Word32) : Int := match fval w with
  | .fin s m e => fnearest (.fin s m (e + k))
  | _ => 0

/-- The stages of a schedule; none when one breaks Table CHN-4 or an unused entry is not 0. -/
def schedOf (b : List Byte) (n : Nat) : Option (List SchedStage) :=
  let at_ (i : Nat) : SchedStage := { beta := BitVec.ofNat 32 (field b (8 * i) 4), sweeps := field b (8 * i + 4) 4 }
  let ok (s : SchedStage) : Bool := decide (s.beta.toNat < 0x7F800000) && within 1 65535 s.sweeps
  if within 1 16 n && (List.range n).all (fun i => ok (at_ i)) && zeroAt b (8 * n) (128 - 8 * n) then
    some ((List.range n).map at_)
  else none

/-- Whether a list of pairs has no pair twice. -/
def distinctPairs (l : List (Nat × Nat)) : Bool := l.length == (uniq l).length

/-- A group record: ascending members, then padding only. -/
def groupAt (b : List Byte) (n off : Nat) : Option (List Nat) :=
  let w := (List.range 64).map (fun i => field b (off + 2 * i) 2)
  let m := w.takeWhile (fun x => x != 0xFFFF)
  if (w.drop m.length).all (fun x => x == 0xFFFF) && m.all (fun i => decide (i < n))
      && (m.zip (m.drop 1)).all (fun x => decide (x.1 < x.2)) then some m else none

/-- What reading a problem gives. -/
inductive ProbRead where
  | ok (pr : Prob) (sched : List SchedStage) (trace : Bool)
  | malformed
  | tooLarge

/-- Whether the header shows a problem beyond Table CHN-2 or R338. -/
def headerTooLarge (b : List Byte) : Bool :=
  let n := field b 0 2
  let g := field b 2 2
  let c := field b 4 4
  !within 1 16384 n || decide (1048576 < c) || decide (4096 < g) || decide (16777216 < sramBytes n c g (field b 8 1))

/-- Bytes of the problem that a header announces. -/
def probLength (b : List Byte) : Nat :=
  (probOffsets (field b 0 2) (field b 4 4) (field b 2 2) (field b 8 1) (bit (field b 0x0A 1) 1)).2.2.2.2

/-- Read a problem (R337 to R340): the limits that its header shows come first. -/
def readProblem (b : List Byte) : ProbRead :=
  let n := field b 0 2
  let g := field b 2 2
  let cn := field b 4 4
  let fmt := field b 8 1
  let fl := field b 0x0A 1
  if 3 < fmt then .malformed
  else if headerTooLarge b then .tooLarge
  else match schedOf (slice b 0x18 128) (field b 9 1) with
    | none => .malformed
    | some sched =>
      match probOffsets n cn g fmt (bit fl 1) with
      | (ho, co, go, so, _) =>
        let cb := coefBytes fmt
        let c0 := if fmt = 3 then Int.ofNat (field b 0x10 4) else ofTwos 64 (field b 0x10 8)
        let h := (List.range n).map (fun i => coefAt b fmt (ho + cb * i))
        let js := (List.range cn).map (fun i =>
          let o := co + (4 + cb) * i
          (field b o 2, field b (o + 2) 2, coefAt b fmt (o + 4)))
        let gs := (List.range g).filterMap (fun i => groupAt b n (go + 128 * i))
        let words := (c0 :: h ++ js.map (fun x => x.2.2)).map (fun i => BitVec.ofInt 32 i)
        let bad := decide (3 < fl) || !zeroAt b 0x0B 5 || !zeroAt b 0x98 8 || (fmt == 3 && !zeroAt b 0x14 4)
          || gs.length != g || js.any (fun x => decide (x.2.1 ≤ x.1) || decide (n ≤ x.2.1))
          || !distinctPairs (js.map (fun x => (x.1, x.2.1))) || !distinct gs.flatten
          || (fmt == 3 && words.any (fun w => 0x7F800000 ≤ w.toNat % 2 ^ 31))
        if bad then .malformed
        else if gs.any (fun m => !within 2 64 m.length) then .tooLarge
        else
          let k := if fmt = 3 then scaleExp words else 0
          let v (i : Int) : Int := if fmt = 3 then scaled k (BitVec.ofInt 32 i) else i
          let st := field b so 2048
          .ok { n := n, c := v c0, h := h.map v, js := js.map (fun x => (x.1, x.2.1, v x.2.2)), groups := gs
                start := if bit fl 1 then bitsOf st n else [], k := k } sched (bit fl 0)

/-- The bytes of an int64 problem without a start state (R340, R440). -/
def probBytes (pr : Prob) (sched : List SchedStage) : List Byte :=
  let n := pr.js.length
  let off := probOffsets pr.n n pr.groups.length 2 false
  let hd := toLe 2 pr.n ++ toLe 2 pr.groups.length ++ toLe 4 n ++ toLe 1 2 ++ toLe 1 sched.length ++ zeros 6
    ++ toLe 8 (toTwos 64 pr.c) ++ padTo 128 (sched.flatMap (fun x => toLe 4 x.beta.toNat ++ toLe 4 x.sweeps)) ++ zeros 8
  let h := pr.h.flatMap (fun x => toLe 8 (toTwos 64 x))
  let c := pr.js.flatMap (fun x => toLe 2 x.1 ++ toLe 2 x.2.1 ++ toLe 8 (toTwos 64 x.2.2))
  let g := pr.groups.flatMap (fun m => m.flatMap (toLe 2) ++ List.replicate (128 - 2 * m.length) 0xFF)
  padTo off.1 hd ++ padTo (off.2.1 - off.1) h ++ padTo (off.2.2.1 - off.2.1) c ++ g

/-! ## Packing (R355 to R359) -/

/-- The packing problem of a step: lengths and classes of its samples in offset order (R356). -/
def packProblem (alpha gamma bN : Nat) (l : List (Nat × Nat)) : Prob :=
  let b : Int := Int.ofNat bN
  let al : Int := Int.ofNat alpha
  let ga : Int := Int.ofNat gamma
  let tot : Int := Int.ofNat (sumL (l.map (fun x => x.1)))
  let nc (c : Nat) : Int := Int.ofNat (l.filter (fun x => x.2 == c)).length
  let ix := l.zipIdx
  let h := ix.flatMap (fun x =>
    let len : Int := Int.ofNat x.1.1
    let v := al * (b * b * len * len - 2 * b * tot * len)
      + (if x.1.2 = 0xFF then 0 else ga * (b * b - 2 * b * nc x.1.2))
    List.replicate bN v)
  let js := ix.flatMap (fun s => (ix.drop (s.2 + 1)).flatMap (fun t =>
    let v := 2 * al * b * b * Int.ofNat s.1.1 * Int.ofNat t.1.1
      + (if s.1.2 = t.1.2 && s.1.2 != 0xFF then 2 * ga * b * b else 0)
    (List.range bN).map (fun k => (s.2 * bN + k, t.2 * bN + k, v))))
  { n := l.length * bN
    c := al * b * tot * tot + ga * b * (((List.range 256).filter (fun c => c != 0xFF)).map (fun c => nc c * nc c)).foldl (· + ·) 0
    h := h, js := js, groups := (List.range l.length).map (fun s => (List.range bN).map (fun k => s * bN + k)), start := [], k := 0 }

/-- Token counts and classes of the samples of a step (Table IMG-9, R356). -/
def packInput (st : OpenStep) : List (Nat × Nat) := st.samples.map (fun x => (x.tokens.length, x.cls))

/-- The batch of each sample in a state. -/
def assignOf (bN sN : Nat) (x : List Bool) : List Nat :=
  (List.range sN).map (fun s => ((List.range bN).find? (fun b => x.getD (s * bN + b) false)).getD 0)

/-- Tokens of each batch. -/
def loadsOf (bN : Nat) (assign lens : List Nat) : List Nat :=
  (assign.zip lens).foldl (fun l x => if x.1 < bN then l.set x.1 (nth l x.1 + x.2) else l) (List.replicate bN 0)

/-- Greedy first-fit: 0xFF for an overflow sample (R358). -/
def greedyFit (bN cap : Nat) (lens : List Nat) : List Nat :=
  (lens.foldl (fun (a : List Nat × List Nat) n =>
    match (List.range bN).find? (fun b => nth a.2 b + n ≤ cap) with
    | some b => (a.1 ++ [b], a.2.set b (nth a.2 b + n))
    | none => (a.1 ++ [0xFF], a.2)) ([], List.replicate bN 0)).1

/-- The record that a recreate load supplies for a step (R232, R359). -/
def suppliedFor (q : Part) (st : OpenStep) : Option (List Byte) :=
  if q.ld.recreate then q.ld.records.find? (fun r => field r 0 8 == packCursor st.first) else none

/-- The PACK entries of a step are done. -/
def packDone (p : Pid) (slot : Nat) (s : State) : State :=
  let q := partOf s p
  entriesDone p slot (fun e => e.stepScope && (stageAt q e.stage).kind == 0x0E) s

/-- The step has an annealed assignment (R357). -/
def packAnnealed (p : Pid) (slot : Nat) (c : ChainSt) (assign : List Nat) (s : State) : State :=
  let s := modStep p slot (fun st => { st with packMode := 0, sweeps := c.sweeps, assign := assign, packDone := true }) s
  packDone p slot (modPCnt p (fun k => { k with annealed := satAdd 64 k.annealed 1 }) s)

/-- Overflow samples are counted and logged (R358). -/
def logOverflow (p : Pid) (st : OpenStep) (assign : List Nat) (s : State) : State :=
  ((st.samples.zip assign).filter (fun x => x.2 == 0xFF)).foldl (fun s x =>
    let c := packCursor { st.first with off := x.1.off }
    logEvent p.val 0x0602 c (c / 2 ^ 32) 0 0 (modPCnt p (fun k => { k with overflow := satAdd 64 k.overflow 1 }) s)) s

/-- Greedy first-fit with its cause: 1 budget, 2 capacity, 3 Churn unavailable, 0 a recreated greedy step, which is no
fallback (R357 to R359). -/
def packGreedy (p : Pid) (slot cause : Nat) (s : State) : State :=
  let q := partOf s p
  match stepIn q slot, (bodyOf q).pack with
  | some st, some d =>
    let a := greedyFit (hdrOf q).batchesPerStep d.lCap (st.samples.map (fun x => x.tokens.length))
    let s := modStep p slot (fun st => { st with packMode := 1, sweeps := 0, assign := a, packDone := true }) s
    let s := modPCnt p (fun k => { k with
      greedyBudget := if cause = 1 then satAdd 64 k.greedyBudget 1 else k.greedyBudget
      greedyCap := if cause = 2 then satAdd 64 k.greedyCap 1 else k.greedyCap
      greedyChurn := if cause = 3 then satAdd 64 k.greedyChurn 1 else k.greedyChurn }) s
    let s := if cause = 0 then s
             else limited (.packing p 0) 1000000000 (fun n => logEvent p.val 0x0601 cause n 0 0) p.val s
    packDone p slot (logOverflow p st a s)
  | _, _ => s

/-- The tile part decides a packing run that ended after k sweeps (R357); an exact run keeps its assignment (R359). -/
def packOutcome (p : Pid) (r : Run) (k : Nat) (s : State) : State :=
  let q := partOf s p
  match stepIn q r.slot, (bodyOf q).pack with
  | some st, some d =>
    let c := runAt r k
    let bN := (hdrOf q).batchesPerStep
    let a := assignOf bN st.samples.length c.comm.2
    let fits := (loadsOf bN a (st.samples.map (fun x => x.tokens.length))).all (fun n => decide (n ≤ d.lCap))
    if r.exact.isSome || (decide (d.sMin ≤ c.sweeps) && fits) then packAnnealed p r.slot c a s
    else packGreedy p r.slot (if c.sweeps < d.sMin then 1 else 2) s
  | _, _ => s

/-! ## Churn time (R350 to R352) -/

/-- Whether Churn runs. -/
def churnUp (s : State) : Bool := domOn s 7 && !s.units.churn.fenced

/-- Class of a run (R350). -/
def runClass (r : Run) : Nat := min r.kind 2

/-- The run a partition would run: packing of the older step first, placement, then CHURN_RUN in acceptance order (R352).
-/
def topRun (q : Part) : Option Run :=
  match q.sc.steps.findSome? (fun st => q.runs.find? (fun r => r.kind == 0 && r.slot == st.slot)) with
  | some r => some r
  | none => match q.runs.find? (fun r => r.kind == 1) with
    | some r => some r
    | none => q.runs.find? (fun r => decide (2 ≤ r.kind))

/-- The owner of the current slice, if one has it. -/
def sliceOwner (s : State) : Option Pid :=
  match s.units.churn.owners.find? (fun x => x.1 == s.units.churn.slice) with
  | some x => pidOf x.2
  | none => none

/-- The partition that takes the slice or its remainder: the owner, else the guest of the best class from the rotating
pointer (R350). -/
def pickHolder (s : State) : Option Pid :=
  let has (p : Pid) : Bool := (topRun (partOf s p)).isSome
  match (sliceOwner s).filter has with
  | some p => some p
  | none =>
    let l := allPids.filter has
    let cls (p : Pid) : Nat := match topRun (partOf s p) with
      | some r => runClass r
      | none => 3
    let best := l.foldl (fun a p => min a (cls p)) 3
    let c := l.filter (fun p => cls p == best)
    match c.find? (fun p => decide (s.units.churn.rr ≤ p.val)) with
    | some p => some p
    | none => c.head?

/-- Whether two runs are the same one. -/
def sameRun (a b : Run) : Bool := a.kind == b.kind && a.slot == b.slot && a.tag == b.tag && decide (a.req = b.req)

/-- Change one run of a partition. -/
def modRun (p : Pid) (r : Run) (g : Run → Run) (s : State) : State :=
  modPart p (fun q => { q with runs := modFirst (sameRun r) g q.runs }) s

def dropRun (p : Pid) (r : Run) (s : State) : State :=
  modPart p (fun q => { q with runs := q.runs.filter (fun x => !sameRun r x) }) s

/-- Every unfinished run but one leaves Churn with its state saved (R351, R352). -/
def saveOthers (p : Option Pid) (keep : Option Run) (s : State) : State :=
  { s with parts := s.parts.mapFinIdx (fun i q _ => { q with runs := q.runs.map (fun r =>
      let stays := (match p with | some p => decide (p.val = i) | none => false) && (match keep with | some k => sameRun k r | none => false)
      if r.started && !stays then { r with saved := true } else r) }) }

/-- Give Churn to a partition's run; a change of run saves, clears and loads (R351). -/
def seat (h : Option Pid) (s : State) : State :=
  match h with
  | none => modChurn (fun c => { c with holder := none, moving := false, moveRetried := false }) (saveOthers none none s)
  | some p =>
    match topRun (partOf s p) with
    | none => s
    | some r =>
      let c := s.units.churn
      if decide (c.holder = some p) && (c.moving || (r.started && !r.saved)) then s
      else
        modChurn (fun c => { c with
          holder := some p, moving := true, moveRetried := false
          rr := if sliceOwner s = some p then c.rr else (p.val + 1) % 64 }) (saveOthers (some p) (some r) s)

/-- What is left of the slice goes to the next partition (R350). -/
def passOn (s : State) : State := if churnUp s then seat (pickHolder s) s else s

/-- A run has arrived: it takes an idle slice, or displaces a later run of its own partition (R350, R352). -/
def wakeChurn (p : Pid) (s : State) : State :=
  if !churnUp s then s
  else match s.units.churn.holder with
    | none => seat (pickHolder s) s
    | some h =>
      if h = p then seat (some p) s
      else if (topRun (partOf s h)).isNone then seat (pickHolder s) s
      else s

/-- Add a run to its partition. -/
def addRun (r : Run) (s : State) : State := wakeChurn r.part (modPart r.part (fun q => { q with runs := q.runs ++ [r] }) s)

/-- CHURN_SLICE_START: the next slice of the frame begins; changes of grants take effect at a frame boundary (R349, R350,
R366). -/
def doSliceStart (s : State) : State :=
  if !domOn s 7 then s
  else
    let i := (s.units.churn.slice + 1) % 100
    let s := modChurn (fun c => { c with slice := i, owners := if i = 0 then churnOwners s else c.owners }) s
    if churnUp s then seat (pickHolder s) s else s

/-- Row CHURN_SLICE_START. -/
def execChurnSliceStart (s : State) : Host.Outcome State Fault Refusal := .next (doSliceStart s)

/-- The tag of a run (Table CHN-5). -/
def runTag (r : Run) : Nat := r.tag

def churnUnit : Nat := unitId 0x09 0

/-- A run that cannot go on: a host's request ends FENCED, a revision keeps the placement (R365). -/
def abandonRun (p : Pid) (r : Run) (s : State) : State :=
  let s := dropRun p r s
  if r.kind = 1 then
    let x := (partOf s p).ex
    logEvent p.val 0x0501 x.version r.tag 2 0 (modEx p (fun e => { e with running := false, kept := e.kept + 1 }) s)
  else if r.kind = 2 then completeOpt r.req stFenced 0x0114 0 s
  else if r.kind = 3 then
    (match r.req.bind (findReq s) with
      | some q => finish q (ansFenced 0x0114) s
      | none => s)
  else s

/-- CHURN_SAVE_LOAD_DONE: the incoming run goes on; a failure is retried once, and a second one is a lasting fault of the
partition's near memory, which fences it (R190, R191, R351, R365). -/
def doSaveLoad (ok : Bool) (s : State) : State :=
  let c := s.units.churn
  match c.holder with
  | none => s
  | some p =>
    if !c.moving || !churnUp s then s
    else match topRun (partOf s p) with
      | none => modChurn (fun c => { c with moving := false }) s
      | some r =>
        if ok then
          let s := if c.moveRetried then transientFault p.val churnUnit 0x0002 (runTag r) s else s
          modRun p r (fun r => { r with started := true, saved := false }) (modChurn (fun c => { c with moving := false, moveRetried := false }) s)
        else if !c.moveRetried then modChurn (fun c => { c with moveRetried := true }) s
        else
          let s := lastingFault p.val churnUnit 0x0002 3 (runTag r) s
          let s := abandonRun p r (modChurn (fun c => { c with moving := false, moveRetried := false }) s)
          passOn (fencePart p 0x0002 s)

/-- Row CHURN_SAVE_LOAD_DONE. -/
def execChurnSaveLoadDone (ok : Bool) (s : State) : Host.Outcome State Fault Refusal := .next (doSaveLoad ok s)

/-! ## Placement (R332, R362, R363) -/

/-- Spare groups in ascending id. -/
def spareGroups (b : ImgBody) : List Nat := (b.groupsE.filter (fun g => g.spare)).foldl (fun a g => insSorted g.id a) []

/-- The groups of an expert's fixed replicas. -/
def fixedGroups (b : ImgBody) (e : Nat) : List Nat := (groupsOf b.placement0 e).filter (fun g => !(spareGroups b).contains g)

/-- The candidates of a spare group in ascending id (R362). -/
def placeCands (b : ImgBody) : List ExpertDecl :=
  ((List.range 64).filterMap (fun i => b.experts.find? (fun e => e.id == i))).filter
    (fun e => decide ((fixedGroups b e.id).length < e.rMax))

/-- v_j of R362; v_0 is an open value (log entry 43). -/
def gainV (c j : Nat) : Int := if j = 0 then Int.ofNat (Config.placementV0 c) else Int.ofNat (c * 2 ^ 16 / j)

/-- The placement problem over window counters (R362). -/
def placeProblem (b : ImgBody) (window : List Nat) (nu : Nat) : Prob :=
  let sp := spareGroups b
  let cs := placeCands b
  let w := cs.length + 1
  let a1 (e : ExpertDecl) : Int :=
    let m := (fixedGroups b e.id).length
    gainV (nth window e.id) m - gainV (nth window e.id) (m + 1)
  let a2 (e : ExpertDecl) : Int :=
    let m := (fixedGroups b e.id).length
    gainV (nth window e.id) (m + 1) - gainV (nth window e.id) (m + 2)
  let h1 := cs.map (fun e => -a1 e + Int.ofNat (nu * ceilDiv e.weightBytes 1048576)) ++ [0]
  let ks := List.range sp.length
  let js := ks.flatMap (fun g => (ks.drop (g + 1)).flatMap (fun k => (cs.zipIdx).map (fun e =>
    (g * w + e.2, k * w + e.2, a1 e.1 - a2 e.1))))
  { n := sp.length * w, c := 0, h := ks.flatMap (fun _ => h1), js := js
    groups := ks.map (fun g => (List.range w).map (fun i => g * w + i)), start := [], k := 0 }

/-- The placement that a state of the problem stands for (R363). -/
def placeOf (b : ImgBody) (x : List Bool) : List (Nat × List Nat) :=
  let sp := (spareGroups b).zipIdx
  let w := (placeCands b).length + 1
  b.experts.map (fun e =>
    let more := match (placeCands b).findIdx? (fun c => c.id == e.id) with
      | some i => (sp.filter (fun g => x.getD (g.2 * w + i) false)).map (fun g => g.1)
      | none => []
    (e.id, fixedGroups b e.id ++ more))

/-- Send the problem of a split run to the partner, in segments (R354, R440). -/
def sendProblem (p : Pid) (rev epoch : Nat) (bs : List Byte) (s : State) : State :=
  (List.range (ceilDiv bs.length 4056)).foldl (fun s i =>
    darradSend 0x0A 0 p.val 0 (toLe 4 rev ++ toLe 2 epoch ++ zeros 2 ++ toLe 4 bs.length ++ toLe 4 (4056 * i)
      ++ (bs.drop (4056 * i)).take 4056) s) s

/-- Whether a revision's run is split over the pair (R354). -/
def splitRun (s : State) (p : Pid) (d : PlaceDecl) : Bool := d.split && (partOf s p).g.mirrored && darradUp s

/-- Start a revision in an epoch: its window counters are cleared; without Churn, slices or anything to place, the current
placement is kept and counted (R332).  The revision count of a run counts the revisions started before it (log entry 44). -/
def startRevision (p : Pid) (epoch : Nat) (s : State) : State :=
  let q := partOf s p
  let b := bodyOf q
  let rev := q.ex.revisions
  let window := q.ex.window
  let s := modEx p (fun e => { e with revisions := e.revisions + 1, window := [] }) s
  let kept (s : State) : State := logEvent p.val 0x0501 q.ex.version rev 2 0 (modEx p (fun e => { e with kept := e.kept + 1 }) s)
  match b.place with
  | none => kept s
  | some d =>
    if !churnUp s || q.g.churn.isEmpty || (spareGroups b).isEmpty || (placeCands b).isEmpty || d.sched.isEmpty then kept s
    else
      let pr := placeProblem b window d.nu
      let split := splitRun s p d
      let r : Run := { kind := 1, part := p, tag := rev, prob := pr, sched := d.sched, seed := q.ld.seed.getD 0, epoch := epoch
                       sample := 2 ^ 39 + 2 ^ 38 + rev % 2 ^ 38, op := 0x2100, split := split }
      let s := modEx p (fun e => { e with running := true }) s
      let s := if split then sendProblem p rev epoch (probBytes pr d.sched) s else s
      addRun r s

/-- A placement run's result: it becomes ready, or the current placement is kept (R333, R363). -/
def placeOutcome (p : Pid) (r : Run) (best : List Bool) (s : State) : State :=
  let b := bodyOf (partOf s p)
  let pl := placeOf b best
  let s := modEx p (fun e => { e with running := false }) s
  if placementFail b pl = 0 then modEx p (fun e => { e with ready := some pl, readyKind := 0 }) s
  else logEvent p.val 0x0501 (partOf s p).ex.version r.tag 2 0 (modEx p (fun e => { e with kept := e.kept + 1 }) s)

/-! ## Split runs (R354) -/

/-- Sweeps at the end of a stage. -/
def stageEnd (r : Run) (k : Nat) : Nat := schedSweeps (r.sched.take (k + 1))

/-- The chain of a split run at the end of its stage in work. -/
def splitStage (r : Run) : ChainSt := chainTo r.prob (ixOf r) r.sched (stageEnd r r.stage) (r.chain.getD (chainStart r.prob))

/-- What a chain takes from the other's message for the same stage: its committed best, if lower (R354). -/
def adopt (r : Run) (c : ChainSt) : ChainSt :=
  match r.others.find? (fun m => m.1 == r.stage) with
  | some m => if m.2.1 < c.comm.1 then { c with x := m.2.2, e := m.2.1, best := m.2, comm := m.2 } else c
  | none => c

/-- CHURN_STAGE of a chain (Table PAIR-7). -/
def sendStage (r : Run) (c : ChainSt) (s : State) : State :=
  darradSend 0x0B 0 r.part.val 0 (toLe 4 r.tag ++ toLe 1 r.chainNo ++ toLe 1 r.stage ++ zeros 2 ++ toLe 12 (toTwos 96 c.comm.1)
    ++ zeros 4 ++ stateBytes c.comm.2) s

/-- The lower committed best of the two chains, ties to chain 0 (R354). -/
def splitBest (r : Run) (c : ChainSt) : List Bool :=
  match r.others.find? (fun m => m.1 == r.stage) with
  | some m => if m.2.1 < c.comm.1 then m.2.2 else c.comm.2
  | none => c.comm.2

/-! ## Runs end -/

/-- Write the result of a host run, and its trace (R347, R348, R364). -/
def hostOutcome (p : Pid) (r : Run) (s : State) : State :=
  let c := runAt r (schedSweeps r.sched)
  let full := r.slot = 1 && decide (r.traceLen / 16 < c.sweeps)
  let s := winWrite p r.resultAddr (resultBytes r.tag (2 * full.toNat) r.prob.k c) s
  let s := if r.slot = 1 then winWrite p r.traceAddr (traceBytes c r.traceLen) s else s
  completeOpt r.req 0 0 c.sweeps s

/-- The end of a partition's run on Churn. -/
def runEnds (p : Pid) (r : Run) (s : State) : State :=
  let ended (s : State) : State :=
    dropRun p r (if r.retried then transientFault p.val churnUnit 0x0002 (runTag r) s else s)
  if r.kind = 0 then packOutcome p r (r.exact.getD (schedSweeps r.sched)) (ended s)
  else if r.kind = 1 then
    if r.split then
      let c := splitStage r
      let s := sendStage r c s
      if r.stage + 1 < r.sched.length then modRun p r (fun r => { r with stage := r.stage + 1, chain := some (adopt r c) }) s
      else placeOutcome p r (splitBest r c) (ended s)
    else placeOutcome p r (runAt r (schedSweeps r.sched)).comm.2 (ended s)
  else if r.kind = 2 then hostOutcome p r (ended s)
  else
    let s := ended s
    match r.req.bind (findReq s) with
    | some q => evalFinish q s
    | none => s

/-- A chain 1 after one of its stages: it goes on, or its state is discarded (R452). -/
def chain1Next (x : Chain1) (r : Run) (c : ChainSt) (l : List Chain1) : List Chain1 :=
  let on : Chain1 := { x with run := some { r with stage := r.stage + 1, chain := some (adopt r c) } }
  if r.stage + 1 < r.sched.length then modFirst (fun y => decide (y.part = x.part)) (fun _ => on) l
  else l.filter (fun y => decide (y.part ≠ x.part))

/-- A stage of the partner's chain 1 ends (R354). -/
def chain1Ends (x : Chain1) (r : Run) (s : State) : State :=
  let c := splitStage r
  modChurn (fun k => { k with chain1 := chain1Next x r c k.chain1 }) (sendStage r c s)

/-- CHURN_RUN_END: the schedule of the run on Churn ends (of a split run, each of its stages: log entry 45); chain 1 of the
partner runs below every class (R350, R354). -/
def doRunEnd (s : State) : State :=
  let c := s.units.churn
  if !churnUp s || c.moving then s
  else match c.holder with
    | some p =>
      (match topRun (partOf s p) with
        | some r => if r.started && !r.saved then passOn (runEnds p r s) else s
        | none => passOn s)
    | none =>
      (match c.chain1.find? (fun x => x.run.isSome) with
        | some x => (match x.run with
          | some r => chain1Ends x r s
          | none => s)
        | none => s)

/-- Row CHURN_RUN_END. -/
def execChurnRunEnd (s : State) : Host.Outcome State Fault Refusal := .next (doRunEnd s)

/-- PACKING_BUDGET_EXPIRY: the older packing run of the partition stops after the sweeps it completed (R357); a recreated
step has no budget (R359). -/
def doPackBudget (p : Pid) (sweeps : Nat) (s : State) : State :=
  let q := partOf s p
  match q.sc.steps.findSome? (fun st => q.runs.find? (fun r => r.kind == 0 && r.slot == st.slot && r.exact.isNone)) with
  | none => s
  | some r =>
    let held := decide (s.units.churn.holder = some p) && (match topRun q with | some t => sameRun t r | none => false)
    let s := dropRun p r s
    let s := if !churnUp s then packGreedy p r.slot 3 s
             else packOutcome p r (if r.started then min sweeps (schedSweeps r.sched) else 0) s
    if held then passOn (modChurn (fun c => { c with moving := false, moveRetried := false }) s) else s

/-- Row PACKING_BUDGET_EXPIRY. -/
def execPackingBudgetExpiry (p : Pid) (sweeps : Nat) (s : State) : Host.Outcome State Fault Refusal :=
  .next (doPackBudget p sweeps s)

/-- PLACEMENT_BUDGET_EXPIRY: the revision keeps the placement (R332, R363). -/
def doPlaceBudget (p : Pid) (s : State) : State :=
  match (partOf s p).runs.find? (fun r => r.kind == 1) with
  | none => s
  | some r =>
    let held := decide (s.units.churn.holder = some p) && (match topRun (partOf s p) with | some t => sameRun t r | none => false)
    let s := abandonRun p r s
    if held then passOn (modChurn (fun c => { c with moving := false, moveRetried := false }) s) else s

/-- Row PLACEMENT_BUDGET_EXPIRY. -/
def execPlacementBudgetExpiry (p : Pid) (s : State) : Host.Outcome State Fault Refusal := .next (doPlaceBudget p s)

/-- Churn is fenced: each partition that holds slices is told, host runs end FENCED, revisions keep the placement, and a
recreated packing run fences its partition (R359, R365). -/
def churnFence (part tag : Nat) (s : State) : State :=
  let users := partsWhere s (fun q => !q.g.churn.isEmpty)
  let s := lastingFence part churnUnit 0x0002 2 tag users s
  let s := (users.filter (fun p => p.val != part)).foldl (fun s p => logEvent p.val 0x0002 churnUnit 0x0002 2 tag s) s
  let s := modChurn (fun c => { c with fenced := true, holder := none, moving := false, moveRetried := false, chain1 := [] }) s
  allPids.foldl (fun s p =>
    let rs := (partOf s p).runs
    let s := (rs.filter (fun r => r.kind != 0)).foldl (fun s r => abandonRun p r s) s
    if rs.any (fun r => r.kind == 0 && r.exact.isSome) then fencePart p 0x0002 s else s) s

/-- CHURN_SRAM_UNCORRECTABLE: the run restarts once from its beginning, with its problem loaded again (R365). -/
def doChurnSram (s : State) : State :=
  let c := s.units.churn
  if !churnUp s then s
  else match c.holder with
    | none => s
    | some p => match topRun (partOf s p) with
      | none => s
      | some r =>
        if !r.started || r.saved then s
        else if r.retried then churnFence p.val (runTag r) s
        else
          let s := modRun p r (fun r => { r with retried := true, started := false, stage := 0, chain := none }) s
          modChurn (fun c => { c with moving := true, moveRetried := false }) s

/-- Row CHURN_SRAM_UNCORRECTABLE. -/
def execChurnSramUncorrectable (s : State) : Host.Outcome State Fault Refusal := .next (doChurnSram s)

/-! ## Commands -/

/-- Whether a range is in the window and its granules are zero (R116). -/
def windowReady (q : Part) (wa n : Nat) : Bool := rangeZero q.g.win wa n

/-- The fields of CHURN_RUN (R364, R515): its regions lie in the window. -/
def churnRunFields (s : State) (r : Req) : Bool :=
  let b := r.payload
  let w := (partOf s r.pid).g.win
  let ta := field b 16 8
  let tl := field b 24 8
  inWindow w (field b 0 8) 160 && inWindow w (field b 8 8) 4160 && tl % 16 == 0
    && (if ta = 0 then tl == 0 else inWindow w ta tl)

/-- CHURN_RUN (R364). -/
def churnRunBody (r : Req) (s : State) : State × Ans :=
  let b := r.payload
  let p := r.pid
  let q := partOf s p
  let a := field b 0 8
  if q.g.churn.isEmpty || !domOn s 7 then (s, ansRefused 0x0601)
  else if s.units.churn.fenced then (s, ansFenced 0x0114)
  else if !windowReady q a 160 || !windowReady q (field b 8 8) 4160 then (s, ansBusy 0x0105 1000)
  else
    let hd := winRead s p a 160
    if field hd 8 1 ≤ 3 && headerTooLarge hd then (s, ansRefused 0x0602)
    else if !inWindow q.g.win a (probLength hd) then (s, ansBad)
    else match readProblem (winRead s p a (probLength hd)) with
      | .malformed => (s, ansBad)
      | .tooLarge => (s, ansRefused 0x0602)
      | .ok pr sched trace =>
        let tag := field b 48 8
        let run : Run := { kind := 2, part := p, tag := tag, slot := trace.toNat, prob := pr, sched := sched
                           seed := BitVec.ofNat 128 (field b 32 16), epoch := 0, sample := 2 ^ 39 + tag % 2 ^ 32, op := 0x2000
                           req := some r.id, resultAddr := field b 8 8, traceAddr := field b 16 8, traceLen := field b 24 8 }
        (addRun run s, ansPend)

/-- Row CHURN_RUN. -/
def execChurnRun (r : ReqId) (s : State) : Host.Outcome State Fault Refusal :=
  .next (runCmd r 0x0701 (fun _ => true) churnRunFields (answering churnRunBody) s)

/-- RANDOM_EVALUATE (R308): at once on a cluster, as a run of the CHURN_RUN class on Churn. -/
def evaluateBody (r : Req) (s : State) : State × Option Ans :=
  let q := partOf s r.pid
  if field r.payload 16 1 = 0 then
    let c := field r.payload 17 1
    if !q.g.clusters.contains c then (s, some ansNotOwner)
    else if !domOn s (clusterDom c) then (s, some (ansRefused 0x0102))
    else (evalFinish r s, none)
  else if q.g.churn.isEmpty || !domOn s 7 then (s, some (ansRefused 0x0601))
  else if s.units.churn.fenced then (s, some (ansFenced 0x0114))
  else
    let run : Run := { kind := 3, part := r.pid, tag := 0, prob := ⟨0, 0, [], [], [], [], 0⟩, sched := [], seed := 0, epoch := 5
                       sample := 0, op := 0, req := some r.id }
    (addRun run (modReq r.id (fun q => { q with phase := .moving }) s), none)

/-- Row RANDOM_EVALUATE. -/
def execRandomEvaluate (r : ReqId) (s : State) : Host.Outcome State Fault Refusal :=
  .next (runCmd r 0x0504 (fun _ => true) evalFields evaluateBody s)

/-- The placement of a SET request, of the experts the image declares (R514). -/
def setEntries (b : List Byte) : List (Nat × Nat × List Nat) :=
  (List.range 64).map (fun e => (e, field b (4 + 5 * e) 1, (List.range 4).map (fun k => field b (5 + 5 * e + k) 1)))

/-- ROUTING_PLACE in mode REVISE_NOW (R334). -/
def reviseBody (r : Req) (s : State) : State × Ans :=
  let q := partOf s r.pid
  if r.payload.length != 4 then (violation r.fn 5 0x0601 s, ansBadLength)
  else if q.ex.running then (s, ansBusy 0 1000)
  else if q.g.churn.isEmpty then (s, ansRefused 0x0601)
  else (startRevision r.pid q.ld.cursor.epoch s, ansOk (toLe 4 q.ex.version))

/-- Row ROUTING_PLACE, mode REVISE_NOW. -/
def execRoutingPlaceReviseNow (r : ReqId) (s : State) : Host.Outcome State Fault Refusal :=
  .next (runCmd r 0x0601 (fun b => field b 0 1 != 1) (fun _ r => field r.payload 0 1 == 0 && zeroAt r.payload 1 3)
    (answering reviseBody) s)

/-- Whether unused entries of a SET request are 0xFF and undeclared experts have none (R514). -/
def setFieldsOk (b : List Byte) : Bool :=
  b.length != 324 || (setEntries b).all (fun x => decide (4 < x.2.1) || (x.2.2.drop x.2.1).all (fun g => g == 0xFF))

/-- ROUTING_PLACE in mode SET: checked under R331; a running revision is discarded and its late result logged (R334). -/
def setBody (r : Req) (s : State) : State × Ans :=
  let p := r.pid
  let q := partOf s p
  let b := bodyOf q
  if r.payload.length != 324 then (violation r.fn 5 0x0601 s, ansBadLength)
  else
    let es := setEntries r.payload
    let undeclared := es.any (fun x => x.2.1 != 0 && !b.experts.any (fun e => e.id == x.1))
    let pl := (es.filter (fun x => b.experts.any (fun e => e.id == x.1))).map (fun x => (x.1, x.2.2.take x.2.1))
    let fail := placementFail b pl
    if undeclared || es.any (fun x => decide (4 < x.2.1)) || fail = 0x0501 || pl.any (fun x => x.2.contains b.wheyGroup) then
      (s, ansRefused 0x0501)
    else if fail = 0x0503 then (s, ansRefused 0x0503)
    else
      let s := match q.runs.find? (fun x => x.kind == 1) with
        | some run => logEvent p.val 0x0003 churnUnit 0 run.tag 0 (dropRun p run s)
        | none => s
      let s := modEx p (fun e => { e with running := false, ready := some pl, readyKind := 1 }) s
      (s, ansOk (toLe 4 (q.ex.version + 1)))

/-- Row ROUTING_PLACE, mode SET. -/
def execRoutingPlaceSet (r : ReqId) (s : State) : Host.Outcome State Fault Refusal :=
  .next (runCmd r 0x0601 (fun b => field b 0 1 == 1) (fun _ r => zeroAt r.payload 1 3 && setFieldsOk r.payload)
    (answering setBody) s)

/-- ROUTING_COUNTERS_READ (R330, R514). -/
def countersBody (r : Req) (s : State) : Ans := ansOk (counterRecord (partOf s r.pid))

/-- Row ROUTING_COUNTERS_READ. -/
def execRoutingCountersRead (r : ReqId) (s : State) : Host.Outcome State Fault Refusal :=
  .next (runCmd r 0x0602 (fun _ => true) (fun _ _ => true) (reading countersBody) s)

end Sys2Proof.Machine
end

