-- ==== Sys2Proof/Machine/HostDma.lean ====
section
/-!
DEFINITION. The ends of host DMA: data that arrive, completions that are posted, the one retry and what a second error does
(R100, R101, R412, R471, R474, R489).
-/
namespace Sys2Proof.Machine

/-- The unit of a function in records (Table ERR-9). -/
def fnUnit (f : Fn) : Nat := unitId 0x0F f.val

/-- Reissue a DMA under a new tag, as its one retry (R101, R473). -/
def reissueDma (d : DmaOp) (s : State) : State :=
  let t := s.host.nextTag
  let s := modCnt d.fn (fun k => { k with dmaRetries := satAdd 32 k.dmaRetries 1 }) s
  let s := issueDma d.fn d.kind d.addr d.bytes d.len s
  modHost (fun h => { h with dma := modFirst (fun x => x.tag == t) (fun x => { x with retried := true }) h.dma }) s

/-- The log of a DMA that failed twice. -/
def dmaLasting (d : DmaOp) (s : State) : State := lastingFault (fnPart d.fn) (fnUnit d.fn) 0x000B 1 d.tag s

/-- A request that lost its data: REFUSED, 0x010F, and no other effect (R101). -/
def dmaRefuse (i : ReqId) (s : State) : State :=
  match findReq s i with
  | some r => finish r (ansRefused 0x010F) s
  | none => s

/-- What a second error does, by what the DMA serves. -/
def dmaFailed (d : DmaOp) (s : State) : State :=
  match d.kind with
  | .cmdData r | .bulkIn r | .bulkOut r => dmaRefuse r (dmaLasting d s)
  | .completion _ => disableCq d.fn (dmaLasting d s)
  | .response c => postCqe d.fn { c with status := stRefused, reason := 0x010F, result := 0 } (dmaLasting d s)
  | .p2pWrite p t => match targetOf (partOf s p) t with
      | some x => p2pFailed p x s
      | none => s

/-- A DMA ended in a PCIe error: its one retry, or failure (R101, R412). -/
def dmaError (d : DmaOp) (s : State) : State := if d.retried then dmaFailed d s else reissueDma d s

/-- A request's data are here: it may commit. -/
def dataHere (i : ReqId) (g : Req → Req) (s : State) : State := modReq i (fun r => { g r with phase := .ready }) s

/-- The data of a bulk read: a REGION_LOAD writes them once its granules are zero; other commands commit with them. -/
def bulkHere (i : ReqId) (bs : List Byte) (s : State) : State :=
  match findReq s i with
  | none => s
  | some r =>
    if r.phase != .moving then s
    else if r.opcode = 0x0206 then serviceTransfers r.pid (modReq i (fun q => { q with bulk := bs }) s)
    else dataHere i (fun q => { q with bulk := bs }) s

/-- The data of a bulk write are in host memory. -/
def bulkGone (i : ReqId) (n : Nat) (s : State) : State :=
  match findReq s i with
  | none => s
  | some r => if r.opcode = 0x0207 then finishMove r n ansOk s else finish r (ansOk r.bulk) s

/-- A DMA ended well. -/
def dmaOk (d : DmaOp) (bs : List Byte) (s : State) : State :=
  match d.kind with
  | .cmdData r =>
    (match findReq s r with
      | some q => if q.phase == .fetching then dataHere r (fun q => { q with payload := padTo d.len bs }) s else s
      | none => s)
  | .completion c => cqPosted d.fn c (modCnt d.fn (fun k => { k with cq := satAdd 64 k.cq 1 }) s)
  | .response c => postCqe d.fn c s
  | .bulkIn r => bulkHere r (padTo d.len bs) s
  | .bulkOut r => bulkGone r d.len s
  | .p2pWrite _ _ => s

/-- A success on the retry is a transient fault (R101, R412). -/
def dmaTransient (d : DmaOp) (s : State) : State :=
  if !d.retried then s
  else match d.kind with
    | .p2pWrite p t => (match targetOf (partOf s p) t with
        | some x => bdpTransient p x 0x000B (firstUnacked x) s
        | none => s)
    | _ => transientFault (fnPart d.fn) (fnUnit d.fn) 0x000B d.tag s

/-- HOST_DMA_COMPLETE: a completion whose tag is dead is discarded and logged with rung 4 (R474). -/
def doDmaComplete (tag : Nat) (res : DmaResult) (s : State) : State :=
  match s.host.dma.find? (fun d => d.tag == tag) with
  | none => s
  | some d =>
    let s := modHost (fun h => { h with dma := h.dma.filter (fun x => x.tag != tag) }) s
    if d.dead then
      lateDiscard (fnPart d.fn) (fnUnit d.fn) 4 tag (modCnt d.fn (fun k => { k with late := satAdd 32 k.late 1 }) s)
    else match res with
      | .ok bs => dmaOk d bs (dmaTransient d s)
      | .error => dmaError d s

/-- Row HOST_DMA_COMPLETE. -/
def execHostDmaComplete (tag : Nat) (res : DmaResult) (s : State) : Host.Outcome State Fault Refusal :=
  .next (doDmaComplete tag res s)

/-- Whether a DMA reads host memory. -/
def isRead : DmaKind → Bool
  | .cmdData _ | .bulkIn _ => true
  | .completion _ | .response _ | .bulkOut _ | .p2pWrite _ _ => false

/-- HOST_COMPLETION_TIMEOUT: 1 ms without the completion of a read counts as a PCIe error; the tag is dead (R471, R474). -/
def doCompletionTimeout (tag : Nat) (s : State) : State :=
  match s.host.dma.find? (fun d => d.tag == tag) with
  | none => s
  | some d =>
    if d.dead || !isRead d.kind then s
    else dmaError d (killDma (fun x => x.tag == tag) s)

/-- Row HOST_COMPLETION_TIMEOUT. -/
def execHostCompletionTimeout (tag : Nat) (s : State) : Host.Outcome State Fault Refusal := .next (doCompletionTimeout tag s)

end Sys2Proof.Machine
end

