-- ==== Sys2Proof/Machine/Scheduler.lean ====
section
/-!
DEFINITION. The stage scheduler: admission, issue, the end of a stage, batches, step records and boundaries, preparation
steps and the watchdog (R44, R47, R234 to R249, R400 to R404, Tables SCH-6 to SCH-8, DLV-3).
-/
namespace Sys2Proof.Machine

/-! ## Epochs and permutations (R246) -/

def stepsOf (q : Part) : Nat := epochSteps (hdrOf q) (bodyOf q)

/-- Samples of a step: the last step of a replay epoch holds the remainder. -/
def samplesOf (q : Part) (step : Nat) : Nat :=
  let n := (hdrOf q).samplesPerStep
  if (hdrOf q).live then n else min n ((bodyOf q).permLength - step * n)

/-- The first cursor of the step that follows; past the last epoch it stays at the epoch's end (R11, R246). -/
def stepAfter (q : Part) (c : Cursor) : Cursor :=
  if c.step + 1 < stepsOf q then ⟨c.epoch, c.step + 1, 0⟩
  else if c.epoch = 65535 then ⟨65535, stepsOf q, 0⟩
  else ⟨c.epoch + 1, 0, 0⟩

/-- A cursor at the end of an epoch that is not the last stands for the start of the next one. -/
def settle (q : Part) (c : Cursor) : Cursor :=
  if stepsOf q ≤ c.step && c.epoch < 65535 then ⟨c.epoch + 1, 0, 0⟩ else c

/-- Even epochs use PERMUTATION_A and odd ones PERMUTATION_B, in entries of five bytes. -/
def permRegion (q : Part) (e : Nat) : Option Region := regionOf (bodyOf q) (if e % 2 = 0 then .permA else .permB)

/-- The sample id at a position of an epoch. -/
def permAt (s : State) (p : Pid) (e pos : Nat) : Nat :=
  match permRegion (partOf s p) e with
  | some r => leNat (winRead s p (r.addr + 5 * pos) 5)
  | none => 0

/-- Write a permutation from a position on. -/
def permWrite (p : Pid) (e pos : Nat) (ids : List Nat) (s : State) : State :=
  match permRegion (partOf s p) e with
  | some r => winWrite p (r.addr + 5 * pos) ((ids.flatMap (toLe 5)).take (r.size - 5 * pos)) s
  | none => s

/-- Whether an epoch's permutation stands in the window: a live epoch writes its own, and an image without a PERMUTE stage
brings one (R19, R246). -/
def permReady (q : Part) (e : Nat) : Bool :=
  (hdrOf q).live || !hasKind q 0x12 || (match q.sc.permEpoch with
    | some k => k == e || k == e + 1
    | none => false)

/-- The permutation of an epoch is produced from Dill bits (R246, R305). -/
def producePerm (p : Pid) (e : Nat) (s : State) : State :=
  let q := partOf s p
  modSched p (fun c => { c with permEpoch := some e })
    (permWrite p e 0 (permutationOf (q.ld.seed.getD 0) e (bodyOf q).groups) s)

/-! ## Admission (R239 to R241) -/

/-- Whether nothing is left for admission: the epochs are over, or a recreated run has no further record (R232). -/
def exhausted (q : Part) : Bool :=
  q.sc.next.off == 0 && (decide (stepsOf q ≤ q.sc.next.step)
    || (q.ld.recreate && !q.ld.records.any (fun r => field r 0 8 == packCursor q.sc.next)))

/-- Scoreboard entries in use on a relative cluster. -/
def entriesOn (q : Part) (rel : Nat) : Nat := (q.sc.entries.filter (fun e => e.rel == rel)).length

/-- Whether every cluster of the placement has the entries free that an offset needs (R240). -/
def entriesFree (q : Part) (opens : Bool) : Bool :=
  let d := placementOf q
  (List.range d.clusters).all (fun k =>
    decide (entriesOn q k + nth d.sampleEntries k + (if opens then nth d.stepEntries k else 0) ≤ 256))

/-- Samples in flight (Table SCH-2). -/
def inFlight (q : Part) : Nat := sumL (q.sc.steps.map (fun st => (st.samples.filter (fun x => !x.done)).length))

/-- Whether each target has the credits that a step takes (R240, R399). -/
def creditsOk (q : Part) : Bool :=
  (stepTargets q).all (fun t => match targetOf q t with
    | some x => decide (batchesTo q t ≤ creditsFree x)
    | none => false)

/-- Positions between the boundary and the next admission. -/
def sinceBoundary (q : Part) : Nat :=
  let n := (hdrOf q).samplesPerStep
  let c := settle q q.ld.cursor
  let steps := if q.sc.next.epoch = c.epoch then q.sc.next.step - c.step else stepsOf q - c.step + q.sc.next.step
  steps * n + q.sc.next.off

/-- The live sample whose turn it is: what was admitted here before a withdrawal, else the oldest waiting window (R19, R248). -/
def liveNext (q : Part) : Option Nat :=
  match q.sc.perm[sinceBoundary q]? with
  | some id => some id
  | none => q.sc.liveQ.head?.map (fun k => liveId k.1 k.2)

/-- What the next offset reserves, per class (Table SCH-6). -/
def needOf (q : Part) : List Nat :=
  (List.range 5).map (fun c => nth (bodyOf q).perSample c + (if q.sc.next.off = 0 then nth (bodyOf q).perStep c else 0))

/-- The lead scheduler of a partition: relative cluster 0. -/
def leadOf (q : Part) : Owner := ⟨0, q.g.clusters.headD 0⟩

/-- The lowest free open-step slot. -/
def freeSlot (q : Part) : Nat := if q.sc.steps.any (fun st => st.slot == 0) then 1 else 0

/-- Open a step with what it takes: entries, the slot set, credits and the open-step slot (R240). -/
def openStep (p : Pid) (s : State) : State :=
  let q := partOf s p
  let c := q.sc.next
  let slot := freeSlot q
  let st : OpenStep := { slot := slot, first := c, count := samplesOf q c.step, undrawn := (bodyOf q).perStep, placeVer := q.ex.version
                         place := q.ex.placement, nonRec := (hdrOf q).usesLaneRng }
  modPart p (fun x => { x with
    sc := { x.sc with steps := x.sc.steps ++ [st], entries := addStep q slot false x.sc.entries }
    targets := x.targets.map (fun t => { t with reserved := t.reserved + batchesTo q t.id }) }) s

/-- Whether batches of a live window's stream can be recreated (R18). -/
def windowRecreatable (q : Part) (i : Nat) : Bool :=
  !(hdrOf q).sourceRaw || (match declOf q i with
    | some d => d.lossless
    | none => true)

/-- The sample that an offset admits: its id, and for a live one its window with its planes once it is encoded. -/
def newSample (s : State) (p : Pid) (q : Part) : Sample :=
  let c := q.sc.next
  if (hdrOf q).live then
    let id := (liveNext q).getD 0
    let w : Option Win := (streamOf q (id % 64)).bind (fun x => x.wins.find? (fun y => y.seq == id / 64))
    { off := c.off, id := id, win := some (id % 64, id / 64), planes := (w.map (fun y => y.planes)).getD []
      undrawn := (bodyOf q).perSample }
  else { off := c.off, id := permAt s p c.epoch (c.step * (hdrOf q).samplesPerStep + c.off), undrawn := (bodyOf q).perSample }

/-- A live admission: the permutation is written in admission order (R19). -/
def noteLive (p : Pid) (q : Part) (x : Sample) (s : State) : State :=
  if !(hdrOf q).live then s
  else
    let c := q.sc.next
    let again := decide (sinceBoundary q < q.sc.perm.length)
    let s := permWrite p c.epoch (c.step * (hdrOf q).samplesPerStep + c.off) [x.id] s
    modSched p (fun k => { k with
      perm := if again then k.perm else k.perm ++ [x.id]
      liveQ := if again then k.liveQ else k.liveQ.erase (x.id % 64, x.id / 64) }) s

/-- Admit the next offset: everything is taken and announced (R240). -/
def admitSample (p : Pid) (s : State) : State :=
  let q0 := partOf s p
  let s := if q0.sc.next.off = 0 then openStep p s else s
  let q := partOf s p
  match q.sc.steps.getLast? with
  | none => s
  | some st =>
    let x := newSample s p q
    let s := noteLive p q x s
    let rec_ := match x.win with
      | some k => windowRecreatable q k.1
      | none => true
    let s := modStep p st.slot (fun st => { st with samples := st.samples ++ [x], nonRec := st.nonRec || !rec_ }) s
    let s := modSched p (fun c => { c with
      entries := addSample q st.slot x.off c.entries
      next := if x.off + 1 < st.count then { c.next with off := x.off + 1 } else stepAfter q st.first
      wait := .none
      asking := false }) s
    refreshBoard p s

/-- Open a preparation step: it takes an open-step slot and the entries of its PERMUTE stages (R246). -/
def openPrep (p : Pid) (s : State) : State :=
  let q := partOf s p
  let slot := freeSlot q
  let st : OpenStep := { slot := slot, first := q.sc.next, count := 0, prep := true }
  let s := modSched p (fun c => { c with steps := c.steps ++ [st], entries := addStep q slot true c.entries, wait := .perm }) s
  refreshBoard p s

def waitFor (p : Pid) (w : AdmitWait) (s : State) : State := modSched p (fun c => { c with wait := w }) s

/-- The procedure of R240, from its first test; an offset that reserves no buffer is admitted at once. -/
def tryAdmit (p : Pid) (s : State) : State :=
  let q := partOf s p
  let opens := q.sc.next.off == 0
  if opens && !permReady q q.sc.next.epoch then
    (if q.sc.steps.isEmpty then openPrep p s else waitFor p .perm s)
  else if (hdrOf q).live && (liveNext q).isNone then waitFor p .window s
  else if !entriesFree q opens || (hdrOf q).maxInFlight ≤ inFlight q then waitFor p .entry s
  else if opens && (hdrOf q).stepsInFlight ≤ q.sc.steps.length then waitFor p .boundary s
  else if opens && !creditsOk q then waitFor p .credit s
  else if sumL (needOf q) = 0 then admitSample p s
  else
    let r : ReserveReq := { part := p, counts := needOf q, by_ := leadOf q, admission := true }
    let s := modSched p (fun c => { c with asking := true, wait := .pool }) s
    if s.units.pool.inService then modPool (fun x => { x with set := x.set ++ [r] }) s
    else answerNoBuf r ((List.range 5).filterMap (fun c => if nth r.counts c = 0 then none else some (c, 3))) s

/-- Stop at the boundary when nothing is left for admission (R11, R232). -/
def stopExhausted (p : Pid) (s : State) : State :=
  let q := partOf s p
  if q.st == .enabled && q.sc.steps.isEmpty && !q.sc.pausing && exhausted q then beginPause p none s else s

/-- ADMISSION_ATTEMPT: a run or restart of the procedure for the next offset. -/
def doAdmission (p : Pid) (s : State) : State :=
  let s := modSched p (fun c => if c.next.off = 0 then { c with next := settle (partOf s p) c.next } else c) s
  let q := partOf s p
  if q.st != .enabled || q.ld.image.isNone || q.sc.pausing || q.sc.asking then s
  else if exhausted q then stopExhausted p s
  else tryAdmit p s

/-- Row ADMISSION_ATTEMPT. -/
def execAdmissionAttempt (p : Pid) (s : State) : Host.Outcome State Fault Refusal := .next (doAdmission p s)

/-- POOL_SET_DECIDE: one request of the ranked set (R219); a grant to the lead scheduler admits (R240), and one that it no
longer asks for is returned (R249). -/
def doPoolDecide (s : State) : State :=
  match decideHead s with
  | (s, some (r, [])) =>
    if !r.admission then emit (.reserved r.part r.by_ 0) s
    else if (partOf s r.part).sc.asking then admitSample r.part s
    else unreserveAll r.part r.counts s
  | (s, _) => s

/-- Row POOL_SET_DECIDE. -/
def execPoolSetDecide (s : State) : Host.Outcome State Fault Refusal := .next (doPoolDecide s)

/-! ## Batches (R403, R404, Table DLV-3) -/

/-- The samples of a batch in ascending offset. -/
def batchSamples (st : OpenStep) (b : Nat) : List Sample :=
  ((st.samples.zip st.assign).filter (fun x => x.2 == b)).map (fun x => x.1)

/-- Entries of the sample table, with the token that each sample starts at. -/
def sampleTable : Nat → List Sample → List Byte
  | _, [] => []
  | n, x :: rest =>
    toLe 2 x.off ++ toLe 2 (x.damaged.toNat + 2 * x.capped.toNat) ++ toLe 4 n ++ toLe 4 x.tokens.length ++ zeros 4 ++ toLe 8 x.id
      ++ toLe 1 x.cls ++ zeros 7 ++ sampleTable (n + x.tokens.length) rest

/-- Tokens of a list of samples. -/
def tokenCount (xs : List Sample) : Nat := sumL (xs.map (fun x => x.tokens.length))

/-- The batch index of Table DLV-3. -/
def batchIndex (b : ImgBody) (label : Nat) (st : OpenStep) (k : Nat) (xs : List Sample) : List Byte :=
  let bs := toLe 8 (packCursor st.first) ++ toLe 1 k ++ toLe 1 b.tokensMode.toNat ++ zeros 2 ++ toLe 4 xs.length
    ++ toLe 4 (tokenCount xs) ++ toLe 2 b.dim ++ toLe 2 label ++ zeros 104 ++ sampleTable 0 xs
    ++ xs.flatMap (fun x => padTo label x.labels) ++ xs.flatMap (fun x => x.tokens.flatMap (fun t => toLe 4 t.p))
  bs ++ zeros ((64 - bs.length % 64) % 64)

/-- One batch of a step. -/
def batchOf (q : Part) (d : StageDecl) (st : OpenStep) (k : Nat) : Batch :=
  let xs := batchSamples st k
  { idx := k, target := nth d.targets k, samples := xs.map (fun x => x.off), tokens := tokenCount xs
    data := xs.flatMap (fun x => x.tokens.flatMap (fun t => t.out))
    index := batchIndex (bodyOf q) d.labelBytes st k xs }

/-- The batch of each sample in an image without PACK (log entry 46). -/
def plainAssign (bN n : Nat) : List Nat := (List.range n).map (fun o => Config.plainBatch o n bN % max 1 bN)

/-- ASSEMBLE: the batches of a step, from what RETURN left. -/
def assemble (p : Pid) (slot : Nat) (s : State) : State :=
  let s := if hasKind (partOf s p) 0x0D then s else returnOutputs p slot s
  let q := partOf s p
  match (bodyOf q).stages.find? (fun d => d.kind == 0x10) with
  | none => s
  | some d =>
    let bN := (hdrOf q).batchesPerStep
    let fill (st : OpenStep) : OpenStep := if hasKind q 0x0E then st else { st with assign := plainAssign bN st.samples.length }
    modStep p slot (fun st => { fill st with batches := (List.range bN).map (batchOf q d (fill st)) }) s

/-! ## Issue (R236, R238, R249, R327, R400) -/

/-- Kinds that a fixed-function unit runs (Table SCH-4). -/
def unitKind (k : Nat) : Bool := [3, 4, 5, 6, 7].contains k

/-- Kinds whose end another command reports. -/
def elsewhere (k : Nat) : Bool := unitKind k || k == 0x0E || k == 0x10

/-- The place of an entry's step among the open ones: 0 the older. -/
def stepOrder (q : Part) (e : Entry) : Nat := q.sc.steps.findIdx (fun st => st.slot == e.slot)

/-- The rank of R238, then the cursor, step scope first, as one number. -/
def issueKey (q : Part) (e : Entry) : Nat :=
  let o := stepOrder q e
  let rank := if !e.stepScope then 3 else if o = 0 then 2 else 4
  ((rank * 4 + o) * 2 ^ 17 + e.off) * 2 + (!e.stepScope).toNat

/-- Whether an entry has not been issued yet. -/
def unissued (e : Entry) : Bool := e.st == .waiting || e.st == .ready

/-- An earlier sample's job of the same kind is not issued yet (R236). -/
def overtakes (q : Part) (e : Entry) : Bool :=
  let k := (stageAt q e.stage).kind
  unitKind k && q.sc.entries.any (fun x => (stageAt q x.stage).kind == k && unissued x
    && (decide (stepOrder q x < stepOrder q e) || (x.slot == e.slot && decide (x.off < e.off))))

/-- Whether an entry is one of the Whey expert. -/
def isWhey (q : Part) (e : Entry) : Bool :=
  (stageAt q e.stage).kind == 0x0C && decide (entryGroup q e = some (bodyOf q).wheyGroup)

/-- Whey entries issue after every expert entry of their step (R327). -/
def wheyEarly (q : Part) (e : Entry) : Bool :=
  isWhey q e && q.sc.entries.any (fun x => x.slot == e.slot && (stageAt q x.stage).kind == 0x0C && unissued x && !isWhey q x)

/-- Whether the tile group or unit of an entry is free. -/
def groupFree (s : State) (q : Part) (e : Entry) : Bool :=
  let k := (stageAt q e.stage).kind
  if k = 7 then decide ((s.units.warpQ.filter (fun x => x.1 == nth q.g.clusters e.rel)).length < 16)
  else elsewhere k || !q.sc.entries.any (fun x => x.rel == e.rel && x.group == e.group && x.st == .issued
    && !elsewhere (stageAt q x.stage).kind)

/-- Whether a READY entry may be issued now. -/
def issuable (s : State) (q : Part) (rel : Nat) (e : Entry) : Bool :=
  e.rel == rel && e.st == .ready && groupFree s q e && !overtakes q e && !wheyEarly q e
    && !((stageAt q e.stage).kind == 0x10 && stepOrder q e != 0)

/-- The entry that a cluster's scheduler issues next. -/
def pickEntry (s : State) (q : Part) (rel : Nat) : Option Entry :=
  match q.sc.entries.filter (issuable s q rel) with
  | [] => none
  | e :: rest => some (rest.foldl (fun a x => if issueKey q x < issueKey q a then x else a) e)

/-- Compressed bytes of a sample, as its index entry gives them (R430). -/
def inputBytes (s : State) (p : Pid) (id stage : Nat) : Nat :=
  match regionOf (bodyOf (partOf s p)) .index with
  | some r => field (winRead s p (r.addr + 16 * id) 16) 4 4
  | none => (stageAt (partOf s p) stage).inputBytes

/-- Issue of a PACK entry: a run on Churn, or greedy packing without one (R343, R355 to R359). -/
def issuePack (p : Pid) (st : OpenStep) (s : State) : State :=
  let q := partOf s p
  match (bodyOf q).pack with
  | none => s
  | some d =>
    let rec_ := suppliedFor q st
    if (match rec_ with
        | some r => field r 0x14 1 != 0
        | none => false) then packGreedy p st.slot 0 s
    else if !churnUp s then packGreedy p st.slot 3 s
    else
      addRun { kind := 0, part := p, tag := packCursor st.first, slot := st.slot
               prob := packProblem d.alpha d.gamma (hdrOf q).batchesPerStep (packInput st)
               sched := d.sched, seed := q.ld.seed.getD 0, epoch := st.first.epoch, sample := stepScopeId st.first.step, op := 0x2000
               exact := rec_.map (fun r => field r 0x18 4) } s

/-- What the issue of an entry starts on its unit. -/
def startEntry (p : Pid) (e : Entry) (s : State) : State :=
  let q := partOf s p
  let k := (stageAt q e.stage).kind
  let id := sampleId s p e.slot e.off
  let still (jpeg : Bool) : State :=
    startStills (modUnits (fun u => { u with stillQ := u.stillQ ++
      [{ part := p, slot := e.slot, off := e.off, stage := e.stage, jpeg := jpeg, bytes := inputBytes s p id e.stage }] }) s)
  if k = 3 then
    (if 2 ^ 39 ≤ id then damagedFetch p e.slot e.off e.stage 2 s else startFetch p e.slot e.off e.stage s)
  else if k = 4 then
    (if instanceStopped q (epochOf s p e.slot) id then damageSample p e.slot e.off e.stage s else startDecode p e.slot e.off e.stage s)
  else if k = 5 then still true
  else if k = 6 then still false
  else if k = 7 then
    modUnits (fun u => { u with warpQ := u.warpQ ++ [(nth q.g.clusters e.rel, { part := p, slot := e.slot, off := e.off, stage := e.stage })] }) s
  else if k = 0x0E then (match stepIn q e.slot with
    | some st => issuePack p st s
    | none => s)
  else if k = 0x10 then
    pumpAll p (match stepIn q e.slot with
      | some st => if st.batches.isEmpty then assemble p e.slot s else s
      | none => s)
  else s

/-- SCHEDULER_ISSUE: one entry of a cluster (R238). -/
def doIssue (p : Pid) (rel : Nat) (s : State) : State :=
  let q := partOf s p
  if q.st != .enabled then s
  else match pickEntry s q rel with
    | none => s
    | some e =>
      let mark (x : Entry) : Entry := { x with st := .issued }
      startEntry p e (modSched p (fun c => { c with entries := modFirst (fun x => x.rel == e.rel && x.no == e.no) mark c.entries }) s)

/-- Row SCHEDULER_ISSUE. -/
def execSchedulerIssue (p : Pid) (rel : Nat) (s : State) : Host.Outcome State Fault Refusal := .next (doIssue p rel s)

/-! ## The end of a stage (R234, R235) -/

/-- Whether an entry is its step's last one of its kind. -/
def lastOfKind (q : Part) (e : Entry) : Bool :=
  !q.sc.entries.any (fun x => x.slot == e.slot && x.stepScope && (stageAt q x.stage).kind == (stageAt q e.stage).kind
    && !(x.rel == e.rel && x.no == e.no))

/-- AUGMENT on a sample (R263 to R266). -/
def augmentStage (p : Pid) (e : Entry) (d : StageDecl) (s : State) : State :=
  match sampleAt s p e.slot e.off with
  | some x => setPlanes p e.slot e.off (augmentAll ((partOf s p).ld.seed.getD 0) (epochOf s p e.slot) x.id d.augs x.planes) s
  | none => s

/-- TOKENISE on a sample (R267 to R269). -/
def tokeniseStage (p : Pid) (e : Entry) (d : StageDecl) (s : State) : State :=
  match sampleAt s p e.slot e.off with
  | some x =>
    let r := tokenise d x.planes x.marked
    let dropped := r.2.2.2
    let s := modSample p e.slot e.off (fun x => { x with tokens := r.1, cols := r.2.1, rows := r.2.2.1, capped := dropped != 0 }) s
    modPCnt p (fun k => { k with capped := satAdd 64 k.capped dropped }) s
  | none => s

/-- PERMUTE: the last entry of the preparation steps, or of an epoch's last step, leaves the permutation (R246). -/
def permuteStage (p : Pid) (e : Entry) (s : State) : State :=
  let q := partOf s p
  match stepIn q e.slot with
  | none => s
  | some st =>
    if (hdrOf q).live || !lastOfKind q e then s
    else if st.prep then
      (if (bodyOf q).prepSteps ≤ q.sc.prepDone + 1 then producePerm p st.first.epoch s else s)
    else if stepsOf q ≤ st.first.step + 1 && st.first.epoch < 65535 then producePerm p (st.first.epoch + 1) s
    else s

/-- Whether a tile group hosts a destination (R321). -/
def hostsExpert (q : Part) (e : Entry) (x : Nat) : Bool :=
  match entryGroup q e, stepIn q e.slot with
  | some g, some st => if x = 64 then g == (bodyOf q).wheyGroup else (groupsOf st.place x).contains g
  | _, _ => true

/-- What private tile code reported (R315, R328). -/
def tileResult (p : Pid) (e : Entry) (res : StageResult) (s : State) : State :=
  match res with
  | .planes ps => if e.stepScope then s else setPlanes p e.slot e.off ps s
  | .embed hs => if e.stepScope then s else setEmbeddings p e.slot e.off hs s
  | .labels m l c => if e.stepScope then s
                     else modSample p e.slot e.off (fun x => { x with marked := m, labels := l, cls := c % 256 }) s
  | .expert x ys => if (stageAt (partOf s p) e.stage).kind == 0x0C && hostsExpert (partOf s p) e x then setOutputs p e.slot x ys s else s
  | .done | .skip => s

/-- What a stage leaves when it ends. -/
def stageEffect (p : Pid) (e : Entry) (res : StageResult) (s : State) : State :=
  let q := partOf s p
  let d := stageAt q e.stage
  if d.kind = 8 then augmentStage p e d s
  else if d.kind = 9 then tokeniseStage p e d s
  else if d.kind = 0x0D then (if lastOfKind q e then returnOutputs p e.slot s else s)
  else if d.kind = 0x0F then (if lastOfKind q e then assemble p e.slot s else s)
  else if d.kind = 0x12 then permuteStage p e s
  else tileResult p e res s

/-- STAGE_COMPLETE: a stage on tiles ends; a set skip predicate skips it and what only it leads to (R235). -/
def doStageComplete (p : Pid) (rel no : Nat) (res : StageResult) (s : State) : State :=
  let q := partOf s p
  match q.sc.entries.find? (fun e => e.rel == rel && e.no == no) with
  | none => s
  | some e =>
    let d := stageAt q e.stage
    if q.st != .enabled || e.st != .issued || elsewhere d.kind then s
    else match res with
      | .skip => if d.hasSkip && !e.stepScope then skipFrom p e.slot e.off e.stage s else s
      | r => entryDone p e (stageEffect p e r s)

/-- Row STAGE_COMPLETE. -/
def execStageComplete (p : Pid) (rel entry : Nat) (res : StageResult) (s : State) : Host.Outcome State Fault Refusal :=
  .next (doStageComplete p rel entry res s)

/-! ## The step boundary (R44, R47, R245, R451) -/

/-- The record of one batch in the step digest (R47). -/
def digestRecord (first : Nat) (b : Batch) : List Byte :=
  toLe 8 first ++ toLe 1 b.idx ++ zeros 3 ++ toLe 4 b.data.length ++ toLe 4 b.index.length ++ b.data ++ b.index

/-- The step digest (R47). -/
def stepDigest (st : OpenStep) : List Byte := sha384 (st.batches.flatMap (digestRecord (packCursor st.first)))

/-- The step record (Table SCH-8). -/
def stepRecord (s : State) (q : Part) (st : OpenStep) : List Byte :=
  toLe 8 (packCursor st.first) ++ toLe 8 (packCursor { st.first with off := st.count - 1 }) ++ toLe 4 s.ao.fw.numerics
    ++ toLe 1 st.packMode ++ toLe 1 (st.nonRec.toNat + 2 * (hdrOf q).usesLaneRng.toNat) ++ toLe 2 (hdrOf q).batchesPerStep
    ++ toLe 4 (if st.packMode = 0 then st.sweeps else 0) ++ zeros 4 ++ padTo 48 (hdrOf q).hash ++ stepDigest st

/-- Write a record over the oldest of the STEP_RECORDS ring (R245). -/
def writeRecord (p : Pid) (first : Cursor) (r : List Byte) (s : State) : State :=
  match regionOf (bodyOf (partOf s p)) .stepRecords with
  | none => s
  | some x =>
    let n := max 1 x.entries
    let s := winWrite p (x.addr + 128 * ((partOf s p).sc.recTotal % n)) r s
    modSched p (fun c =>
      let l := c.recRing ++ [(first, r)]
      { c with recRing := l.drop (l.length - n), recTotal := c.recTotal + 1 }) s

/-- Everything of a step is done but its record: samples, stages, and the acknowledgement of every batch. -/
def stepReady (q : Part) (st : OpenStep) : Bool :=
  let left := q.sc.entries.filter (fun e => e.slot == st.slot)
  if st.prep then left.isEmpty
  else decide (st.count ≤ st.samples.length) && st.samples.all (fun x => x.done)
    && left.all (fun e => (stageAt q e.stage).kind == 0x10 && e.st == .issued)
    && st.batches.length == (hdrOf q).batchesPerStep && st.batches.all (fun b => b.acked)

/-- What MIRROR_STEP carries (Table PAIR-4); the counters are those after the boundary. -/
def mirStepOf (s : State) (p : Pid) (st : OpenStep) (next : Cursor) : MirStep :=
  let q := partOf (commitCounters p st s) p
  { boundary := q.sc.boundaries + 1, cursor := BitVec.ofNat 64 (packCursor next), record := st.record
    placement := (List.range 64).map (groupsOf q.ex.placement), version := q.ex.version, counters := counterRecord q
    targets := mirTargets q
    streams := q.streams.map (fun x => (x.index, x.codec.pictures, x.codec.recOff, x.nextWin, x.codec.sinceIrap))
    perm := if (hdrOf q).live then st.samples.map (fun x => x.id) else []
    index := q.sc.idxNew }

/-- A revision starts at the boundary of every V-th step (R332). -/
def maybeRevise (p : Pid) (c : Cursor) (s : State) : State :=
  let v := (bodyOf (partOf s p)).revInterval
  if v != 0 && (c.step + 1) % v == 0 then startRevision p c.epoch s else s

/-- Free an open step: buffers released, reservations returned, its entries and slot freed (Table SCH-7). -/
def freeStep (p : Pid) (st : OpenStep) (s : State) : State :=
  let s := modSched p (fun c => { c with steps := c.steps.filter (fun x => x.slot != st.slot)
                                         entries := c.entries.filter (fun e => e.slot != st.slot) }) s
  let s := releaseWhere (fun d => d.part == p.val && (match d.for_ with
    | some x => x.1 == st.slot
    | none => false)) s
  unreserveAll p st.undrawn s

/-- What waits for the boundary: a fence (R100), a pause, a teardown, or the end of what can be admitted. -/
def afterBoundary (p : Pid) (s : State) : State :=
  let c := (partOf s p).sc.fenceAtBoundary
  if c != 0 then fencePart p c (modSched p (fun c => { c with fenceAtBoundary := 0 }) s)
  else stopExhausted p (maybePaused p s)

/-- The boundary of a step (Table SCH-7, R330, R332, R333). -/
def closeStep (p : Pid) (st : OpenStep) (s : State) : State :=
  let next := stepAfter (partOf s p) st.first
  let s := freeStep p st s
  let s := modPart p (fun q => { q with
    ld := { q.ld with cursor := next }
    sc := { q.sc with boundaries := q.sc.boundaries + 1, perm := q.sc.perm.drop st.samples.length, idxNew := [] }
    cnt := { q.cnt with steps := satAdd 64 q.cnt.steps 1 } }) s
  let s := commitCounters p st s
  let s := maybeRevise p st.first (installPlacement p s)
  afterBoundary p (sweepWins p s)

/-- The end of a preparation step: no record, no cursor (R246). -/
def closePrep (p : Pid) (st : OpenStep) (s : State) : State :=
  let s := freeStep p st s
  let s := modSched p (fun c => { c with prepDone := if c.permEpoch = some st.first.epoch then 0 else c.prepDone + 1 }) s
  maybePaused p s

/-- The step's record is written; with MIRRORED the partner's acknowledgement is awaited, after those of the partition's
earlier messages (R245, R451). -/
def recordStep (p : Pid) (st : OpenStep) (s : State) : State :=
  let st' := { st with record := stepRecord s (partOf s p) st }
  let s := if st.record.isEmpty then writeRecord p st.first st'.record s else s
  let s := modStep p st.slot (fun _ => st') s
  if !mirrorActive s p then closeStep p st' s
  else if !(partOf s p).mirWait.isEmpty then s
  else
    let m := mirStepOf s p st' (stepAfter (partOf s p) st.first)
    sendMirror p none (some m) (modStep p st.slot (fun x => { x with mirroring := true }) s)

/-- STEP_BOUNDARY: the older step reaches its boundary. -/
def doBoundary (p : Pid) (s : State) : State :=
  let q := partOf s p
  match q.sc.steps with
  | [] => s
  | st :: _ =>
    if q.st != .enabled || st.mirroring || !stepReady q st then s
    else if st.prep then closePrep p st s
    else recordStep p st s

/-- Row STEP_BOUNDARY. -/
def execStepBoundary (p : Pid) (s : State) : Host.Outcome State Fault Refusal := .next (doBoundary p s)

/-! ## The watchdog (R247) -/

/-- Whether the oldest step's time does not count: its function holds completions back, or all that is unfinished waits on
a trainer or on drives. -/
def watchdogStopped (s : State) (p : Pid) (q : Part) (st : OpenStep) : Bool :=
  let left := q.sc.entries.filter (fun e => e.slot == st.slot)
  let kind (e : Entry) : Nat := (stageAt q e.stage).kind
  let busy := left.filter (fun e => e.st == .issued)
  let idle := !left.any (fun e => e.st == .ready) && !busy.isEmpty
  !(fnOf s (fnOfPart p)).ring.hold.isEmpty
    || (idle && !stepReady q st && (busy.all (fun e => kind e == 0x10) || busy.all (fun e => kind e == 3)))

/-- STEP_WATCHDOG_EXPIRY: the partition is fenced at its last step boundary. -/
def doWatchdog (p : Pid) (s : State) : State :=
  let q := partOf s p
  match q.sc.steps with
  | [] => s
  | st :: _ =>
    if q.st != .enabled || watchdogStopped s p q st then s
    else
      let c := packCursor st.first
      fencePart p 0x0007 (logEvent p.val 0x0007 c (c / 2 ^ 32) 500 0 s)

/-- Row STEP_WATCHDOG_EXPIRY. -/
def execStepWatchdogExpiry (p : Pid) (s : State) : Host.Outcome State Fault Refusal := .next (doWatchdog p s)

end Sys2Proof.Machine
end

