-- ==== Sys2Proof/Machine/Teardown.lean ====
section
/-!
DEFINITION. PARTITION_TEARDOWN and its phases (R125, R126, R504, Table PRT-6, Table CMD-11).
-/
namespace Sys2Proof.Machine

/-- Modes 0 and 1 of R504. -/
def teardownFields (_ : State) (r : Req) : Bool := decide (field r.payload 0 1 ≤ 1) && zeroAt r.payload 1 3

/-- Which of the two rows a request's mode byte selects; a mode that neither has is refused by the first. -/
def tdMode (m : Nat) (b : List Byte) : Bool := if m = 0 then field b 0 1 != 1 else field b 0 1 == 1

/-- The request whose completion the teardown posts. -/
def noteTeardown (r : Req) (s : State) : State := modPart r.pid (fun q => { q with tdReq := some r.id }) s

/-- AT_BOUNDARY: the current step runs to its boundary first; a pause under way goes on toward the same boundary (R125). -/
def boundaryBody (r : Req) (s : State) : State × Ans :=
  let p := r.pid
  let q := partOf s p
  let s := noteTeardown r s
  if q.st != .enabled then (beginTeardown p s, ansPend)
  else
    let s := modSched p (fun c => { c with teardownAtBoundary := true }) s
    if q.sc.pausing then (s, ansPend) else (beginPause p none s, ansPend)

/-- Row PARTITION_TEARDOWN_AT_BOUNDARY. -/
def execPartitionTeardownAtBoundary (r : ReqId) (s : State) : Host.Outcome State Fault Refusal :=
  .next (runCmd r 0x0204 (tdMode 0) teardownFields (answering boundaryBody) s)

/-- IMMEDIATE: the current step is fenced at once (R125). -/
def immediateBody (r : Req) (s : State) : State × Ans := (beginTeardown r.pid (noteTeardown r s), ansPend)

/-- Row PARTITION_TEARDOWN_IMMEDIATE. -/
def execPartitionTeardownImmediate (r : ReqId) (s : State) : Host.Outcome State Fault Refusal :=
  .next (runCmd r 0x0204 (tdMode 1) teardownFields (answering immediateBody) s)

/-! ## Phases (Table PRT-6) -/

/-- The open commands of a partition that its teardown fences: all but the teardown itself. -/
def tdHits (p : Pid) (q : Part) (r : Req) : Bool :=
  r.part == p.val && (r.phase == .moving || r.phase == .pending) && r.opcode != 0x0B03 && decide (some r.id ≠ q.tdReq)

/-- Fence one open command: FENCED, 0x011A. -/
def fenceOne (s : State) (r : Req) : State :=
  let s := dropRuns r.id (killDma (fun d => decide (dmaReq d.kind = some r.id)) s)
  if r.phase == .pending then complete r.id stFenced 0x011A 0 true s else finish r (ansFenced 0x011A) s

/-- t0 + 10 µs: commands, samples and DMA are fenced. -/
def tdFenceOps (p : Pid) (s : State) : State :=
  let q := partOf s p
  let n := sumL (q.sc.steps.map (fun st => st.samples.length))
  let s := killWork p none s
  let s := (s.host.reqs.filter (tdHits p q)).foldl fenceOne s
  let s := killDma (fun d => match d.kind with
    | .p2pWrite o _ => decide (o = p)
    | _ => false) s
  let s := dropRequests p (fun _ => true) s
  let s := modPair (fun x => { x with
    moving := x.moving.filter (fun m => m.1 != p.val)
    seeding := x.seeding.filter (fun e => e.1 != p.val) }) s
  modPart p (fun q => { q with
    sc := { q.sc with steps := [], entries := [], liveQ := [], wait := .none, asking := false }
    cnt := { q.cnt with withdrawn := satAdd 64 q.cnt.withdrawn n } }) s

/-- t0 + 1 ms: sessions close with cause 2, and ingest and codec streams stop. -/
def tdCloseSessions (p : Pid) (s : State) : State :=
  let s := (partOf s p).targets.foldl (fun s t => closeSession p t.id 2 true s) s
  (partOf s p).streams.foldl (fun s x => if x.codec.st = 0 then s else closeStream p x.index s) s

/-- A still engine forgets a partition's turn. -/
def forgetPart (p : Pid) (e : Engine) : Engine :=
  { e with lastPart := if e.lastPart = some p then none else e.lastPart, deficit := e.deficit.filter (fun x => x.1 != p.val) }

/-- t0 + 2 ms: cores are flushed, and Churn and still-engine state of the partition. -/
def tdFlush (p : Pid) (s : State) : State :=
  let s := killJobs (fun j => decide (j.part = p)) (fun j => decide (j.part = p)) (fun j => decide (j.part = p)) s
  let s := modUnits (fun u => { u with jpeg := u.jpeg.map (forgetPart p), inflate := u.inflate.map (forgetPart p) }) s
  let s := modPart p (fun q => { q with runs := [] }) s
  if s.units.churn.holder = some p then
    passOn (modChurn (fun c => { c with holder := none, moving := false, moveRetried := false }) s)
  else s

/-- t0 + 3 ms: every buffer goes back with its generation advanced, and every reservation. -/
def tdRelease (p : Pid) (s : State) : State :=
  let s := releaseWhere (fun d => d.part == p.val) s
  unreserveAll p (partOf s p).held s

/-- t0 + 4 ms: translation and window, ports and namespaces are released; the record of it is mirrored. -/
def tdWindow (p : Pid) (s : State) : State :=
  let q := partOf s p
  let mirror := q.g.mirrored && mirroring s
  let s := q.g.ports.foldl (fun s n => releasePort n s) s
  let s := q.g.ns.foldl (fun s x => deleteQueue x s) s
  let s := clearSync p s
  let s := modPart p (fun q => { q with g := {}, lent := none }) s
  if mirror then sendMirGrant p s else s

/-- What each phase does. -/
def tdDo (p : Pid) : TdPhase → State → State
  | .fenceOps, s => tdFenceOps p s
  | .closeSessions, s => tdCloseSessions p s
  | .flushUnits, s => tdFlush p s
  | .releaseBuffers, s => tdRelease p s
  | .resetTiles, s => resetClusters (partOf s p).g.clusters s
  | .releaseWindow, s => tdWindow p s

/-- The place of a phase in Table PRT-6. -/
def tdIndex : TdPhase → Nat
  | .fenceOps => 0 | .closeSessions => 1 | .flushUnits => 2 | .releaseBuffers => 3 | .resetTiles => 4 | .releaseWindow => 5

/-- TEARDOWN_PHASE: the phases come in order. -/
def doTeardownPhase (p : Pid) (ph : TdPhase) (s : State) : State :=
  let q := partOf s p
  if q.st != .tearingDown || q.td != tdIndex ph then s
  else modPart p (fun q => { q with td := tdIndex ph + 1 }) (tdDo p ph s)

/-- Row TEARDOWN_PHASE. -/
def execTeardownPhase (p : Pid) (ph : TdPhase) (s : State) : Host.Outcome State Fault Refusal := .next (doTeardownPhase p ph s)

/-- A partition that is FREE: its counters stay frozen (R118); the mirror's numbering goes on. -/
def freed (q : Part) : Part := { cnt := q.cnt, mirTag := q.mirTag, mirWait := q.mirWait, seedCopy := q.seedCopy }

/-- TEARDOWN_COMPLETE: FREE, and the completion with LAST. -/
def doTeardownComplete (p : Pid) (s : State) : State :=
  let q := partOf s p
  if q.st != .tearingDown || q.td != 6 then s
  else
    let s := holdChanged (modPart p freed s)
    completeOpt q.tdReq 0 0 0 s

/-- Row TEARDOWN_COMPLETE. -/
def execTeardownComplete (p : Pid) (s : State) : Host.Outcome State Fault Refusal := .next (doTeardownComplete p s)

end Sys2Proof.Machine
end

