-- ==== Sys2Proof/Machine/Pair.lean ====
section
/-!
DEFINITION. The pair: the Darrad link, HELLO, HOLD, heartbeats, mirror messages and the loss of a partner (R438 to R446,
R451 to R455, R461, R462, R464, R465, R470, R520, R521, Tables PAIR-2 to PAIR-5, CMD-10).
-/
namespace Sys2Proof.Machine

def darradUnit : Nat := unitId 0x0E 0
def partnerUnit : Nat := unitId 0x14 0

/-- A violation of Table PAIR-5 by its row (R465). -/
def pairViolation (row detail : Nat) (s : State) : State := partnerViolation .partner 0xFF partnerUnit 4 row detail s

/-- A change of the pair state is logged. -/
def setPairSt (n : Nat) (s : State) : State :=
  if s.units.pair.st = n then s else logDev 0x0801 n s.units.pair.gen 0 0 (modPair (fun p => { p with st := n }) s)

/-- The partitions held with MIRRORED set. -/
def mirroredHeld (s : State) : List Pid := partsWhere s (fun q => q.st != .free && q.g.mirrored)

/-- Take one frame off the link: none where it cannot have arrived, or where it breaks row 1 or, outside HELLO, row 6 of
Table PAIR-5. -/
def takeFrame (h : DarradHdr) (isHello : Bool) (s : State) : State × Bool :=
  if !darradUp s then (s, false)
  else
    let s := modPair (fun p => { p with rxSeq := (h.linkSeq + 1) % 2 ^ 32 }) s
    if 1 < h.flags then (pairViolation 1 h.flags s, false)
    else if isHello then (s, true)
    else if !s.units.pair.helloSeen then (s, false)
    else if h.gen < s.units.pair.gen then (pairViolation 6 h.gen s, false)
    else (s, true)

/-- What a frame that was taken does. -/
def onFrame (h : DarradHdr) (g : State → State) (s : State) : State :=
  match takeFrame h false s with
  | (s, true) => g s
  | (s, false) => s

/-- A frame that concerns one partition; another partition field is out of range. -/
def onPartFrame (h : DarradHdr) (g : Pid → State → State) (s : State) : State :=
  onFrame h (fun s => match pidOf h.part with
    | some p => g p s
    | none => pairViolation 1 h.part s) s

/-! ## Mirroring ends -/

/-- Every mirror message that waits is given up: its boundary completes without it (R452). -/
def dropMirror (s : State) : State :=
  allPids.foldl (fun s p =>
    let s := if (partOf s p).mirWait.isEmpty then s else modPart p (fun q => { q with mirWait := [] }) s
    match (partOf s p).sc.steps.find? (fun st => st.mirroring) with
    | some st => closeStep p st s
    | none => s) s

/-- Chains 1 end without a result (R452). -/
def dropChains (s : State) : State := modChurn (fun c => { c with chain1 := [] }) s

/-- A second expiry, or a retraining, interrupts the pair (R452, R470). -/
def interruptPair (s : State) : State :=
  let on := s.units.pair.st == 1 || s.units.pair.st == 2 || s.units.pair.st == 3
  let s := modPair (fun p => { p with resync := [], holdSeen := false }) s
  let s := if on then
      (mirroredHeld s).foldl (fun s p => guaranteeLapse p.val 5 s) (setPairSt 4 s)
    else s
  dropChains (dropMirror s)

/-! ## The link (R439, R470) -/

/-- HELLO (Table PAIR-3). -/
def sendHello (s : State) : State :=
  let s := modPair (fun p => { p with helloOut := true }) s
  darradPut 0 0xFF 0 (fun h => .hello h s.ao.fuse.serial s.ao.fw.numerics s.ao.fw.verMin s.ao.fw.verMax s.units.pair.auto_.toNat) s

/-- The link is trained: both directions number from 0, and HELLO goes out (R439, R441). -/
def linkTrained (s : State) : State :=
  let s := modPair (fun p => { p with link := .up, trained := true, training := false, retrainTried := false, txSeq := 0
                                      rxSeq := 0, helloSeen := false, holdSeen := false }) s
  sendHello (logDev 0x0905 darradUnit 1 0 0 s)

/-- DARRAD_LINK_TRAINED. -/
def doLinkTrained (s : State) : State :=
  let p := s.units.pair
  if !domOn s 5 || p.link != .down || p.training then s else linkTrained s

/-- Row DARRAD_LINK_TRAINED. -/
def execDarradLinkTrained (s : State) : Host.Outcome State Fault Refusal := .next (doLinkTrained s)

/-- Begin a retraining: mirroring is interrupted (R470). -/
def retrain (s : State) : State :=
  let s := modPair (fun p => { p with link := .down, trained := false, training := true, retrainTried := false }) s
  interruptPair (logDev 0x0905 darradUnit 0 0 0 s)

/-- The link is fenced until PD_NET next powers up (R439). -/
def fenceLink (fault : Nat) (s : State) : State :=
  let s := modPair (fun p => { p with link := .fenced, trained := false, training := false, helloSeen := false, holdSeen := false }) s
  interruptPair (logDev 0x0905 darradUnit 2 0 0 (lastingFence 0xFF darradUnit fault 2 s.units.pair.rxSeq [] s))

/-- DARRAD_FRAME_ERROR: the first failure of a frame is made good by its replay; the second retrains the link. -/
def doFrameError (again : Bool) (s : State) : State :=
  if !darradUp s then s
  else if again then retrain s
  else transientFault 0xFF darradUnit 0x0003 s.units.pair.rxSeq s

/-- Row DARRAD_FRAME_ERROR. -/
def execDarradFrameError (again : Bool) (s : State) : Host.Outcome State Fault Refusal := .next (doFrameError again s)

/-- DARRAD_RETRAIN_DONE: the second failed retraining is lasting (R439, R470). -/
def doRetrainDone (ok : Bool) (s : State) : State :=
  let p := s.units.pair
  if !domOn s 5 || !p.training then s
  else if ok then linkTrained (if p.retrainTried then transientFault 0xFF darradUnit 0x0004 p.rxSeq s else s)
  else if p.retrainTried then fenceLink 0x0004 s
  else modPair (fun p => { p with retrainTried := true }) s

/-- Row DARRAD_RETRAIN_DONE. -/
def execDarradRetrainDone (ok : Bool) (s : State) : Host.Outcome State Fault Refusal := .next (doRetrainDone ok s)

/-- DARRAD_TX_FAILURE: every MIRRORED partition is fenced at its last step boundary (R455). -/
def doTxFailure (s : State) : State :=
  if !domOn s 5 || s.units.pair.link != .up then s
  else
    let s := fenceParts (mirroredHeld s) 0x0002 s
    let s := modPair (fun p => { p with link := .down, trained := false }) s
    logDev 0x0905 darradUnit 0 0 0 s

/-- Row DARRAD_TX_FAILURE. -/
def execDarradTxFailure (s : State) : Host.Outcome State Fault Refusal := .next (doTxFailure s)

/-- DARRAD_UNKNOWN_FRAME: dropped (Table PAIR-5 row 1). -/
def doUnknownFrame (h : DarradHdr) (s : State) : State :=
  if darradUp s then pairViolation 1 h.length (modPair (fun p => { p with rxSeq := (h.linkSeq + 1) % 2 ^ 32 }) s) else s

/-- Row DARRAD_UNKNOWN_FRAME. -/
def execDarradUnknownFrame (h : DarradHdr) (s : State) : Host.Outcome State Fault Refusal := .next (doUnknownFrame h s)

/-! ## HELLO (R441, R444) -/

/-- Why two chips form no pair: 1 numerics, 2 interface, 3 serial; 0 when they do. -/
def helloMismatch (s : State) (serial numerics verMin verMax : Nat) : Nat :=
  if numerics != s.ao.fw.numerics then 1
  else if verMax < s.ao.fw.verMin || s.ao.fw.verMax < verMin then 2
  else if serial = 0 || s.ao.fuse.serial = 0 then 3
  else 0

/-- Role 0 is the chip with the lower serial; of two equal ones the spec names none, and the bit is free. -/
def roleFor (serial : Nat) (s : State) : Nat × State :=
  if s.ao.fuse.serial < serial then (0, s)
  else if serial < s.ao.fuse.serial then (1, s)
  else match fresh s with
    | (v, s) => (v % 2, s)

/-- A matching HELLO: the pair joins, and HOLD follows (R441, R442, R444). -/
def joinPair (h : DarradHdr) (serial policy : Nat) (s : State) : State :=
  let answer := s.units.pair.helloOut
  let s := if s.units.pair.st = 2 || s.units.pair.st = 3 then interruptPair s else s
  match roleFor serial s with
  | (role, s) =>
    let reset (m : Mirror) : Mirror := { m with expect := none }
    let s := modPair (fun p => { p with
      gen := max p.gen h.gen, role := role, partner := 0, partnerSerial := serial, partnerAuto := policy == 1, helloSeen := true
      holdSeen := false, missed := 0, partnerPlans := [], mirrors := p.mirrors.map reset, seeding := [] }) s
    let s := if answer then s else sendHello s
    let s := modPair (fun p => { p with helloOut := false }) s
    sendHold (setPairSt 1 s)

/-- DARRAD_HELLO. -/
def doHello (h : DarradHdr) (serial numerics verMin verMax policy : Nat) (s : State) : State :=
  match takeFrame h true s with
  | (s, false) => s
  | (s, true) =>
    let k := helloMismatch s serial numerics verMin verMax
    if 1 < policy then pairViolation 1 policy s
    else if k = 0 then joinPair h serial policy s
    else
      let s := interruptPair s
      let s := modPair (fun p => { p with helloSeen := false, helloOut := false, role := 0xFF }) s
      logDev 0x0805 k 0 0 0 (setPairSt 0 s)

/-- Row DARRAD_HELLO. -/
def execDarradHello (h : DarradHdr) (serial numerics verMin verMax policy : Nat) (s : State) : Host.Outcome State Fault Refusal :=
  .next (doHello h serial numerics verMin verMax policy s)

/-- HELLO_RETRY_TICK: while unpaired or interrupted (R441, R452). -/
def doHelloRetry (s : State) : State :=
  if darradUp s && (s.units.pair.st == 0 || s.units.pair.st == 4) then sendHello s else s

/-- Row HELLO_RETRY_TICK. -/
def execHelloRetryTick (s : State) : Host.Outcome State Fault Refusal := .next (doHelloRetry s)

/-! ## HOLD and resynchronisation (R442, R461, R462) -/

/-- An id held by both chips: the lower ownership generation loses, at equal ones role 1. -/
def losesHold (s : State) (p : Pid) (theirs : Nat) : Bool :=
  let mine := (partOf s p).gen
  decide (mine < theirs) || (mine == theirs && s.units.pair.role == 1)

/-- R461: the losing copy is fenced at its last step boundary, the conflict is logged. -/
def resolveHold (s : State) (x : Nat × Nat) : State :=
  match pidOf x.1 with
  | none => s
  | some p =>
    let q := partOf s p
    if q.st = .free || q.st = .tearingDown || q.conflict || !losesHold s p x.2 then s
    else
      let s := modPart p (fun q => { q with conflict := true }) s
      logEvent p.val 0x0804 p.val x.2 0 0 (fencePart p 0x0804 s)

/-- The state of a partition as a full MIRROR_STEP carries it: no new permutation or index entry (log entry 47). -/
def fullStepOf (q : Part) : MirStep :=
  { boundary := q.sc.boundaries, cursor := BitVec.ofNat 64 (packCursor q.ld.cursor)
    record := match q.sc.recRing.getLast? with
      | some r => r.2
      | none => []
    placement := (List.range 64).map (groupsOf q.ex.placement), version := q.ex.version, counters := counterRecord q
    targets := mirTargets q
    streams := q.streams.map (fun x => (x.index, x.codec.pictures, x.codec.recOff, x.nextWin, x.codec.sinceIrap))
    perm := [], index := [] }

/-- The regions that follow a resynchronisation (R462). -/
def growingRegions (b : ImgBody) : List Region :=
  b.regions.filter (fun r => r.role == .permA || r.role == .permB || r.role == .index)

/-- Their SEED frames: they belong to the copy that seeded the plan, and none of them ends it. -/
def sendGrowing (p : Pid) (s : State) : State :=
  (growingRegions (bodyOf (partOf s p))).foldl (fun s r =>
    seedFrames p (partOf s p).seedCopy r.addr false (ceilDiv r.size 4056) (winRead s p r.addr r.size) s) s

/-- Resynchronise one partition. -/
def resyncPart (s : State) (p : Pid) : State :=
  sendGrowing p (sendMirror p none (some (fullStepOf (partOf s p))) (sendMirGrant p s))

/-- After HOLD, once the partner has reported its plans: RESYNC, or PAIRED when nothing needs it (R462). -/
def beginResync (s : State) : State :=
  let ids := (mirroredHeld s).filter (fun p => !(partOf s p).conflict && (partOf s p).st != .tearingDown
    && (match partnerPlan s p.val with | some x => x.st == 3 | none => false))
  if ids.isEmpty then setPairSt 3 s
  else ids.foldl resyncPart (modPair (fun x => { x with resync := ids.map (fun p => p.val) }) (setPairSt 2 s))

/-- HOLD: the partner's ids; what is staged for an id that it no longer holds goes (R442, R461). -/
def doHold (h : DarradHdr) (ids : List (Nat × Nat)) (s : State) : State :=
  onFrame h (fun s =>
    if ids.any (fun x => decide (63 < x.1)) then pairViolation 1 h.length s
    else
      let s := modPair (fun p => { p with
        partnerIds := ids, holdSeen := true
        mirrors := p.mirrors.filter (fun m => ids.any (fun x => x.1 == m.part)) }) s
      ids.foldl resolveHold s) s

/-- Row HOLD. -/
def execHold (h : DarradHdr) (ids : List (Nat × Nat)) (s : State) : Host.Outcome State Fault Refusal := .next (doHold h ids s)

/-! ## Heartbeats (R453) -/

/-- What this chip reports of its plans. -/
def planStates (s : State) : List PlanState :=
  s.units.pair.plans.map (fun x => ⟨x.part, x.st, x.reason, x.win.unzero.isEmpty⟩)

/-- The next window of every live stream of the MIRRORED partitions (Table PAIR-3). -/
def nextWindows (s : State) : List (Nat × Nat × Nat) :=
  (mirroredHeld s).flatMap (fun p =>
    ((partOf s p).streams.filter (fun x => streamOpen x)).map (fun x => (p.val, x.index, x.nextWin)))

/-- HEARTBEAT_SEND_TICK. -/
def doBeat (s : State) : State :=
  darradPut 0 0xFF 0 (fun h => .heartbeat h s.units.pair.st s.units.pair.auto_.toNat (nextWindows s) (planStates s)) s

/-- Row HEARTBEAT_SEND_TICK. -/
def execHeartbeatSendTick (s : State) : Host.Outcome State Fault Refusal := .next (doBeat s)

/-- R448: a seeding copy starts for each MIRRORED partition whose plan is UNSEEDED with a zero window; MIRROR_GRANT goes
ahead of it, so that the partner knows the image (log entry 48). -/
def startCopies (s : State) : State :=
  (mirroredHeld s).foldl (fun s p =>
    if (partOf s p).ld.image.isSome && (partOf s p).st != .tearingDown && !s.units.pair.seeding.any (fun e => e.1 == p.val)
        && (match partnerPlan s p.val with | some x => x.st == 1 && x.zero | none => false) then
      startSeeding p false (sendMirGrant p s)
    else s) s

/-- What a HEARTBEAT reports for the streams of one partition. -/
def liveOf (next : List (Nat × Nat × Nat)) (p : Nat) : List (Nat × Nat) :=
  (next.filter (fun x => x.1 == p)).map (fun x => (x.2.1, x.2.2))

/-- HEARTBEAT. -/
def doHeartbeat (h : DarradHdr) (state policy : Nat) (next : List (Nat × Nat × Nat)) (plans : List PlanState) (s : State) : State :=
  onFrame h (fun s =>
    if 4 < state || 1 < policy then pairViolation 1 state s
    else if s.units.pair.partner != 0 then s
    else
      let live (m : Mirror) : Mirror := { m with live := liveOf next m.part }
      let s := modPair (fun p => { p with
        missed := 0, partnerAuto := policy == 1, partnerPlans := plans, gen := max p.gen h.gen, mirrors := p.mirrors.map live
        seeding := p.seeding.filter (fun e => plans.any (fun x => x.part == e.1)) }) s
      let s := if s.units.pair.st = 1 && s.units.pair.holdSeen then beginResync s else s
      if mirroring s then startCopies s else s) s

/-- Row HEARTBEAT. -/
def execHeartbeat (h : DarradHdr) (state policy : Nat) (next : List (Nat × Nat × Nat)) (plans : List PlanState) (s : State) :
    Host.Outcome State Fault Refusal := .next (doHeartbeat h state policy next plans s)

/-! ## Mirror messages, the holder's side (R451, R452) -/

/-- A partition's full mirror is acknowledged; with the last one the pair is PAIRED (R462). -/
def resynced (p : Pid) (s : State) : State :=
  if !(partOf s p).mirWait.isEmpty || !s.units.pair.resync.contains p.val then s
  else
    let s := modPair (fun x => { x with resync := x.resync.filter (fun i => i != p.val) }) s
    if s.units.pair.resync.isEmpty && s.units.pair.st == 2 then setPairSt 3 s else s

/-- A MIRROR_STEP is acknowledged: its boundary completes (Table SCH-7). -/
def stepAcked (p : Pid) (m : MirMsg) (s : State) : State :=
  let q := partOf s p
  match m.step, q.sc.steps.find? (fun st => st.mirroring) with
  | some x, some st => if x.boundary = q.sc.boundaries + 1 then closeStep p st s else s
  | _, _ => s

/-- MIRROR_ACK; a late one is discarded (R452). -/
def doMirrorAck (h : DarradHdr) (s : State) : State :=
  onPartFrame h (fun p s =>
    match (partOf s p).mirWait.find? (fun m => m.tag == h.tag) with
    | none => lateDiscard 0xFF darradUnit 6 h.linkSeq s
    | some m =>
      let s := modPart p (fun q => { q with mirWait := q.mirWait.filter (fun x => x.tag != h.tag) }) s
      let s := if m.resent then transientFault p.val darradUnit 0x0001 h.linkSeq s else s
      resynced p (stepAcked p m s)) s

/-- Row MIRROR_ACK. -/
def execMirrorAck (h : DarradHdr) (s : State) : Host.Outcome State Fault Refusal := .next (doMirrorAck h s)

/-- MIRROR_ACK_TIMEOUT: the oldest message that waits is sent once more, then the pair is interrupted (R452). -/
def doMirrorTimeout (p : Pid) (s : State) : State :=
  match (partOf s p).mirWait with
  | [] => s
  | m :: rest =>
    if m.resent then interruptPair s
    else
      let m' : MirMsg := { m with resent := true }
      putMirror p m' (modPart p (fun q => { q with mirWait := m' :: rest }) s)

/-- Row MIRROR_ACK_TIMEOUT. -/
def execMirrorAckTimeout (p : Pid) (s : State) : Host.Outcome State Fault Refusal := .next (doMirrorTimeout p s)

/-! ## Mirror messages, the standby side (R445, R451) -/

/-- What is staged for a partition. -/
def mirrorOf (s : State) (p : Nat) : Option Mirror := s.units.pair.mirrors.find? (fun m => m.part == p)

def modMirror (p : Nat) (g : Mirror → Mirror) (s : State) : State :=
  modPair (fun x => { x with mirrors := modFirst (fun m => m.part == p) g x.mirrors }) s

/-- The takeover plan for a partition. -/
def planOf (s : State) (p : Nat) : Option Plan := s.units.pair.plans.find? (fun x => x.part == p)

def modPlan (p : Nat) (g : Plan → Plan) (s : State) : State :=
  modPair (fun x => { x with plans := modFirst (fun y => y.part == p) g x.plans }) s

/-- A plan that must be copied again. -/
def unseed (x : Plan) : Plan := { x with st := 1, reason := 0, got := 0, heads := [], image := none }

/-- Acknowledge a mirror message (Table PAIR-3). -/
def sendAck (h : DarradHdr) (s : State) : State := darradSend 0x07 0 h.part h.tag [] s

/-- MIRROR_GRANT: stored; another image is to be copied again (R445, R448). -/
def doMirrorGrant (h : DarradHdr) (m : MirGrant) (s : State) : State :=
  onPartFrame h (fun p s =>
    if m.grants.length != 120 || m.imageHash.length != 48 && m.imageHash.length != 0 then pairViolation 1 h.length s
    else if !partnerHolds s p.val then pairViolation 2 p.val s
    else
      let old := (mirrorOf s p.val).bind (fun x => x.grant)
      let s := match mirrorOf s p.val with
        | some _ => modMirror p.val (fun x => { x with grant := some m }) s
        | none => modPair (fun x => { x with mirrors := x.mirrors ++ [{ part := p.val, grant := some m }] }) s
      let s := if (match old with | some o => o.imageHash == m.imageHash | none => true) then s else modPlan p.val unseed s
      sendAck h s) s

/-- Row MIRROR_GRANT. -/
def execMirrorGrant (h : DarradHdr) (m : MirGrant) (s : State) : Host.Outcome State Fault Refusal := .next (doMirrorGrant h m s)

/-- Write bytes into a standby window. -/
def standbyWrite (x : Plan) (addr : Nat) (bs : List Byte) (s : State) : State := modMem (winWriteAt x.win addr bs) s

/-- Permutation and index entries go to the standby window's regions (Table PAIR-4). -/
def growStandby (x : Plan) (m : MirStep) (s : State) : State :=
  match x.image with
  | none => s
  | some i =>
    let c := unpackCursor (field m.record 0 8)
    let s := match regionOf i.body (if c.epoch % 2 = 0 then .permA else .permB) with
      | some r => if m.perm.isEmpty then s else
          standbyWrite x (r.addr + 5 * (c.step * i.hdr.samplesPerStep)) ((m.perm.flatMap (toLe 5)).take r.size) s
      | none => s
    match regionOf i.body .index with
    | some r => m.index.foldl (fun s e => standbyWrite x (r.addr + 16 * e.1) (e.2.take 16) s) s
    | none => s

/-- Store a MIRROR_STEP: its record joins those staged unless it is there already. -/
def storeStep (m : MirStep) (x : Mirror) : Mirror :=
  let f := field m.record 0 8
  { x with
    step := some m, expect := some (m.boundary + 1)
    records := if m.record.isEmpty || x.records.any (fun r => r.1 == f) then x.records else x.records ++ [(f, m.record, m.perm)]
    index := x.index ++ m.index.map (fun e => e.1) }

/-- MIRROR_STEP: applied in the order sent (R451).  The one applied last, sent again, is acknowledged again.  One out of
order is dropped: unacknowledged, it interrupts the pair, which then resynchronises (log entry 49). -/
def doMirrorStep (h : DarradHdr) (m : MirStep) (s : State) : State :=
  onPartFrame h (fun p s =>
    if !partnerHolds s p.val then pairViolation 2 p.val s
    else match mirrorOf s p.val with
      | none => pairViolation 3 m.boundary s
      | some x =>
        if bit h.flags 0 && x.expect == some (m.boundary + 1) then sendAck h s
        else if x.grant.isNone || (match x.expect with | some n => n != m.boundary | none => false) then
          pairViolation 3 m.boundary s
        else
          let s := match planOf s p.val with
            | some y => growStandby y m s
            | none => s
          sendAck h (modMirror p.val (storeStep m) s)) s

/-- Row MIRROR_STEP. -/
def execMirrorStep (h : DarradHdr) (m : MirStep) (s : State) : Host.Outcome State Fault Refusal := .next (doMirrorStep h m s)

/-! ## Split runs (R354, R440) -/

/-- The run of chain 1 of a problem that is complete, under the mirrored seed (R354, R440). -/
def chain1Run (s : State) (x : Chain1) : Option Run :=
  match readProblem x.bytes, (mirrorOf s x.part.val).bind (fun m => m.grant) with
  | .ok pr sched _, some g =>
    some { kind := 1, part := x.part, tag := x.rev, prob := pr, sched := sched, seed := g.seed.getD 0, epoch := x.epoch
           sample := 2 ^ 39 + 2 ^ 38 + x.rev % 2 ^ 38, op := 0x2101, split := true, chainNo := 1, started := true }
  | _, _ => none

/-- Append a segment; the one that completes total_length starts chain 1. -/
def addSegment (p : Pid) (b : List Byte) (s : State) : State :=
  let rev := field b 0 4
  let off := field b 0x0C 4
  let l := s.units.churn.chain1
  let old : Option Chain1 :=
    if off = 0 then some { part := p, rev := rev, epoch := field b 4 2, total := field b 8 4 }
    else l.find? (fun x => decide (x.part = p) && x.rev == rev && x.bytes.length == off && x.run.isNone)
  match old with
  | none => s
  | some x =>
    let x : Chain1 := { x with bytes := x.bytes ++ b.drop 0x10 }
    let x : Chain1 := if x.total ≤ x.bytes.length then { x with run := chain1Run s x } else x
    modChurn (fun c => { c with chain1 := c.chain1.filter (fun y => decide (y.part ≠ p)) ++ [x] }) s

/-- CHURN_PROBLEM. -/
def doChurnProblem (h : DarradHdr) (b : List Byte) (s : State) : State :=
  onPartFrame h (fun p s =>
    if b.length < 17 || 4072 < b.length || !zeroAt b 6 2 then pairViolation 1 b.length s
    else if !partnerHolds s p.val then pairViolation 2 p.val s
    else if !churnUp s then s
    else addSegment p b s) s

/-- Row CHURN_PROBLEM. -/
def execChurnProblem (h : DarradHdr) (payload : List Byte) (s : State) : Host.Outcome State Fault Refusal :=
  .next (doChurnProblem h payload s)

/-- The state that a CHURN_STAGE or a result carries: n bits, the first variable lowest. -/
def stateOfBytes (n : Nat) (b : List Byte) : List Bool := (List.range n).map (fun i => bit (leNat b) i)

/-- What the other chain reported joins a run. -/
def hearStage (b : List Byte) (r : Run) : Run :=
  { r with others := r.others ++ [(field b 5 1, ofTwos 96 (field b 8 12), stateOfBytes r.prob.n (b.drop 0x18))] }

/-- CHURN_STAGE: from chain 1 to the holder's run, from chain 0 to chain 1; what comes after the run's end is dropped. -/
def doChurnStage (h : DarradHdr) (b : List Byte) (s : State) : State :=
  onPartFrame h (fun p s =>
    if b.length != 2072 || !zeroAt b 6 2 || !zeroAt b 0x14 4 || 1 < field b 4 1 || 15 < field b 5 1 then pairViolation 1 b.length s
    else if field b 4 1 = 1 then
      modPart p (fun q => { q with runs := modFirst (fun r => r.kind == 1 && r.split && r.tag == field b 0 4) (hearStage b) q.runs }) s
    else
      let hear (x : Chain1) : Chain1 := { x with run := x.run.map (hearStage b) }
      modChurn (fun c => { c with chain1 := modFirst (fun x => decide (x.part = p) && x.rev == field b 0 4) hear c.chain1 }) s) s

/-- Row CHURN_STAGE. -/
def execChurnStage (h : DarradHdr) (payload : List Byte) (s : State) : Host.Outcome State Fault Refusal :=
  .next (doChurnStage h payload s)

/-! ## Commands -/

/-- PAIR_STATUS (Table CMD-10). -/
def pairStatusBody (_ : Req) (s : State) : Ans :=
  let p := s.units.pair
  ansOk (toLe 1 p.st ++ toLe 1 p.role ++ toLe 1 p.partner ++ toLe 1 p.auto_.toNat ++ toLe 1 p.partnerAuto.toNat
    ++ toLe 1 (linkCode p.link) ++ zeros 2 ++ toLe 4 p.gen ++ zeros 4 ++ toLe 8 p.partnerSerial
    ++ toLe 8 (maskOf ((heldIds s).map (fun i => i.val)) 64) ++ toLe 8 (maskOf (p.partnerIds.map (fun x => x.1)) 64)
    ++ (List.range 64).flatMap (fun i => match planOf s i with
        | some x => toLe 1 x.st ++ toLe 2 (if x.st = 3 then x.reason else 0)
        | none => zeros 3))

/-- Row PAIR_STATUS. -/
def execPairStatus (r : ReqId) (s : State) : Host.Outcome State Fault Refusal :=
  .next (runCmd r 0x0B01 (fun _ => true) (fun _ _ => true) (reading pairStatusBody) s)

/-- PAIR_CONFIG (R443, R521). -/
def pairConfigBody (r : Req) (s : State) : State × Ans :=
  (modPair (fun p => { p with auto_ := field r.payload 0 1 == 1 }) s, ansOk)

/-- Row PAIR_CONFIG. -/
def execPairConfig (r : ReqId) (s : State) : Host.Outcome State Fault Refusal :=
  .next (runCmd r 0x0B02 (fun _ => true) (fun _ q => decide (field q.payload 0 1 ≤ 1) && zeroAt q.payload 1 3)
    (answering pairConfigBody) s)

end Sys2Proof.Machine
end

