-- ==== Sys2Proof/Machine/LogDiag.lean ====
section
/-!
DEFINITION. Reading the event log and its rate (R480, R483, R484, R525), DIAG_RUN (R526), the crossing FIFOs (R55) and
control pair B (R72, R244).
-/
namespace Sys2Proof.Machine

/-! ## The event log -/

/-- Bytes 0x00 to 0x1F of a record (Table ERR-7). -/
def recBody (r : LogRec) : List Byte :=
  toLe 8 r.ts ++ toLe 4 r.seq ++ toLe 1 r.part ++ toLe 1 r.sev ++ toLe 2 r.code
    ++ toLe 4 r.a0 ++ toLe 4 r.a1 ++ toLe 4 r.a2 ++ toLe 4 r.a3

/-- The 36 bytes of a record (R480). -/
def recBytes (r : LogRec) : List Byte := recBody r ++ toLe 4 (crc32 (recBody r))

/-- Every retained record, oldest first (R482). -/
def retained (l : LogSt) : List LogRec := l.spill ++ l.ring

/-- The oldest retained sequence; with no record, the next one to be written (R484). -/
def oldestSeq (l : LogSt) : Nat := match retained l with
  | r :: _ => r.seq
  | [] => l.nextSeq

/-- Where a start sequence lies (R484): how many retained records come before it, and AT_OLDEST. -/
def placeStart (l : LogSt) (start : Nat) : Nat × Bool :=
  let n := (retained l).length
  let d := (start + 2 ^ 32 - oldestSeq l % 2 ^ 32) % 2 ^ 32
  if n = 0 then (0, false)
  else if d < n then (d, false)
  else if 2 ^ 31 ≤ d then (0, true)
  else (n, false)

/-- The answer of LOG_READ: the records from a start that the reader may see, at most `cap` of them (R525).  The next
sequence is the one after the last record given when more follow, and the next to be written otherwise. -/
def logAnswer (l : LogSt) (start cap : Nat) (fromOldest : Bool) (sees : LogRec → Bool) : List Byte :=
  let at_ := if fromOldest then (0, false) else placeStart l start
  let all := ((retained l).drop at_.1).filter sees
  let got := all.take cap
  let more := decide (cap < all.length)
  let next := match got.getLast? with
    | some r => if more then (r.seq + 1) % 2 ^ 32 else l.nextSeq
    | none => l.nextSeq
  toLe 2 got.length ++ toLe 2 (at_.2.toNat + 2 * more.toNat) ++ toLe 4 next ++ toLe 4 (oldestSeq l) ++ zeros 4
    ++ got.flatMap recBytes

/-- LOG_READ: the PF reads every record with 0xFF or one partition's by naming it; a VF its own partition's (R37). -/
def readLog (r : Req) (s : State) : Ans :=
  let b := r.payload
  ansOk (logAnswer s.log (field b 0 4) (field b 4 2) (bit (field b 6 1) 0) (fun x => r.part == 0xFF || x.part == r.part))

/-- The fields of LOG_READ. -/
def logReadFields (_ : State) (r : Req) : Bool :=
  let b := r.payload
  decide (1 ≤ field b 4 2) && decide (field b 4 2 ≤ 112) && decide (field b 6 1 ≤ 1) && zeroAt b 7 1

/-- Row LOG_READ. -/
def execLogRead (r : ReqId) (s : State) : Host.Outcome State Fault Refusal :=
  .next (runCmd r 0x0C01 (fun _ => true) logReadFields (reading readLog) s)

/-- LOG_RATE_SECOND: the second in which records were counted ends; records dropped in it are reported in one
LOG_OVERFLOW of cause 1 (R483). -/
def doRateSecond (s : State) : State :=
  let n := s.log.dropped
  let first := s.log.dropFirst
  let s := modLog (fun l => { l with inSecond := 0, dropped := 0, dropFirst := 0 }) s
  if n = 0 then s else logDev 0x0009 n first 1 0 s

/-- Row LOG_RATE_SECOND. -/
def execLogRateSecond (s : State) : Host.Outcome State Fault Refusal := .next (doRateSecond s)

/-! ## DIAG_RUN -/

/-- How many instances a unit kind has (Table ERR-9); the router instance is x × 256 + y. -/
def unitCount (kind : Nat) : Nat :=
  nth [0, 8192, 33792, 32, 5, 24, 8, 16, 128, 1, 8, 64, 2048, 4, 1, 65, 1, 2, 8, 32, 1] kind

/-- Whether a unit identifier names a unit (R485). -/
def unitExists (u : Nat) : Bool := decide (u % 2 ^ 24 < unitCount (u / 2 ^ 24))

/-- Whether a partition holds the unit by a grant (Table PRT-2). -/
def unitGranted (s : State) (u : Nat) : Bool :=
  let i := u % 2 ^ 24
  let k := u / 2 ^ 24
  allPids.any (fun p =>
    let g := (partOf s p).g
    if k = 1 then g.clusters.contains (i / 64)
    else if k = 5 then g.cores.contains i
    else if k = 8 then g.clusters.contains i
    else if k = 9 then !g.churn.isEmpty
    else if k = 0x0A then g.ports.contains i
    else if k = 0x0D then g.ns.any (fun x => x.1 == i)
    else false)

/-- Whether a unit is in PD_AO or PD_HOST (Table CLK-3). -/
def alwaysOnUnit (u : Nat) : Bool :=
  [0x0F, 0x10, 0x11].contains (u / 2 ^ 24) || (u / 2 ^ 24 == 0x12 && decide (u % 2 ^ 24 < 2))

/-- The fields that every test shares. -/
def diagFields (test : Nat) (_ : State) (r : Req) : Bool :=
  unitExists (field r.payload 0 4) && field r.payload 4 1 == test && zeroAt r.payload 5 3

/-- The response of a test: result, detail and, for the dump, its entries. -/
def diagBytes (res : DiagResult) (more : List Byte) : List Byte :=
  toLe 1 (min res.result 2) ++ zeros 3 ++ toLe 4 res.detail ++ more

/-- The answer of a test on a unit: SERVICE_ONLY outside the always-on side in the service state (R50), not applicable
on a unit that the test is not for. -/
def diagAnswer (s : State) (u : Nat) (applies : Bool) (res : DiagResult) (more : List Byte) : Ans :=
  if s.ao.service && !alwaysOnUnit u then ansServiceOnly
  else ansOk (diagBytes (if applies then res else ⟨2, 0⟩) more)

/-- SELF_TEST: a unit granted to a partition is answered NOT_OWNER; a fenced unit that passes stays fenced (R479). -/
def selfTest (res : DiagResult) (r : Req) (s : State) : Ans :=
  let u := field r.payload 0 4
  if s.ao.service && !alwaysOnUnit u then ansServiceOnly
  else if unitGranted s u then ansNotOwner
  else diagAnswer s u (!([0x0B, 0x0C, 0x14].contains (u / 2 ^ 24))) res []

/-- Row DIAG_RUN, SELF_TEST; an undefined test is answered BAD_FIELD here. -/
def execDiagRunSelfTest (r : ReqId) (res : DiagResult) (s : State) : Host.Outcome State Fault Refusal :=
  .next (runCmd r 0x0C02 (fun b => !([2, 3, 4].contains (field b 4 1))) (diagFields 1) (reading (selfTest res)) s)

/-- The 3-bit STATE of an entry in use (Table SCH-5). -/
def entStCode : EntSt → Nat
  | .waiting => 1
  | .ready => 2
  | .issued => 3
  | .done => 4
  | .skipped => 5

/-- The 64 bits of an entry (Table SCH-5). -/
def entryWord (e : Entry) : Nat :=
  entStCode e.st + e.stage % 256 * 2 ^ 3 + e.stepScope.toNat * 2 ^ 11
    + (if e.stepScope then 0 else e.off % 2 ^ 16) * 2 ^ 12 + e.slot % 2 * 2 ^ 28 + e.pend % 16 * 2 ^ 29
    + e.retried.toNat * 2 ^ 33 + e.group % 64 * 2 ^ 34

/-- The 256 entries of a cluster's scoreboard, a FREE entry as 0. -/
def boardBytes (s : State) (c : Nat) : List Byte :=
  let own := allPids.filter (fun p => (partOf s p).g.clusters.contains c)
  match own with
  | [] => zeros 2048
  | p :: _ =>
    let q := partOf s p
    let rel := q.g.clusters.findIdx (fun x => x == c)
    (List.range 256).flatMap (fun i =>
      match q.sc.entries.find? (fun e => e.rel == rel && e.no == i) with
      | some e => toLe 8 (entryWord e)
      | none => zeros 8)

/-- SCOREBOARD_DUMP of the cluster that a crop/resize/warp unit names (R237). -/
def dumpBoard (r : Req) (s : State) : Ans :=
  let u := field r.payload 0 4
  let ok := u / 2 ^ 24 == 8
  diagAnswer s u ok ⟨0, 0⟩ (if ok then boardBytes s (u % 2 ^ 24) else zeros 2048)

/-- Row DIAG_RUN, SCOREBOARD_DUMP. -/
def execDiagRunScoreboardDump (r : ReqId) (s : State) : Host.Outcome State Fault Refusal :=
  .next (runCmd r 0x0C02 (fun b => field b 4 1 == 2) (diagFields 2) (reading dumpBoard) s)

/-- LOCKSTEP_CHECK of a control pair. -/
def lockstepCheck (res : DiagResult) (r : Req) (s : State) : Ans :=
  let u := field r.payload 0 4
  diagAnswer s u (u / 2 ^ 24 == 0x11) res []

/-- Row DIAG_RUN, LOCKSTEP_CHECK. -/
def execDiagRunLockstepCheck (r : ReqId) (res : DiagResult) (s : State) : Host.Outcome State Fault Refusal :=
  .next (runCmd r 0x0C02 (fun b => field b 4 1 == 3) (diagFields 3) (reading (lockstepCheck res)) s)

/-- LOOPBACK of an Ethernet port, the Darrad link, or a drive of which no namespace is granted. -/
def loopback (res : DiagResult) (r : Req) (s : State) : Ans :=
  let u := field r.payload 0 4
  let k := u / 2 ^ 24
  diagAnswer s u (k == 0x0A || k == 0x0E || (k == 0x0D && !unitGranted s u)) res []

/-- Row DIAG_RUN, LOOPBACK. -/
def execDiagRunLoopback (r : ReqId) (res : DiagResult) (s : State) : Host.Outcome State Fault Refusal :=
  .next (runCmd r 0x0C02 (fun b => field b 4 1 == 4) (diagFields 4) (reading (loopback res)) s)

/-! ## Crossing FIFOs (R55) -/

/-- Whether the link behind a crossing FIFO runs: clients 0 to 7 Ethernet, 8 to 11 NVMe, 12 Darrad, 13 the host. -/
def fifoLive (s : State) (c : Nat) : Bool :=
  if c < 8 then domOn s 5 && (portOf s c).link == .up
  else if c < 12 then domOn s 5 && ((driveOf s (c - 8)).st == 1 || (driveOf s (c - 8)).st == 2)
  else if c = 12 then domOn s 5 && s.units.pair.link == .up
  else c == 13 && s.host.link.up

/-- The first fault retrains the lane: an Ethernet port goes down until it is up again, the Darrad link retrains, and a
PCIe link recovers without going down. -/
def fifoRetrain (c : Nat) (s : State) : State :=
  if c < 8 then modPort c (fun x => { x with training := true }) (ethDown c s)
  else if c = 12 then retrain s
  else s

/-- The recurrence is lasting and fences the port. -/
def fifoFence (c : Nat) (s : State) : State :=
  if c < 8 then fenceEthPort c 0x0002 s
  else if c < 12 then driveLasting (c - 8) 0xFF 0x0002 0 s
  else if c = 12 then fenceLink 0x0002 s
  else
    let s := lastingFence 0xFF (unitId 0x0F 0) 0x0002 2 0 [] s
    hostReset (linkDown (modHost (fun h => { h with link := { h.link with fenced := true } }) s))

/-- ASYNC_FIFO_FAULT: logged; the lane is retrained once and a recurrence fences the port (R55). -/
def doFifoFault (stop client : Nat) (overflow : Bool) (s : State) : State :=
  if !fifoLive s client then s
  else
    let s := logDev 0x0702 (unitId 0x13 stop) (if overflow then 1 else 2) 0 0 s
    if s.units.mesh.fifoOnce.contains client then fifoFence client s
    else fifoRetrain client (modMesh (fun m => { m with fifoOnce := m.fifoOnce ++ [client] }) s)

/-- Row ASYNC_FIFO_FAULT. -/
def execAsyncFifoFault (stop client : Nat) (overflow : Bool) (s : State) : Host.Outcome State Fault Refusal :=
  .next (doFifoFault stop client overflow s)

/-! ## Control pair B (R72, R244) -/

/-- Whether the build that pair B works on belongs to a step that saw a mismatch before. -/
def buildMissed (s : State) : Bool := match s.ao.ctrl.lists with
  | [] => false
  | (p, slot) :: _ => match stepIn (partOf s p) slot with
    | some st => st.pairBMiss
    | none => false

/-- PAIR_B_LOCKSTEP_MISMATCH: pair B is reset and the build in work starts again from the same counts; the second one
within a step is lasting and causes a warm reset. -/
def doPairBMismatch (s : State) : State :=
  if s.ao.boot.phase != .running then s
  else if buildMissed s then
    let s := logDev 0x0104 1 2 0 0 s
    warmTrigger (lastingFault 0xFF (unitId 0x11 1) 0x0006 5 0 s)
  else
    let s := logDev 0x0104 1 1 0 0 s
    match s.ao.ctrl.lists with
    | [] => s
    | (p, slot) :: _ => modStep p slot (fun st => { st with pairBMiss := true }) s

/-- Row PAIR_B_LOCKSTEP_MISMATCH. -/
def execPairBLockstepMismatch (s : State) : Host.Outcome State Fault Refusal := .next (doPairBMismatch s)

end Sys2Proof.Machine
end

