-- ==== Sys2Proof/Machine/Module.lean ====
section
/-!
DEFINITION. The module: power inputs and sequencer (R531 to R534), sideband (R538, R539), JTAG (R540), and power and
thermal control (R542 to R547).
-/
namespace Sys2Proof.Machine

/-! ## Inputs and sequencer -/

/-- The rails go: PWR_GOOD falls, the die stops, and the restart latch is set (R533, R534). -/
def railsOff (s : State) : State :=
  if !s.ao.mod_.rails then s
  else
    let s := aoLost s
    emit (.pwrGood false)
      (modModule (fun m => { m with rails := false, pwrGood := false, holdOver := false, restartLatch := true }) s)

/-- POWER_INPUTS_GOOD: the sequencer starts unless its latch or THERMTRIP holds it; PWR_GOOD follows and the die is in
cold reset (R532, R533, R547). -/
def doInputsGood (s : State) : State :=
  let s := modModule (fun m => { m with aux := true, main := true }) s
  let m := s.ao.mod_
  if m.restartLatch || m.thermtrip || m.rails then s
  else emit (.pwrGood true) (modModule (fun m => { m with rails := true, pwrGood := true, holdOver := false }) (coldState s))

def execPowerInputsGood (s : State) : Host.Outcome State Fault Refusal := .next (doInputsGood s)

/-- RAIL_OUT_OF_RANGE: rail n of Table PHY-4, from 0; the LPDDR5X rails 4 to 7 exist while PD_MEM is powered (R531).
-/
def doRailOut (n : Nat) (s : State) : State :=
  if n < 4 || (decide (n < 8) && (domOf s 2 != .off && domOf s 2 != .fenced)) then railsOff s else s

def execRailOutOfRange (rail : Nat) (s : State) : Host.Outcome State Fault Refusal := .next (doRailOut rail s)

/-- MAIN_INPUT_LOSS: abrupt; nothing is logged, mirrored or sent (R534). -/
def doMainLoss (s : State) : State := railsOff (modModule (fun m => { m with main := false }) s)

def execMainInputLoss (s : State) : Host.Outcome State Fault Refusal := .next (doMainLoss s)

/-- AUX_INPUT_REMOVED: the rails go, the restart latch clears and THERMTRIP# is released (R533, R547). -/
def doAuxRemoved (s : State) : State :=
  let trip := s.ao.mod_.thermtrip
  let s := railsOff (modModule (fun m => { m with aux := false }) s)
  let s := modModule (fun m => { m with restartLatch := false, thermtrip := false }) s
  if trip then emit (.thermtrip false) s else s

def execAuxInputRemoved (s : State) : Host.Outcome State Fault Refusal := .next (doAuxRemoved s)

/-- PWR_GOOD_HOLD_EXPIRY: 100 ms after PWR_GOOD; a PERST# deasserted early takes effect now (R533). -/
def doHoldExpiry (s : State) : State :=
  if !s.ao.mod_.pwrGood || s.ao.mod_.holdOver then s
  else
    let s := modModule (fun m => { m with holdOver := true }) s
    if s.ao.mod_.perst then s else bootStart s

def execPwrGoodHoldExpiry (s : State) : Host.Outcome State Fault Refusal := .next (doHoldExpiry s)

/-- RESTART_LATCH_RELEASE: the 54 V input stayed below 40 V for 1 s (R533). -/
def doLatchRelease (s : State) : State :=
  if s.ao.mod_.main then s else modModule (fun m => { m with restartLatch := false }) s

def execRestartLatchRelease (s : State) : Host.Outcome State Fault Refusal := .next (doLatchRelease s)

/-! ## Thermal and power steps (R544) -/

/-- Threshold of a thermal step in units of 1/16 °C. -/
def stepTemp (k : Nat) : Int := if k = 1 then 1520 else if k = 2 then 1600 else 1664

/-- The step that a junction temperature calls for at once. -/
def stepFor (tj : Int) : Nat := if 1664 ≤ tj then 3 else if 1600 ≤ tj then 2 else if 1520 ≤ tj then 1 else 0

/-- The step in force. -/
def stepInForce (t : ThermSt) : Nat := max t.tStep t.pStep

/-- The hottest reading (R542). -/
def junction (t : ThermSt) : Int := t.temps.foldl max (t.temps.headD 0)

/-- The thermal step after one sample. -/
def thermalNext (tj : Int) (t : ThermSt) : ThermSt :=
  if t.tStep < stepFor tj then { t with tStep := stepFor tj, coolMs := 0 }
  else if 0 < t.tStep ∧ tj ≤ stepTemp t.tStep - 48 then
    if 9 ≤ t.coolMs then { t with tStep := t.tStep - 1, coolMs := 0 } else { t with coolMs := t.coolMs + 1 }
  else { t with coolMs := 0 }

/-- Apply a change to the steps and log a change of the step in force. -/
def stepChange (g : ThermSt → ThermSt) (s : State) : State :=
  let old := stepInForce s.ao.therm
  let s := modTherm g s
  let new := stepInForce s.ao.therm
  if new = old then s else logDev 0x0108 new (toTwos 32 (junction s.ao.therm)) 0 0 s

/-- THERMTRIP: the latch is set and every rail goes; the sequencer stays off until the auxiliary input is removed
(R547). -/
def thermTrip (s : State) : State :=
  let s := emit (.thermtrip true) (modModule (fun m => { m with thermtrip := true, fruLatch := 1 }) s)
  railsOff s

/-- THERMAL_SAMPLE (R542, R544, R547). -/
def doThermalSample (temps : List Int) (s : State) : State :=
  if !s.ao.mod_.pwrGood then s
  else
    let s := modTherm (fun t => { t with temps := temps }) s
    let tj := junction s.ao.therm
    if 1760 ≤ tj then thermTrip s else stepChange (thermalNext tj) s

def execThermalSample (temps : List Int) (s : State) : Host.Outcome State Fault Refusal := .next (doThermalSample temps s)

/-- The power step after one 10 ms window. -/
def powerNext (mw : Nat) (t : ThermSt) : ThermSt :=
  let t := { t with powerMw := mw }
  if t.limit * 1000 < mw + 10000 then { t with pStep := min 3 (t.pStep + 1), lowWins := 0 }
  else if mw + 40000 < t.limit * 1000 then
    if 9 ≤ t.lowWins then { t with pStep := t.pStep - 1, lowWins := 0 } else { t with lowWins := t.lowWins + 1 }
  else { t with lowWins := 0 }

/-- POWER_WINDOW_END (R542, R544). -/
def doPowerWindow (mw : Nat) (s : State) : State := if !s.ao.mod_.pwrGood then s else stepChange (powerNext mw) s

def execPowerWindowEnd (milliwatts : Nat) (s : State) : Host.Outcome State Fault Refusal :=
  .next (doPowerWindow milliwatts s)

/-! ## Sideband (R538, R539) -/

/-- Answer over the sideband, which runs from PWR_GOOD onward. -/
def sideband (bs : List Byte) (s : State) : State := if s.ao.mod_.pwrGood then emit (.smbus bs) s else s

/-- MCTP_CONTROL_MESSAGE: the five control messages R538 lists, with the response bodies of DSP0236 (PRESUMED);
anything else is ERROR_UNSUPPORTED_CMD. -/
def doMctp (cmd arg : Nat) (s : State) : State :=
  if !s.ao.mod_.pwrGood then s
  else if cmd = 1 then
    if arg % 256 = 0 || arg % 256 = 255 then sideband [2] s
    else sideband [0, 0, BitVec.ofNat 8 arg, 0] (modTherm (fun t => { t with eid := arg % 256 }) s)
  else if cmd = 2 then sideband [0, BitVec.ofNat 8 s.ao.therm.eid, 0, 0] s
  else if cmd = 4 then sideband [0, 1, 0xF1, 0xF3, 0xF1, 0] s
  else if cmd = 5 then sideband [0, 1, 0x7F] s
  else if cmd = 6 then sideband ([0, 0xFF, 1] ++ toBe 4 Config.vendorIana ++ [0, 0]) s
  else sideband [5] s

def execMctpControlMessage (cmd arg : Nat) (s : State) : Host.Outcome State Fault Refusal := .next (doMctp cmd arg s)

/-- GET_THERMAL_POWER (Table PHY-8). -/
def thermalPower (s : State) : List Byte :=
  let t := s.ao.therm
  [0] ++ toLe 1 (stepInForce t) ++ toLe 1 ((decide (0 < t.tStep)).toNat + 2 * (decide (0 < t.pStep)).toNat) ++ zeros 2
    ++ toLe 4 (toTwos 32 (junction t)) ++ toLe 4 t.powerMw ++ toLe 2 t.limit ++ zeros 2 ++ [s.ao.mod_.fruLatch] ++ zeros 3

def execGetThermalPower (s : State) : Host.Outcome State Fault Refusal := .next (sideband (thermalPower s) s)

/-- SET_POWER_LIMIT: 550 to 700 W; anything else answers completion 1 and changes nothing (R539). -/
def doSetPowerLimit (w : Nat) (s : State) : State :=
  if !s.ao.mod_.pwrGood then s
  else if 550 ≤ w ∧ w ≤ 700 then sideband [0] (modTherm (fun t => { t with limit := w }) s)
  else sideband [1] s

def execSetPowerLimit (watts : Nat) (s : State) : Host.Outcome State Fault Refusal := .next (doSetPowerLimit watts s)

/-- GET_SENSORS (Table PHY-8). -/
def execGetSensors (s : State) : Host.Outcome State Fault Refusal :=
  .next (sideband ([0] ++ (s.ao.therm.temps.take 16).flatMap (fun t => toLe 4 (toTwos 32 t))) s)

/-- FRU_LATCH_WRITE: only an SMBus write of 0 clears the latch byte (R538, R547). -/
def doFruWrite (v : Byte) (s : State) : State :=
  if s.ao.mod_.aux && v == 0 then modModule (fun m => { m with fruLatch := 0 }) s else s

def execFruLatchWrite (v : Byte) (s : State) : Host.Outcome State Fault Refusal := .next (doFruWrite v s)

/-! ## JTAG (R540) -/

/-- The instruction the TAP executes. -/
def tapOf (s : State) (i : Jtag) : Jtag :=
  match i with
  | .idcode => .idcode
  | .bypass => .bypass
  | .privateInstr => if s.ao.fuse.privateTapOff then .bypass else .privateInstr
  | x => if s.ao.mod_.perst then x else .bypass

/-- JTAG_INSTRUCTION. -/
def doJtag (i : Jtag) (s : State) : State :=
  if !s.ao.mod_.pwrGood then s
  else
    let x := tapOf s i
    let s := modTherm (fun t => { t with tap := x }) s
    match x with
    | .idcode => emit (.tdo 0x18192B3F) s
    | _ => s

def execJtagInstruction (i : Jtag) (s : State) : Host.Outcome State Fault Refusal := .next (doJtag i s)

end Sys2Proof.Machine
end

