-- ==== Sys2Proof/Machine/PairPlan.lean ====
section
/-!
DEFINITION. Takeover plans and their seeding (R440, R447, R448, R522, Table PAIR-7).
-/
namespace Sys2Proof.Machine

/-! ## PAIR_PLAN_SET (R447, R522) -/

/-- A port block of a plan without its padding. -/
def planBlock (b : List Byte) (k : Nat) : List Byte :=
  let o := 128 + 208 * k
  slice b o (16 + 12 * field b (o + 0x0B) 1)

/-- The port blocks of a plan. -/
def planBlocks (b : List Byte) : List (List Byte) := (List.range (field b 120 1)).map (planBlock b)

/-- A request whose masks and counts are all 0. -/
def planEmpty (b : List Byte) : Bool := zeroAt b 0 0x24 && zeroAt b 0x30 40 && field b 120 1 == 0

/-- A port block: a port of the mask, the fields of INGEST_PORT_CONFIG, zeros behind them. -/
def blockOk (b : List Byte) (g : GrantReq) (k : Nat) : Bool :=
  let o := 128 + 208 * k
  let n := 16 + 12 * field b (o + 0x0B) 1
  decide (n ≤ 208) && zeroAt b (o + n) (208 - n) && portCfgOk (planBlock b k) && g.ports.contains (field b o 1)

/-- The length that the block count asks for. -/
def planLength (b : List Byte) : Nat := 128 + 208 * field b 120 1

/-- The fields of R522. -/
def planFields (s : State) (r : Req) : Bool :=
  let b := r.payload
  let g := parseGrant b
  if b.length != planLength b then true
  else
    grantLayout (b.take 120) && zeroAt b 121 7 && (g.set == 0x10 || (g.set == 0 && planEmpty b)) && g.prio == 0 && g.flags == 0
      && decide (g.a + g.w + g.e ≤ 1016) && decide (g.churn ≤ 100) && decide (g.slots ≤ 16) && pairsInRange s g
      && (List.range (field b 120 1)).all (blockOk b g) && distinct ((planBlocks b).map (fun x => field x 0 1))
      && partnerHolds s r.part

/-- Remove a plan: its window is released as dirty, and a PAIR_PLAN_SET that waited for its zeroing ends FENCED. -/
def dropPlan (p : Nat) (s : State) : State :=
  match planOf s p with
  | none => s
  | some x =>
    let s := modPair (fun y => { y with plans := y.plans.filter (fun z => z.part != p) }) s
    completeOpt x.req stFenced 0x011A 0 s

/-- The domains that a standby window needs (R64). -/
def planDomains (g : GrantReq) : List Nat :=
  if g.a + g.w + g.e = 0 then [] else [2] ++ (if g.a + g.w = 0 then [] else [3]) ++ (if g.a + g.e = 0 then [] else [4])

/-- The halves of near memory that fall short (R111, R183). -/
def planShorts (s : State) (g : GrantReq) : List Short :=
  let half (west : Bool) (need : Nat) : List Short :=
    if need ≤ freeHalf s west then []
    else [⟨0x0104, 2, 8, if west then 3 else 4, need * halfRowBytes, freeHalf s west * halfRowBytes⟩]
  half true (g.a + 2 * g.w) ++ half false (g.a + 2 * g.e)

/-- Commit a plan on a state without the plan that it replaces. -/
def setPlan (r : Req) (g : GrantReq) (win : Window) (s : State) : State × Ans :=
  let b := r.payload
  let dirty := win.unzero.length * halfRowBytes
  let x : Plan := { part := r.part, grants := b.take 120, ports := planBlocks b, win := win, req := if dirty = 0 then none else some r.id }
  let s := modPair (fun y => { y with plans := y.plans ++ [x] }) (unclean (winHalfRows win) s)
  if dirty = 0 || g.a + g.w + g.e = 0 then (s, ansOk (toLe 8 0))
  else (modReq r.id (fun q => { q with left := dirty }) s, ansPend (toLe 8 dirty))

/-- PAIR_PLAN_SET: the answers of PARTITION_GRANT for the window (R501, R522); every other resource is only named. -/
def planBody (r : Req) (s : State) : State × Ans :=
  let b := r.payload
  let g := parseGrant b
  let needs := planDomains g
  if b.length != planLength b then (violation r.fn 5 0x0B03 s, ansBadLength)
  else if planEmpty b then (dropPlan r.part s, ansOk (toLe 8 0))
  else if (List.range 5).any (fun c => nth g.ceil c != 0 && decide (nth g.ceil c < nth g.min c)) then (s, ansRefused 0x0115)
  else if needs.any (fun d => domSeen s d == .fenced) then (s, ansFenced 0x0114)
  else if needs.any (fun d => domSeen s d == .off || domSeen s d == .poweringDown) then (s, ansRefused 0x0102)
  else if needs.any (fun d => domSeen s d == .powering) then (s, ansBusy 0x0103 1000)
  else
    let s' := dropPlan r.part s
    let shorts := planShorts s' g
    if !shorts.isEmpty then (s, ansShort stNoResource shorts)
    else match takeGranules s' g.a g.w g.e with
      | none => (s, ansShort stNoResource [])
      | some win => setPlan r g win s'

/-- Row PAIR_PLAN_SET. -/
def execPairPlanSet (r : ReqId) (s : State) : Host.Outcome State Fault Refusal :=
  .next (runCmd r 0x0B03 (fun _ => true) planFields (answering planBody) s)

/-! ## The check of a plan (R448) -/

/-- The image in a standby window: at a frame that began as an image does, with the mirrored hash. -/
def findImage (s : State) (x : Plan) (hash : List Byte) : Option Image :=
  x.heads.findSome? (fun a =>
    let n := field (winReadAt s.units.mem x.win a 256) 0x10 8
    if !inWindow x.win a n then none
    else match readImage (winReadAt s.units.mem x.win a n) n with
      | some i => if i.hdr.hash == hash && i.hdr.copyAddress == a then some i else none
      | none => none)

/-- The grants that a plan names, with the mirrored attributes (R447). -/
def planGrants (x : Plan) (m : MirGrant) : Grants :=
  let g := parseGrant x.grants
  { clusters := g.clusters, win := x.win, cores := g.cores, ports := g.ports, ns := g.ns
    churn := assignSlices g.churn [], resSlots := assignSlots 64 g.slots []
    sharedW := if g.sharedW = 0 then 16 else g.sharedW, stillW := g.stillW, prio := field m.grants 0x28 1
    spillAllowed := bit (field m.grants 0x29 1) 0, mirrored := bit (field m.grants 0x29 1) 1, min := g.min, ceil := g.ceil }

/-- The mirrored image with its cursor, seed and records. -/
def planLoaded (i : Image) (m : Mirror) (g : MirGrant) : Loaded :=
  { image := some i, recreate := !g.records.isEmpty, records := g.records, recCount := g.records.length, seed := g.seed
    cursor := unpackCursor (match m.step with | some x => x.cursor | none => g.cursor).toNat }

/-- The partition that a plan would make. -/
def planPart (x : Plan) (i : Image) (m : Mirror) (g : MirGrant) : Part :=
  { st := .granted, g := planGrants x g, ld := planLoaded i m g
    ex := { placement := i.body.placement0 }, streams := freshStreams i.body }

/-- The ports of a plan as the check sees them. -/
def planPorts (x : Plan) : PortView :=
  { role := fun n => match x.ports.find? (fun b => field b 0 1 == n) with
      | some b => field b 1 1
      | none => 0
    bound := fun i => x.ports.any (fun b => (bindingsOf b).any (fun y => y.1 == i)) }

/-- The consistency check of the mirrored image against the plan, every named resource free: its first reason, 0 when it
passes.  Item 13 is left out, as the pair is what the plan is for (log entry 50). -/
def planCheck (s : State) (p : Pid) (x : Plan) (i : Image) (m : Mirror) (g : MirGrant) : Nat :=
  if versionShort s i.hdr then 0x0203
  else match (checkItems s p (planPart x i m g) (planPorts x) false).shorts with
    | a :: _ => a.reason
    | [] => 0

/-! ## SEED (R440, R448) -/

/-- Bytes of the copy of an image (R448). -/
def copyBytes (i : Image) : Nat := sumL ((staticRegions i.body).map (fun r => r.size))

/-- SEED_DONE (Table PAIR-7). -/
def sendSeedDone (h : DarradHdr) (copy outcome bytes : Nat) (s : State) : State :=
  darradSend 0x0D 0 h.part h.tag (toLe 4 copy ++ toLe 1 outcome ++ zeros 3 ++ toLe 8 bytes) s

/-- The copy ends: complete when the mirrored image is there with every byte of its static regions; the check follows, and
SEED_DONE answers. -/
def endCopy (h : DarradHdr) (p : Pid) (x : Plan) (s : State) : State :=
  let fail (s : State) : State := sendSeedDone h x.copy 1 x.got (modPlan p.val unseed s)
  match mirrorOf s p.val with
  | none => fail s
  | some m =>
    match m.grant with
    | none => fail s
    | some g =>
      match findImage s x g.imageHash with
      | none => fail s
      | some i =>
        if x.got != copyBytes i then fail s
        else
          let k := planCheck s p x i m g
          sendSeedDone h x.copy 0 x.got (modPlan p.val (fun y => { y with st := 3, reason := k, image := some i }) s)

/-- One SEED frame for a plan: the first of a new copy begins it; frames of the copy that seeded a SEEDED plan only bring
its growing regions up to date (R462). -/
def seedFrame (h : DarradHdr) (p : Pid) (x : Plan) (addr copy : Nat) (last : Bool) (bs : List Byte) (s : State) : State :=
  if !x.win.unzero.isEmpty then s
  else if x.st = 3 && x.copy = copy then standbyWrite x addr bs s
  else
    let x : Plan := if x.st = 2 && x.copy = copy then x else { unseed x with st := 2, copy := copy }
    let x : Plan := { x with got := x.got + bs.length
                             heads := if bs.take 4 == [0x42, 0x53, 0x54, 0x49] then x.heads ++ [addr] else x.heads }
    let s := standbyWrite x addr bs (modPlan p.val (fun _ => x) s)
    if last then endCopy h p x s else s

/-- SEED: outside the plan's window, or without a plan, the frame is dropped and the plan is UNSEEDED (Table PAIR-5). -/
def doSeed (h : DarradHdr) (b : List Byte) (s : State) : State :=
  onPartFrame h (fun p s =>
    if b.length < 17 || 4072 < b.length || !zeroAt b 0x0D 3 || 1 < field b 0x0C 1 then pairViolation 1 b.length s
    else match planOf s p.val with
      | none => pairViolation 4 p.val s
      | some x =>
        if !inWindow x.win (field b 0 8) (b.length - 16) then modPlan p.val unseed (pairViolation 4 p.val s)
        else seedFrame h p x (field b 0 8) (field b 8 4) (field b 0x0C 1 == 1) (b.drop 16) s) s

/-- Row SEED. -/
def execSeed (h : DarradHdr) (payload : List Byte) (s : State) : Host.Outcome State Fault Refusal := .next (doSeed h payload s)

/-- SEED_DONE at the holder: the copy is complete, or is made once more, or its second failure is a lasting fault (R440).
-/
def doSeedDone (h : DarradHdr) (b : List Byte) (s : State) : State :=
  onPartFrame h (fun p s =>
    if b.length != 16 || !zeroAt b 5 3 || 1 < field b 4 1 then pairViolation 1 b.length s
    else match s.units.pair.seeding.find? (fun e => e.1 == p.val && e.2.1 == field b 0 4) with
      | none => s
      | some e =>
        let gone (s : State) : State := modPair (fun x => { x with seeding := x.seeding.filter (fun y => y.1 != p.val) }) s
        if field b 4 1 = 0 then
          gone (if e.2.2 then transientFault p.val darradUnit 0x0001 e.2.1 s else s)
        else if e.2.2 then lastingFault p.val darradUnit 0x0001 1 e.2.1 s
        else startSeeding p true s) s

/-- Row SEED_DONE. -/
def execSeedDone (h : DarradHdr) (payload : List Byte) (s : State) : Host.Outcome State Fault Refusal := .next (doSeedDone h payload s)

end Sys2Proof.Machine
end

