-- ==== Sys2Proof/Machine/Takeover.lean ====
section
/-!
DEFINITION. Loss of the partner, takeover, suspension, and PAIR_MOVE (R453, R454, R456 to R460, R463, R464, R523, R524).
-/
namespace Sys2Proof.Machine

/-! ## Resources that a plan needs from local partitions (R457) -/

/-- What a plan's examination has found: the first reason that stops it, and what each suspended partition loses. -/
structure Taking where
  reason : Nat := 0
  victims : List (Pid × Grants) := []
deriving DecidableEq, Repr

/-- No holdings. -/
def noGrants : Grants := {}

/-- Add what a partition loses. -/
def mergeLoss (a b : Grants) : Grants :=
  { a with clusters := b.clusters.foldl (fun l c => insSorted c l) a.clusters
           cores := b.cores.foldl (fun l c => insSorted c l) a.cores
           ports := b.ports.foldl (fun l c => insSorted c l) a.ports
           ns := a.ns ++ b.ns, churn := a.churn ++ b.churn, resSlots := a.resSlots ++ b.resSlots
           min := (List.range 5).map (fun c => nth a.min c + nth b.min c) }

/-- Note a loss of a partition. -/
def addLoss (p : Pid) (g : Grants) (l : List (Pid × Grants)) : List (Pid × Grants) :=
  if l.any (fun v => decide (v.1 = p)) then modFirst (fun v => decide (v.1 = p)) (fun v => (v.1, mergeLoss v.2 g)) l
  else l ++ [(p, mergeLoss noGrants g)]

/-- Other partitions that hold something. -/
def holders (s : State) (p : Pid) (t : Grants → Bool) : List Pid :=
  partsWhere s (fun q => q.st != .free && t q.g) |>.filter (fun o => decide (o ≠ p))

/-- Whether a holder keeps what it has: a higher or equal priority, taken before in this takeover, or being torn down. -/
def keeps (s : State) (prio : Nat) (taken : List Nat) (o : Pid) : Bool :=
  taken.contains o.val || decide (prio ≤ (partOf s o).g.prio) || (partOf s o).st == .tearingDown

/-- A resource that is named: hit gives the part of a partition's holdings that the plan names. -/
def needNamed (s : State) (p : Pid) (prio : Nat) (taken : List Nat) (reason : Nat) (hit : Grants → Grants) (t : Taking) : Taking :=
  if t.reason != 0 then t
  else
    let hs := holders s p (fun g => decide (hit g ≠ noGrants))
    if hs.any (keeps s prio taken) then { t with reason := reason }
    else { t with victims := hs.foldl (fun l o => addLoss o (hit (partOf s o).g) l) t.victims }

/-- Take what is short from lower partitions, the lowest priority and then the lowest id first. -/
def takeCount (f : Grants → Nat) (mk : Nat → Grants) (s : State) : List Pid → Nat → List (Pid × Grants) → Nat × List (Pid × Grants)
  | [], short, l => (short, l)
  | o :: rest, short, l =>
    let n := min short (f (partOf s o).g)
    takeCount f mk s rest (short - n) (if n = 0 then l else addLoss o (mk n) l)

/-- Sort partitions by ascending failover priority, then id. -/
def byPriority (s : State) (l : List Pid) : List Pid :=
  (List.range 8).flatMap (fun k => l.filter (fun o => (partOf s o).g.prio == k))

/-- A resource that is counted. -/
def needCount (s : State) (p : Pid) (prio : Nat) (taken : List Nat) (reason cap need : Nat) (f : Grants → Nat) (mk : Nat → Grants)
    (t : Taking) : Taking :=
  let hs := holders s p (fun g => f g != 0)
  let short := need - (cap - sumL (hs.map (fun o => f (partOf s o).g)))
  if t.reason != 0 || short = 0 then t
  else
    let r := takeCount f mk s (byPriority s (hs.filter (fun o => !keeps s prio taken o))) short t.victims
    if r.1 = 0 then { t with victims := r.2 } else { t with reason := reason }

/-- A unit or domain that the plan needs and that is off or fenced. -/
def planUnits (s : State) (g : Grants) : Nat :=
  let doms := g.clusters.map clusterDom ++ (if g.cores.isEmpty then [] else [6]) ++ (if g.ports.isEmpty && g.ns.isEmpty then [] else [5])
  if doms.any (fun d => domSeen s d == .fenced) || g.clusters.any (fun c => s.units.unavailable.contains c)
      || g.cores.any (fun c => (vget s.units.cores c {}).fenced) || g.ports.any (fun n => (portOf s n).link == .fenced)
      || g.ns.any (fun x => (driveOf s x.1).st == 3) then 0x0114
  else if doms.any (fun d => domSeen s d != .on) || (sumL g.min != 0 && !s.units.pool.inService) then 0x0102
  else 0

/-- Examine the resources of a plan in turn (R457). -/
def examine (s : State) (p : Pid) (g : Grants) (taken : List Nat) : Taking :=
  let both (a b : List Nat) : List Nat := a.filter (fun x => b.contains x)
  let t : Taking := { reason := planUnits s g }
  let t := needNamed s p g.prio taken 0x0101 (fun h => { noGrants with clusters := both h.clusters g.clusters }) t
  let t := (List.range 5).foldl (fun t c =>
    needCount s p g.prio taken 0x0109 (capacity s c) (nth g.min c) (fun h => nth h.min c)
      (fun n => { noGrants with min := setNth [0, 0, 0, 0, 0] c n }) t) t
  let t := needNamed s p g.prio taken 0x0106 (fun h => { noGrants with cores := both h.cores g.cores }) t
  let t := needCount s p g.prio taken 0x010A 100 g.churn.length (fun h => h.churn.length)
    (fun n => { noGrants with churn := List.range n }) t
  let t := needCount s p g.prio taken 0x0116 64 g.resSlots.length (fun h => h.resSlots.length)
    (fun n => { noGrants with resSlots := List.range n }) t
  let t := needNamed s p g.prio taken 0x0107 (fun h => { noGrants with ports := both h.ports g.ports }) t
  needNamed s p g.prio taken 0x0108 (fun h => { noGrants with ns := h.ns.filter (fun x => g.ns.contains x) }) t

/-! ## Suspension (R458) -/

/-- Slices and slots of a partition for new counts (R167, R349). -/
def recount (s : State) (p : Pid) (churn slots : Nat) (g : Grants) : Grants :=
  { g with churn := if churn = g.churn.length then g.churn else
             assignSlices churn (allPids.flatMap (fun o => if o = p then [] else (partOf s o).g.churn))
           resSlots := if slots = g.resSlots.length then g.resSlots else
             assignSlots 64 slots (allPids.flatMap (fun o => if o = p then [] else (partOf s o).g.resSlots)) }

/-- What a partition keeps. -/
def keepAfter (s : State) (p : Pid) (l : Grants) : Grants :=
  let g := (partOf s p).g
  recount s p (g.churn.length - l.churn.length) (g.resSlots.length - l.resSlots.length)
    { g with clusters := g.clusters.filter (fun c => !l.clusters.contains c), cores := g.cores.filter (fun c => !l.cores.contains c)
             ports := g.ports.filter (fun c => !l.ports.contains c), ns := g.ns.filter (fun x => !l.ns.contains x)
             min := (List.range 5).map (fun c => nth g.min c - nth l.min c) }

/-- Stop a partition at its last step boundary: both open steps are withdrawn, its streams stop, its buffers are released.
-/
def stopAtOnce (p : Pid) (s : State) : State :=
  let req := (partOf s p).sc.pauseReq
  let s := dropRequests p (fun _ => true) s
  let s := (partOf s p).sc.steps.foldl (fun s st => withdrawStep p st s) s
  let s := fenceOpen p (killWork p none s)
  let s := (partOf s p).streams.foldl (fun s x => stopStream p x.index s) s
  let s := releaseWhere (fun d => d.part == p.val) s
  let s := unreserveAll p (partOf s p).held s
  let noBuf (x : Stream) : Stream := { x with res := 0, wins := (x.wins.filter (fun w => w.encoded)).map (fun w => { w with buf := none }) }
  let s := modPart p (fun q => { q with
    streams := q.streams.map noBuf
    sc := { q.sc with steps := [], entries := [], wait := .none, asking := false, pausing := false, pauseReq := none, next := q.ld.cursor } }) s
  completeOpt req stRefused 0x0113 0 s

/-- Suspend a partition to make room: what the taker needs is gone from it, and it keeps the rest.  A FENCED one loses the
same and stays FENCED (log entry 51). -/
def suspendFor (s : State) (v : Pid × Grants) : State :=
  let p := v.1
  let l := v.2
  let s := stopAtOnce p s
  let q := partOf s p
  let s := l.ports.foldl (fun s n =>
    releasePort n (q.targets.foldl (fun s t => if !t.par.p2p && t.par.port == n then closeSession p t.id 2 true s else s) s)) s
  let s := l.ns.foldl (fun s x => deleteQueue x s) s
  let s := resetClusters l.clusters s
  let g := keepAfter s p l
  modPart p (fun q =>
    if q.st = .fenced then { q with g := g }
    else { q with g := g, st := .suspended, cause := 0x0803, lent := some (mergeLoss (q.lent.getD noGrants) l) }) s

/-- What a suspended partition lost is free again. -/
def lostFree (s : State) (p : Pid) (l : Grants) : Bool :=
  let q := (partOf s p).g
  let others (f : Grants → Nat) : Nat := othersSum s p f
  planUnits s { l with min := [0, 0, 0, 0, 0] } == 0
    && !l.clusters.any (fun c => othersHold s p (fun g => g.clusters.contains c))
    && !l.cores.any (fun c => othersHold s p (fun g => g.cores.contains c))
    && !l.ports.any (fun c => othersHold s p (fun g => g.ports.contains c))
    && !l.ns.any (fun x => othersHold s p (fun g => g.ns.contains x))
    && decide (q.churn.length + l.churn.length + others (fun g => g.churn.length) ≤ 100)
    && decide (q.resSlots.length + l.resSlots.length + others (fun g => g.resSlots.length) ≤ 64)
    && (List.range 5).all (fun c => nth l.min c == 0
      || decide (nth q.min c + nth l.min c + others (fun g => nth g.min c) ≤ capacity s c))

/-- Grant back what was lost: the partition is PAUSED, and its resume checks again and loads its tiles. -/
def giveBack (p : Pid) (l : Grants) (s : State) : State :=
  let g := (partOf s p).g
  let back : Grants := recount s p (g.churn.length + l.churn.length) (g.resSlots.length + l.resSlots.length)
    { mergeLoss g l with churn := g.churn, resSlots := g.resSlots }
  let s := modPart p (fun q => { q with
    g := back, st := .paused, cause := 0, lent := none
    ld := { q.ld with recheck := true, loadedInPause := false, lastCheck := [], placement := 0xFF } }) s
  let s := clearSync p (resetClusters l.clusters s)
  l.ns.foldl (fun s x => createQueue p x s) s

/-- SUSPENDED_RESOURCES_FREE: everything that it lost is free, and Sorud grants it back (R458). -/
def doResourcesFree (p : Pid) (s : State) : State :=
  match (partOf s p).st, (partOf s p).lent with
  | .suspended, some l => if lostFree s p l then giveBack p l s else s
  | _, _ => s

/-- Row SUSPENDED_RESOURCES_FREE. -/
def execSuspendedResourcesFree (p : Pid) (s : State) : Host.Outcome State Fault Refusal := .next (doResourcesFree p s)

/-! ## Mirrored state (R459, R460) -/

/-- The counters that a counter record holds (Table EXP-4). -/
def expertsFrom (b : List Byte) (cleared : Bool) : Experts :=
  let at_ (d o n : Nat) : Nat := field b (32 + 32 * d + o) n
  let col (o n : Nat) : List Nat := (List.range 65).map (fun d => at_ d o n)
  if b.length != 2112 then {}
  else
    { firstCursor := field b 0 8, tokens := field b 8 4, recVersion := field b 12 4, revisions := field b 16 4, kept := field b 20 4
      pairs := field b 24 4, dest := (List.range 65).map (fun d => (at_ d 0 4, at_ d 4 4, at_ d 8 2, at_ d 10 2))
      chosenLoad := col 16 8, fullSteps := col 24 4, windowCount := col 28 4, window := if cleared then [] else col 28 4 }

/-- The counters and the placement of the last mirrored boundary; a result not installed is lost (R335, R464). -/
def mirrorExperts (i : Image) (m : Mirror) : Experts :=
  match m.step with
  | none => { placement := i.body.placement0 }
  | some x =>
    let c := unpackCursor (field x.record 0 8)
    let v := i.body.revInterval
    let pl := ((List.range 64).map (fun e => (e, x.placement.getD e []))).filter (fun y => !y.2.isEmpty)
    { expertsFrom x.counters (v != 0 && (c.step + 1) % v == 0) with placement := pl, version := x.version }

/-- A mirrored record: NON_RECREATABLE when it holds a live sample without a mirrored index entry (R459). -/
def markRecord (live : Bool) (m : Mirror) (r : Nat × List Byte × List Nat) : Cursor × List Byte :=
  let lost := live && r.2.2.any (fun id => !m.index.contains id)
  (unpackCursor r.1, if lost then r.2.1.take 0x15 ++ toLe 1 (field r.2.1 0x15 1 ||| 1) ++ r.2.1.drop 0x16 else r.2.1)

/-- A target as it stands after a takeover: CLOSED, with the first sequence of its next session (R460). -/
def closedTarget (q : Part) (live : Bool) (t : MirTarget) : Target :=
  { id := t.target, st := 3, par := parOf t.par, acked := t.acked, released := t.released
    nextSeq := (if live then t.nextSeq + batchesTo q t.target else t.acked + 1) % 2 ^ 64 }

/-- A stream with its mirrored counts; after a takeover a live one goes on far ahead of the lost chip (R459). -/
def mirrorStream (m : Mirror) (ahead : Bool) (x : Stream) : Stream :=
  let y := (m.step.map (fun v => v.streams)).bind (fun l => l.find? (fun v => v.1 == x.index))
  let x : Stream := match y with
    | some v => { x with everOpened := true, nextWin := v.2.2.2.1
                         codec := { x.codec with pictures := v.2.1, recOff := v.2.2.1, sinceIrap := v.2.2.2.2 } }
    | none => x
  match m.live.find? (fun v => v.1 == x.index) with
  | some v => if ahead then { x with nextWin := v.2 + 1048576 } else x
  | none => x

/-- Put the mirrored records back into the STEP_RECORDS ring. -/
def putRecords (p : Pid) (l : List (Cursor × List Byte)) (s : State) : State := l.foldl (fun s r => writeRecord p r.1 r.2 s) s

/-- Install the mirrored state of a partition whose grants are committed. -/
def installMirror (p : Pid) (i : Image) (m : Mirror) (g : MirGrant) (ahead : Bool) (s : State) : State :=
  let live := i.hdr.live
  let ld := planLoaded i m g
  let s := modPart p (fun q =>
    let q : Part := { q with ld := ld, sc := { next := ld.cursor }, ex := mirrorExperts i m }
    { q with targets := (match m.step with
               | some x => x.targets.map (closedTarget q live)
               | none => [])
             streams := (freshStreams i.body).map (mirrorStream m ahead) }) s
  putRecords p (m.records.map (markRecord live m)) s

/-- Commit the grants of a plan, with the standby window; its ports take their roles and bindings (R447, R457). -/
def commitPlan (p : Pid) (x : Plan) (g : Grants) (s : State) : State :=
  let s := modPair (fun y => { y with plans := y.plans.filter (fun z => z.part != p.val) }) s
  let s := resetClusters g.clusters s
  let old := partOf s p
  let s := modPart p (fun _ => { st := .granted, g := { g with churn := [], resSlots := [] }, gen := s.units.pair.gen
                                 mirTag := old.mirTag, seedCopy := old.seedCopy }) s
  let s := modPart p (fun q => { q with g := recount s p g.churn.length g.resSlots.length q.g }) s
  let s := x.ports.foldl (fun s b => setPort b s) s
  let s := (g.ns.filter (fun n => !(driveOf s n.1).queues.contains n.2)).foldl (fun s n => createQueue p n s) s
  completeOpt x.req stFenced 0x011A 0 s

/-- The lost chip's id is ours now. -/
def takeId (p : Pid) (s : State) : State :=
  modPair (fun x => { x with partnerIds := x.partnerIds.filter (fun y => y.1 != p.val)
                             mirrors := x.mirrors.filter (fun m => m.part != p.val)
                             partnerPlans := x.partnerPlans.filter (fun y => y.part != p.val) }) s

/-- Leave a taken partition SUSPENDED (R456, R457). -/
def leaveSuspended (p : Pid) (s : State) : State :=
  modPart p (fun q => { q with st := .suspended, cause := 0x0803, gen := s.units.pair.gen }) s

/-! ## Takeover (R456, R457) -/

/-- How one partition was treated: its reason, and the local partition suspended for it. -/
structure Taken where
  reason : Nat
  victim : Nat := 0xFF
deriving DecidableEq, Repr

/-- The recording gap of each live stream, up to its w_0 (R459). -/
def takeoverGaps (p : Pid) (m : Mirror) (s : State) : State :=
  m.live.foldl (fun s v => logGap p v.1 v.2 (v.2 + 1048575) s) s

/-- Steps 2 to 4 of R457 on a partition whose plan grants are committed. -/
def enableTaken (p : Pid) (x : Plan) (i : Image) (m : Mirror) (g : MirGrant) (s : State) : State × Nat :=
  let s := installMirror p i m g true s
  let c := if versionShort s i.hdr then { shorts := [plainShort 0x0203] } else checkItems s p (partOf s p) (planPorts x) false
  match c.shorts with
  | a :: _ => (leaveSuspended p s, a.reason)
  | [] =>
    match reserveNow p (standingOf (partOf s p)) s with
    | none => (leaveSuspended p s, 0x010B)
    | some s =>
      let s := goOn p c (checkPayload c) s
      let s := if i.hdr.live then takeoverGaps p m s else s
      (x.ports.foldl (fun s b =>
        let n := field b 0 1
        if (portOf s n).link == .up then askCameras n s else s) s, 0)

/-- Treat one MIRRORED partition of the lost partner. -/
def takePart (p : Pid) (m : Mirror) (taken : List Nat) (s : State) : State × Taken :=
  let refused (k : Nat) : State × Taken := (leaveSuspended p (takeId p (dropPlan p.val s)), { reason := k })
  match planOf s p.val, m.grant with
  | some x, some g =>
    (match x.image with
      | some i =>
        if x.st != 3 || x.reason != 0 then refused 0x0802
        else
          let gr := planGrants x g
          let t := examine s p gr taken
          if t.reason != 0 then refused t.reason
          else
            let s := t.victims.foldl suspendFor s
            let r := enableTaken p x i m g (commitPlan p x gr (takeId p s))
            (r.1, { reason := r.2, victim := match t.victims with
              | v :: _ => v.1.val
              | [] => 0xFF })
      | none => refused 0x0802)
  | _, _ => refused 0x0802

/-- Whether the partner mirrored a partition here (R456). -/
def isMirrored (m : Mirror) : Bool := match m.grant with
  | some g => bit (field g.grants 0x29 1) 1
  | none => false

/-- The failover priority of a partner's partition. -/
def mirPrio (s : State) (id : Nat) : Nat := match (mirrorOf s id).bind (fun m => m.grant) with
  | some g => field g.grants 0x28 1
  | none => 0

/-- The partner's ids in descending priority, ties in ascending id. -/
def takeOrder (s : State) : List Nat :=
  let ids := (List.range 64).filter (fun i => partnerHolds s i)
  (List.range 256).flatMap (fun k => ids.filter (fun i => mirPrio s i == 255 - k))

/-- The completion of one partition examined (R523). -/
def postTaken (req : Option ReqId) (id : Nat) (t : Taken) (last : Bool) (s : State) : State :=
  match req with
  | some r => complete r 0 0 (id + t.reason * 2 ^ 16 + t.victim * 2 ^ 32) last s
  | none => s

/-- Treat the ids one after the other; a copy that lost a hold conflict here is left alone.  The spec gives no reason for
an id that is not taken because it is not MIRRORED: it is a free value (log entry 52). -/
def takeAll (req : Option ReqId) : List Nat → List Nat → State → State
  | [], _, s => s
  | id :: rest, taken, s =>
    match pidOf id, mirrorOf s id with
    | some p, some m =>
      if !isMirrored m || (partOf s p).st != .free then
        match fresh s with
        | (v, s) => takeAll req rest taken (postTaken req id { reason := v % 65536 } rest.isEmpty s)
      else
        match takePart p m taken s with
        | (s, t) =>
          let s := logEvent id 0x0803 id t.reason t.victim 0 s
          takeAll req rest (taken ++ [id]) (postTaken req id t rest.isEmpty s)
    | _, _ =>
      match fresh s with
      | (v, s) => takeAll req rest taken (postTaken req id { reason := v % 65536 } rest.isEmpty s)

/-- A takeover: the pair generation rises, and every partition that the lost partner held is treated (R456). -/
def takeover (req : Option ReqId) (s : State) : State :=
  let s := modPair (fun p => { p with gen := (p.gen + 1) % 2 ^ 32 }) s
  takeAll req (takeOrder s) [] (dropChains s)

/-! ## Loss of the partner (R453, R454, R464) -/

/-- A PAIR_MOVE that waits fails, and its partition stays PAUSED here (R464). -/
def failMoves (s : State) : State :=
  let l := s.units.pair.moving
  l.foldl (fun s m => complete m.2 stRefused 0x0801 0 true s) (modPair (fun p => { p with moving := [] }) s)

/-- The partner is lost: 1 LOST, 2 SILENT, 3 by DEPARTURE; with AUTO a loss starts takeover at once (R453, R454). -/
def partnerLost (k : Nat) (s : State) : State :=
  let s := modPair (fun p => { p with partner := if k = 2 then 2 else 1, missed := 0, helloSeen := false, holdSeen := false, role := 0xFF
                                      resync := [], seeding := [] }) s
  let s := logDev 0x0802 k s.units.pair.gen 0 0 s
  let s := setPairSt 0 (failMoves (dropChains (dropMirror s)))
  if s.units.pair.auto_ && k != 2 then takeover none s else s

/-- HEARTBEAT_MISS: the third in a row declares the partner. -/
def doMiss (los : Bool) (s : State) : State :=
  let p := s.units.pair
  if !domOn s 5 || p.partner != 0 || p.st == 0 then s
  else if p.missed + 1 < 3 then modPair (fun p => { p with missed := p.missed + 1 }) s
  else partnerLost (if los then 1 else 2) s

/-- Row HEARTBEAT_MISS. -/
def execHeartbeatMiss (lossOfSignal : Bool) (s : State) : Host.Outcome State Fault Refusal := .next (doMiss lossOfSignal s)

/-- DEPARTURE. -/
def doDeparture (h : DarradHdr) (s : State) : State :=
  onFrame h (fun s => if s.units.pair.partner = 0 then partnerLost 3 s else s) s

/-- Row DEPARTURE. -/
def execDeparture (h : DarradHdr) (s : State) : Host.Outcome State Fault Refusal := .next (doDeparture h s)

/-! ## PAIR_TAKEOVER (R523) -/

def takeoverFields (_ : State) (r : Req) : Bool := decide (field r.payload 0 1 ≤ 1) && zeroAt r.payload 1 3

/-- Admitted only while the partner is LOST or SILENT. -/
def takeoverBody (r : Req) (s : State) : State × Ans :=
  let _ := r
  if s.units.pair.partner = 0 then (s, ansRefused 0x0113)
  else
    let n := s.units.pair.partnerIds.length
    if n = 0 then (s, ansOk (toLe 4 0)) else (s, ansPend (toLe 4 n))

/-- Row PAIR_TAKEOVER_TAKE_OVER: the answer comes first, then the takeover with its completions. -/
def execPairTakeoverTakeOver (r : ReqId) (s : State) : Host.Outcome State Fault Refusal :=
  let s' := runCmd r 0x0B04 (fun b => field b 0 1 != 1) takeoverFields (answering takeoverBody) s
  .next (match findReq s r, findReq s' r with
    | some a, some b => if a.phase == .ready && b.phase == .pending && b.opcode == 0x0B04 then takeover (some r) s' else s'
    | _, _ => s')

/-- RELEASE_IDS: the ids of the lost chip's partitions that are not MIRRORED are free. -/
def releaseIdsBody (r : Req) (s : State) : State × Ans :=
  let _ := r
  if s.units.pair.partner = 0 then (s, ansRefused 0x0113)
  else
    let n := s.units.pair.partnerIds.length
    let keep (x : Nat × Nat) : Bool := match mirrorOf s x.1 with
      | some m => isMirrored m
      | none => false
    (modPair (fun p => { p with partnerIds := p.partnerIds.filter keep }) s, ansOk (toLe 4 n))

/-- Row PAIR_TAKEOVER_RELEASE_IDS. -/
def execPairTakeoverReleaseIds (r : ReqId) (s : State) : Host.Outcome State Fault Refusal :=
  .next (runCmd r 0x0B04 (fun b => field b 0 1 == 1) takeoverFields (answering releaseIdsBody) s)

/-! ## PAIR_MOVE (R463, R524) -/

/-- Tags of MOVE frames: the partition's mirror tags. -/
def moveBody (r : Req) (s : State) : State × Ans :=
  let p := r.pid
  if transferOpen s p then (s, ansBusy 0 1000)
  else if s.units.pair.st != 3 then (s, ansRefused 0x0801)
  else if !planPasses s p.val || !(partOf s p).mirWait.isEmpty || !(partOf s p).g.mirrored then (s, ansRefused 0x0802)
  else if s.units.pair.moving.any (fun m => m.1 == p.val) then (s, ansBusy 0 1000)
  else
    let s := modPair (fun x => { x with moving := x.moving ++ [(p.val, r.id)] }) s
    (darradSend 0x08 0 p.val (partOf s p).mirTag [] s, ansPend)

/-- Row PAIR_MOVE. -/
def execPairMove (r : ReqId) (s : State) : Host.Outcome State Fault Refusal :=
  .next (runCmd r 0x0B05 (fun _ => true) (fun _ _ => true) (answering moveBody) s)

/-- MOVE_ACK (Table PAIR-3): 0 accepts. -/
def sendMoveAck (h : DarradHdr) (reason : Nat) (s : State) : State := darradSend 0x09 0 h.part h.tag (toLe 2 reason) s

/-- Accept a MOVE: the id passes here in PAUSED at a pair generation raised by 1, with the plan grants and the standby
window; no local partition is suspended for it (R463). -/
def acceptMove (h : DarradHdr) (p : Pid) (x : Plan) (i : Image) (m : Mirror) (g : MirGrant) (s : State) : State :=
  let s := modPair (fun y => { y with gen := (y.gen + 1) % 2 ^ 32 }) s
  let s := dropChains (takeId p s)
  let s := installMirror p i m g false (commitPlan p x (planGrants x g) s)
  let s := modPart p (fun q => { q with st := .paused, ld := { q.ld with recheck := true } }) s
  mirrorGrantOf p (sendHold (sendMoveAck h 0 s))

/-- MOVE. -/
def doMove (h : DarradHdr) (s : State) : State :=
  onPartFrame h (fun p s =>
    if !partnerHolds s p.val then pairViolation 2 p.val s
    else match planOf s p.val, mirrorOf s p.val with
      | some x, some m =>
        (match x.image, m.grant with
          | some i, some g =>
            if x.st != 3 then sendMoveAck h 0x0802 (pairViolation 7 p.val s)
            else if x.reason != 0 then sendMoveAck h x.reason s
            else
              let t := examine s p { planGrants x g with prio := 0 } []
              if t.reason != 0 then sendMoveAck h t.reason s else acceptMove h p x i m g s
          | _, _ => sendMoveAck h 0x0802 (pairViolation 7 p.val s))
      | _, _ => sendMoveAck h 0x0802 (pairViolation 7 p.val s)) s

/-- Row MOVE. -/
def execMove (h : DarradHdr) (s : State) : Host.Outcome State Fault Refusal := .next (doMove h s)

/-- MOVE_ACK: on acceptance the holder tears down its copy; a refusal answers PAIR_MOVE (R463, R524). -/
def doMoveAck (h : DarradHdr) (reason : Nat) (s : State) : State :=
  onPartFrame h (fun p s =>
    match s.units.pair.moving.find? (fun m => m.1 == p.val) with
    | none => s
    | some m =>
      let s := modPair (fun x => { x with moving := x.moving.filter (fun y => y.1 != p.val) }) s
      if reason != 0 then complete m.2 stRefused reason 0 true s
      else
        let s := modPair (fun x => { x with gen := max x.gen h.gen
                                            partnerIds := x.partnerIds.filter (fun y => y.1 != p.val) ++ [(p.val, h.gen)] }) s
        beginTeardown p (complete m.2 0 0 0 true s)) s

/-- Row MOVE_ACK. -/
def execMoveAck (h : DarradHdr) (reason : Nat) (s : State) : Host.Outcome State Fault Refusal := .next (doMoveAck h reason s)

end Sys2Proof.Machine
end

