-- ==== Sys2Proof/Machine/Dispatch.lean ====
section
/-!
DEFINITION. One arm per command of the block.
-/
namespace Sys2Proof.Machine

def exec (i : Instr) (s : State) : Host.Outcome State Fault Refusal :=
  match i with
  | .deviceIdentify r => Sys2Proof.Machine.execDeviceIdentify r s
  | .devicePowerSet r => Sys2Proof.Machine.execDevicePowerSet r s
  | .devicePowerStatus r => Sys2Proof.Machine.execDevicePowerStatus r s
  | .deviceResetWarm r => Sys2Proof.Machine.execDeviceResetWarm r s
  | .deviceResetCold r => Sys2Proof.Machine.execDeviceResetCold r s
  | .firmwareUpdate r => Sys2Proof.Machine.execFirmwareUpdate r s
  | .deviceTileMapReadClusters r => Sys2Proof.Machine.execDeviceTileMapReadClusters r s
  | .deviceTileMapReadHidden r => Sys2Proof.Machine.execDeviceTileMapReadHidden r s
  | .deviceMemoryStatus r => Sys2Proof.Machine.execDeviceMemoryStatus r s
  | .devicePoolConfig r => Sys2Proof.Machine.execDevicePoolConfig r s
  | .partitionGrant r => Sys2Proof.Machine.execPartitionGrant r s
  | .partitionRelease r => Sys2Proof.Machine.execPartitionRelease r s
  | .partitionEnable r => Sys2Proof.Machine.execPartitionEnable r s
  | .partitionTeardownAtBoundary r => Sys2Proof.Machine.execPartitionTeardownAtBoundary r s
  | .partitionTeardownImmediate r => Sys2Proof.Machine.execPartitionTeardownImmediate r s
  | .partitionStatus r => Sys2Proof.Machine.execPartitionStatus r s
  | .regionLoad r => Sys2Proof.Machine.execRegionLoad r s
  | .regionRead r => Sys2Proof.Machine.execRegionRead r s
  | .pipelineLoad r => Sys2Proof.Machine.execPipelineLoad r s
  | .pipelinePause r => Sys2Proof.Machine.execPipelinePause r s
  | .pipelineResume r => Sys2Proof.Machine.execPipelineResume r s
  | .pipelineStepDigest r => Sys2Proof.Machine.execPipelineStepDigest r s
  | .streamOpen r => Sys2Proof.Machine.execStreamOpen r s
  | .streamClose r => Sys2Proof.Machine.execStreamClose r s
  | .streamStatus r => Sys2Proof.Machine.execStreamStatus r s
  | .randomSeedSet r => Sys2Proof.Machine.execRandomSeedSet r s
  | .randomEntropyRead r => Sys2Proof.Machine.execRandomEntropyRead r s
  | .randomStatus r => Sys2Proof.Machine.execRandomStatus r s
  | .randomEvaluate r => Sys2Proof.Machine.execRandomEvaluate r s
  | .routingPlaceReviseNow r => Sys2Proof.Machine.execRoutingPlaceReviseNow r s
  | .routingPlaceSet r => Sys2Proof.Machine.execRoutingPlaceSet r s
  | .routingCountersRead r => Sys2Proof.Machine.execRoutingCountersRead r s
  | .churnRun r => Sys2Proof.Machine.execChurnRun r s
  | .ingestPortConfig r => Sys2Proof.Machine.execIngestPortConfig r s
  | .ingestStatus r => Sys2Proof.Machine.execIngestStatus r s
  | .deliveryOpen r => Sys2Proof.Machine.execDeliveryOpen r s
  | .deliveryClose r => Sys2Proof.Machine.execDeliveryClose r s
  | .deliveryStatus r => Sys2Proof.Machine.execDeliveryStatus r s
  | .storageAttach r => Sys2Proof.Machine.execStorageAttach r s
  | .storageDetach r => Sys2Proof.Machine.execStorageDetach r s
  | .storageStatus r => Sys2Proof.Machine.execStorageStatus r s
  | .pairStatus r => Sys2Proof.Machine.execPairStatus r s
  | .pairConfig r => Sys2Proof.Machine.execPairConfig r s
  | .pairPlanSet r => Sys2Proof.Machine.execPairPlanSet r s
  | .pairTakeoverTakeOver r => Sys2Proof.Machine.execPairTakeoverTakeOver r s
  | .pairTakeoverReleaseIds r => Sys2Proof.Machine.execPairTakeoverReleaseIds r s
  | .pairMove r => Sys2Proof.Machine.execPairMove r s
  | .logRead r => Sys2Proof.Machine.execLogRead r s
  | .diagRunSelfTest r res => Sys2Proof.Machine.execDiagRunSelfTest r res s
  | .diagRunScoreboardDump r => Sys2Proof.Machine.execDiagRunScoreboardDump r s
  | .diagRunLockstepCheck r res => Sys2Proof.Machine.execDiagRunLockstepCheck r res s
  | .diagRunLoopback r res => Sys2Proof.Machine.execDiagRunLoopback r res s
  | .mbxSubmit f => Sys2Proof.Machine.execMbxSubmit f s
  | .mbxRelease f => Sys2Proof.Machine.execMbxRelease f s
  | .sqDoorbell f tail => Sys2Proof.Machine.execSqDoorbell f tail s
  | .descriptorConsume f fetch => Sys2Proof.Machine.execDescriptorConsume f fetch s
  | .deferredCommandStart r => Sys2Proof.Machine.execDeferredCommandStart r s
  | .cqHeadAdvance f head => Sys2Proof.Machine.execCqHeadAdvance f head s
  | .sqEnable f => Sys2Proof.Machine.execSqEnable f s
  | .sqDisable f => Sys2Proof.Machine.execSqDisable f s
  | .cqEnable f => Sys2Proof.Machine.execCqEnable f s
  | .cqDisable f => Sys2Proof.Machine.execCqDisable f s
  | .msixVectorUnmask f vec => Sys2Proof.Machine.execMsixVectorUnmask f vec s
  | .registerWrite f offset bytes => Sys2Proof.Machine.execRegisterWrite f offset bytes s
  | .bar0MisalignedAccess f offset width isRead => Sys2Proof.Machine.execBar0MisalignedAccess f offset width isRead s
  | .mailboxTimeout f => Sys2Proof.Machine.execMailboxTimeout f s
  | .cqFullTimeout f => Sys2Proof.Machine.execCqFullTimeout f s
  | .irqCoalesceTimeout f => Sys2Proof.Machine.execIrqCoalesceTimeout f s
  | .hostDmaComplete tag res => Sys2Proof.Machine.execHostDmaComplete tag res s
  | .hostCompletionTimeout tag => Sys2Proof.Machine.execHostCompletionTimeout tag s
  | .tlpReplay => Sys2Proof.Machine.execTlpReplay s
  | .pcieConfigRequest f => Sys2Proof.Machine.execPcieConfigRequest f s
  | .vfFlr vf => Sys2Proof.Machine.execVfFlr vf s
  | .pfFlr => Sys2Proof.Machine.execPfFlr s
  | .pcieHotReset => Sys2Proof.Machine.execPcieHotReset s
  | .hostLinkDown => Sys2Proof.Machine.execHostLinkDown s
  | .hostLinkUp rate width => Sys2Proof.Machine.execHostLinkUp rate width s
  | .vfEnableSet numVfs => Sys2Proof.Machine.execVfEnableSet numVfs s
  | .d3hotEntry f => Sys2Proof.Machine.execD3hotEntry f s
  | .d0Return f => Sys2Proof.Machine.execD0Return f s
  | .powerInputsGood => Sys2Proof.Machine.execPowerInputsGood s
  | .railOutOfRange rail => Sys2Proof.Machine.execRailOutOfRange rail s
  | .mainInputLoss => Sys2Proof.Machine.execMainInputLoss s
  | .auxInputRemoved => Sys2Proof.Machine.execAuxInputRemoved s
  | .perstAssert => Sys2Proof.Machine.execPerstAssert s
  | .perstDeassert => Sys2Proof.Machine.execPerstDeassert s
  | .imageVerifyDone => Sys2Proof.Machine.execImageVerifyDone s
  | .resetDelayExpiry => Sys2Proof.Machine.execResetDelayExpiry s
  | .warmResetBegin => Sys2Proof.Machine.execWarmResetBegin s
  | .refclkLost => Sys2Proof.Machine.execRefclkLost s
  | .rootPllLockLost => Sys2Proof.Machine.execRootPllLockLost s
  | .refclkReturn => Sys2Proof.Machine.execRefclkReturn s
  | .asyncFifoFault stop client overflow => Sys2Proof.Machine.execAsyncFifoFault stop client overflow s
  | .pairALockstepMismatch => Sys2Proof.Machine.execPairALockstepMismatch s
  | .pairAFirmwareWatchdog => Sys2Proof.Machine.execPairAFirmwareWatchdog s
  | .pairBLockstepMismatch => Sys2Proof.Machine.execPairBLockstepMismatch s
  | .domainPowerUpDone d badTiles => Sys2Proof.Machine.execDomainPowerUpDone d badTiles s
  | .domainPowerUpFail d => Sys2Proof.Machine.execDomainPowerUpFail d s
  | .domainPowerDownDone d => Sys2Proof.Machine.execDomainPowerDownDone d s
  | .powerGoodLoss d => Sys2Proof.Machine.execPowerGoodLoss d s
  | .poolEntersService => Sys2Proof.Machine.execPoolEntersService s
  | .granuleZeroed p mode g => Sys2Proof.Machine.execGranuleZeroed p mode g s
  | .windowZeroed p standby => Sys2Proof.Machine.execWindowZeroed p standby s
  | .teardownPhase p ph => Sys2Proof.Machine.execTeardownPhase p ph s
  | .teardownComplete p => Sys2Proof.Machine.execTeardownComplete p s
  | .tileResetDone tile => Sys2Proof.Machine.execTileResetDone tile s
  | .tileSramUncorrectable tile offset rereadOk => Sys2Proof.Machine.execTileSramUncorrectable tile offset rereadOk s
  | .tilePatrolScrub tile line corrected uncorrectable => Sys2Proof.Machine.execTilePatrolScrub tile line corrected uncorrectable s
  | .correctedErrorsSecond => Sys2Proof.Machine.execCorrectedErrorsSecond s
  | .tileImageFault tile kind addr => Sys2Proof.Machine.execTileImageFault tile kind addr s
  | .flitCrcFail x y => Sys2Proof.Machine.execFlitCrcFail x y s
  | .flitReplayDone x y tag ok => Sys2Proof.Machine.execFlitReplayDone x y tag ok s
  | .syncLaneMismatch x y again => Sys2Proof.Machine.execSyncLaneMismatch x y again s
  | .meshPacketArrival tile tag => Sys2Proof.Machine.execMeshPacketArrival tile tag s
  | .reservedSlotStart => Sys2Proof.Machine.execReservedSlotStart s
  | .barrierArrival p cluster ctx tile nextGen => Sys2Proof.Machine.execBarrierArrival p cluster ctx tile nextGen s
  | .flagContributionChange p cluster flag tile set => Sys2Proof.Machine.execFlagContributionChange p cluster flag tile set s
  | .nearMemoryAccess a => Sys2Proof.Machine.execNearMemoryAccess a s
  | .nearMemoryUncorrectable dpa part => Sys2Proof.Machine.execNearMemoryUncorrectable dpa part s
  | .nearMemoryRereadDone dpa ok => Sys2Proof.Machine.execNearMemoryRereadDone dpa ok s
  | .memoryPatrolScrub ch corrected uncorrectable => Sys2Proof.Machine.execMemoryPatrolScrub ch corrected uncorrectable s
  | .bufferReserve q => Sys2Proof.Machine.execBufferReserve q s
  | .poolSetDecide => Sys2Proof.Machine.execPoolSetDecide s
  | .bufferDraw p c unit index for_ => Sys2Proof.Machine.execBufferDraw p c unit index for_ s
  | .bufferUnreserve p c n unit => Sys2Proof.Machine.execBufferUnreserve p c n unit s
  | .bufferHandOff p unit handle new => Sys2Proof.Machine.execBufferHandOff p unit handle new s
  | .handOffApply c index => Sys2Proof.Machine.execHandOffApply c index s
  | .bufferRelease p unit handle => Sys2Proof.Machine.execBufferRelease p unit handle s
  | .bufferAccess p unit handle off len write => Sys2Proof.Machine.execBufferAccess p unit handle off len write s
  | .noBufferWakeTimeout q => Sys2Proof.Machine.execNoBufferWakeTimeout q s
  | .freeStoreFetchDone c => Sys2Proof.Machine.execFreeStoreFetchDone c s
  | .descriptorCacheFill unit c index => Sys2Proof.Machine.execDescriptorCacheFill unit c index s
  | .admissionAttempt p => Sys2Proof.Machine.execAdmissionAttempt p s
  | .schedulerIssue p rel => Sys2Proof.Machine.execSchedulerIssue p rel s
  | .stageComplete p rel entry res => Sys2Proof.Machine.execStageComplete p rel entry res s
  | .routeCountsReport p slot rel => Sys2Proof.Machine.execRouteCountsReport p slot rel s
  | .listBuildDone => Sys2Proof.Machine.execListBuildDone s
  | .stepBoundary p => Sys2Proof.Machine.execStepBoundary p s
  | .stepWatchdogExpiry p => Sys2Proof.Machine.execStepWatchdogExpiry p s
  | .stillJobComplete jpeg engine res => Sys2Proof.Machine.execStillJobComplete jpeg engine res s
  | .stillJobTimeout jpeg engine => Sys2Proof.Machine.execStillJobTimeout jpeg engine s
  | .warpJobComplete cluster => Sys2Proof.Machine.execWarpJobComplete cluster s
  | .warpParityError cluster => Sys2Proof.Machine.execWarpParityError cluster s
  | .segmentReady p stream seg => Sys2Proof.Machine.execSegmentReady p stream seg s
  | .segmentComplete core tag res => Sys2Proof.Machine.execSegmentComplete core tag res s
  | .segmentTimeout core => Sys2Proof.Machine.execSegmentTimeout core s
  | .entropyBlockReady block => Sys2Proof.Machine.execEntropyBlockReady block s
  | .entropyHealthFail test => Sys2Proof.Machine.execEntropyHealthFail test s
  | .entropyRestartDone pass => Sys2Proof.Machine.execEntropyRestartDone pass s
  | .laneKeyExhausted tile lane => Sys2Proof.Machine.execLaneKeyExhausted tile lane s
  | .churnSliceStart => Sys2Proof.Machine.execChurnSliceStart s
  | .churnSaveLoadDone ok => Sys2Proof.Machine.execChurnSaveLoadDone ok s
  | .churnRunEnd => Sys2Proof.Machine.execChurnRunEnd s
  | .packingBudgetExpiry p sweeps => Sys2Proof.Machine.execPackingBudgetExpiry p sweeps s
  | .placementBudgetExpiry p => Sys2Proof.Machine.execPlacementBudgetExpiry p s
  | .churnSramUncorrectable => Sys2Proof.Machine.execChurnSramUncorrectable s
  | .ethernetLinkUp port => Sys2Proof.Machine.execEthernetLinkUp port s
  | .ethernetLinkDown port => Sys2Proof.Machine.execEthernetLinkDown port s
  | .linkRetrainTick port => Sys2Proof.Machine.execLinkRetrainTick port s
  | .linkTrainingFail port => Sys2Proof.Machine.execLinkTrainingFail port s
  | .ethernetFrameReceived port fr => Sys2Proof.Machine.execEthernetFrameReceived port fr s
  | .gvspLeader p stream l => Sys2Proof.Machine.execGvspLeader p stream l s
  | .gvspPayload p stream k => Sys2Proof.Machine.execGvspPayload p stream k s
  | .gvspTrailer p stream t => Sys2Proof.Machine.execGvspTrailer p stream t s
  | .gvcpMessageReceived port => Sys2Proof.Machine.execGvcpMessageReceived port s
  | .arpRequestReceived port target sender => Sys2Proof.Machine.execArpRequestReceived port target sender s
  | .icmpEchoRequest port sender body => Sys2Proof.Machine.execIcmpEchoRequest port sender body s
  | .pauseFrameReceived port pfcMask => Sys2Proof.Machine.execPauseFrameReceived port pfcMask s
  | .ptpSync port originNs rxNs twoStep => Sys2Proof.Machine.execPtpSync port originNs rxNs twoStep s
  | .ptpFollowUp port originNs => Sys2Proof.Machine.execPtpFollowUp port originNs s
  | .ptpDelayResp port rxNs txNs => Sys2Proof.Machine.execPtpDelayResp port rxNs txNs s
  | .ptpAnnounce port master prio => Sys2Proof.Machine.execPtpAnnounce port master prio s
  | .ptpSyncTimeout => Sys2Proof.Machine.execPtpSyncTimeout s
  | .blockTimeout p stream => Sys2Proof.Machine.execBlockTimeout p stream s
  | .streamTimeout p stream => Sys2Proof.Machine.execStreamTimeout p stream s
  | .resendDelayExpiry p stream range => Sys2Proof.Machine.execResendDelayExpiry p stream range s
  | .resendTimeout p stream range => Sys2Proof.Machine.execResendTimeout p stream range s
  | .bdpUpdate p target msg => Sys2Proof.Machine.execBdpUpdate p target msg s
  | .bdpNakBatch p target msg => Sys2Proof.Machine.execBdpNakBatch p target msg s
  | .bdpCloseReceived p target msg => Sys2Proof.Machine.execBdpCloseReceived p target msg s
  | .bdpAckTimerExpiry p target seq => Sys2Proof.Machine.execBdpAckTimerExpiry p target seq s
  | .creditTimerExpiry p target => Sys2Proof.Machine.execCreditTimerExpiry p target s
  | .rcAckTimeout p target => Sys2Proof.Machine.execRcAckTimeout p target s
  | .rnrNakReceived p target => Sys2Proof.Machine.execRnrNakReceived p target s
  | .cnpReceived p target => Sys2Proof.Machine.execCnpReceived p target s
  | .rateIncreaseTick p target => Sys2Proof.Machine.execRateIncreaseTick p target s
  | .p2pStatusPoll p target rec_ => Sys2Proof.Machine.execP2pStatusPoll p target rec_ s
  | .remoteAccessErrorNak p target => Sys2Proof.Machine.execRemoteAccessErrorNak p target s
  | .rdmaRequestToDevice p target => Sys2Proof.Machine.execRdmaRequestToDevice p target s
  | .nvmeCompletion port e => Sys2Proof.Machine.execNvmeCompletion port e s
  | .nvmeIoTimeout port cid => Sys2Proof.Machine.execNvmeIoTimeout port cid s
  | .nvmeAdminTimeout port cid => Sys2Proof.Machine.execNvmeAdminTimeout port cid s
  | .nvmeControllerFatal port => Sys2Proof.Machine.execNvmeControllerFatal port s
  | .driveLinkDown port signal => Sys2Proof.Machine.execDriveLinkDown port signal s
  | .driveDma port addr len write => Sys2Proof.Machine.execDriveDma port addr len write s
  | .driveMsixWrite port vector => Sys2Proof.Machine.execDriveMsixWrite port vector s
  | .detachShutdownTimeout port => Sys2Proof.Machine.execDetachShutdownTimeout port s
  | .darradLinkTrained => Sys2Proof.Machine.execDarradLinkTrained s
  | .darradFrameError again => Sys2Proof.Machine.execDarradFrameError again s
  | .darradRetrainDone ok => Sys2Proof.Machine.execDarradRetrainDone ok s
  | .darradTxFailure => Sys2Proof.Machine.execDarradTxFailure s
  | .heartbeat h state policy next plans => Sys2Proof.Machine.execHeartbeat h state policy next plans s
  | .heartbeatSendTick => Sys2Proof.Machine.execHeartbeatSendTick s
  | .heartbeatMiss lossOfSignal => Sys2Proof.Machine.execHeartbeatMiss lossOfSignal s
  | .departure h => Sys2Proof.Machine.execDeparture h s
  | .darradHello h serial numerics verMin verMax policy => Sys2Proof.Machine.execDarradHello h serial numerics verMin verMax policy s
  | .helloRetryTick => Sys2Proof.Machine.execHelloRetryTick s
  | .hold h ids => Sys2Proof.Machine.execHold h ids s
  | .mirrorGrant h m => Sys2Proof.Machine.execMirrorGrant h m s
  | .mirrorStep h m => Sys2Proof.Machine.execMirrorStep h m s
  | .mirrorAck h => Sys2Proof.Machine.execMirrorAck h s
  | .mirrorAckTimeout p => Sys2Proof.Machine.execMirrorAckTimeout p s
  | .move h => Sys2Proof.Machine.execMove h s
  | .moveAck h reason => Sys2Proof.Machine.execMoveAck h reason s
  | .churnProblem h payload => Sys2Proof.Machine.execChurnProblem h payload s
  | .churnStage h payload => Sys2Proof.Machine.execChurnStage h payload s
  | .seed h payload => Sys2Proof.Machine.execSeed h payload s
  | .seedDone h payload => Sys2Proof.Machine.execSeedDone h payload s
  | .suspendedResourcesFree p => Sys2Proof.Machine.execSuspendedResourcesFree p s
  | .logRateSecond => Sys2Proof.Machine.execLogRateSecond s
  | .thermalSample temps => Sys2Proof.Machine.execThermalSample temps s
  | .powerWindowEnd milliwatts => Sys2Proof.Machine.execPowerWindowEnd milliwatts s
  | .mctpControlMessage cmd arg => Sys2Proof.Machine.execMctpControlMessage cmd arg s
  | .getThermalPower => Sys2Proof.Machine.execGetThermalPower s
  | .setPowerLimit watts => Sys2Proof.Machine.execSetPowerLimit watts s
  | .getSensors => Sys2Proof.Machine.execGetSensors s
  | .fruLatchWrite v => Sys2Proof.Machine.execFruLatchWrite v s
  | .jtagInstruction ins => Sys2Proof.Machine.execJtagInstruction ins s
  | .inrushDelayExpiry => Sys2Proof.Machine.execInrushDelayExpiry s
  | .backgroundZeroingDone west row => Sys2Proof.Machine.execBackgroundZeroingDone west row s
  | .rootPllLockDone ok => Sys2Proof.Machine.execRootPllLockDone ok s
  | .pwrGoodHoldExpiry => Sys2Proof.Machine.execPwrGoodHoldExpiry s
  | .restartLatchRelease => Sys2Proof.Machine.execRestartLatchRelease s
  | .rootPortLinkUp port found => Sys2Proof.Machine.execRootPortLinkUp port found s
  | .controllerStatusChange port st => Sys2Proof.Machine.execControllerStatusChange port st s
  | .controllerReadyTimeout port => Sys2Proof.Machine.execControllerReadyTimeout port s
  | .rcTransportAck p target => Sys2Proof.Machine.execRcTransportAck p target s
  | .darradUnknownFrame h => Sys2Proof.Machine.execDarradUnknownFrame h s

end Sys2Proof.Machine
end

