-- ==== Sys2Proof/Safety.lean ====
section
/-!
DEFINITION. What a safe run is: one whose every step answers a next state; and the invariant of the block that every
command keeps.
-/
namespace Sys2Proof

/-- Whether an outcome is a next state. -/
def isNext : Host.Outcome Machine.State Machine.Fault Machine.Refusal → Bool
  | .next _ => true
  | .fault _ => false
  | .refused _ => false

/-- A state from which n steps all answer a next state. -/
def safeFor : Nat → Machine.State → Bool
  | 0, _ => true
  | n + 1, s =>
    match Machine.step s with
    | .next t => safeFor n t
    | .fault _ => false
    | .refused _ => false

/-- The bounds and the form that the block's storage keeps: the on-chip log ring holds at most 8,192 records and the
spill area 2,097,152 (R482), a hold queue at most 256 completions (R100), and near memory is in canonical form. -/
structure Machine.State.Inv (s : Machine.State) : Prop where
  ring : s.log.ring.length ≤ 8192
  spill : s.log.spill.length ≤ 2097152
  hold : ∀ f, (s.host.fns.get f).ring.hold.length ≤ 256
  mem : Machine.memWf s.units.mem.cells = true

/-- Fuses are only ever blown: what is fused at manufacture stays, and the rollback counter never falls (R75, R77, R137,
R420). -/
structure Machine.FuseSt.Before (a b : Machine.FuseSt) : Prop where
  bad : b.bad = a.bad
  keyHash : b.keyHash = a.keyHash
  serial : b.serial = a.serial
  stepping : b.stepping = a.stepping
  privateTapOff : b.privateTapOff = a.privateTapOff
  rollback : a.rollback ≤ b.rollback

/-- A partition but for the fault counters of its counter record. -/
def Machine.Part.sansFaults (q : Machine.Part) : Machine.Part := { q with cnt := { q.cnt with faults := {} } }

/-- The always-on side but for the device-wide fault counters. -/
def Machine.AoSt.sansFaults (a : Machine.AoSt) : Machine.AoSt := { a with faults := {} }

/-- A function but for its interrupt registers. -/
def Machine.FnState.sansIrq (x : Machine.FnState) : Machine.FnState := { x with irq := {} }

/-- Logging and nothing else happened on the way from s to t: records and the limiters' and fault counters that go with
them (R480 to R487), the interrupt status that a record of ERROR or above raises (R105), and its messages. -/
structure Machine.State.LoggedTo (s t : Machine.State) : Prop where
  units : t.units = s.units
  time : t.time = s.time
  freeCtr : t.freeCtr = s.freeCtr
  pending : t.pending = s.pending
  ao : t.ao.sansFaults = s.ao.sansFaults
  parts : ∀ p, (t.parts.get p).sansFaults = (s.parts.get p).sansFaults
  reqs : t.host.reqs = s.host.reqs
  dma : t.host.dma = s.host.dma
  nextTag : t.host.nextTag = s.host.nextTag
  link : t.host.link = s.host.link
  fns : ∀ f, (t.host.fns.get f).sansIrq = (s.host.fns.get f).sansIrq
  out : s.out <:+ t.out

end Sys2Proof
end

