-- ==== Sys2Proof/Certificates/Slice0/Obligations.lean ====
section
/-!
DEFINITION. The statements for the provers.  `Sys2Proof.Claims` holds what they are made of: one proposition for each
command of the block that says where the command completes and what it then leaves, and the frames.
-/
namespace Sys2Proof.Claims
open Sys2Proof.Machine

/-! ## Vocabulary -/

/-- The queue holds an accepted request whose turn it is (R102): it is the first that is neither deferred nor
committed, its command data are there, its partition's state admits it (Table CMD-2), no hold conflict and no stalled
ring stand against it. -/
structure Turn (s : State) (i : ReqId) (op : Nat) (r : Req) : Prop where
  head : headReq s = some r
  id : r.id = i
  opcode : r.opcode = op
  ready : r.phase = .ready
  state : stateOk s r = true
  noConflict : (partAt s r.part).conflict = false
  noStall : (fnOf s r.fn).ring.stall = false

/-- The command answers the request with `a` after an effect that satisfies P. -/
def Answers (c : Instr) (s : State) (r : Req) (a : Ans) (P : State → Prop) : Prop :=
  ∃ t, exec c s = .next (finish r a t) ∧ P t

/-- The command answers the request and does nothing else. -/
def Reads (c : Instr) (s : State) (r : Req) (a : Ans) : Prop := exec c s = .next (finish r a s)

/-- The command completes in a state that satisfies P. -/
def Ends (c : Instr) (s : State) (P : State → Prop) : Prop := ∃ t, exec c s = .next t ∧ P t

/-- The mailbox, ring, interrupt and counter blocks of a function. -/
abbrev mbx (s : State) (f : Fn) : MbxBlock := (fnOf s f).mbx
abbrev ring (s : State) (f : Fn) : RingBlock := (fnOf s f).ring
abbrev irq (s : State) (f : Fn) : IrqBlock := (fnOf s f).irq

/-- Every function but f is as before. -/
def OtherFns (f : Fn) (s t : State) : Prop := ∀ g, g ≠ f → fnOf t g = fnOf s g

/-- Nothing behind the host interface changed: units, always-on side, partitions and time. -/
def Behind (s t : State) : Prop := t.ao = s.ao ∧ t.units = s.units ∧ t.parts = s.parts ∧ t.time = s.time

/-- Nothing but the host side changed. -/
def HostOnly (s t : State) : Prop := Behind s t ∧ t.log = s.log ∧ t.out = s.out ∧ t.freeCtr = s.freeCtr

/-! ## The queue -/

/-- A step carries out the command at the front of the queue on the rest. -/
def stepRunsFront : Prop :=
  ∀ (c : Instr) (rest : List Instr) (s : State),
    step { s with pending := c :: rest } = exec c { s with pending := rest }

end Sys2Proof.Claims
namespace Sys2Proof.Claims
open Sys2Proof.Machine

/-! ## Mailbox commands -/

/-- The request that a mailbox's window holds: its header fields and its payload (Table MBX-5). -/
def windowReq (s : State) (f : Fn) (phase : ReqPhase) : Req :=
  let h := reqHeader (mbx s f)
  { fn := f, ring := false, seq := field h 16 4, tag := field h 4 4, opcode := field h 0 2, part := field h 12 1,
    flags := field h 2 2, payload := reqPayload (mbx s f) (field h 8 4), phase := phase }

/-- MBX_SUBMIT in IDLE with a request that passes the checks of R107: it is copied, STATE becomes BUSY, the submission
is counted, and the request takes its place behind every earlier one; AFTER_RING holds it back (R85, R102, R103).
Nothing else changes. -/
def mbxSubmitTaken : Prop :=
  ∀ (f : Fn) (s : State) (h : List Byte), h = reqHeader (mbx s f) → reachable s f = true → (mbx s f).state = .idle →
    s.ao.fw.verMin ≤ field h 13 1 → field h 13 1 ≤ s.ao.fw.verMax → field h 2 2 ≤ 3 → zeroAt h 14 2 = true →
    zeroAt h 20 12 = true → field h 16 4 = (mbx s f).nextSeq →
    headerChecks s f false (field h 0 2) (field h 8 4) (field h 12 1) 0 = none →
    Ends (.mbxSubmit f) s (fun t =>
      t.host.reqs = s.host.reqs ++
        [windowReq s f (if bit (field h 2 2) 1 && mustWait false f s.host.reqs then .deferred else .ready)]
      ∧ mbx t f = { mbx s f with state := .busy }
      ∧ (fnOf t f).cnt = { (fnOf s f).cnt with mbx := satAdd 64 (fnOf s f).cnt.mbx 1 }
      ∧ ring t f = ring s f ∧ irq t f = irq s f ∧ OtherFns f s t
      ∧ t.host.dma = s.host.dma ∧ t.host.link = s.host.link ∧ HostOnly s t)

/-- MBX_SUBMIT in BUSY or RESPONSE is ignored: OVERRUN is set and the violation counted; STATE, windows and requests
stay (Table MBX-4). -/
def mbxSubmitOverrun : Prop :=
  ∀ (f : Fn) (s : State), reachable s f = true → (mbx s f).state ≠ .idle →
    Ends (.mbxSubmit f) s (fun t =>
      (modMbx f (fun m => { m with overrun := true, violations := satAdd 32 m.violations 1 }) s).LoggedTo t)

/-- MBX_SUBMIT of the request before, with its opcode and tag: the stored response is posted again with REPLAYED set,
and nothing is carried out (R91). -/
def mbxSubmitReplay : Prop :=
  ∀ (f : Fn) (s : State) (h : List Byte) (st : StoredRsp), h = reqHeader (mbx s f) → reachable s f = true →
    (mbx s f).state = .idle → s.ao.fw.verMin ≤ field h 13 1 → field h 13 1 ≤ s.ao.fw.verMax → field h 2 2 ≤ 3 →
    zeroAt h 14 2 = true → zeroAt h 20 12 = true → (field h 16 4 + 1) % 2 ^ 32 = (mbx s f).nextSeq →
    field h 16 4 ≠ (mbx s f).nextSeq →
    (mbx s f).stored = some st → st.opcode = field h 0 2 → st.tag = field h 4 4 →
    Ends (.mbxSubmit f) s (fun t =>
      (modMbx f (fun m => { m with
        rspWin := winOf (st.bytes.take 18 ++ toLe 2 (field st.bytes 18 2 ||| 2) ++ st.bytes.drop 20)
        state := .response }) s).LoggedTo t)

/-- MBX_SUBMIT of a request that R107 refuses at its checks 4 to 8: it is answered at once and never becomes a request;
the violation is counted. -/
def mbxSubmitRefused : Prop :=
  ∀ (f : Fn) (s : State) (h : List Byte) (k : Nat) (a : Ans), h = reqHeader (mbx s f) → reachable s f = true →
    (mbx s f).state = .idle → s.ao.fw.verMin ≤ field h 13 1 → field h 13 1 ≤ s.ao.fw.verMax → field h 2 2 ≤ 3 →
    zeroAt h 14 2 = true → zeroAt h 20 12 = true → field h 16 4 = (mbx s f).nextSeq →
    headerChecks s f false (field h 0 2) (field h 8 4) (field h 12 1) 0 = some (k, a) →
    Ends (.mbxSubmit f) s (fun t =>
      (modMbx f (fun m => { m with
        violations := satAdd 32 m.violations 1
        rspWin := winOf (rspBytes a (field h 4 4) (field h 16 4) (field h 0 2) a.pend.toNat)
        state := .response
        nextSeq := (m.nextSeq + 1) % 2 ^ 32
        stored := some ⟨field h 0 2, field h 4 4, rspBytes a (field h 4 4) (field h 16 4) (field h 0 2) a.pend.toNat⟩
        }) s).LoggedTo t)

/-- MBX_RELEASE in RESPONSE makes the mailbox IDLE, and the window keeps its contents (Table MBX-4). -/
def mbxReleaseRow : Prop :=
  ∀ (f : Fn) (s : State), reachable s f = true → (mbx s f).state = .response →
    Ends (.mbxRelease f) s (fun t =>
      mbx t f = { mbx s f with state := .idle } ∧ ring t f = ring s f ∧ irq t f = irq s f
      ∧ (fnOf t f).cnt = (fnOf s f).cnt ∧ OtherFns f s t ∧ t.host.reqs = s.host.reqs ∧ HostOnly s t)

/-- MBX_RELEASE in IDLE or BUSY is ignored and counted (Table MBX-4). -/
def mbxReleaseElsewhere : Prop :=
  ∀ (f : Fn) (s : State), reachable s f = true → (mbx s f).state ≠ .response →
    Ends (.mbxRelease f) s (fun t =>
      mbx t f = { mbx s f with overrun := true, violations := satAdd 32 (mbx s f).violations 1 }
      ∧ ring t f = ring s f ∧ OtherFns f s t ∧ t.host.reqs = s.host.reqs ∧ HostOnly s t)

/-- MAILBOX_TIMEOUT: a mailbox request that has not committed in 50 ms is answered TIMEOUT (R90). -/
def mailboxTimeoutRow : Prop :=
  ∀ (f : Fn) (s : State) (r : Req), (mbx s f).state = .busy →
    s.host.reqs.find? (fun q => decide (q.fn = f) && !q.ring && q.phase != .pending) = some r →
    exec (.mailboxTimeout f) s = .next (finish r { status := stTimeout } s)

/-- DEFERRED_COMMAND_START of a request without command data that waits for nothing any more: it is ready, in its turn
after what was accepted meanwhile (R103, log entry 23). -/
def deferredStartRow : Prop :=
  ∀ (i : ReqId) (s : State) (r : Req), findReq s i = some r → r.phase = .deferred → r.dataLen = 0 →
    mustWait r.ring r.fn (s.host.reqs.takeWhile (fun q => !reqMatches i q)) = false →
    Ends (.deferredCommandStart i) s (fun t =>
      t.host.reqs = s.host.reqs.filter (fun q => !reqMatches i q) ++ [{ r with phase := .ready }]
      ∧ t.host.fns = s.host.fns ∧ t.host.dma = s.host.dma ∧ HostOnly s t)

/-! ## Answers -/

/-- An answer without PENDING to a mailbox request: its window holds header and payload, STATE is RESPONSE, a BUSY
answer keeps the sequence and any other advances it, and the request is gone (R85, R86, R88, R91). -/
def finishMailbox : Prop :=
  ∀ (r : Req) (a : Ans) (s : State), r.ring = false → a.pend = false → bit r.flags 0 = false →
    let t := finish r a s
    (mbx t r.fn).state = .response
    ∧ (mbx t r.fn).rspWin = winOf (rspBytes a r.tag r.seq r.opcode 0)
    ∧ (mbx t r.fn).nextSeq =
        (if a.status = stBusy then (mbx s r.fn).nextSeq else ((mbx s r.fn).nextSeq + 1) % 2 ^ 32)
    ∧ findReq t r.id = none ∧ OtherFns r.fn s t ∧ ring t r.fn = ring s r.fn ∧ irq t r.fn = irq s r.fn
    ∧ t.host.dma = s.host.dma ∧ HostOnly s t

/-- R86: every byte of the response window after header and payload reads 0. -/
def windowBeyond : Prop :=
  ∀ (a : Ans) (tag seq op flags n : Nat), 32 + a.payload.length ≤ n →
    memRead (winOf (rspBytes a tag seq op flags)) n = 0

/-- The bytes of a response are where Table MBX-6 puts them. -/
def windowHolds : Prop :=
  ∀ (a : Ans) (tag seq op flags n : Nat), a.payload.length ≤ 4064 → n < 32 + a.payload.length →
    memRead (winOf (rspBytes a tag seq op flags)) n = (rspBytes a tag seq op flags).getD n 0

/-- The completion entry of an answer without a response payload (Table MBX-10, R489). -/
def entryFor (r : Req) (a : Ans) : Cqe :=
  { status := a.status, reason := a.reason, tag := r.tag, seq := r.seq, opcode := r.opcode,
    result := a.resHi % 2 ^ 32 * 2 ^ 32, retry := a.retry, mailbox := false, last := false, irq := bit r.flags 0 }

/-- An answer without PENDING to a ring request whose CQ is enabled, has room and holds nothing, without a response
payload: one completion entry goes to the slot at the tail with the tail's phase, the tail advances, and PHASE inverts
where it wraps (R96, R98, R99). -/
def finishRing : Prop :=
  ∀ (r : Req) (a : Ans) (s : State), r.ring = true → a.pend = false → s.ao.boot.resetKind = 0 → r.rspAddr = 0 →
    (ring s r.fn).cqEn = true → (ring s r.fn).hold = [] → cqFull (ring s r.fn) = false → canDma s r.fn = true →
    let t := finish r a s
    let q := ring s r.fn
    let tail := (q.cqTail + 1) % ringEntries q.cqSize
    let c := entryFor r a
    ring t r.fn = { q with cqTail := tail, phase := (if tail = 0 then !q.phase else q.phase) }
    ∧ t.out = .hostWrite r.fn (q.cqBase + 32 * q.cqTail) (cqeBytes c q.sqHead q.phase) :: s.out
    ∧ t.host.dma = s.host.dma ++
        [⟨s.host.nextTag, r.fn, .completion c, q.cqBase + 32 * q.cqTail, cqeBytes c q.sqHead q.phase, 32, false, false⟩]
    ∧ findReq t r.id = none ∧ OtherFns r.fn s t ∧ Behind s t

/-- With the CQ full an answer is held, not lost (R100). -/
def finishHeld : Prop :=
  ∀ (r : Req) (a : Ans) (s : State), r.ring = true → a.pend = false → s.ao.boot.resetKind = 0 → r.rspAddr = 0 →
    (ring s r.fn).cqEn = true → cqFull (ring s r.fn) = true → (ring s r.fn).hold.length < 256 →
    ring (finish r a s) r.fn = { ring s r.fn with hold := (ring s r.fn).hold ++ [entryFor r a] }
    ∧ (finish r a s).out = s.out ∧ OtherFns r.fn s (finish r a s) ∧ Behind s (finish r a s)

/-! ## Ring commands -/

/-- SQ_DOORBELL with an index below the entry count sets the tail (R94). -/
def sqDoorbellRow : Prop :=
  ∀ (f : Fn) (v : Word32) (s : State), reachable s f = true → v.toNat % 4096 < ringEntries (ring s f).sqSize →
    Ends (.sqDoorbell f v) s (fun t =>
      ring t f = { ring s f with sqTail := v.toNat % 4096 } ∧ mbx t f = mbx s f ∧ irq t f = irq s f ∧ OtherFns f s t
      ∧ t.host.reqs = s.host.reqs ∧ HostOnly s t)

/-- SQ_DOORBELL with an index at or above it is ignored and counted (R94). -/
def sqDoorbellBeyond : Prop :=
  ∀ (f : Fn) (v : Word32) (s : State), reachable s f = true → ringEntries (ring s f).sqSize ≤ v.toNat % 4096 →
    Ends (.sqDoorbell f v) s (fun t =>
      (modMbx f (fun m => { m with violations := satAdd 32 m.violations 1 }) s).LoggedTo t)

/-- CQ_HEAD_ADVANCE with nothing held sets the head, and STALL is clear (R94, R100). -/
def cqHeadRow : Prop :=
  ∀ (f : Fn) (v : Word32) (s : State), reachable s f = true → (ring s f).cqEn = true → (ring s f).hold = [] →
    Ends (.cqHeadAdvance f v) s (fun t =>
      ring t f = { ring s f with cqHead := v.toNat % 4096, stall := false } ∧ mbx t f = mbx s f ∧ irq t f = irq s f
      ∧ OtherFns f s t ∧ t.host.reqs = s.host.reqs ∧ HostOnly s t)

/-- SQ_ENABLE: head, tail and sequence space are 0 (R93). -/
def sqEnableRow : Prop :=
  ∀ (f : Fn) (s : State), reachable s f = true → (ring s f).sqEn = false → (ring s f).sqSize ≤ 8 →
    Ends (.sqEnable f) s (fun t =>
      ring t f = { ring s f with sqEn := true, sqHead := 0, sqTail := 0, consumed := 0 } ∧ mbx t f = mbx s f
      ∧ irq t f = irq s f ∧ OtherFns f s t ∧ t.host.reqs = s.host.reqs ∧ HostOnly s t)

/-- CQ_ENABLE: head and tail are 0 and the phase is 1 (R93). -/
def cqEnableRow : Prop :=
  ∀ (f : Fn) (s : State), reachable s f = true → (ring s f).cqEn = false → (ring s f).cqSize ≤ 8 →
    Ends (.cqEnable f) s (fun t =>
      ring t f = { ring s f with cqEn := true, cqHead := 0, cqTail := 0, phase := true } ∧ mbx t f = mbx s f
      ∧ irq t f = irq s f ∧ OtherFns f s t ∧ t.host.reqs = s.host.reqs ∧ HostOnly s t)

/-- Enabling a ring whose LOG_ENTRIES is above 8 leaves it disabled and is counted (R93). -/
def enableTooLarge : Prop :=
  ∀ (f : Fn) (s : State), reachable s f = true →
    ((ring s f).sqEn = false → 8 < (ring s f).sqSize →
      Ends (.sqEnable f) s (fun t =>
        (modMbx f (fun m => { m with violations := satAdd 32 m.violations 1 }) s).LoggedTo t))
    ∧ ((ring s f).cqEn = false → 8 < (ring s f).cqSize →
      Ends (.cqEnable f) s (fun t =>
        (modMbx f (fun m => { m with violations := satAdd 32 m.violations 1 }) s).LoggedTo t))

/-- SQ_DISABLE: the SQ is off and every open submission of it is gone; no other request goes (R93). -/
def sqDisableRow : Prop :=
  ∀ (f : Fn) (s : State), reachable s f = true → (ring s f).sqEn = true →
    Ends (.sqDisable f) s (fun t =>
      ring t f = { ring s f with sqEn := false }
      ∧ t.host.reqs = s.host.reqs.filter (fun q => !(decide (q.fn = f) && q.ring)) ∧ mbx t f = mbx s f)

/-- CQ_DISABLE: the CQ is off, nothing is held and STALL is clear (R93, R100). -/
def cqDisableRow : Prop :=
  ∀ (f : Fn) (s : State), reachable s f = true → (ring s f).cqEn = true →
    Ends (.cqDisable f) s (fun t =>
      ring t f = { ring s f with cqEn := false, hold := [], stall := false } ∧ mbx t f = mbx s f
      ∧ t.host.reqs = s.host.reqs ∧ t.units = s.units ∧ (∀ p, (partOf t p).sansFaults = (partOf s p).sansFaults))

/-- DESCRIPTOR_CONSUME of a well-formed descriptor without command data that waits for nothing: it becomes the last
request of the queue, head and consumption count advance by one (R95, R97, R101). -/
def descriptorConsumeRow : Prop :=
  ∀ (f : Fn) (s : State) (b : List Byte), canDma s f = true → (ring s f).sqEn = true →
    (ring s f).sqHead ≠ (ring s f).sqTail → openSubs s f < 64 →
    s.ao.fw.verMin ≤ field b 0x15 1 → field b 0x15 1 ≤ s.ao.fw.verMax → field b 2 2 ≤ 1 → zeroAt b 0x16 2 = true →
    zeroAt b 0x1C 4 = true → zeroAt b 0x2C 20 = true → field b 0x18 4 = (ring s f).consumed →
    field b 0x10 4 = 0 → field b 8 8 = 0 → field b 0x20 8 % 64 = 0 →
    headerChecks s f true (field b 0 2) 0 (field b 0x14 1) (field b 0x28 4) = none →
    Ends (.descriptorConsume f (.got b)) s (fun t =>
      ring t f = { ring s f with sqHead := ((ring s f).sqHead + 1) % ringEntries (ring s f).sqSize,
                                 consumed := ((ring s f).consumed + 1) % 2 ^ 32 }
      ∧ t.host.reqs = s.host.reqs ++
          [{ fn := f, ring := true, seq := (ring s f).consumed, tag := field b 4 4, opcode := field b 0 2,
             part := field b 0x14 1, flags := field b 2 2, dataAddr := 0, dataLen := 0,
             rspAddr := field b 0x20 8, phase := .ready }]
      ∧ mbx t f = mbx s f ∧ irq t f = irq s f ∧ OtherFns f s t ∧ HostOnly s t)

/-- No descriptor is fetched while 64 submissions are open (R97). -/
def descriptorLimit : Prop :=
  ∀ (f : Fn) (s : State) (x : FetchResult), 64 ≤ openSubs s f → exec (.descriptorConsume f x) s = .next s

/-- CQ_FULL_TIMEOUT of a CQ that takes nothing: STALL is set, and the stall is logged (R29, R100). -/
def cqFullTimeoutRow : Prop :=
  ∀ (f : Fn) (s : State), (ring s f).cqEn = true → (ring s f).stall = false → cqFull (ring s f) = true →
    Ends (.cqFullTimeout f) s (fun t =>
      (modRing f (fun r => { r with stall := true }) s).LoggedTo t ∧ (irq t f).status.getLsbD 3 = true)

/-- A stalled ring answers new mailbox requests and descriptors BUSY (R100). -/
def stallAnswersBusy : Prop :=
  ∀ (i : ReqId) (s : State) (r : Req), headReq s = some r → r.id = i → r.opcode = 0x0101 → r.phase = .ready →
    (fnOf s r.fn).ring.stall = true → (partAt s r.part).conflict = false →
    exec (.deviceIdentify i) s = .next (finish r (ansBusy 0x0110 1000) s)

end Sys2Proof.Claims
namespace Sys2Proof.Claims
open Sys2Proof.Machine

/-! ## Registers and interrupts -/

/-- REGISTER_WRITE into the request window changes its bytes from the offset up and no other register (R84, R422). -/
def registerWriteWindow : Prop :=
  ∀ (f : Fn) (off : Nat) (bs : List Byte) (s : State), reachable s f = true → accessOk off bs.length = true →
    0x1000 ≤ off → off + bs.length ≤ 0x2000 →
    Ends (.registerWrite f off bs) s (fun t =>
      (∀ k, memWf (mbx s f).reqWin = true → memRead (mbx t f).reqWin k =
        if off ≤ 0x1000 + k ∧ 0x1000 + k < off + bs.length then bs.getD (0x1000 + k - off) 0
        else memRead (mbx s f).reqWin k)
      ∧ mbx t f = { mbx s f with reqWin := (mbx t f).reqWin } ∧ ring t f = ring s f ∧ irq t f = irq s f
      ∧ OtherFns f s t ∧ t.host.reqs = s.host.reqs ∧ HostOnly s t)

/-- REGISTER_WRITE of the plain registers: IRQ_MASK, IRQ_STATUS (write 1 to clear), and the base of a ring that is
disabled (Tables MBX-8 and MBX-12). -/
def registerWritePlain : Prop :=
  ∀ (f : Fn) (v : Nat) (s : State), v < 2 ^ 32 → reachable s f = true →
    Ends (.registerWrite f 0x304 (toLe 4 v)) s (fun t =>
      irq t f = { irq s f with mask := BitVec.ofNat 4 v } ∧ mbx t f = mbx s f ∧ ring t f = ring s f ∧ OtherFns f s t
      ∧ HostOnly s t)
    ∧ Ends (.registerWrite f 0x300 (toLe 4 v)) s (fun t =>
      (irq t f).status = (irq s f).status &&& ~~~(BitVec.ofNat 4 v) ∧ (irq t f).mask = (irq s f).mask
      ∧ mbx t f = mbx s f ∧ ring t f = ring s f ∧ OtherFns f s t ∧ HostOnly s t)
    ∧ ((ring s f).sqEn = false →
      Ends (.registerWrite f 0x208 (toLe 4 v)) s (fun t =>
        ring t f = { ring s f with sqSize := v % 16 } ∧ mbx t f = mbx s f ∧ irq t f = irq s f ∧ OtherFns f s t
        ∧ HostOnly s t))
    ∧ ((ring s f).sqEn = true →
      Ends (.registerWrite f 0x208 (toLe 4 v)) s (fun t =>
        ring t f = ring s f ∧ mbx t f = { mbx s f with violations := satAdd 32 (mbx s f).violations 1 }
        ∧ irq t f = irq s f ∧ OtherFns f s t ∧ HostOnly s t))

/-- REGISTER_WRITE of a doorbell acts as the doorbell's row (Tables MBX-3 and MBX-8). -/
def registerWriteDoorbells : Prop :=
  ∀ (f : Fn) (v : Word32) (s : State), reachable s f = true →
    exec (.registerWrite f 0x20C (toLe 4 v.toNat)) s = exec (.sqDoorbell f v) s
    ∧ exec (.registerWrite f 0x224 (toLe 4 v.toNat)) s = exec (.cqHeadAdvance f v) s
    ∧ exec (.registerWrite f 0x100 (toLe 4 1)) s = exec (.mbxSubmit f) s
    ∧ exec (.registerWrite f 0x108 (toLe 4 1)) s = exec (.mbxRelease f) s

/-- BAR0_MISALIGNED_ACCESS: counted; a read gets Unsupported Request, a write nothing (R422). -/
def misalignedRow : Prop :=
  ∀ (f : Fn) (off w : Nat) (s : State), reachable s f = true → accessOk off w = false →
    Ends (.bar0MisalignedAccess f off w false) s (fun t =>
      (modMbx f (fun m => { m with violations := satAdd 32 m.violations 1 }) s).LoggedTo t)
    ∧ Ends (.bar0MisalignedAccess f off w true) s (fun t =>
      (modMbx f (fun m => { m with violations := satAdd 32 m.violations 1 }) s).LoggedTo t
      ∧ t.out.head? = some (.unsupported f off))

/-- MSIX_VECTOR_UNMASK of a vector with a pending message, the function unmasked and able to send: the message goes and
its pending bit is clear (R423). -/
def msixUnmaskRow : Prop :=
  ∀ (f : Fn) (v : Fin 3) (s : State), reachable s f = true → (irq s f).fnMask = false →
    ((irq s f).table.get v).pending = true →
    (∀ w, w ≠ v → ((irq s f).table.get w).pending = false) →
    Ends (.msixVectorUnmask f (some v)) s (fun t =>
      ((irq t f).table.get v).masked = false ∧ ((irq t f).table.get v).pending = false
      ∧ (∀ w, w ≠ v → (irq t f).table.get w = (irq s f).table.get w)
      ∧ t.out = .msix f v.val :: s.out ∧ mbx t f = mbx s f ∧ ring t f = ring s f ∧ OtherFns f s t ∧ Behind s t)

/-- IRQ_COALESCE_TIMEOUT with unsignalled entries, vector 1 unmasked everywhere: the message goes (R105). -/
def irqCoalesceRow : Prop :=
  ∀ (f : Fn) (s : State), (irq s f).unsignalled ≠ 0 → (irq s f).mask.getLsbD 1 = false → (irq s f).fnMask = false →
    ((irq s f).table.get 1).masked = false → canDma s f = true →
    Ends (.irqCoalesceTimeout f) s (fun t =>
      irq t f = { irq s f with unsignalled := 0 } ∧ t.out = .msix f 1 :: s.out ∧ mbx t f = mbx s f
      ∧ ring t f = ring s f ∧ OtherFns f s t ∧ Behind s t)

/-! ## Host DMA -/

/-- HOST_DMA_COMPLETE of a request's command data: the data are its payload and it may commit (R101). -/
def hostDmaData : Prop :=
  ∀ (tag : Nat) (s : State) (d : DmaOp) (i : ReqId) (q : Req) (bs : List Byte),
    s.host.dma.find? (fun x => x.tag == tag) = some d → d.dead = false → d.retried = false → d.kind = .cmdData i →
    findReq s i = some q → q.phase = .fetching →
    Ends (.hostDmaComplete tag (.ok bs)) s (fun t =>
      t.host.reqs = modFirst (reqMatches i) (fun r => { r with payload := padTo d.len bs, phase := .ready }) s.host.reqs
      ∧ t.host.dma = s.host.dma.filter (fun x => x.tag != tag) ∧ t.host.fns = s.host.fns ∧ HostOnly s t)

/-- HOST_DMA_COMPLETE of a completion entry: it counts as posted (R105, Table HIO-5). -/
def hostDmaPosted : Prop :=
  ∀ (tag : Nat) (s : State) (d : DmaOp) (c : Cqe), s.host.dma.find? (fun x => x.tag == tag) = some d →
    d.dead = false → d.retried = false → d.kind = .completion c → c.irq = true →
    Ends (.hostDmaComplete tag (.ok [])) s (fun t =>
      (fnOf t d.fn).cnt = { (fnOf s d.fn).cnt with cq := satAdd 64 (fnOf s d.fn).cnt.cq 1 }
      ∧ (irq t d.fn).status = (irq s d.fn).status ||| 2#4 ∧ mbx t d.fn = mbx s d.fn ∧ ring t d.fn = ring s d.fn
      ∧ OtherFns d.fn s t ∧ t.host.reqs = s.host.reqs ∧ t.host.dma = s.host.dma.filter (fun x => x.tag != tag)
      ∧ Behind s t)

/-- HOST_DMA_COMPLETE with an error, the first: the DMA is issued once more under a new tag and counted (R101). -/
def hostDmaRetry : Prop :=
  ∀ (tag : Nat) (s : State) (d : DmaOp), s.host.dma.find? (fun x => x.tag == tag) = some d → d.dead = false →
    d.retried = false → s.host.dma.all (fun x => decide (x.tag < s.host.nextTag)) = true →
    Ends (.hostDmaComplete tag .error) s (fun t =>
      t.host.dma = s.host.dma.filter (fun x => x.tag != tag) ++ [{ d with tag := s.host.nextTag, retried := true, dead := false }]
      ∧ t.host.nextTag = s.host.nextTag + 1
      ∧ (fnOf t d.fn).cnt = { (fnOf s d.fn).cnt with dmaRetries := satAdd 32 (fnOf s d.fn).cnt.dmaRetries 1 }
      ∧ t.host.reqs = s.host.reqs ∧ OtherFns d.fn s t ∧ Behind s t)

/-- HOST_DMA_COMPLETE under a dead tag is discarded, counted and logged, and has no other effect (R474). -/
def hostDmaDead : Prop :=
  ∀ (tag : Nat) (s : State) (d : DmaOp) (res : DmaResult), s.host.dma.find? (fun x => x.tag == tag) = some d →
    d.dead = true →
    Ends (.hostDmaComplete tag res) s (fun t =>
      t.host.dma = s.host.dma.filter (fun x => x.tag != tag) ∧ t.host.reqs = s.host.reqs
      ∧ (fnOf t d.fn).cnt = { (fnOf s d.fn).cnt with late := satAdd 32 (fnOf s d.fn).cnt.late 1 }
      ∧ mbx t d.fn = mbx s d.fn ∧ ring t d.fn = ring s d.fn ∧ t.units = s.units)

/-- HOST_COMPLETION_TIMEOUT of a first read: its tag is dead, and it is issued once more (R471, R474). -/
def completionTimeoutRow : Prop :=
  ∀ (tag : Nat) (s : State) (d : DmaOp), s.host.dma.find? (fun x => x.tag == tag) = some d → d.dead = false →
    d.retried = false → isRead d.kind = true → s.host.dma.all (fun x => decide (x.tag < s.host.nextTag)) = true →
    Ends (.hostCompletionTimeout tag) s (fun t =>
      t.host.dma = s.host.dma.map (fun x => if x.tag == tag then { x with dead := true } else x)
        ++ [{ d with tag := s.host.nextTag, retried := true, dead := false }]
      ∧ t.out = .hostRead d.fn s.host.nextTag d.addr d.len :: s.out ∧ t.host.reqs = s.host.reqs ∧ Behind s t)

/-! ## The link and its functions -/

/-- TLP_REPLAY is counted and changes nothing else (R416). -/
def tlpReplayRow : Prop :=
  ∀ s : State, Ends .tlpReplay s (fun t =>
    t.host = { s.host with link := { s.host.link with aer := s.host.link.aer + 1 } } ∧ HostOnly s t)

/-- PCIE_CONFIG_REQUEST is answered Request Retry Status until the responder is ready, and normally after (R79). -/
def configRow : Prop :=
  ∀ (f : Fn) (s : State), s.host.link.up = true → fnExists s f = true →
    Ends (.pcieConfigRequest f) s (fun t =>
      t.out = .cfg f s.host.link.rrs :: s.out ∧ t.host = s.host ∧ Behind s t ∧ t.log = s.log)

/-- HOST_LINK_UP: the trained rate and width are what ID_LINK reports (R416, R420). -/
def hostLinkUpRow : Prop :=
  ∀ (rate width : Nat) (s : State), domOn s 1 = true → s.ao.clk.refclk = true → s.host.link.fenced = false →
    Ends (.hostLinkUp rate width) s (fun t =>
      t.host = { s.host with link := { s.host.link with up := true, rate := rate % 16, width := width % 32 } }
      ∧ HostOnly s t ∧ readReg t 0 0x018 = rate % 16 + width % 32 * 16)

/-- D3HOT_ENTRY: from then on the function can issue no DMA and no message, and nothing else changes (R418). -/
def d3Row : Prop :=
  ∀ (f : Fn) (s : State), fnExists s f = true →
    Ends (.d3hotEntry f) s (fun t =>
      fnOf t f = { fnOf s f with d3 := true } ∧ canDma t f = false ∧ OtherFns f s t ∧ t.host.reqs = s.host.reqs
      ∧ t.host.dma = s.host.dma ∧ HostOnly s t)

/-- D0_RETURN with nothing held resets nothing: the function is as it was before D3hot, and no stall remains (R418). -/
def d0Row : Prop :=
  ∀ (f : Fn) (s : State), (fnOf s f).d3 = true → (ring s f).hold = [] →
    Ends (.d0Return f) s (fun t =>
      fnOf t f = { fnOf s f with
        d3 := false, ring := { ring s f with stall := (ring s f).stall && !(ring s f).cqEn } }
      ∧ OtherFns f s t ∧ t.host.reqs = s.host.reqs ∧ HostOnly s t)

/-- A D3hot function's completions wait: what becomes ready goes to the hold queue (R100, R418). -/
def d3Holds : Prop :=
  ∀ (f : Fn) (c : Cqe) (s : State), (fnOf s f).d3 = true → s.ao.boot.resetKind = 0 → (ring s f).cqEn = true →
    (ring s f).hold.length < 256 →
    ring (postCqe f c s) f = { ring s f with hold := (ring s f).hold ++ [c] } ∧ (postCqe f c s).out = s.out

/-- VF_ENABLE_SET that takes no VF away sets VF Enable and NumVFs and nothing else (R417). -/
def vfEnableRow : Prop :=
  ∀ (n : Nat) (s : State), s.host.link.up = true → s.host.link.rrs = false → n ≤ 64 → s.host.link.numVfs ≤ n →
    Ends (.vfEnableSet n) s (fun t =>
      t.host = { s.host with link := { s.host.link with vfEnable := n != 0, numVfs := n } } ∧ HostOnly s t)

/-- A VF above NumVFs does not exist (R417). -/
def vfBeyond : Prop :=
  ∀ (n : Nat) (s t : State) (f : Fn), s.host.link.up = true → s.host.link.rrs = false → f.val ≠ 0 →
    exec (.vfEnableSet n) s = .next t → min n 64 < f.val → fnExists t f = false

/-- VF_FLR whose partition does not run: every open request of the function is gone and its blocks are at their reset
values; the partition keeps its state, grants, image, seed and cursor (R69). -/
def vfFlrRow : Prop :=
  ∀ (v : Pid) (s : State), fnExists s (fnOfPart v) = true → s.host.link.up = true → (partOf s v).st ≠ .enabled →
    Ends (.vfFlr v) s (fun t =>
      mbx t (fnOfPart v) = {} ∧ ring t (fnOfPart v) = {} ∧ irq t (fnOfPart v) = {} ∧ (fnOf t (fnOfPart v)).cnt = {}
      ∧ t.host.reqs = s.host.reqs.filter (fun q => q.fn ≠ fnOfPart v)
      ∧ (partOf t v).st = (partOf s v).st ∧ (partOf t v).g = (partOf s v).g ∧ (partOf t v).ld = (partOf s v).ld)

/-- VF_FLR of an ENABLED partition without an open step pauses it at once, with its grants, image, seed and cursor
(R69). -/
def vfFlrPauses : Prop :=
  ∀ (v : Pid) (s : State), fnExists s (fnOfPart v) = true → s.host.link.up = true → (partOf s v).sc.steps = [] →
    (partOf s v).st = .enabled → (partOf s v).sc.pausing = false → (partOf s v).sc.teardownAtBoundary = false →
    Ends (.vfFlr v) s (fun t =>
      (partOf t v).st = .paused ∧ (partOf t v).g = (partOf s v).g ∧ (partOf t v).ld.image = (partOf s v).ld.image
      ∧ (partOf t v).ld.seed = (partOf s v).ld.seed ∧ (partOf t v).ld.cursor = (partOf s v).ld.cursor
      ∧ ring t (fnOfPart v) = {})

/-- PF_FLR, PCIE_HOT_RESET and HOST_LINK_DOWN: VF Enable is clear, every function's mailbox and rings are at their reset
values, no request is open, and no partition runs on without a pause (R70). -/
def hostResets : Prop :=
  ∀ (c : Instr) (s : State), (c = .pfFlr ∨ c = .pcieHotReset ∨ c = .hostLinkDown) → s.host.link.up = true →
    Ends c s (fun t =>
      t.host.link.vfEnable = false ∧ t.host.link.numVfs = 0
      ∧ (c = .hostLinkDown → t.host.link.up = false) ∧ (c ≠ .hostLinkDown → t.host.link.up = true)
      ∧ t.host.reqs = [] ∧ (∀ f, mbx t f = {} ∧ ring t f = {})
      ∧ (∀ p, (partOf t p).st = .enabled → (partOf t p).sc.pausing = true)
      ∧ (∀ p, (partOf t p).g = (partOf s p).g) ∧ t.ao.pwr = s.ao.pwr ∧ t.ao.fuse = s.ao.fuse)

end Sys2Proof.Claims
namespace Sys2Proof.Claims
open Sys2Proof.Machine

/-! ## Device commands -/

/-- DEVICE_IDENTIFY, DEVICE_POWER_STATUS and DEVICE_MEMORY_STATUS answer with their records and change nothing else
(R80, R496, Table CMD-5). -/
def deviceReads : Prop :=
  ∀ (i : ReqId) (s : State) (r : Req),
    (Turn s i 0x0101 r → Reads (.deviceIdentify i) s r (ansOk (identify s)))
    ∧ (Turn s i 0x0103 r → Reads (.devicePowerStatus i) s r (ansOk (domBytes s)))
    ∧ (Turn s i 0x0107 r → Reads (.deviceMemoryStatus i) s r (ansOk (memoryStatus s)))

/-- What DEVICE_IDENTIFY reports (R80): the running slot, the revisions, the rollback counter, whether a boot-slot
fallback occurred in this boot, and the power state of each domain. -/
def identifyFields : Prop :=
  ∀ s : State, s.ao.boot.phase ≠ .rom → s.ao.fuse.rollback ≤ 64 → s.ao.fw.version < 2 ^ 32 →
    s.ao.fw.numerics < 2 ^ 32 → s.ao.boot.slot < 256 →
    (identify s).length = 40
    ∧ field (identify s) 5 1 = s.ao.boot.slot
    ∧ field (identify s) 16 4 = s.ao.fw.version
    ∧ field (identify s) 20 4 = s.ao.fw.numerics
    ∧ field (identify s) 24 4 = s.ao.fuse.rollback
    ∧ bit (field (identify s) 28 1) 0 = s.ao.boot.fallback
    ∧ ∀ d, d < 8 → field (identify s) (32 + d) 1 = domCode (domOf s d)

/-- DEVICE_POWER_SET of PD_MEM alone, from off, with no power operation in progress: it is accepted with PENDING, the
domain is POWERING on its first try, and every other domain is as before (R62, R65). -/
def powerSetMem : Prop :=
  ∀ (i : ReqId) (s : State) (r : Req), Turn s i 0x0102 r → r.ring = true → field r.payload 0 1 = 4 →
    field r.payload 1 1 = 0 → zeroAt r.payload 2 2 = true → s.ao.pwr.op = none → domOf s 2 = .off →
    (∀ d, domOf s d ≠ .powering ∧ domOf s d ≠ .poweringDown) →
    Answers (.devicePowerSet i) s r ansPend (fun t =>
      domOf t 2 = .powering ∧ vget t.ao.pwr.attempt 2 0 = 1 ∧ (∀ d, d ≠ 2 → domOf t d = domOf s d)
      ∧ t.units = s.units ∧ t.host.reqs = s.host.reqs)

/-- DEVICE_POWER_SET while a power operation is in progress answers BUSY and changes no domain (R63). -/
def powerSetBusy : Prop :=
  ∀ (i : ReqId) (s : State) (r : Req), Turn s i 0x0102 r → powerFields r = true → s.ao.pwr.op.isSome = true →
    Reads (.devicePowerSet i) s r (ansBusy 0x010E 1000)

/-- Once a DEVICE_RESET was answered no completion of any function is posted (R497). -/
def resetSilence : Prop :=
  ∀ (f : Fn) (c : Cqe) (s : State), s.ao.boot.resetKind ≠ 0 → postCqe f c s = s

/-- FIRMWARE_UPDATE without WRITE and with COMMIT: the rollback counter is the running image's rollback_version unless
it already stood higher, and no slot changes (R77, R498). -/
def firmwareCommit : Prop :=
  ∀ (i : ReqId) (s : State) (r : Req), Turn s i 0x0105 r → fwFields r = true → otherRuns s r 0x0105 = false →
    r.bulk = [] → field r.payload 12 1 = 6 → s.ao.fw.rollbackVersion ≤ 64 →
    ∃ p, Answers (.firmwareUpdate i) s r { payload := p } (fun t =>
      t.ao.fuse.rollback = max s.ao.fuse.rollback s.ao.fw.rollbackVersion ∧ t.ao.fw = s.ao.fw
      ∧ { t.ao.fuse with rollback := 0 } = { s.ao.fuse with rollback := 0 } ∧ t.host = s.host ∧ t.units = s.units
      ∧ t.parts = s.parts ∧ t.log = s.log)

/-- FIRMWARE_UPDATE with WRITE: once the image is here, it is in the slot that does not run, and the slot that runs and
the fuses are as before (R78). -/
def firmwareWrite : Prop :=
  ∀ (i : ReqId) (s : State) (r : Req), Turn s i 0x0105 r → fwFields r = true → otherRuns s r 0x0105 = false →
    r.bulk ≠ [] → field r.payload 12 1 = 1 →
    ∃ a, a.status = 0 ∧ Answers (.firmwareUpdate i) s r a (fun t =>
      slotBytes t (idleSlot s) = r.bulk ∧ slotBytes t (1 - idleSlot s) = slotBytes s (1 - idleSlot s)
      ∧ t.ao.fuse = s.ao.fuse ∧ t.ao.fw.version = s.ao.fw.version ∧ t.parts = s.parts ∧ t.units = s.units
      ∧ t.host = s.host)

/-- DEVICE_TILE_MAP_READ_CLUSTERS of clusters that the caller may name, and DEVICE_TILE_MAP_READ_HIDDEN of the PF (R140,
R499). -/
def tileMapRows : Prop :=
  ∀ (i : ReqId) (s : State) (r : Req), Turn s i 0x0106 r →
    (field r.payload 0 1 = 0 → zeroAt r.payload 3 1 = true → 0 < field r.payload 2 1 → field r.payload 2 1 ≤ 28 →
      field r.payload 1 1 + field r.payload 2 1 ≤ 128 →
      (r.fn.val = 0 ∨ ∀ k, k < field r.payload 2 1 → (field r.payload 1 1 + k) ∈ (partAt s r.part).g.clusters) →
      Reads (.deviceTileMapReadClusters i) s r (ansOk (toLe 2 (field r.payload 2 1) ++ zeros 2 ++
        ((List.range (field r.payload 2 1)).map (fun k => field r.payload 1 1 + k)).flatMap (clusterRec s))))
    ∧ (field r.payload 0 1 = 1 → zeroAt r.payload 1 3 = true → r.fn.val = 0 →
      Reads (.deviceTileMapReadHidden i) s r (ansOk (toLe 2 256 ++ zeros 2 ++
        ((List.range 64).flatMap (fun y =>
          ((List.range 132).filter (fun x => (hiddenCols s.ao.fuse.bad y (x / 66)).contains x)).map
            (fun x => (x, y)))).flatMap (fun p =>
          toLe 1 p.1 ++ toLe 1 p.2
            ++ toLe 1 (if badAt s.ao.fuse.bad p.1 p.2 = 0 then 3 else badAt s.ao.fuse.bad p.1 p.2) ++ zeros 1))))

/-- The hidden columns of a half-row are two whenever at most two of its positions are bad (R138). -/
def hiddenTwo : Prop :=
  ∀ (bad : List (Nat × Nat × Nat)) (y h : Nat), h < 2 →
    (((List.range 66).map (fun i => 66 * h + i)).filter (fun x => badAt bad x y != 0)).length ≤ 2 →
    (hiddenCols bad y h).length = 2

/-- DEVICE_POOL_CONFIG while every partition is FREE and no held half-row lies in the new area: the rows are the
request's, and every buffer is FREE (R207, R500). -/
def poolConfigRow : Prop :=
  ∀ (i : ReqId) (s : State) (r : Req), Turn s i 0x0108 r → zeroAt r.payload 10 6 = true →
    nth (cfgRows r.payload) 0 ≤ 4 → metaRowsOf (cfgRows r.payload) + sumL (cfgRows r.payload) ≤ 512 →
    (∀ p, (partOf s p).st = .free) →
    (heldHalfRows s).any (fun h => (areaRows s.units.mem.retired
      (metaRowsOf (cfgRows r.payload) + sumL (cfgRows r.payload))).contains h.row) = false →
    Answers (.devicePoolConfig i) s r
      (ansOk (toLe 2 (metaRowsOf (cfgRows r.payload)) ++
        toLe 2 (metaRowsOf (cfgRows r.payload) + sumL (cfgRows r.payload)))) (fun t =>
      t.units.pool.rows = cfgRows r.payload ∧ t.units.pool.descs = [] ∧ t.units.pool.cache = [0, 0, 0, 0, 0]
      ∧ (∀ c, c < 5 → capacity t c = capacityOf (cfgRows r.payload) c) ∧ t.parts = s.parts ∧ t.host = s.host
      ∧ t.ao = s.ao)

/-! ## Module and boot -/

/-- POWER_INPUTS_GOOD with nothing that holds the sequencer off: PWR_GOOD rises and the die is in cold reset (R532,
R533). -/
def inputsGoodRow : Prop :=
  ∀ s : State, s.ao.mod_.restartLatch = false → s.ao.mod_.thermtrip = false → s.ao.mod_.rails = false →
    Ends .powerInputsGood s (fun t =>
      t.ao.mod_ = { s.ao.mod_ with aux := true, main := true, rails := true, pwrGood := true, holdOver := false }
      ∧ t.out = .pwrGood true :: s.out ∧ t.ao.boot.phase = .held ∧ t.units = {} ∧ (∀ p, partOf t p = {})
      ∧ t.host = {} ∧ t.log = {} ∧ t.ao.fuse = s.ao.fuse ∧ t.ao.fw.slotA = s.ao.fw.slotA
      ∧ t.ao.fw.slotB = s.ao.fw.slotB)

/-- The restart latch and THERMTRIP# keep the sequencer off (R533, R547). -/
def inputsHeld : Prop :=
  ∀ s : State, (s.ao.mod_.restartLatch = true ∨ s.ao.mod_.thermtrip = true) → s.ao.mod_.rails = false →
    Ends .powerInputsGood s (fun t => t.ao.mod_.rails = false ∧ t.ao.mod_.pwrGood = s.ao.mod_.pwrGood ∧ t.out = s.out)

/-- RAIL_OUT_OF_RANGE, MAIN_INPUT_LOSS and AUX_INPUT_REMOVED take the rails: PWR_GOOD falls, the die stops, nothing is
logged, mirrored or posted (R533, R534); only the removal of the auxiliary input clears the latch. -/
def railsRows : Prop :=
  ∀ (c : Instr) (s : State), s.ao.mod_.rails = true → s.ao.mod_.thermtrip = false →
    (c = .mainInputLoss ∨ c = .auxInputRemoved ∨ ∃ n, n < 4 ∧ c = .railOutOfRange n) →
    Ends c s (fun t =>
      t.ao.mod_.rails = false ∧ t.ao.mod_.pwrGood = false ∧ t.out = .pwrGood false :: s.out
      ∧ t.ao.boot.phase = .stopped ∧ t.log = {} ∧ t.units = {} ∧ t.host = {} ∧ (∀ p, partOf t p = {})
      ∧ t.ao.fuse = s.ao.fuse
      ∧ t.ao.mod_.main = (s.ao.mod_.main && c != .mainInputLoss)
      ∧ t.ao.mod_.aux = (s.ao.mod_.aux && c != .auxInputRemoved)
      ∧ t.ao.mod_.restartLatch = (c != .auxInputRemoved))

/-- RESTART_LATCH_RELEASE while the 54 V input is gone clears the latch (R533). -/
def latchReleaseRow : Prop :=
  ∀ s : State, s.ao.mod_.main = false →
    exec .restartLatchRelease s = .next (modModule (fun m => { m with restartLatch := false }) s)

/-- PWR_GOOD_HOLD_EXPIRY: with PERST# already deasserted the boot starts; else the die stays held (R533). -/
def holdExpiryRow : Prop :=
  ∀ s : State, s.ao.mod_.pwrGood = true → s.ao.mod_.holdOver = false →
    Ends .pwrGoodHoldExpiry s (fun t =>
      t.ao.mod_ = { s.ao.mod_ with holdOver := true }
      ∧ t.ao.boot.phase = (if s.ao.mod_.perst then s.ao.boot.phase else .locking)
      ∧ t.host = s.host ∧ t.units = s.units ∧ t.parts = s.parts ∧ t.log = s.log)

/-- PERST_ASSERT is a cold reset: the log, the window contents, the partitions and the host side are gone, fuses and
flash stay, the die is held (R68, Table CLK-6). -/
def perstAssertRow : Prop :=
  ∀ s : State, s.ao.mod_.pwrGood = true →
    Ends .perstAssert s (fun t =>
      t.ao.mod_ = { s.ao.mod_ with perst := true } ∧ t.ao.boot = {} ∧ t.log = {} ∧ t.units = {} ∧ t.host = {}
      ∧ (∀ p, partOf t p = {}) ∧ t.ao.fuse = s.ao.fuse ∧ t.ao.fw.slotA = s.ao.fw.slotA
      ∧ t.ao.fw.slotB = s.ao.fw.slotB ∧ t.out = s.out)

/-- PERST_DEASSERT with PWR_GOOD held long enough starts the boot (R79, R533). -/
def perstDeassertRow : Prop :=
  ∀ s : State, s.ao.mod_.perst = true → s.ao.mod_.pwrGood = true → s.ao.mod_.holdOver = true →
    Ends .perstDeassert s (fun t =>
      t.ao.mod_ = { s.ao.mod_ with perst := false } ∧ t.ao.boot = { s.ao.boot with phase := .locking }
      ∧ t.host = s.host ∧ t.units = s.units ∧ t.parts = s.parts ∧ t.log = s.log ∧ t.ao.pwr = s.ao.pwr)

/-- ROOT_PLL_LOCK_DONE at boot: with lock the clocks run and PD_HOST is begun; a first failure is tried again; after a
second CLOCK_LOST is logged and the boot ROM's responder is begun (R79, R549). -/
def pllLockRow : Prop :=
  ∀ s : State, s.ao.boot.phase = .locking →
    Ends (.rootPllLockDone true) s (fun t =>
      t.ao.boot.phase = .hostUp ∧ t.ao.clk = { s.ao.clk with pllLocked := true, onInternal := false, stopped := false }
      ∧ domOf t 1 = .powering ∧ (∀ d, d ≠ 1 → domOf t d = domOf s d) ∧ t.host = s.host ∧ t.units = s.units)
    ∧ (s.ao.clk.lockTries = 0 → Ends (.rootPllLockDone false) s (fun t =>
      t.ao.boot = s.ao.boot ∧ t.ao.clk = { s.ao.clk with lockTries := 1 } ∧ t.ao.pwr = s.ao.pwr))
    ∧ (s.ao.clk.lockTries ≠ 0 → Ends (.rootPllLockDone false) s (fun t =>
      t.ao.boot.phase = .rom ∧ domOf t 1 = .powering ∧ t.units = s.units))

/-- IMAGE_VERIFY_DONE: a valid image runs, with its revisions, and the service state begins; an invalid first slot
makes the boot fall back once; with no slot left the boot ROM's responder answers (R76, R79). -/
def imageVerifyRow : Prop :=
  ∀ s : State, s.ao.boot.phase = .verifying →
    (imageFail s.ao.fuse (slotBytes s s.ao.boot.slot) = 0 →
      Ends .imageVerifyDone s (fun t =>
        t.ao.boot = { s.ao.boot with phase := .running } ∧ t.ao.service = true ∧ t.host.link.rrs = false
        ∧ t.ao.fw.version = field (slotBytes s s.ao.boot.slot) 0x14 4
        ∧ t.ao.fw.numerics = field (slotBytes s s.ao.boot.slot) 0x10 4
        ∧ t.ao.fw.rollbackVersion = field (slotBytes s s.ao.boot.slot) 8 4 ∧ t.units = s.units ∧ t.log = s.log))
    ∧ (imageFail s.ao.fuse (slotBytes s s.ao.boot.slot) ≠ 0 → s.ao.boot.tried.length < 2 →
      Ends .imageVerifyDone s (fun t =>
        t.ao.boot = { s.ao.boot with slot := 1 - s.ao.boot.slot, tried := s.ao.boot.tried ++ [1 - s.ao.boot.slot],
                                     fallback := true }
        ∧ t.host.link = s.host.link ∧ t.units = s.units))
    ∧ (imageFail s.ao.fuse (slotBytes s s.ao.boot.slot) ≠ 0 → 2 ≤ s.ao.boot.tried.length →
      Ends .imageVerifyDone s (fun t =>
        t.ao.boot.phase = .rom ∧ t.ao.service = true ∧ t.ao.fw.version = 0 ∧ t.ao.fw.numerics = 0
        ∧ t.host.link.rrs = false ∧ t.units = s.units))

/-- RESET_DELAY_EXPIRY after a COLD request: cold reset and a new boot; after a WARM one: the warm reset is due (R71). -/
def resetDelayRow : Prop :=
  ∀ s : State,
    (s.ao.boot.resetKind = 2 → Ends .resetDelayExpiry s (fun t =>
      t.ao.boot = { phase := .locking } ∧ t.log = {} ∧ t.units = {} ∧ t.host = {} ∧ (∀ p, partOf t p = {})
      ∧ t.ao.fuse = s.ao.fuse ∧ t.ao.mod_ = s.ao.mod_))
    ∧ (s.ao.boot.resetKind = 1 → s.ao.boot.warmDue = false → Ends .resetDelayExpiry s (fun t =>
      t.ao.boot = { s.ao.boot with warmDue := true } ∧ t.parts = s.parts ∧ t.host = s.host ∧ t.log = s.log))

/-- WARM_RESET_BEGIN: every domain but PD_AO is off or, PD_HOST, powering; partitions, windows and the host side are
gone; the log, retired half-rows, fuses and clocks stay (R68, R549). -/
def warmResetRow : Prop :=
  ∀ s : State, s.ao.boot.warmDue = true →
    Ends .warmResetBegin s (fun t =>
      (∀ p, partOf t p = {}) ∧ t.host = {} ∧ t.units.mem.cells = [] ∧ t.units.mem.retired = s.units.mem.retired
      ∧ t.log = { s.log with spill := [] } ∧ t.ao.fuse = s.ao.fuse ∧ t.ao.clk = s.ao.clk ∧ t.ao.mod_ = s.ao.mod_
      ∧ domOf t 0 = .on ∧ domOf t 1 = .powering ∧ (∀ d, 2 ≤ d → domOf t d = .off) ∧ t.ao.boot.phase = .hostUp)

/-- A warm reset sends the departure notice while PD_NET is on and the Darrad link is trained, and no notice otherwise
(R71). -/
def departureSent : Prop :=
  ∀ s : State, s.ao.boot.warmDue = false →
    (domOn s 5 = true → s.units.pair.trained = true →
      (warmTrigger s).out = .darrad 2 ⟨0, 0, s.units.pair.txSeq, s.units.pair.gen, 0xFF, 0⟩ [] :: s.out)
    ∧ ((domOn s 5 && s.units.pair.trained) = false → (warmTrigger s).out = s.out)

/-- PAIR_A_LOCKSTEP_MISMATCH and PAIR_A_FIRMWARE_WATCHDOG of running firmware bring a warm reset (R68). -/
def pairARows : Prop :=
  ∀ (c : Instr) (s : State), (c = .pairALockstepMismatch ∨ c = .pairAFirmwareWatchdog) → s.ao.boot.phase = .running →
    s.ao.boot.warmDue = false → Ends c s (fun t => t.ao.boot = { s.ao.boot with warmDue := true }
      ∧ t.host.reqs = s.host.reqs ∧ t.ao.pwr = s.ao.pwr)

/-- PAIR_B_LOCKSTEP_MISMATCH: the first within a step only marks the step whose lists are being built; a second is
lasting and brings a warm reset (R72). -/
def pairBRow : Prop :=
  ∀ s : State, s.ao.boot.phase = .running → s.ao.boot.warmDue = false →
    (buildMissed s = true → Ends .pairBLockstepMismatch s (fun t =>
      t.ao.boot = { s.ao.boot with warmDue := true } ∧ t.ao.pwr = s.ao.pwr))
    ∧ (buildMissed s = false → s.ao.ctrl.lists ≠ [] → Ends .pairBLockstepMismatch s (fun t =>
      t.ao.boot = s.ao.boot ∧ t.ao.ctrl = s.ao.ctrl ∧ t.units = s.units
      ∧ ∀ p slot rest, s.ao.ctrl.lists = (p, slot) :: rest →
          ∀ st ∈ (partOf t p).sc.steps, st.slot = slot → st.pairBMiss = true))

end Sys2Proof.Claims
namespace Sys2Proof.Claims
open Sys2Proof.Machine

/-! ## Clocks and power domains -/

/-- REFCLK_LOST and ROOT_PLL_LOCK_LOST in operation: every family clock but CCLK in PD_AO stops, no partition stays
ENABLED, every domain but PD_AO and PD_HOST is off or fenced, and the device answers as the boot ROM's responder; the
loss of REFCLK takes the host link, the loss of lock begins the one relock attempt (R57). -/
def clockLossRows : Prop :=
  ∀ (c : Instr) (s : State), s.ao.clk.refclk = true → s.ao.clk.lost = 0 → s.ao.clk.pllLocked = true →
    (c = .refclkLost ∨ c = .rootPllLockLost) →
    Ends c s (fun t =>
      t.ao.clk.stopped = true ∧ t.ao.clk.onInternal = true ∧ t.ao.clk.pllLocked = false
      ∧ t.ao.clk.lost = (if c = .refclkLost then 1 else 2)
      ∧ t.ao.clk.refclk = (c != .refclkLost) ∧ t.ao.clk.relocking = (s.ao.clk.relocking || c != .refclkLost)
      ∧ t.ao.boot.phase = .rom ∧ t.ao.service = true
      ∧ (∀ p, (partOf t p).st ≠ .enabled)
      ∧ (∀ d, 2 ≤ d → d < 8 → domOf t d = .off ∨ domOf t d = .fenced)
      ∧ (c = .refclkLost → t.host.link.up = false))

/-- REFCLK_RETURN after a loss begins the one relock attempt (R57). -/
def refclkReturnRow : Prop :=
  ∀ s : State, s.ao.clk.refclk = false →
    exec .refclkReturn s = .next (modClk (fun c => { c with refclk := true, relocking := c.lost != 0 }) s)

/-- ROOT_PLL_LOCK_DONE after a loss: a relock puts the clocks back and leaves the service state; a failure leaves the
device on its internal oscillator, with no further attempt (R57). -/
def relockRow : Prop :=
  ∀ s : State, s.ao.boot.phase ≠ .locking → s.ao.clk.relocking = true →
    Ends (.rootPllLockDone true) s (fun t =>
      t.ao.clk = { s.ao.clk with relocking := false, lost := 0, pllLocked := true, onInternal := false, stopped := false }
      ∧ t.ao.service = true ∧ t.ao.pwr = s.ao.pwr ∧ t.units = s.units)
    ∧ Ends (.rootPllLockDone false) s (fun t => (modClk (fun c => { c with relocking := false }) s).LoggedTo t)

/-- DOMAIN_POWER_UP_DONE of a switched domain on its first or second try, with no domain waiting to go off: the domain
is ON, and the service state is left (R51, R62, R66). -/
def domainUpRow : Prop :=
  ∀ (d : Domain) (bad : List Nat) (s : State), 2 ≤ d.val → domOf s d.val = .powering →
    (∀ o, s.ao.pwr.op = some o → o.toOff = []) →
    Ends (.domainPowerUpDone d bad) s (fun t => domOf t d.val = .on ∧ t.ao.service = false)

/-- DOMAIN_POWER_UP_DONE of PD_HOST at boot: the slot with the better header is read first (R76, Table CLK-8). -/
def hostUpRow : Prop :=
  ∀ (d : Domain) (s : State), d.val = 1 → domOf s 1 = .powering → s.ao.boot.phase = .hostUp → s.ao.pwr.op = none →
    Ends (.domainPowerUpDone d []) s (fun t =>
      domOf t 1 = .on ∧ t.ao.boot.phase = .verifying ∧ t.ao.boot.slot = firstSlot s ∧ t.ao.boot.tried = [firstSlot s]
      ∧ (∀ k, k ≠ 1 → domOf t k = domOf s k) ∧ t.units = s.units ∧ t.host = s.host ∧ t.log = s.log)

/-- DOMAIN_POWER_UP_FAIL: a first failure is tried once more; a second fences the domain (R66). -/
def domainUpFailRow : Prop :=
  ∀ (d : Domain) (s : State), 2 ≤ d.val → domOf s d.val = .powering →
    (vget s.ao.pwr.attempt d.val 0 < 2 → Ends (.domainPowerUpFail d) s (fun t =>
      domOf t d.val = .powering ∧ vget t.ao.pwr.attempt d.val 0 = 2 ∧ (∀ k, k ≠ d.val → domOf t k = domOf s k)
      ∧ t.units = s.units))
    ∧ (2 ≤ vget s.ao.pwr.attempt d.val 0 → s.ao.pwr.op = none → Ends (.domainPowerUpFail d) s (fun t =>
      domOf t d.val = .fenced ∧ (d.val = 2 → t.ao.service = true)))

/-- DOMAIN_POWER_DOWN_DONE: the domain is OFF, and with no switched domain on the device is in the service state (R51,
R62). -/
def domainDownRow : Prop :=
  ∀ (d : Domain) (s : State), 2 ≤ d.val → domOf s d.val = .poweringDown → s.ao.pwr.op = none →
    Ends (.domainPowerDownDone d) s (fun t =>
      domOf t d.val = .off ∧ (∀ k, k ≠ d.val → domOf t k = domOf s k)
      ∧ ((∀ k, 2 ≤ k → k < 8 → k ≠ d.val → domOn s k = false) → t.ao.service = true))

/-- POWER_GOOD_LOSS of PD_CHURN alone, with no power operation: the domain is begun again by itself; partitions run on
(R67, Table CLK-5). -/
def churnLossRow : Prop :=
  ∀ (d : Domain) (s : State), d.val = 7 → domOf s 7 = .on → domOf s 5 = .on → s.ao.pwr.op = none →
    Ends (.powerGoodLoss d) s (fun t =>
      domOf t 7 = .powering ∧ vget t.ao.pwr.attempt 7 0 = 1 ∧ (∀ k, k ≠ 7 → domOf t k = domOf s k)
      ∧ t.ao.pwr.op = some { req := none, tag := 0, toOn := [], toOff := [], repower := some 7 }
      ∧ (∀ p, (partOf t p).st = (partOf s p).st) ∧ t.units.churn.holder = none)

/-- POWER_GOOD_LOSS of PD_MEM: every partition leaves ENABLED, PD_MEM and all that depend on it are off, the service
state begins, and no domain is begun again (R67, Table CLK-5). -/
def memLossRow : Prop :=
  ∀ (d : Domain) (s : State), d.val = 2 → domOf s 2 = .on → s.ao.pwr.op = none →
    Ends (.powerGoodLoss d) s (fun t =>
      domOf t 2 = .off ∧ (∀ p, (partOf t p).st ≠ .enabled) ∧ t.ao.service = true ∧ t.units.mem.cells = []
      ∧ (∀ k, 3 ≤ k → k ≤ 5 → domOf t k ≠ .on)
      ∧ (domOf s 5 = .on → domOf t 6 ≠ .on ∧ domOf t 7 ≠ .on) ∧ t.units.pool.inService = false ∧ t.ao.pwr.op = none)

/-- POOL_ENTERS_SERVICE: every buffer is FREE and every account 0 (R208). -/
def poolEntersRow : Prop :=
  ∀ s : State, domOn s 2 = true → domOn s 3 = true → domOn s 4 = true → s.units.pool.inService = false →
    Ends .poolEntersService s (fun t =>
      t.units.pool.inService = true ∧ t.units.pool.descs = [] ∧ t.units.pool.pointer = 0
      ∧ (∀ p, (partOf t p).held = [0, 0, 0, 0, 0] ∧ (partOf t p).drawn = [0, 0, 0, 0, 0]
          ∧ (partOf t p).st = (partOf s p).st ∧ (partOf t p).g = (partOf s p).g)
      ∧ t.units.pool.rows = s.units.pool.rows ∧ t.host = s.host ∧ t.ao = s.ao ∧ t.log = s.log)

/-- INRUSH_DELAY_EXPIRY without a power operation only ends the delay (R65). -/
def inrushRow : Prop :=
  ∀ s : State, s.ao.pwr.inrush = true → s.ao.pwr.op = none →
    exec .inrushDelayExpiry s = .next (modPwr (fun p => { p with inrush := false }) s)

/-- INRUSH_DELAY_EXPIRY lets PD_TILE_E begin (R65). -/
def inrushBegins : Prop :=
  ∀ (s : State) (o : PowerOp), s.ao.pwr.inrush = true → s.ao.pwr.op = some o → o.toOn = [4] → o.toOff = [] →
    domOf s 4 = .off → domOf s 2 = .on →
    Ends .inrushDelayExpiry s (fun t =>
      domOf t 4 = .powering ∧ t.ao.pwr.inrush = false ∧ (∀ k, k ≠ 4 → domOf t k = domOf s k))

/-- ASYNC_FIFO_FAULT of an Ethernet port that is up: the first only retrains its lane, a recurrence fences the port
(R55). -/
def fifoRow : Prop :=
  ∀ (stop c : Nat) (ov : Bool) (s : State), c < 8 → fifoLive s c = true →
    (s.units.mesh.fifoOnce.contains c = false → Ends (.asyncFifoFault stop c ov) s (fun t =>
      c ∈ t.units.mesh.fifoOnce ∧ (portOf t c).link ≠ .fenced))
    ∧ (s.units.mesh.fifoOnce.contains c = true → Ends (.asyncFifoFault stop c ov) s (fun t =>
      (portOf t c).link = .fenced))

/-! ## Sideband, power and thermal control -/

/-- THERMAL_SAMPLE below 110 °C: the readings are kept, the thermal step rises at once to what the junction calls for,
and falls by one only after ten samples at least 3 °C below its threshold (R542, R544). -/
def thermalRow : Prop :=
  ∀ (temps : List Int) (s : State), s.ao.mod_.pwrGood = true →
    junction { s.ao.therm with temps := temps } < 1760 →
    Ends (.thermalSample temps) s (fun t =>
      t.ao.therm.temps = temps ∧ t.ao.mod_ = s.ao.mod_ ∧ t.ao.therm.pStep = s.ao.therm.pStep
      ∧ t.units = s.units ∧ t.host.reqs = s.host.reqs
      ∧ (s.ao.therm.tStep < stepFor (junction { s.ao.therm with temps := temps }) →
          t.ao.therm.tStep = stepFor (junction { s.ao.therm with temps := temps }))
      ∧ (stepFor (junction { s.ao.therm with temps := temps }) ≤ s.ao.therm.tStep →
          t.ao.therm.tStep = s.ao.therm.tStep ∨
          (t.ao.therm.tStep + 1 = s.ao.therm.tStep ∧ 9 ≤ s.ao.therm.coolMs
            ∧ junction { s.ao.therm with temps := temps } ≤ stepTemp s.ao.therm.tStep - 48)))

/-- THERMAL_SAMPLE at or above 110 °C: THERMTRIP# is asserted, the latch byte is set and the rails go (R547). -/
def thermtripRow : Prop :=
  ∀ (temps : List Int) (s : State), s.ao.mod_.pwrGood = true → s.ao.mod_.rails = true →
    1760 ≤ junction { s.ao.therm with temps := temps } →
    Ends (.thermalSample temps) s (fun t =>
      t.ao.mod_.thermtrip = true ∧ t.ao.mod_.fruLatch = 1 ∧ t.ao.mod_.rails = false ∧ t.ao.mod_.pwrGood = false
      ∧ t.out = .pwrGood false :: .thermtrip true :: s.out ∧ t.log = {} ∧ t.host = {})

/-- POWER_WINDOW_END: above the limit less 10 W the power step rises by one, to 3 at most (R544). -/
def powerWindowRow : Prop :=
  ∀ (mw : Nat) (s : State), s.ao.mod_.pwrGood = true →
    Ends (.powerWindowEnd mw) s (fun t =>
      t.ao.therm.powerMw = mw ∧ t.ao.therm.tStep = s.ao.therm.tStep ∧ t.ao.therm.limit = s.ao.therm.limit
      ∧ t.units = s.units ∧ t.ao.mod_ = s.ao.mod_
      ∧ (s.ao.therm.limit * 1000 < mw + 10000 → t.ao.therm.pStep = min 3 (s.ao.therm.pStep + 1))
      ∧ (mw + 10000 ≤ s.ao.therm.limit * 1000 → t.ao.therm.pStep ≤ s.ao.therm.pStep)
      ∧ (mw + 10000 ≤ s.ao.therm.limit * 1000 → s.ao.therm.limit * 1000 ≤ mw + 40000 →
          t.ao.therm.pStep = s.ao.therm.pStep))

/-- SET_POWER_LIMIT takes 550 W to 700 W; any other value answers 1 and changes nothing (R539). -/
def setPowerLimitRow : Prop :=
  ∀ (w : Nat) (s : State), s.ao.mod_.pwrGood = true →
    ((550 ≤ w ∧ w ≤ 700) → exec (.setPowerLimit w) s =
      .next (emit (.smbus [0]) (modTherm (fun t => { t with limit := w }) s)))
    ∧ ((w < 550 ∨ 700 < w) → exec (.setPowerLimit w) s = .next (emit (.smbus [1]) s))

/-- GET_THERMAL_POWER, GET_SENSORS and MCTP_CONTROL_MESSAGE answer over the sideband and change nothing but, with Set
Endpoint ID, the endpoint id (R538, R539). -/
def sidebandRows : Prop :=
  ∀ s : State, s.ao.mod_.pwrGood = true →
    exec .getThermalPower s = .next (emit (.smbus (thermalPower s)) s)
    ∧ exec .getSensors s =
        .next (emit (.smbus ([0] ++ (s.ao.therm.temps.take 16).flatMap (fun t => toLe 4 (toTwos 32 t)))) s)
    ∧ (∀ eid, 0 < eid → eid < 255 → exec (.mctpControlMessage 1 eid) s =
        .next (emit (.smbus [0, 0, BitVec.ofNat 8 eid, 0]) (modTherm (fun t => { t with eid := eid }) s)))
    ∧ exec (.mctpControlMessage 2 0) s = .next (emit (.smbus [0, BitVec.ofNat 8 s.ao.therm.eid, 0, 0]) s)
    ∧ (∀ cmd arg, cmd ≠ 1 → cmd ≠ 2 → cmd ≠ 4 → cmd ≠ 5 → cmd ≠ 6 →
        exec (.mctpControlMessage cmd arg) s = .next (emit (.smbus [5]) s))

/-- GET_THERMAL_POWER reports the step in force, its sources, the junction temperature, the power and the limit (Table
PHY-8). -/
def thermalPowerFields : Prop :=
  ∀ s : State, s.ao.therm.tStep ≤ 3 → s.ao.therm.pStep ≤ 3 → s.ao.therm.powerMw < 2 ^ 32 → s.ao.therm.limit < 2 ^ 16 →
    (thermalPower s).length = 21
    ∧ field (thermalPower s) 0 1 = 0
    ∧ field (thermalPower s) 1 1 = max s.ao.therm.tStep s.ao.therm.pStep
    ∧ field (thermalPower s) 5 4 = toTwos 32 (junction s.ao.therm)
    ∧ field (thermalPower s) 9 4 = s.ao.therm.powerMw ∧ field (thermalPower s) 13 2 = s.ao.therm.limit

/-- FRU_LATCH_WRITE: a write of 0 clears the latch byte; any other changes nothing (R538, R547). -/
def fruRow : Prop :=
  ∀ (v : Byte) (s : State), s.ao.mod_.aux = true →
    exec (.fruLatchWrite 0) s = .next (modModule (fun m => { m with fruLatch := 0 }) s)
    ∧ (v ≠ 0 → exec (.fruLatchWrite v) s = .next s)

/-- JTAG_INSTRUCTION: IDCODE shifts out the code of R540 at any time; EXTEST works only while PERST# is asserted, and a
private instruction only on a die whose fuse allows it (R540). -/
def jtagRow : Prop :=
  ∀ s : State, s.ao.mod_.pwrGood = true →
    Ends (.jtagInstruction .idcode) s (fun t => t.ao.therm.tap = .idcode ∧ t.out = .tdo 0x18192B3F :: s.out)
    ∧ Ends (.jtagInstruction .extest) s (fun t =>
        t.ao.therm.tap = (if s.ao.mod_.perst then .extest else .bypass) ∧ t.out = s.out)
    ∧ Ends (.jtagInstruction .privateInstr) s (fun t =>
        t.ao.therm.tap = (if s.ao.fuse.privateTapOff then .bypass else .privateInstr) ∧ t.out = s.out)

end Sys2Proof.Claims
namespace Sys2Proof.Claims
open Sys2Proof.Machine

/-! ## Partitions -/

/-- Whether an answer can carry PENDING: a ring request, or a mailbox request whose CQ is enabled (R90). -/
def CanPend (s : State) (r : Req) : Prop := r.ring = true ∨ (ring s r.fn).cqEn = true

/-- No cluster, HEVC core, Ethernet port or namespace is granted to two partitions (R109, R110). -/
def Exclusive (s : State) : Prop :=
  ∀ p q : Pid, p ≠ q →
    (∀ c, c ∈ (partOf s p).g.clusters → c ∉ (partOf s q).g.clusters)
    ∧ (∀ c, c ∈ (partOf s p).g.cores → c ∉ (partOf s q).g.cores)
    ∧ (∀ c, c ∈ (partOf s p).g.ports → c ∉ (partOf s q).g.ports)
    ∧ (∀ c, c ∈ (partOf s p).g.ns → c ∉ (partOf s q).g.ns)

/-- PARTITION_GRANT never gives a partition what another holds (R111, Table PRT-8). -/
def grantExclusive : Prop :=
  ∀ (i : ReqId) (s t : State), Exclusive s → exec (.partitionGrant i) s = .next t → Exclusive t

/-- A request for clusters and HEVC cores alone, as Table CMD-6 lays it out. -/
def coresOnly (b : List Byte) : Prop :=
  let g := parseGrant b
  g.a = 0 ∧ g.w = 0 ∧ g.e = 0 ∧ g.ports = [] ∧ g.churn = 0 ∧ g.slots = 0 ∧ g.set = 0 ∧ g.ns = []

/-- PARTITION_GRANT of clusters and cores that are powered, unfenced and held by no other partition: it is OK with no
bytes to zero; a FREE partition is GRANTED; the partition holds what it held and what the request names, and no other
partition changes (R111, R117, R501). -/
def grantRow : Prop :=
  ∀ (i : ReqId) (s : State) (r : Req), Turn s i 0x0201 r → r.part < 64 → grantFields s r = true → coresOnly r.payload →
    (partnerHolds s r.pid.val = false ∨ (partOf s r.pid).st ≠ .free) → s.ao.pwr.op = none →
    (∀ d, 2 ≤ d → d < 8 → domOf s d = .on) →
    (∀ c ∈ (parseGrant r.payload).clusters, s.units.unavailable.contains c = false
      ∧ othersHold s r.pid (fun x => x.clusters.contains c) = false) →
    (∀ c ∈ (parseGrant r.payload).cores, (vget s.units.cores c {}).fenced = false
      ∧ othersHold s r.pid (fun x => x.cores.contains c) = false) →
    Answers (.partitionGrant i) s r (ansOk (toLe 8 0)) (fun t =>
      (partOf t r.pid).st = (if (partOf s r.pid).st = .free then .granted else (partOf s r.pid).st)
      ∧ (∀ c, c ∈ (partOf t r.pid).g.clusters ↔
          c ∈ (partOf s r.pid).g.clusters ∨ c ∈ (parseGrant r.payload).clusters)
      ∧ (∀ c, c ∈ (partOf t r.pid).g.cores ↔ c ∈ (partOf s r.pid).g.cores ∨ c ∈ (parseGrant r.payload).cores)
      ∧ (partOf t r.pid).g.ports = (partOf s r.pid).g.ports ∧ (partOf t r.pid).g.ns = (partOf s r.pid).g.ns
      ∧ (partOf t r.pid).g.churn = (partOf s r.pid).g.churn
      ∧ (∀ p, p ≠ r.pid → partOf t p = partOf s p) ∧ t.host = s.host ∧ t.ao = s.ao)

/-- PARTITION_GRANT of what another partition holds changes no grant: NO_RESOURCE, with the first missing item's reason
(R111, R492). -/
def grantShort : Prop :=
  ∀ (i : ReqId) (s : State) (r : Req) (c : Nat), Turn s i 0x0201 r → r.part < 64 → grantFields s r = true →
    coresOnly r.payload → (partnerHolds s r.pid.val = false ∨ (partOf s r.pid).st ≠ .free) → s.ao.pwr.op = none →
    (∀ d, 2 ≤ d → d < 8 → domOf s d = .on) →
    (∀ c ∈ (parseGrant r.payload).clusters, s.units.unavailable.contains c = false) →
    (∀ c ∈ (parseGrant r.payload).cores, (vget s.units.cores c {}).fenced = false) →
    c ∈ (parseGrant r.payload).clusters → c ∉ (partOf s r.pid).g.clusters →
    othersHold s r.pid (fun x => x.clusters.contains c) = true →
    ∃ a, a.status = stNoResource ∧ a.reason = 0x0101 ∧ Reads (.partitionGrant i) s r a

/-- PARTITION_RELEASE of what the partition holds, with no region transfer open: OK; it holds all else it held, and no
other partition's grants or state change (R117, R502). -/
def releaseRow : Prop :=
  ∀ (i : ReqId) (s : State) (r : Req), Turn s i 0x0202 r → r.part < 64 → releaseFields s r = true →
    transferOpen s r.pid = false →
    Answers (.partitionRelease i) s r ansOk (fun t =>
      (∀ c, c ∈ (partOf t r.pid).g.clusters ↔
          c ∈ (partOf s r.pid).g.clusters ∧ c ∉ (parseGrant r.payload).clusters)
      ∧ (∀ c, c ∈ (partOf t r.pid).g.cores ↔ c ∈ (partOf s r.pid).g.cores ∧ c ∉ (parseGrant r.payload).cores)
      ∧ (∀ c, c ∈ (partOf t r.pid).g.ports ↔ c ∈ (partOf s r.pid).g.ports ∧ c ∉ (parseGrant r.payload).ports)
      ∧ (∀ c, c ∈ (partOf t r.pid).g.ns ↔ c ∈ (partOf s r.pid).g.ns ∧ c ∉ (parseGrant r.payload).ns)
      ∧ (partOf t r.pid).st = (partOf s r.pid).st ∧ (partOf t r.pid).g.min = (partOf s r.pid).g.min
      ∧ (∀ p, p ≠ r.pid → partOf t p = partOf s p))

/-- PARTITION_RELEASE while a region transfer of the partition is open answers BUSY (Table CMD-11). -/
def releaseBusy : Prop :=
  ∀ (i : ReqId) (s : State) (r : Req), Turn s i 0x0202 r → releaseFields s r = true → transferOpen s r.pid = true →
    Reads (.partitionRelease i) s r (ansBusy 0 1000)

/-- PARTITION_ENABLE of a partition whose check passes, with nothing in its way and its standing reservations granted:
it is ENABLED with admission at its cursor's step, its counters are zero but for the peaks of what it holds, and its
grants, image and seed stay (R119, R503). -/
def enableRow : Prop :=
  ∀ (i : ReqId) (s s' : State) (r : Req), Turn s i 0x0203 r → r.part < 64 → enableGate r s = none →
    reserveNow r.pid (standingOf (partOf s r.pid)) s = some s' → (runCheck s' r.pid).shorts = [] →
    Answers (.partitionEnable i) s r (ansOk (checkPayload (runCheck s' r.pid))) (fun t =>
      (partOf t r.pid).st = .enabled ∧ (partOf t r.pid).sc.next = { (partOf s r.pid).ld.cursor with off := 0 }
      ∧ (partOf t r.pid).g = (partOf s r.pid).g ∧ (partOf t r.pid).ld.image = (partOf s r.pid).ld.image
      ∧ (partOf t r.pid).ld.seed = (partOf s r.pid).ld.seed ∧ (partOf t r.pid).ld.cursor = (partOf s r.pid).ld.cursor
      ∧ (partOf t r.pid).cnt.steps = 0 ∧ (partOf t r.pid).cnt.withdrawn = 0 ∧ (partOf t r.pid).cnt.damaged = 0)

/-- PARTITION_ENABLE of a partition whose check fails changes nothing: REFUSED with the shortfall list (R119, R503). -/
def enableShort : Prop :=
  ∀ (i : ReqId) (s s' : State) (r : Req), Turn s i 0x0203 r → r.part < 64 → enableGate r s = none →
    reserveNow r.pid (standingOf (partOf s r.pid)) s = some s' → (runCheck s' r.pid).shorts ≠ [] →
    Reads (.partitionEnable i) s r (ansShort stRefused (runCheck s' r.pid).shorts)

/-- PARTITION_ENABLE and PIPELINE_RESUME while the window is being zeroed answer BUSY with 0x0105 (R115). -/
def enableZeroing : Prop :=
  ∀ (i : ReqId) (s : State) (r : Req), transferOpen s r.pid = false → (partOf s r.pid).g.win.unzero ≠ [] →
    (Turn s i 0x0203 r →
      Reads (.partitionEnable i) s r (ansBusy 0x0105 (500 * (partOf s r.pid).g.win.unzero.length)))
    ∧ (Turn s i 0x0303 r →
      Reads (.pipelineResume i) s r (ansBusy 0x0105 (500 * (partOf s r.pid).g.win.unzero.length)))

/-- PIPELINE_RESUME of a PAUSED partition in which nothing changed since its last check: it is ENABLED with admission at
its cursor's step, and that check's result is the answer (R112, R503). -/
def resumeRow : Prop :=
  ∀ (i : ReqId) (s s' : State) (r : Req), Turn s i 0x0303 r → r.part < 64 → enableGate r s = none →
    reserveNow r.pid (standingOf (partOf s r.pid)) s = some s' → mustCheck (partOf s r.pid) = false →
    Answers (.pipelineResume i) s r (ansOk (partOf s r.pid).ld.lastCheck) (fun t =>
      (partOf t r.pid).st = .enabled ∧ (partOf t r.pid).sc.next = { (partOf s r.pid).ld.cursor with off := 0 }
      ∧ (partOf t r.pid).sc.pausing = false ∧ (partOf t r.pid).g = (partOf s r.pid).g
      ∧ (partOf t r.pid).ld.image = (partOf s r.pid).ld.image ∧ (partOf t r.pid).ld.seed = (partOf s r.pid).ld.seed
      ∧ (partOf t r.pid).ld.cursor = (partOf s r.pid).ld.cursor)

/-- PIPELINE_PAUSE of a partition between steps: it is PAUSED at its cursor, its completion has gone out, and grants,
image and seed stay; over open steps it pauses at the boundary (R248, R508). -/
def pauseRow : Prop :=
  ∀ (i : ReqId) (s : State) (r : Req), Turn s i 0x0302 r → r.part < 64 → findReq s i = some r → CanPend s r →
    (partOf s r.pid).sc.pausing = false → (partOf s r.pid).sc.teardownAtBoundary = false →
    ((partOf s r.pid).sc.steps = [] → Ends (.pipelinePause i) s (fun t =>
      (partOf t r.pid).st = .paused ∧ (partOf t r.pid).ld.cursor = (partOf s r.pid).ld.cursor
      ∧ (partOf t r.pid).sc.next = (partOf s r.pid).ld.cursor ∧ (partOf t r.pid).g = (partOf s r.pid).g
      ∧ (partOf t r.pid).ld.image = (partOf s r.pid).ld.image ∧ (partOf t r.pid).ld.seed = (partOf s r.pid).ld.seed
      ∧ findReq t i = none))
    ∧ Ends (.pipelinePause i) s (fun t =>
      ((partOf t r.pid).st = .paused ∨ (partOf t r.pid).sc.pausing = true ∧ (partOf t r.pid).sc.pauseReq = some i)
      ∧ (partOf t r.pid).sc.asking = false)

/-- PARTITION_TEARDOWN_IMMEDIATE, and AT_BOUNDARY of a partition that does not run: OK with PENDING, and the partition is
TEARING_DOWN with no phase done; its grants stay until their phase (R125, R504). -/
def teardownRows : Prop :=
  ∀ (i : ReqId) (s : State) (r : Req), Turn s i 0x0204 r → r.part < 64 → CanPend s r → zeroAt r.payload 1 3 = true →
    (field r.payload 0 1 = 1 → Answers (.partitionTeardownImmediate i) s r ansPend (fun t =>
      (partOf t r.pid).st = .tearingDown ∧ (partOf t r.pid).td = 0 ∧ (partOf t r.pid).tdReq = some i
      ∧ (partOf t r.pid).g = (partOf s r.pid).g ∧ (partOf t r.pid).sc.asking = false))
    ∧ (field r.payload 0 1 = 0 → (partOf s r.pid).st ≠ .enabled →
      Answers (.partitionTeardownAtBoundary i) s r ansPend (fun t =>
        (partOf t r.pid).st = .tearingDown ∧ (partOf t r.pid).td = 0 ∧ (partOf t r.pid).tdReq = some i
        ∧ (partOf t r.pid).g = (partOf s r.pid).g))
    ∧ (field r.payload 0 1 = 0 → (partOf s r.pid).st = .enabled → (partOf s r.pid).sc.pausing = true →
      Answers (.partitionTeardownAtBoundary i) s r ansPend (fun t =>
        (partOf t r.pid).st = .enabled ∧ (partOf t r.pid).sc.teardownAtBoundary = true
        ∧ (partOf t r.pid).tdReq = some i ∧ (partOf t r.pid).g = (partOf s r.pid).g))

/-- Once a teardown waits for the boundary, no command but PARTITION_STATUS is admitted for the partition (R125). -/
def teardownGuards : Prop :=
  ∀ (s : State) (r : Req) (c : CmdInfo) (l : List PSt), cmdInfo r.opcode = some c → c.states = some l →
    r.opcode ≠ 0x0205 → r.part ≠ 0xFF → (partAt s r.part).sc.teardownAtBoundary = true → stateOk s r = false

/-- TEARDOWN_PHASE: each phase in its turn does what Table PRT-6 gives it, and counts as done. -/
def teardownPhaseRow : Prop :=
  ∀ (p : Pid) (s : State), (partOf s p).st = .tearingDown →
    ((partOf s p).td = 0 → Ends (.teardownPhase p .fenceOps) s (fun t =>
      (partOf t p).td = 1 ∧ (partOf t p).st = .tearingDown ∧ (partOf t p).sc.steps = [] ∧ (partOf t p).sc.entries = []
      ∧ (partOf t p).g = (partOf s p).g))
    ∧ ((partOf s p).td = 2 → Ends (.teardownPhase p .flushUnits) s (fun t =>
      (partOf t p).td = 3 ∧ (partOf t p).runs = [] ∧ t.units.churn.holder ≠ some p
      ∧ (∀ j ∈ t.units.segQ, j.part ≠ p) ∧ (∀ j ∈ t.units.stillQ, j.part ≠ p)))
    ∧ ((partOf s p).td = 4 → Ends (.teardownPhase p .resetTiles) s (fun t =>
      (partOf t p).td = 5 ∧ (partOf t p).g = (partOf s p).g
      ∧ ∀ x ∈ t.units.tiles, (partOf s p).g.clusters.contains (x.id / 64) = true →
          x = { id := x.id, fenced := x.fenced }))
    ∧ ((partOf s p).td = 5 → Ends (.teardownPhase p .releaseWindow) s (fun t =>
      (partOf t p).td = 6 ∧ (partOf t p).g = {} ∧ (partOf t p).st = .tearingDown
      ∧ (∀ b ∈ t.units.mesh.barriers, b.part ≠ p)))
    ∧ ((partOf s p).td ≠ 0 → exec (.teardownPhase p .fenceOps) s = .next s)

/-- TEARDOWN_PHASE's release of buffers: afterwards no buffer in use is the partition's (Table PRT-6). -/
def teardownReleases : Prop :=
  ∀ (p : Pid) (s : State), (partOf s p).st = .tearingDown → (partOf s p).td = 3 →
    (s.units.pool.descs.Pairwise (fun a b => (a.cls, a.index) ≠ (b.cls, b.index))) →
    Ends (.teardownPhase p .releaseBuffers) s (fun t =>
      (partOf t p).td = 4 ∧ ∀ d ∈ t.units.pool.descs, d.part = p.val → d.st = 0)

/-- TEARDOWN_COMPLETE after every phase: the partition is FREE and holds nothing, its counters stay frozen, and the
command's completion has gone out (R118, R504). -/
def teardownCompleteRow : Prop :=
  ∀ (p : Pid) (s : State), (partOf s p).st = .tearingDown → (partOf s p).td = 6 →
    Ends (.teardownComplete p) s (fun t =>
      (partOf t p).st = .free ∧ (partOf t p).g = {} ∧ (partOf t p).ld = {} ∧ (partOf t p).streams = []
      ∧ (partOf t p).targets = [] ∧ (partOf t p).cnt = (partOf s p).cnt
      ∧ (∀ i, (partOf s p).tdReq = some i → findReq t i = none))

/-- PARTITION_STATUS and PIPELINE_STEP_DIGEST answer with their records and change nothing else (R505, R509). -/
def partitionReads : Prop :=
  ∀ (i : ReqId) (s : State) (r : Req), r.part < 64 →
    (Turn s i 0x0205 r → zeroAt r.payload 1 3 = true →
      (field r.payload 0 1 = 0 → Reads (.partitionStatus i) s r (ansOk (summary s r.pid)))
      ∧ (field r.payload 0 1 = 1 → Reads (.partitionStatus i) s r (ansOk (bufferSection s r.pid)))
      ∧ (field r.payload 0 1 = 2 → Reads (.partitionStatus i) s r (ansOk (faultSection (partOf s r.pid).cnt.faults)))
      ∧ (field r.payload 0 1 = 3 → Reads (.partitionStatus i) s r (ansOk (grantSection s r.pid))))
    ∧ (Turn s i 0x0304 r → ∀ (x : Region) (k : Nat), regionOf (bodyOf (partOf s r.pid)) .stepRecords = some x →
      k = (partOf s r.pid).sc.recRing.findIdx (fun e => packCursor e.1 == field r.payload 0 8) →
      k < (partOf s r.pid).sc.recRing.length → 0 < x.entries →
      Reads (.pipelineStepDigest i) s r (ansOk (winRead s r.pid
        (x.addr + 128 * (((partOf s r.pid).sc.recTotal - (partOf s r.pid).sc.recRing.length + k) % x.entries)) 128)))
    ∧ (Turn s i 0x0304 r →
      (partOf s r.pid).sc.recRing.any (fun e => packCursor e.1 == field r.payload 0 8) = false →
      Reads (.pipelineStepDigest i) s r ansBad)

/-- The packed form of a cursor and back (R11). -/
def cursorPack : Prop :=
  ∀ c : Cursor, c.epoch < 2 ^ 16 → c.step < 2 ^ 32 → c.off < 2 ^ 16 →
    unpackCursor (packCursor c) = c ∧ packCursor c = c.epoch * 2 ^ 48 + c.step * 2 ^ 16 + c.off

/-! ## Windows -/

/-- REGION_LOAD of a range of the window: its data are read from host memory at the address the request names, under a
new tag; the request stays open (R101, R198, R506). -/
def regionLoadRow : Prop :=
  ∀ (i : ReqId) (s : State) (r : Req), Turn s i 0x0206 r → regionFields s r = true →
    Ends (.regionLoad i) s (fun t =>
      t.host.dma = s.host.dma ++ [⟨s.host.nextTag, r.fn, .bulkIn i, field r.payload 8 8, [], field r.payload 16 8,
        false, false⟩]
      ∧ t.host.reqs = modFirst (reqMatches i) (fun q => { q with phase := .moving }) s.host.reqs
      ∧ t.out = .hostRead r.fn s.host.nextTag (field r.payload 8 8) (field r.payload 16 8) :: s.out
      ∧ t.host.fns = s.host.fns ∧ Behind s t)

/-- REGION_READ of granules that are zero, the partition's only transfer: the window's bytes go to host memory (R198,
R506). -/
def regionReadRow : Prop :=
  ∀ (i : ReqId) (s : State) (r : Req), Turn s i 0x0207 r → r.part < 64 → regionFields s r = true →
    findReq s i = some r → s.host.reqs.filter (fun q => q.part == r.part) = [r] →
    rangeZero (partOf s r.pid).g.win (field r.payload 0 8) (field r.payload 16 8) = true →
    Ends (.regionRead i) s (fun t =>
      t.host.dma = s.host.dma ++ [⟨s.host.nextTag, r.fn, .bulkOut i, field r.payload 8 8,
        winRead s r.pid (field r.payload 0 8) (field r.payload 16 8), field r.payload 16 8, false, false⟩]
      ∧ t.out = .hostWrite r.fn (field r.payload 8 8)
          (winRead s r.pid (field r.payload 0 8) (field r.payload 16 8)) :: s.out
      ∧ t.units = s.units ∧ t.parts = s.parts)

/-- A range that leaves the granted granules is BAD_FIELD for both (R506). -/
def regionOutside : Prop :=
  ∀ (i : ReqId) (s : State) (r : Req), regionFields s r = false →
    (Turn s i 0x0206 r → exec (.regionLoad i) s = .next (finish r ansBad (violation r.fn 8 0x0206 s)))
    ∧ (Turn s i 0x0207 r → exec (.regionRead i) s = .next (finish r ansBad (violation r.fn 8 0x0207 s)))

/-- Translation keeps to the window: an address of a granted granule has a place in one of its two half-rows, and an
address beyond the granted granules has none (R181, R182, R185). -/
def translateInside : Prop :=
  ∀ (w : Window) (wa d : Nat), translate w wa = some d →
    (∀ g ∈ w.all ++ w.west ++ w.east, g.a.row < 1024 ∧ g.b.row < 1024) →
    dpaHalfRow d ∈ winHalfRows w

/-- Within a granule translation is one to one (R182). -/
def translateInjective : Prop :=
  ∀ (g : Granule) (q k : Nat), q < 2 ^ 30 → k < 2 ^ 30 → g.a.row < 1024 → g.b.row < 1024 → g.a ≠ g.b →
    granuleDpa g q = granuleDpa g k → q = k

/-- GRANULE_ZEROED: both half-rows of the granule read 0 throughout, and the window does not wait for them any more
(R114, R116). -/
def granuleZeroedRow : Prop :=
  ∀ (p : Pid) (mode g : Nat) (s : State) (x : Granule), (winMode (partOf s p).g.win mode)[g]? = some x →
    domOn s 2 = true → x.a ∈ (partOf s p).g.win.unzero → x.b ∈ (partOf s p).g.win.unzero →
    (∀ q ∈ s.host.reqs, q.part ≠ p.val) →
    Ends (.granuleZeroed p mode g) s (fun t =>
      x.a ∉ (partOf t p).g.win.unzero ∧ x.b ∉ (partOf t p).g.win.unzero
      ∧ (memWf s.units.mem.cells = true → ∀ d, dpaHalfRow d = x.a ∨ dpaHalfRow d = x.b → memRead t.units.mem.cells d = 0)
      ∧ (memWf s.units.mem.cells = true → ∀ d, dpaHalfRow d ≠ x.a → dpaHalfRow d ≠ x.b →
          memRead t.units.mem.cells d = memRead s.units.mem.cells d)
      ∧ t.host = s.host ∧ t.ao = s.ao ∧ (∀ q, q ≠ p → partOf t q = partOf s q))

/-- WINDOW_ZEROED of a granted window: nothing of it waits, and the grant's completion has gone out; of a standby window:
nothing of it waits (R115, R448). -/
def windowZeroedRow : Prop :=
  ∀ (p : Pid) (s : State), domOn s 2 = true →
    Ends (.windowZeroed p false) s (fun t =>
      (partOf t p).g.win.unzero = [] ∧ (∀ q, q ≠ p → (partOf t q).g = (partOf s q).g)
      ∧ (∀ r ∈ t.host.reqs, r.part = p.val → r.opcode = 0x0201 → r.phase ≠ .pending))
    ∧ (∀ x, s.units.pair.plans.find? (fun x => x.part == p.val) = some x →
      Ends (.windowZeroed p true) s (fun t =>
        ∀ y, t.units.pair.plans.find? (fun x => x.part == p.val) = some y → y.win.unzero = [] ∧ y.win.all = x.win.all))

/-- BACKGROUND_ZEROING_DONE of a dirty half-row that no window holds: it is clean, reads 0, and no other half-row
changes (R114, R186). -/
def backgroundZeroRow : Prop :=
  ∀ (west : Bool) (row : Nat) (s : State), domOn s 2 = true → row < 1024 →
    halfRowFree s (heldHalfRows s) ⟨west, row⟩ = true → s.units.mem.clean.contains ⟨west, row⟩ = false →
    Ends (.backgroundZeroingDone west row) s (fun t =>
      t.units.mem.clean = s.units.mem.clean ++ [⟨west, row⟩]
      ∧ (memWf s.units.mem.cells = true → ∀ d, memRead t.units.mem.cells d =
          if dpaHalfRow d = ⟨west, row⟩ then 0 else memRead s.units.mem.cells d)
      ∧ t.parts = s.parts ∧ t.host = s.host ∧ t.ao = s.ao)

/-! ## Loading an image -/

/-- PIPELINE_LOAD of a length within its range: the image is read from host memory (R231, R507). -/
def loadFetch : Prop :=
  ∀ (i : ReqId) (s : State) (r : Req), Turn s i 0x0301 r → loadFields s r = true → transferOpen s r.pid = false →
    within 4096 1073741824 (field r.payload 8 8) = true → r.bulk = [] →
    Ends (.pipelineLoad i) s (fun t =>
      t.host.dma = s.host.dma ++ [⟨s.host.nextTag, r.fn, .bulkIn i, field r.payload 0 8, [], field r.payload 8 8, false,
        false⟩]
      ∧ t.host.reqs = modFirst (reqMatches i) (fun q => { q with phase := .moving }) s.host.reqs ∧ Behind s t)

/-- PIPELINE_LOAD of an image that passes R231's tests: it is loaded at the cursor the request names, with no seed, and
its hash is in the answer; the partition's state and grants stay (R231, R300, R507). -/
def loadRow : Prop :=
  ∀ (i : ReqId) (s : State) (r : Req) (m : Image) (x : Region), Turn s i 0x0301 r → r.part < 64 →
    loadFields s r = true → transferOpen s r.pid = false → within 4096 1073741824 (field r.payload 8 8) = true →
    r.bulk ≠ [] → readImage r.bulk (field r.payload 8 8) = some m → versionShort s m.hdr = false →
    (m.hdr.uniform = true → ∀ c, c < 5 → c ≠ m.hdr.uniformClass → nth (partOf s r.pid).g.min c = 0) →
    regionOf m.body .imageCopy = some x → regionExcess (partOf s r.pid).g.win x = 0 →
    rangeZero (partOf s r.pid).g.win m.hdr.copyAddress (field r.payload 8 8) = true →
    ∃ a, a.status = 0 ∧ a.payload.drop 8 = m.hdr.hash ∧ Answers (.pipelineLoad i) s r a (fun t =>
      (partOf t r.pid).ld.image = some m ∧ (partOf t r.pid).ld.seed = none
      ∧ (partOf t r.pid).ld.cursor = unpackCursor (field r.payload 16 8)
      ∧ (partOf t r.pid).ld.recreate = (field r.payload 24 1 == 1)
      ∧ (partOf t r.pid).st = (partOf s r.pid).st ∧ (partOf t r.pid).g = (partOf s r.pid).g
      ∧ (partOf t r.pid).sc.steps = [] ∧ (∀ p, p ≠ r.pid → partOf t p = partOf s p) ∧ t.host = s.host)

/-- PIPELINE_LOAD of bytes that are no image is REFUSED with 0x0202 and changes nothing (R231). -/
def loadRefused : Prop :=
  ∀ (i : ReqId) (s : State) (r : Req), Turn s i 0x0301 r → loadFields s r = true → transferOpen s r.pid = false →
    within 4096 1073741824 (field r.payload 8 8) = true → r.bulk ≠ [] → readImage r.bulk (field r.payload 8 8) = none →
    Reads (.pipelineLoad i) s r (ansRefused 0x0202)

end Sys2Proof.Claims
namespace Sys2Proof.Claims
open Sys2Proof.Machine

/-! ## Tiles -/

/-- TILE_RESET_DONE: the tile's reset is over, and its regions are those that the image copy gives it; its fence, the
other tiles and near memory are as before (R142, R145). -/
def tileResetDoneRow : Prop :=
  ∀ (n : Nat) (s : State), (tileOf s n).resetting = true →
    Ends (.tileResetDone n) s (fun t =>
      (tileOf t n).resetting = false ∧ (tileOf t n).fenced = (tileOf s n).fenced
      ∧ (∀ k, k ≠ n → tileOf t k = tileOf s k) ∧ t.units.mem = s.units.mem ∧ t.units.pool = s.units.pool
      ∧ (∀ p c, tileOwner s n = some p → codeOf (partOf s p) (relOf (partOf s p) (n / 64)) = some c →
          c.regions.filter (fun r => r.tile == n % 64) ≠ [] →
          (tileOf t n).regions = c.regions.filter (fun r => r.tile == n % 64)))

/-- TILE_SRAM_UNCORRECTABLE of a powered tile that is not fenced: a good re-read is transient and only logged; otherwise
the tile is reset with everything in it cleared; an error during that retry fences the tile and makes its cluster
unavailable (R145, R146). -/
def tileSramRow : Prop :=
  ∀ (n off : Nat) (s : State), domOn s (clusterDom (n / 64)) = true → (tileOf s n).fenced = false →
    ((tileOf s n).retry = none → Ends (.tileSramUncorrectable n off true) s (fun t => s.LoggedTo t))
    ∧ ((tileOf s n).retry = none → Ends (.tileSramUncorrectable n off false) s (fun t =>
      (tileOf t n) = { id := n, resetting := true, retry := some off }
      ∧ (∀ k, k ≠ n → tileOf t k = tileOf s k) ∧ t.units.mem = s.units.mem ∧ t.log = s.log ∧ t.host = s.host))
    ∧ ((tileOf s n).retry.isSome = true → tileOwner s n = none → Ends (.tileSramUncorrectable n off false) s (fun t =>
      (tileOf t n).fenced = true ∧ (n / 64) ∈ t.units.unavailable ∧ (∀ k, k ≠ n → tileOf t k = tileOf s k)
      ∧ ∀ p, (partOf t p).st = (partOf s p).st))

/-- TILE_PATROL_SCRUB: a corrected error is counted for its tile, whose contents stay; an uncorrectable one in a line
that no region covers and that a second read does not mend leaves the line at 0, and no tile is fenced (R143 to
R145). -/
def tileScrubRow : Prop :=
  ∀ (n line : Nat) (s : State), domOn s (clusterDom (n / 64)) = true → (tileOf s n).fenced = false →
    Ends (.tilePatrolScrub n line true none) s (fun t =>
      tileOf t n = { tileOf s n with corrected := (tileOf s n).corrected + 1, correctedSec := (tileOf s n).correctedSec + 1 }
      ∧ (∀ k, k ≠ n → tileOf t k = tileOf s k) ∧ t.log = s.log ∧ t.host = s.host)
    ∧ (lineCovered (tileOf s n) line = false → Ends (.tilePatrolScrub n line false (some false)) s (fun t =>
      (tileOf t n).fenced = false ∧ (tileOf t n).regions = (tileOf s n).regions
      ∧ (memWf (tileOf s n).sram = true → ∀ a, memRead (tileOf t n).sram a =
          if a / 64 = line then 0 else memRead (tileOf s n).sram a)))

/-- CORRECTED_ERRORS_SECOND: what it logs aside, the counts of the second that ended are zero (R144, R189). -/
def correctedSecondRow : Prop :=
  ∀ s : State, Ends .correctedErrorsSecond s (fun t =>
    (modUnits (fun u => { u with tiles := u.tiles.map (fun x => { x with correctedSec := 0 })
                                 mem := { u.mem with corrSec := Vector.replicate 32 0 } }) s).LoggedTo t)

/-- TILE_IMAGE_FAULT of an ENABLED partition's tile: no retry; the partition is FENCED with its grants kept, and the tile
and its cluster stay available (R147). -/
def tileImageFaultRow : Prop :=
  ∀ (n : Nat) (k : ImgFault) (a : Nat) (p : Pid) (s : State), tileOwner s n = some p → (partOf s p).st = .enabled →
    (partOf s p).sc.teardownAtBoundary = false → (partOf s p).sc.pauseReq = none →
    (∀ r ∈ s.host.reqs, r.part ≠ p.val) →
    Ends (.tileImageFault n k a) s (fun t =>
      (partOf t p).st = .fenced ∧ (partOf t p).cause = 0x000A ∧ (partOf t p).g = (partOf s p).g
      ∧ (partOf t p).sc.steps = [] ∧ (partOf t p).held = (partOf s p).held
      ∧ t.units.tiles = s.units.tiles ∧ t.units.unavailable = s.units.unavailable
      ∧ (∀ q, q ≠ p → (partOf t q).st = (partOf s q).st))

/-! ## The meshes -/

/-- FLIT_CRC_FAIL on a powered side: the flit is replayed once; FLIT_REPLAY_DONE: a good replay is a transient fault
(R177). -/
def flitRows : Prop :=
  ∀ (x y tag : Nat) (s : State),
    (domOn s (if x < 66 then 3 else 4) = true →
      exec (.flitCrcFail x y) s = .next (modMesh (fun m => { m with replays := m.replays ++ [(x, y)] }) s))
    ∧ ((x, y) ∈ s.units.mesh.replays → Ends (.flitReplayDone x y tag true) s (fun t =>
      (modMesh (fun m => { m with replays := m.replays.erase (x, y) }) s).LoggedTo t))
    ∧ ((x, y) ∉ s.units.mesh.replays → ∀ ok, exec (.flitReplayDone x y tag ok) s = .next s)

/-- FLIT_REPLAY_DONE and SYNC_LANE_MISMATCH, the second failure: the tile domain is withdrawn; a first mismatch of a
synchronisation lane only is a transient fault (R177, R178). -/
def meshLastingRows : Prop :=
  ∀ (x y tag : Nat) (s : State), domOn s (if x < 66 then 3 else 4) = true →
    Ends (.syncLaneMismatch x y false) s (fun t => s.LoggedTo t)
    ∧ Ends (.syncLaneMismatch x y true) s (fun t => domOn t (if x < 66 then 3 else 4) = false)
    ∧ ((x, y) ∈ s.units.mesh.replays → Ends (.flitReplayDone x y tag false) s (fun t =>
      domOn t (if x < 66 then 3 else 4) = false))

/-- MESH_PACKET_ARRIVAL: a packet of the tile's partition, or one without a tag, changes nothing; a foreign one is
dropped, which is only logged (R36). -/
def meshPacketRow : Prop :=
  ∀ (n : Nat) (s : State),
    exec (.meshPacketArrival n none) s = .next s
    ∧ (∀ p, tileOwner s n = some p → exec (.meshPacketArrival n (some p)) s = .next s)
    ∧ (∀ p, Ends (.meshPacketArrival n (some p)) s (fun t => s.LoggedTo t))

/-- RESERVED_SLOT_START: slot 0 comes with the first tile domain, and each start after it takes the next of 64 (R166). -/
def slotStartRow : Prop :=
  ∀ s : State, (domOn s 3 = true ∨ domOn s 4 = true) →
    (s.units.mesh.slotRunning = false → Ends .reservedSlotStart s (fun t =>
      t = modMesh (fun m => { m with slot := 0, slotRunning := true }) s))
    ∧ (s.units.mesh.slotRunning = true → Ends .reservedSlotStart s (fun t =>
      t = modMesh (fun m => { m with slot := (s.units.mesh.slot + 1) % 64 }) s))

/-- BARRIER_ARRIVAL of a participant at a context without arrivals: the arrival is held, unless the tile is the only
participant: then the barrier is released at once; nothing else changes (R173, R174). -/
def barrierRow : Prop :=
  ∀ (p : Pid) (cl : Option Nat) (ctx n : Nat) (s : State), inScope (partOf s p) cl n = true →
    (barrierMask (bodyOf (partOf s p)) cl ctx).contains (relOf (partOf s p) (n / 64), n % 64) = true →
    s.units.mesh.barriers = [] →
    Ends (.barrierArrival p cl ctx n false) s (fun t =>
      t.units.mesh.barriers = [barrierRelease (barrierMask (bodyOf (partOf s p)) cl ctx)
        { part := p, cluster := cl, ctx := ctx, arrived := [(relOf (partOf s p) (n / 64), n % 64)] }]
      ∧ t.units.mesh.flags = s.units.mesh.flags ∧ t.parts = s.parts ∧ t.host = s.host ∧ t.log = s.log)

/-- A barrier is released exactly when every masked tile has arrived: then its arrivals are those that had stalled for
the next generation, and its generation toggles (R174). -/
def barrierReleaseRule : Prop :=
  ∀ (mask : List (Nat × Nat)) (x : Barrier), mask ≠ [] →
    ((∀ u ∈ mask, u ∈ x.arrived) → barrierRelease mask x = { x with arrived := x.stalled, stalled := [], gen := !x.gen })
    ∧ ((∃ u ∈ mask, u ∉ x.arrived) → barrierRelease mask x = x)

/-- FLAG_CONTRIBUTION_CHANGE: afterwards the flag reads set when this tile sets it, and reads set without it exactly when
another tile's contribution holds it (R175). -/
def flagRow : Prop :=
  ∀ (p : Pid) (cl : Option Nat) (no n : Nat) (s : State), inScope (partOf s p) cl n = true →
    no < (match cl with
      | some _ => (bodyOf (partOf s p)).clusterFlags
      | none => (bodyOf (partOf s p)).partFlags) →
    Ends (.flagContributionChange p cl no n true) s (fun t => flagValue t p cl no = true ∧ t.parts = s.parts ∧ t.host = s.host)
    ∧ (s.units.mesh.flags = [⟨p, cl, no, [n]⟩] →
      Ends (.flagContributionChange p cl no n false) s (fun t => flagValue t p cl no = false))

end Sys2Proof.Claims
namespace Sys2Proof.Claims
open Sys2Proof.Machine

/-! ## Near memory -/

/-- A plain access by a cluster of a partition. -/
def plainAccess (a : MemAccess) : Prop := a.mx = none ∧ a.mono = false

/-- NEAR_MEMORY_ACCESS inside the window: a read delivers the window's bytes and changes nothing; a write that meets no
region marked RO changes near memory alone, byte for byte at the translated addresses (R182, R185, R194). -/
def nearMemoryRow : Prop :=
  ∀ (a : MemAccess) (s : State), domOn s 2 = true → plainAccess a →
    (a.write = none → inWindow (partOf s a.part).g.win a.addr a.len = true →
      exec (.nearMemoryAccess a) s = .next (emit (.memData a.part a.addr (winRead s a.part a.addr a.len)) s))
    ∧ (∀ bs, a.write = some bs → inWindow (partOf s a.part).g.win a.addr bs.length = true →
      writesRo (partOf s a.part) a.addr bs.length = false →
      Ends (.nearMemoryAccess a) s (fun t => t = modMem (fun m => { m with cells := t.units.mem.cells }) s
        ∧ (memWf s.units.mem.cells = true → ∀ d,
            (∀ k, k < bs.length → translate (partOf s a.part).g.win (a.addr + k) ≠ some d) →
            memRead t.units.mem.cells d = memRead s.units.mem.cells d)))

/-- NEAR_MEMORY_ACCESS of one byte: it reads back as written (R182, R187). -/
def nearMemoryByte : Prop :=
  ∀ (a : MemAccess) (b : Byte) (d : Nat) (s : State), domOn s 2 = true → plainAccess a → a.write = some [b] →
    inWindow (partOf s a.part).g.win a.addr 1 = true → writesRo (partOf s a.part) a.addr 1 = false →
    translate (partOf s a.part).g.win a.addr = some d → memWf s.units.mem.cells = true →
    Ends (.nearMemoryAccess a) s (fun t => memRead t.units.mem.cells d = b
      ∧ ∀ e, e ≠ d → memRead t.units.mem.cells e = memRead s.units.mem.cells e)

/-- NEAR_MEMORY_ACCESS outside the window sends nothing toward memory: a tile's is an image fault, another unit's is an
address fault; either fences an ENABLED partition (R147, R185). -/
def nearMemoryFault : Prop :=
  ∀ (a : MemAccess) (s : State), domOn s 2 = true → plainAccess a → a.write = none →
    inWindow (partOf s a.part).g.win a.addr a.len = false → (partOf s a.part).st = .enabled →
    (partOf s a.part).sc.teardownAtBoundary = false → (partOf s a.part).sc.pauseReq = none →
    (∀ r ∈ s.host.reqs, r.part ≠ a.part.val) →
    Ends (.nearMemoryAccess a) s (fun t =>
      (partOf t a.part).st = .fenced ∧ t.units.mem.cells = s.units.mem.cells
      ∧ (∀ q, q ≠ a.part → (partOf t q).st = (partOf s q).st))

/-- NEAR_MEMORY_UNCORRECTABLE holds the response for one re-read of the 256-byte unit, and no second one beside it
(R190). -/
def memUncorrectableRow : Prop :=
  ∀ (dpa : Nat) (p : Option Pid) (s : State), domOn s 2 = true →
    (s.units.mem.reread.any (fun x => x.1 == unitOf dpa) = false →
      exec (.nearMemoryUncorrectable dpa p) s =
        .next (modMem (fun m => { m with reread := m.reread ++ [(unitOf dpa, p, p.isNone)] }) s))
    ∧ (s.units.mem.reread.any (fun x => x.1 == unitOf dpa) = true → exec (.nearMemoryUncorrectable dpa p) s = .next s)

/-- NEAR_MEMORY_REREAD_DONE: a good re-read is only logged; a second failure in a grantable half-row that no partition
holds retires the half-row, unless that is the 33rd retirement: then PD_MEM goes (R190 to R192). -/
def rereadRow : Prop :=
  ∀ (dpa : Nat) (p : Option Pid) (s : State), s.units.mem.reread = [(unitOf dpa, p, false)] →
    Ends (.nearMemoryRereadDone dpa true) s (fun t => (modMem (fun m => { m with reread := [] }) s).LoggedTo t)
    ∧ (rowReserved s (dpaHalfRow (unitOf dpa)).row = false → halfRowOwner s (dpaHalfRow (unitOf dpa)) = none →
      s.units.mem.retired.contains (dpaHalfRow (unitOf dpa)) = false → s.units.mem.retiredCount < 32 →
      Ends (.nearMemoryRereadDone dpa false) s (fun t =>
        t.units.mem = { s.units.mem with
          reread := [], retired := s.units.mem.retired ++ [dpaHalfRow (unitOf dpa)]
          retiredCount := s.units.mem.retiredCount + 1
          clean := s.units.mem.clean.filter (fun x => decide (x ≠ dpaHalfRow (unitOf dpa))) }
        ∧ ∀ q, (partOf t q).st = (partOf s q).st))

/-- A half-row that is retired is free to no grant (R191). -/
def retiredNotFree : Prop :=
  ∀ (s : State) (h : HR) (l : List HR), h ∈ s.units.mem.retired → halfRowFree s l h = false

/-- MEMORY_PATROL_SCRUB: the channel's scrubber goes on to its next unit; a corrected error is counted for the channel
(R189, R193). -/
def memScrubRow : Prop :=
  ∀ (ch : Nat) (c : Bool) (s : State), domOn s 2 = true → ch < 32 →
    Ends (.memoryPatrolScrub ch c none) s (fun t =>
      vget t.units.mem.scrub ch 0 = (vget s.units.mem.scrub ch 0 + 1) % 2 ^ 27
      ∧ (∀ k, k ≠ ch → vget t.units.mem.scrub k 0 = vget s.units.mem.scrub k 0)
      ∧ vget t.units.mem.corrSec ch 0 = vget s.units.mem.corrSec ch 0 + c.toNat
      ∧ t.units.mem.cells = s.units.mem.cells ∧ t.log = s.log ∧ t.host = s.host)

/-! ## The buffer pool -/

/-- BUFFER_RESERVE while the pool is in service joins the contender set of its cycle (R219); while it is not, the answer
is OFFLINE and the request waits (R208, R221). -/
def reserveRow : Prop :=
  ∀ (q : ReserveReq) (s : State),
    (s.units.pool.inService = true → exec (.bufferReserve q) s =
      .next (modPool (fun x => { x with set := x.set ++ [{ q with admission := false }] }) s))
    ∧ (s.units.pool.inService = false → nth q.counts 0 ≠ 0 → Ends (.bufferReserve q) s (fun t =>
      t.out = .reserved q.part q.by_ 3 :: s.out
      ∧ (∃ w, t.units.pool.waiters = s.units.pool.waiters ++ [w] ∧ w.req = { q with admission := false })
      ∧ (∀ p, (partOf t p).held = (partOf s p).held)))

/-- POOL_SET_DECIDE of a single plain request: with room in every class it names the whole of it is reserved; with none
nothing is, and it waits (R219, R221). -/
def decideRow : Prop :=
  ∀ (q : ReserveReq) (s : State), s.units.pool.inService = true → s.units.pool.cur = [] → s.units.pool.set = [q] →
    q.admission = false →
    (shortOf s q = [] → Ends .poolSetDecide s (fun t =>
      t.units.pool.cur = [] ∧ t.units.pool.set = [] ∧ t.out = .reserved q.part q.by_ 0 :: s.out
      ∧ (∀ c, c < 5 → nth (partOf t q.part).held c = nth (partOf s q.part).held c + nth q.counts c)
      ∧ (∀ p, p ≠ q.part → partOf t p = partOf s p)))
    ∧ (∀ c cause rest, shortOf s q = (c, cause) :: rest → Ends .poolSetDecide s (fun t =>
      t.units.pool.cur = [] ∧ t.units.pool.set = [] ∧ t.out = .reserved q.part q.by_ cause :: s.out
      ∧ t.units.pool.waiters = s.units.pool.waiters ++ [⟨q, (c, cause) :: rest⟩]
      ∧ (∀ p, (partOf t p).held = (partOf s p).held)))

/-- What falls short (R219): a class beyond the ceiling, or one where free buffers, less the minima that others have not
met, do not cover the request. -/
def shortRule : Prop :=
  ∀ (s : State) (p : Pid) (c k : Nat) (u : Owner), c < 5 → 0 < k →
    (shortOf s ⟨p, [0, 0, 0, 0, 0].set c k, u, false⟩ = [] ↔
      nth (partOf s p).held c + k ≤ ceilOf s p c ∧ k + unmetAll s c ≤ freeOf s c + min k (unmetOf s p c))

/-- BUFFER_DRAW against a reservation: the buffer becomes OWNED by the unit with a clear map, drawn rises by one and held
stays; the unit gets the handle (R214). -/
def drawRow : Prop :=
  ∀ (p : Pid) (c : Cls) (u : Owner) (i : Nat) (s : State), s.units.pool.inService = true →
    nth (partOf s p).drawn c.val < nth (partOf s p).held c.val → i < capacity s c.val →
    s.units.pool.descs.any (fun d => d.cls == c.val && d.index == i && d.st != 0) = false →
    (partOf s p).drawn.length = 5 →
    Ends (.bufferDraw p c u i none) s (fun t =>
      descOf t c.val i = { descOf s c.val i with st := 1, part := p.val, owner := u, next := u, written := [], for_ := none }
      ∧ nth (partOf t p).drawn c.val = nth (partOf s p).drawn c.val + 1 ∧ (partOf t p).held = (partOf s p).held
      ∧ t.out = .handle u (handleOf (descOf t c.val i)) :: s.out
      ∧ (∀ q, q ≠ p → partOf t q = partOf s q) ∧ t.units.mem = s.units.mem)

/-- BUFFER_UNRESERVE of no more than is undrawn returns the reservations (R215). -/
def unreserveRow : Prop :=
  ∀ (p : Pid) (c : Cls) (n : Nat) (u : Owner) (s : State), s.units.pool.inService = true →
    (partOf s p).held.length = 5 → n ≤ nth (partOf s p).held c.val - nth (partOf s p).drawn c.val →
    Ends (.bufferUnreserve p c n u) s (fun t =>
      nth (partOf t p).held c.val = nth (partOf s p).held c.val - n ∧ (partOf t p).drawn = (partOf s p).drawn
      ∧ (∀ k, k ≠ c.val → nth (partOf t p).held k = nth (partOf s p).held k)
      ∧ (∀ q, q ≠ p → partOf t q = partOf s q) ∧ t.units.pool.descs = s.units.pool.descs)

/-- BUFFER_HAND_OFF by its owner to a unit that can serve the partition: the buffer is HANDING; HAND_OFF_APPLY then makes
it the new owner's, map and contents as they were (R216). -/
def handOffRows : Prop :=
  ∀ (p : Pid) (u v : Owner) (h : Word64) (d : Desc) (s : State), s.units.pool.inService = true →
    ownedBy s p u h.toNat = some d → unitOk s p v = true →
    Ends (.bufferHandOff p u h v) s (fun t =>
      descOf t d.cls d.index = { d with st := 2, next := v } ∧ t.parts = s.parts ∧ t.units.mem = s.units.mem ∧ t.host = s.host)
    ∧ (∀ (c : Cls) (i : Nat), (descOf s c.val i).st = 2 → Ends (.handOffApply c i) s (fun t =>
      descOf t c.val i = { descOf s c.val i with st := 1, owner := (descOf s c.val i).next }
      ∧ t.parts = s.parts ∧ t.units.mem = s.units.mem ∧ t.host = s.host))
    ∧ (∀ (c : Cls) (i : Nat), (descOf s c.val i).st ≠ 2 → exec (.handOffApply c i) s = .next s)

/-- BUFFER_RELEASE by the owner: the buffer is FREE with its generation advanced, and both counts of the partition fall by
one (R217). -/
def releaseBufferRow : Prop :=
  ∀ (p : Pid) (u : Owner) (h : Word64) (d : Desc) (s : State), s.units.pool.inService = true →
    ownedBy s p u h.toNat = some d → (partOf s p).held.length = 5 → (partOf s p).drawn.length = 5 →
    Ends (.bufferRelease p u h) s (fun t =>
      (descOf t d.cls d.index).st = 0 ∧ (descOf t d.cls d.index).gen = (d.gen + 1) % 2 ^ 15
      ∧ (descOf t d.cls d.index).written = []
      ∧ nth (partOf t p).held d.cls = nth (partOf s p).held d.cls - 1
      ∧ nth (partOf t p).drawn d.cls = nth (partOf s p).drawn d.cls - 1
      ∧ (∀ q, q ≠ p → partOf t q = partOf s q) ∧ t.units.mem = s.units.mem)

/-- A handle of a buffer that was released is stale: its generation no longer matches (R212, R217). -/
def staleHandle : Prop :=
  ∀ (s : State) (h : Nat) (d : Desc), lookup s h = some d → d.gen = hGen h ∧ d.part = hPart h ∧ d.st ≠ 0

/-- BUFFER_ACCESS, a read by the owner: a sector not written since the draw reads as zeros, every other byte as near
memory holds it, and nothing but the count of zero reads changes (R224). -/
def accessReadRow : Prop :=
  ∀ (p : Pid) (u : Owner) (h : Word64) (off len : Nat) (d : Desc) (s : State), s.units.pool.inService = true →
    ownedBy s p u h.toNat = some d → off + len ≤ classSize d.cls →
    Ends (.bufferAccess p u h off len none) s (fun t =>
      t.out = .memData p h.toNat (bufRead s d off len) :: s.out ∧ t.units = s.units ∧ t.host = s.host ∧ t.ao = s.ao
      ∧ (∀ q, q ≠ p → partOf t q = partOf s q) ∧ (partOf t p).held = (partOf s p).held)
    ∧ (∀ k, k < len → d.written.contains (sectorOf (off + k)) = false → (bufRead s d off len)[k]? = some 0)

/-- BUFFER_ACCESS, a write by the owner: the sectors it touches are marked, and the partition's accounts stay (R224). -/
def accessWriteRow : Prop :=
  ∀ (p : Pid) (u : Owner) (h : Word64) (off : Nat) (bs : List Byte) (d : Desc) (s : State),
    s.units.pool.inService = true → ownedBy s p u h.toNat = some d → off + bs.length ≤ classSize d.cls →
    Ends (.bufferAccess p u h off 0 (some bs)) s (fun t =>
      (∀ k ∈ sectorsOf off bs.length, k ∈ (descOf t d.cls d.index).written)
      ∧ (∀ k ∈ d.written, k ∈ (descOf t d.cls d.index).written)
      ∧ (descOf t d.cls d.index).owner = d.owner ∧ (descOf t d.cls d.index).gen = d.gen
      ∧ t.parts = s.parts ∧ t.host = s.host ∧ t.out = s.out)

/-- BUFFER_ACCESS past the end of the buffer, or through a handle that R212 does not let the unit use, is a buffer fault:
counted, and an ENABLED partition is FENCED (R212). -/
def accessFaultRow : Prop :=
  ∀ (p : Pid) (u : Owner) (h : Word64) (off len : Nat) (s : State), s.units.pool.inService = true →
    ownedBy s p u h.toNat = none → (partOf s p).st = .enabled → (partOf s p).sc.teardownAtBoundary = false →
    (partOf s p).sc.pauseReq = none → (∀ r ∈ s.host.reqs, r.part ≠ p.val) →
    Ends (.bufferAccess p u h off len none) s (fun t =>
      (partOf t p).st = .fenced ∧ t.units.mem.cells = s.units.mem.cells
      ∧ ∀ q, q ≠ p → (partOf t q).st = (partOf s q).st)

/-- NO_BUFFER_WAKE_TIMEOUT of a request that waits for headroom: it competes afresh (R221, R222). -/
def wakeTimeoutRow : Prop :=
  ∀ (q : ReserveReq) (c : Nat) (s : State), s.units.pool.inService = true → s.units.pool.waiters = [⟨q, [(c, 1)]⟩] →
    Ends (.noBufferWakeTimeout q) s (fun t =>
      t = modPool (fun x => { x with waiters := [], set := x.set ++ [q] }) s)

/-- FREE_STORE_FETCH_DONE refills a cache of 64 indices or fewer by up to 128; above that nothing is fetched (R223). -/
def fetchRow : Prop :=
  ∀ (c : Cls) (s : State), s.units.pool.inService = true → s.units.pool.cache.length = 5 →
    (nth s.units.pool.cache c.val ≤ 64 → Ends (.freeStoreFetchDone c) s (fun t =>
      nth t.units.pool.cache c.val = nth s.units.pool.cache c.val + min 128 (ringFill s c.val)
      ∧ t.units.pool.descs = s.units.pool.descs ∧ t.parts = s.parts ∧ t.host = s.host))
    ∧ (64 < nth s.units.pool.cache c.val → exec (.freeStoreFetchDone c) s = .next s)

/-- DESCRIPTOR_CACHE_FILL: the unit then holds the descriptor, and never more than 64 (R212). -/
def cacheFillRow : Prop :=
  ∀ (u : Owner) (c : Cls) (i : Nat) (s : State), s.units.pool.inService = true → i < capacity s c.val →
    (s.units.pool.dcache.filter (fun x => decide (x.1 = u))).length ≤ 64 →
    Ends (.descriptorCacheFill u c i) s (fun t =>
      (u, c.val, i) ∈ t.units.pool.dcache ∧ (t.units.pool.dcache.filter (fun x => decide (x.1 = u))).length ≤ 64
      ∧ t.units.pool.descs = s.units.pool.descs ∧ t.parts = s.parts ∧ t.host = s.host)

end Sys2Proof.Claims
namespace Sys2Proof.Claims
open Sys2Proof.Machine

/-! ## Entropy, seeds and Dill -/

/-- RANDOM_SEED_SET with an explicit seed, but in PAUSED only after a load in the pause: the seed is the request's, and
the answer's 16 bytes are 0; image and cursor stay (R300, R511). -/
def seedSetRow : Prop :=
  ∀ (i : ReqId) (s : State) (r : Req), Turn s i 0x0501 r → r.part < 64 → seedFields s r = true →
    ((partOf s r.pid).st ≠ .paused ∨ (partOf s r.pid).ld.loadedInPause = true) → field r.payload 16 1 = 0 →
    Answers (.randomSeedSet i) s r (ansOk (zeros 16)) (fun t =>
      (partOf t r.pid).ld.seed = some (BitVec.ofNat 128 (field r.payload 0 16))
      ∧ (partOf t r.pid).ld.image = (partOf s r.pid).ld.image ∧ (partOf t r.pid).ld.cursor = (partOf s r.pid).ld.cursor
      ∧ (∀ p, p ≠ r.pid → (partOf t p).ld = (partOf s p).ld) ∧ t.ao = s.ao)

/-- RANDOM_SEED_SET in PAUSED before a load in the pause is REFUSED with 0x0113 (R511). -/
def seedSetPaused : Prop :=
  ∀ (i : ReqId) (s : State) (r : Req), Turn s i 0x0501 r → seedFields s r = true → (partOf s r.pid).st = .paused →
    (partOf s r.pid).ld.loadedInPause = false → Reads (.randomSeedSet i) s r (ansRefused 0x0113)

/-- RANDOM_SEED_SET from entropy with a block at hand that nothing else waits for: the seed is the block's first 16
bytes, and the block is used up (R299, R300). -/
def seedDrawRow : Prop :=
  ∀ (i : ReqId) (s : State) (r : Req) (b : BitVec 384) (rest : List (BitVec 384)), Turn s i 0x0501 r → r.part < 64 →
    findReq s i = some r → seedFields s r = true → field r.payload 16 1 = 1 → r.bulk = [] →
    ((partOf s r.pid).st ≠ .paused ∨ (partOf s r.pid).ld.loadedInPause = true) → (∀ q ∈ s.host.reqs, waitsEntropy q = false) →
    s.ao.ent.st ≠ 3 → s.ao.ent.blocks = b :: rest →
    Ends (.randomSeedSet i) s (fun t =>
      (partOf t r.pid).ld.seed = some (BitVec.ofNat 128 (leNat ((blockBytes384 b).take 16)))
      ∧ t.ao.ent.blocks = rest ∧ t.ao.ent.delivered = satAdd 64 s.ao.ent.delivered 1 ∧ findReq t i = none)

/-- RANDOM_ENTROPY_READ of 16 to 4,064 bytes in units of 16: with the source fenced it is FENCED with 0x0114; with no
block at hand and none waiting it waits; any other length is BAD_LENGTH (R298, R299, R512). -/
def entropyReadRow : Prop :=
  ∀ (i : ReqId) (s : State) (r : Req), Turn s i 0x0502 r → zeroAt r.payload 2 2 = true →
    (within 16 4064 (field r.payload 0 2) = true → field r.payload 0 2 % 16 = 0 → s.ao.ent.st = 3 →
      Reads (.randomEntropyRead i) s r (ansFenced 0x0114))
    ∧ (within 16 4064 (field r.payload 0 2) = true → field r.payload 0 2 % 16 = 0 → s.ao.ent.st ≠ 3 →
      s.ao.ent.blocks = [] → exec (.randomEntropyRead i) s = .next (modReq r.id (fun q => { q with phase := .moving }) s))
    ∧ ((within 16 4064 (field r.payload 0 2) = false ∨ field r.payload 0 2 % 16 ≠ 0) →
      exec (.randomEntropyRead i) s = .next (finish r ansBadLength (violation r.fn 5 0x0502 s)))

/-- ENTROPY_BLOCK_READY while a read waits for no more than it brings: the read has its bytes, and its request is gone
(R299). -/
def entropyServeRow : Prop :=
  ∀ (b : BitVec 384) (s : State) (r : Req), s.ao.ent.st = 1 → s.ao.ent.blocks = [] → s.host.reqs = [r] →
    waitsEntropy r = true → r.opcode = 0x0502 → r.ring = false → field r.payload 0 2 ≤ r.bulk.length + 48 →
    Ends (.entropyBlockReady b) s (fun t =>
      t.host.reqs = [] ∧ t.ao.ent.blocks = [] ∧ t.ao.ent.delivered = satAdd 64 s.ao.ent.delivered 1 ∧ t.parts = s.parts)

/-- ENTROPY_BLOCK_READY with nothing waiting: the block is buffered, and with 16 buffered it is dropped (R299). -/
def entropyBlockRow : Prop :=
  ∀ (b : BitVec 384) (s : State), s.ao.ent.st = 1 → (∀ q ∈ s.host.reqs, waitsEntropy q = false) →
    (s.ao.ent.blocks.length < 16 →
      exec (.entropyBlockReady b) s = .next (modEnt (fun e => { e with blocks := e.blocks ++ [b] }) s))
    ∧ (16 ≤ s.ao.ent.blocks.length → exec (.entropyBlockReady b) s = .next s)

/-- ENTROPY_HEALTH_FAIL of a source that works: its buffer is discarded and it restarts; before the restart is complete:
the source is fenced (R298). -/
def healthFailRow : Prop :=
  ∀ (k : Nat) (s : State), k = 1 ∨ k = 2 →
    (s.ao.ent.st = 1 → Ends (.entropyHealthFail k) s (fun t =>
      t.ao.ent.st = 2 ∧ t.ao.ent.blocks = [] ∧ t.ao.ent.repFails = (if k = 1 then satAdd 32 s.ao.ent.repFails 1 else s.ao.ent.repFails)
      ∧ t.ao.ent.propFails = (if k = 1 then s.ao.ent.propFails else satAdd 32 s.ao.ent.propFails 1)
      ∧ t.host = s.host ∧ t.parts = s.parts ∧ t.units = s.units ∧ t.log = s.log))
    ∧ (s.ao.ent.st = 2 → (∀ q ∈ s.host.reqs, waitsEntropy q = false) → Ends (.entropyHealthFail k) s (fun t =>
      t.ao.ent.st = 3 ∧ t.ao.ent.blocks = [] ∧ (∀ p, (partOf t p).st = (partOf s p).st) ∧ t.units = s.units))

/-- ENTROPY_RESTART_DONE: the start-up test decides whether the source works; a restart that passes is a transient fault
of a working source (R297, R298). -/
def entropyRestartRow : Prop :=
  ∀ (b : Bool) (s : State),
    (s.ao.ent.st = 0 → exec (.entropyRestartDone b) s = .next (modEnt (fun e => { e with st := if b then 1 else 2 }) s))
    ∧ (s.ao.ent.st = 2 → Ends (.entropyRestartDone true) s (fun t =>
      (modEnt (fun e => { e with st := 1, transient := satAdd 32 e.transient 1 }) s).LoggedTo t))
    ∧ (s.ao.ent.st = 1 → exec (.entropyRestartDone b) s = .next s)

/-- RANDOM_STATUS answers with the source's state, blocks and counts (R512). -/
def randomStatusRow : Prop :=
  ∀ (i : ReqId) (s : State) (r : Req), Turn s i 0x0503 r →
    Reads (.randomStatus i) s r (ansOk (toLe 1 s.ao.ent.st ++ toLe 1 s.ao.ent.blocks.length ++ zeros 2
      ++ toLe 4 s.ao.ent.repFails ++ toLe 4 s.ao.ent.propFails ++ toLe 4 s.ao.ent.transient ++ toLe 8 s.ao.ent.delivered))

/-- RANDOM_EVALUATE on a cluster of the partition's that is powered: the digest of the outputs of the j it names, and no
state changes (R308, R513). -/
def evaluateRow : Prop :=
  ∀ (i : ReqId) (s : State) (r : Req), Turn s i 0x0504 r → evalFields s r = true → field r.payload 16 1 = 0 →
    bit (field r.payload 18 1) 0 = false → (partOf s r.pid).g.clusters.contains (field r.payload 17 1) = true →
    domOn s (clusterDom (field r.payload 17 1)) = true →
    Reads (.randomEvaluate i) s r (ansOk (sha384 ((List.range (field r.payload 22 2 + 1 - field r.payload 20 2)).flatMap
      (fun k => toLe 16 (dill (BitVec.ofNat 128 (field r.payload 0 16)) (evalIndex (field r.payload 20 2 + k))).toNat))))

/-- LANE_KEY_EXHAUSTED: the lane gets a key of its own, which is a free value; no other lane's or tile's key changes
(R309). -/
def laneKeyRow : Prop :=
  ∀ (n lane : Nat) (s : State), (tileOf s n).laneKey.isSome = true → lane < 16 → s.ao.ent.st ≠ 3 →
    Ends (.laneKeyExhausted n lane) s (fun t =>
      laneKeyOf (tileOf t n) lane = some (BitVec.ofNat 128 (Config.freeNat s.freeCtr))
      ∧ (∀ k, k ≠ lane → laneKeyOf (tileOf t n) k = laneKeyOf (tileOf s n) k)
      ∧ (∀ k, k ≠ n → tileOf t k = tileOf s k) ∧ t.parts = s.parts ∧ t.host = s.host ∧ t.ao = s.ao)

/-! ## Routing -/

/-- ROUTING_PLACE, REVISE_NOW: the revision is counted, the window counters are cleared, and a run is going or the
placement was kept and counted; the placement in force stays (R332, R334). -/
def reviseNowRow : Prop :=
  ∀ (i : ReqId) (s : State) (r : Req), Turn s i 0x0601 r → r.part < 64 → r.payload.length = 4 →
    field r.payload 0 1 = 0 → zeroAt r.payload 1 3 = true → (partOf s r.pid).ex.running = false →
    (partOf s r.pid).g.churn ≠ [] →
    Answers (.routingPlaceReviseNow i) s r (ansOk (toLe 4 (partOf s r.pid).ex.version)) (fun t =>
      (partOf t r.pid).ex.revisions = (partOf s r.pid).ex.revisions + 1 ∧ (partOf t r.pid).ex.window = []
      ∧ (partOf t r.pid).ex.placement = (partOf s r.pid).ex.placement
      ∧ (partOf t r.pid).ex.version = (partOf s r.pid).ex.version
      ∧ ((partOf t r.pid).ex.running = true ∨ (partOf t r.pid).ex.kept = (partOf s r.pid).ex.kept + 1)
      ∧ (partOf t r.pid).g = (partOf s r.pid).g)

/-- REVISE_NOW while a revision runs is BUSY, and without slices REFUSED with 0x0601 (R334). -/
def reviseNowStops : Prop :=
  ∀ (i : ReqId) (s : State) (r : Req), Turn s i 0x0601 r → r.payload.length = 4 → field r.payload 0 1 = 0 →
    zeroAt r.payload 1 3 = true →
    ((partOf s r.pid).ex.running = true → Reads (.routingPlaceReviseNow i) s r (ansBusy 0 1000))
    ∧ ((partOf s r.pid).ex.running = false → (partOf s r.pid).g.churn = [] →
      Reads (.routingPlaceReviseNow i) s r (ansRefused 0x0601))

/-- ROUTING_PLACE, SET, of a placement that R331 allows, with no revision in work: it waits for the next boundary, and
the answer is the version it will have; the placement in force stays (R334, R514). -/
def placeSetRow : Prop :=
  ∀ (i : ReqId) (s : State) (r : Req) (pl : List (Nat × List Nat)), Turn s i 0x0601 r → r.part < 64 →
    r.payload.length = 324 → field r.payload 0 1 = 1 → zeroAt r.payload 1 3 = true → setFieldsOk r.payload = true →
    (∀ x ∈ setEntries r.payload, x.2.1 ≤ 4 ∧ (x.2.1 ≠ 0 → (bodyOf (partOf s r.pid)).experts.any (fun e => e.id == x.1) = true)) →
    pl = ((setEntries r.payload).filter (fun x => (bodyOf (partOf s r.pid)).experts.any (fun e => e.id == x.1))).map
      (fun x => (x.1, x.2.2.take x.2.1)) →
    placementFail (bodyOf (partOf s r.pid)) pl = 0 →
    (∀ x ∈ pl, (bodyOf (partOf s r.pid)).wheyGroup ∉ x.2) → (∀ x ∈ (partOf s r.pid).runs, x.kind ≠ 1) →
    Answers (.routingPlaceSet i) s r (ansOk (toLe 4 ((partOf s r.pid).ex.version + 1))) (fun t =>
      t = modEx r.pid (fun e => { e with running := false, ready := some pl, readyKind := 1 }) s)

/-- ROUTING_COUNTERS_READ answers with the counter record (R330, R514). -/
def countersRow : Prop :=
  ∀ (i : ReqId) (s : State) (r : Req), Turn s i 0x0602 r →
    Reads (.routingCountersRead i) s r (ansOk (counterRecord (partOf s r.pid)))

/-- ROUTE_COUNTS_REPORT of a home cluster whose part of ROUTE is over: it has reported, and with the last report the step
waits for the list builder (R243, R320). -/
def routeCountsRow : Prop :=
  ∀ (p : Pid) (slot rel : Nat) (s : State) (st : OpenStep), stepIn (partOf s p) slot = some st →
    (partOf s p).st = .enabled → (homeRels (partOf s p)).contains rel = true → st.reported.contains rel = false →
    hasKind (partOf s p) 0x0A = true → st.prep = false → st.count ≤ st.samples.length →
    onBoard (partOf s p) slot 0x0A (some rel) = false →
    st.samples.any (fun x => homeOf (partOf s p) x.off == rel && !x.done) = false →
    Ends (.routeCountsReport p slot rel) s (fun t =>
      (∃ x, stepIn (partOf t p) slot = some x ∧ x.reported = insSorted rel st.reported ∧ x.first = st.first
        ∧ x.lists = st.lists)
      ∧ ((homeRels (partOf s p)).length ≤ st.reported.length + 1 → t.ao.ctrl.lists = s.ao.ctrl.lists ++ [(p, slot)])
      ∧ (st.reported.length + 1 < (homeRels (partOf s p)).length → t.ao.ctrl.lists = s.ao.ctrl.lists)
      ∧ (∀ q, q ≠ p → partOf t q = partOf s q) ∧ t.host = s.host)

/-- LIST_BUILD_DONE: the request in front is served: the step has its lists; with none it changes nothing (R243). -/
def listBuildRow : Prop :=
  ∀ (s : State), (s.ao.ctrl.lists = [] → exec .listBuildDone s = .next s)
    ∧ (∀ (p : Pid) (slot : Nat) (rest : List (Pid × Nat)) (st : OpenStep), s.ao.ctrl.lists = (p, slot) :: rest →
      stepIn (partOf s p) slot = some st → Ends .listBuildDone s (fun t =>
        t.ao.ctrl.lists = rest ∧ ∃ x, stepIn (partOf t p) slot = some x ∧ x.lists = true ∧ x.first = st.first))

/-! ## The scheduler -/

/-- ADMISSION_ATTEMPT within a replay step whose next sample reserves nothing: the sample that the permutation names is
admitted, and the next position follows it (R239, R240). -/
def admitRow : Prop :=
  ∀ (p : Pid) (s : State) (st : OpenStep), (partOf s p).st = .enabled → (partOf s p).ld.image.isSome = true →
    (partOf s p).sc.pausing = false → (partOf s p).sc.asking = false → (partOf s p).sc.next.off ≠ 0 →
    (hdrOf (partOf s p)).live = false → entriesFree (partOf s p) false = true →
    inFlight (partOf s p) < (hdrOf (partOf s p)).maxInFlight → sumL (needOf (partOf s p)) = 0 →
    (partOf s p).sc.steps = [st] →
    Ends (.admissionAttempt p) s (fun t =>
      (∃ y x, (partOf t p).sc.steps = [y] ∧ y.samples = st.samples ++ [x] ∧ x.off = (partOf s p).sc.next.off
        ∧ x.id = permAt s p (partOf s p).sc.next.epoch
            ((partOf s p).sc.next.step * (hdrOf (partOf s p)).samplesPerStep + (partOf s p).sc.next.off))
      ∧ (partOf t p).sc.next = (if (partOf s p).sc.next.off + 1 < st.count then
          { (partOf s p).sc.next with off := (partOf s p).sc.next.off + 1 } else stepAfter (partOf s p) st.first)
      ∧ (∀ q, q ≠ p → partOf t q = partOf s q) ∧ t.units = s.units ∧ t.host = s.host)

/-- ADMISSION_ATTEMPT of a sample that reserves buffers joins the contender set of the pool (R219, R240). -/
def admitAskRow : Prop :=
  ∀ (p : Pid) (s : State), (partOf s p).st = .enabled → (partOf s p).ld.image.isSome = true →
    (partOf s p).sc.pausing = false → (partOf s p).sc.asking = false → (partOf s p).sc.next.off ≠ 0 →
    (hdrOf (partOf s p)).live = false → entriesFree (partOf s p) false = true →
    inFlight (partOf s p) < (hdrOf (partOf s p)).maxInFlight → sumL (needOf (partOf s p)) ≠ 0 →
    s.units.pool.inService = true →
    Ends (.admissionAttempt p) s (fun t =>
      (partOf t p).sc.asking = true ∧ (partOf t p).sc.next = (partOf s p).sc.next
      ∧ (partOf t p).sc.steps = (partOf s p).sc.steps ∧ (partOf t p).held = (partOf s p).held
      ∧ t.units.pool.set = s.units.pool.set
          ++ [{ part := p, counts := needOf (partOf s p), by_ := leadOf (partOf s p), admission := true }]
      ∧ (∀ q, q ≠ p → partOf t q = partOf s q))

/-- SCHEDULER_ISSUE: the entry that the rank of R238 picks and that tiles run is ISSUED, and nothing else changes; with
none to issue nothing changes. -/
def issueRow : Prop :=
  ∀ (p : Pid) (rel : Nat) (s : State), (partOf s p).st = .enabled →
    (pickEntry s (partOf s p) rel = none → exec (.schedulerIssue p rel) s = .next s)
    ∧ (∀ e, pickEntry s (partOf s p) rel = some e → elsewhere (stageAt (partOf s p) e.stage).kind = false →
      exec (.schedulerIssue p rel) s = .next (modSched p (fun c => { c with
          entries := modFirst (fun x => x.rel == e.rel && x.no == e.no) (fun x => { x with st := .issued }) c.entries }) s))

/-- STAGE_COMPLETE of an entry that tiles run: it leaves the board (R234, R238). -/
def stageCompleteRow : Prop :=
  ∀ (p : Pid) (rel no : Nat) (res : StageResult) (s : State) (e : Entry),
    (partOf s p).sc.entries.find? (fun x => x.rel == rel && x.no == no) = some e → (partOf s p).st = .enabled →
    e.st = .issued → elsewhere (stageAt (partOf s p) e.stage).kind = false → res ≠ .skip →
    Ends (.stageComplete p rel no res) s (fun t =>
      (∀ x ∈ (partOf t p).sc.entries, ¬ (x.slot = e.slot ∧ x.rel = rel ∧ x.no = no))
      ∧ (partOf t p).st = .enabled)

/-- STEP_BOUNDARY of the older step, complete and with nothing to mirror: the cursor is at the step after it, and the
step is counted (R245, R508, Table SCH-7). -/
def boundaryRow : Prop :=
  ∀ (p : Pid) (s : State) (st : OpenStep) (rest : List OpenStep), (partOf s p).st = .enabled →
    (partOf s p).sc.steps = st :: rest → st.mirroring = false → st.prep = false →
    stepReady (partOf s p) st = true → (partOf s p).g.mirrored = false → (partOf s p).sc.fenceAtBoundary = 0 →
    Ends (.stepBoundary p) s (fun t =>
      (partOf t p).ld.cursor = stepAfter (partOf s p) st.first
      ∧ (partOf t p).cnt.steps = satAdd 64 (partOf s p).cnt.steps 1 ∧ (partOf t p).g = (partOf s p).g
      ∧ (partOf t p).ld.image = (partOf s p).ld.image ∧ (partOf t p).ld.seed = (partOf s p).ld.seed)

/-- STEP_WATCHDOG_EXPIRY of a step that does not wait for a trainer or a drive: the partition is FENCED at its last
boundary with cause 0x0007 (R247). -/
def watchdogRow : Prop :=
  ∀ (p : Pid) (s : State) (st : OpenStep) (rest : List OpenStep), (partOf s p).st = .enabled →
    (partOf s p).sc.steps = st :: rest → watchdogStopped s p (partOf s p) st = false →
    (partOf s p).sc.teardownAtBoundary = false → (partOf s p).sc.pauseReq = none → (∀ r ∈ s.host.reqs, r.part ≠ p.val) →
    Ends (.stepWatchdogExpiry p) s (fun t =>
      (partOf t p).st = .fenced ∧ (partOf t p).cause = 0x0007 ∧ (partOf t p).ld.cursor = (partOf s p).ld.cursor
      ∧ (partOf t p).sc.next = (partOf s p).ld.cursor ∧ (partOf t p).sc.steps = []
      ∧ ∀ q, q ≠ p → (partOf t q).st = (partOf s q).st)

/-! ## Still engines and warp units -/

/-- STILL_JOB_COMPLETE with an error, and STILL_JOB_TIMEOUT, on the first run: the engine runs the job once more
(R254, R255). -/
def stillRerunRows : Prop :=
  ∀ (jpeg : Bool) (n : Nat) (s : State) (j : StillJob), n < engineCount jpeg → (engineOf s jpeg n).job = some j → j.prev = none →
    (∀ code off, code ≠ 0 → Ends (.stillJobComplete jpeg n (.error code off)) s (fun t =>
      (engineOf t jpeg n).job = some { j with attempt := 1, prev := some (code, off) }
      ∧ t.parts = s.parts ∧ t.host = s.host ∧ t.log = s.log))
    ∧ Ends (.stillJobTimeout jpeg n) s (fun t =>
      (engineOf t jpeg n).job = some { j with attempt := 1, prev := some (65536, 0) }
      ∧ t.parts = s.parts ∧ t.host = s.host ∧ t.log = s.log)

/-- STILL_JOB_COMPLETE with planes and no other job waiting: the engine is free, and the sample has the planes (R254). -/
def stillDoneRow : Prop :=
  ∀ (jpeg : Bool) (n : Nat) (res : StillResult) (ps : List Plane) (s : State) (j : StillJob) (x : Sample), n < engineCount jpeg →
    (engineOf s jpeg n).job = some j → s.units.stillQ = [] → stillOut res = .ok ps →
    sampleAt s j.part j.slot j.off = some x →
    Ends (.stillJobComplete jpeg n res) s (fun t =>
      (engineOf t jpeg n).job = none ∧ (engineOf t jpeg n).fenced = (engineOf s jpeg n).fenced
      ∧ ∃ y, sampleAt t j.part j.slot j.off = some y ∧ y.planes = ps ∧ y.id = x.id)

/-- WARP_JOB_COMPLETE of a task within R257: the unit's queue moves on, and the sample has the planes of R258 to R261. -/
def warpDoneRow : Prop :=
  ∀ (c : Nat) (s : State) (w : WarpTask) (x : Sample), warpHead s c = some w → warpTaskOk s w = true →
    sampleAt s w.part w.slot w.off = some x →
    Ends (.warpJobComplete c) s (fun t =>
      t.units.warpQ = s.units.warpQ.eraseP (fun y => y.1 == c)
      ∧ ∃ y, sampleAt t w.part w.slot w.off = some y
        ∧ y.planes = (warpJobs s w).map (fun k => warp k (x.planes.getD k.plane ⟨0, 0, 0, []⟩)))

/-- WARP_PARITY_ERROR: the task runs again once; a second failure makes the cluster unavailable (R262). -/
def warpParityRow : Prop :=
  ∀ (c : Nat) (s : State) (w : WarpTask), warpHead s c = some w →
    (w.retried = false → Ends (.warpParityError c) s (fun t =>
      warpHead t c = some { w with retried := true } ∧ t.parts = s.parts ∧ t.host = s.host ∧ t.log = s.log))
    ∧ (w.retried = true → Ends (.warpParityError c) s (fun t => c ∈ t.units.unavailable))

/-! ## Segments -/

/-- SEGMENT_READY of a segment that may start, with a core free and no other segment waiting: the core has it (R276). -/
def segmentReadyRow : Prop :=
  ∀ (p : Pid) (n seg c : Nat) (s : State) (x : Stream) (d : StreamDecl) (w : Win), streamOf (partOf s p) n = some x →
    declOf (partOf s p) n = some d → codingWin x = some w → domOn s 6 = true → (x.codec.st = 1 ∨ x.codec.st = 4) →
    d.encode = true → segReady s p x d w seg = true → s.units.segQ = [] → c < 24 →
    freeCore s { part := p, stream := n, win := w.seq, seg := seg } = some c →
    Ends (.segmentReady p n seg) s (fun t =>
      (coreOf t c).job = some { part := p, stream := n, win := w.seq, seg := seg } ∧ t.units.segQ = []
      ∧ (∀ k, k ≠ c → coreOf t k = coreOf s k) ∧ t.parts = s.parts ∧ t.host = s.host)

/-- SEGMENT_COMPLETE of a picture decoded on its first run, with no other segment waiting: the core is free, and the
stream's picture, slice and bit counts rise (R272, R276). -/
def segmentDoneRow : Prop :=
  ∀ (c tag : Nat) (ps : List Plane) (sl bits : Nat) (s : State) (j : SegJob) (k : Nat × Nat) (x : Stream), c < 24 →
    (coreOf s c).job = some j → segTag j = tag → j.prev = none → j.sample = some k → s.units.segQ = [] →
    streamOf (partOf s j.part) j.stream = some x →
    Ends (.segmentComplete c tag (.decoded ps sl bits)) s (fun t =>
      (coreOf t c).job = none ∧ ∃ y, streamOf (partOf t j.part) j.stream = some y
        ∧ y.codec.pictures = satAdd 64 x.codec.pictures 1 ∧ y.codec.slices = satAdd 64 x.codec.slices sl
        ∧ y.codec.bits = satAdd 64 x.codec.bits bits)

/-- SEGMENT_COMPLETE with a tag that is dead, while the core has no job: the tag is retired, and no job or stream
changes (R474). -/
def segmentLateRow : Prop :=
  ∀ (c tag : Nat) (res : SegResult) (s : State), c < 24 → (coreOf s c).job = none → tag ∈ (coreOf s c).dead →
    Ends (.segmentComplete c tag res) s (fun t =>
      (coreOf t c).dead = (coreOf s c).dead.erase tag ∧ (coreOf t c).job = none
      ∧ (∀ p, (partOf t p).streams = (partOf s p).streams ∧ (partOf t p).sc = (partOf s p).sc))

/-- SEGMENT_TIMEOUT on the first run: the tag is dead, and the segment waits or runs again (R292). -/
def segmentTimeoutRow : Prop :=
  ∀ (c : Nat) (s : State) (j : SegJob), c < 24 → (coreOf s c).job = some j → j.prev = none →
    (∀ p, ∀ k ∈ (partOf s p).g.cores, k < 24) →
    Ends (.segmentTimeout c) s (fun t =>
      (coreOf t c).dead = (coreOf s c).dead ++ [segTag j]
      ∧ (let again : SegJob := { j with attempt := 1, prev := some (65536, 0), prevCore := some c }
         again ∈ t.units.segQ ∨ ∃ k, k < 24 ∧ (coreOf t k).job = some again)
      ∧ t.parts = s.parts ∧ t.host = s.host)

/-! ## Churn -/

/-- CHURN_RUN of a problem that R337 to R340 allow: OK with PENDING, and the run is among the partition's (R364, R515). -/
def churnRunRow : Prop :=
  ∀ (i : ReqId) (s : State) (r : Req) (pr : Prob) (sched : List SchedStage) (tr : Bool), Turn s i 0x0701 r → r.part < 64 →
    CanPend s r → churnRunFields s r = true → (partOf s r.pid).g.churn ≠ [] → domOn s 7 = true →
    s.units.churn.fenced = false → windowReady (partOf s r.pid) (field r.payload 0 8) 160 = true →
    windowReady (partOf s r.pid) (field r.payload 8 8) 4160 = true →
    headerTooLarge (winRead s r.pid (field r.payload 0 8) 160) = false →
    inWindow (partOf s r.pid).g.win (field r.payload 0 8) (probLength (winRead s r.pid (field r.payload 0 8) 160)) = true →
    readProblem (winRead s r.pid (field r.payload 0 8) (probLength (winRead s r.pid (field r.payload 0 8) 160)))
      = .ok pr sched tr →
    Answers (.churnRun i) s r ansPend (fun t =>
      (∃ x ∈ (partOf t r.pid).runs, x.kind = 2 ∧ x.prob = pr ∧ x.sched = sched ∧ x.req = some r.id
        ∧ x.tag = field r.payload 48 8 ∧ x.resultAddr = field r.payload 8 8 ∧ x.started = false)
      ∧ t.units.mem = s.units.mem ∧ t.host = s.host ∧ (∀ p, (partOf t p).g = (partOf s p).g))

/-- CHURN_RUN without slices, or with Churn off, is REFUSED with 0x0601; with Churn fenced it is FENCED with 0x0114
(R364, R365). -/
def churnRunStops : Prop :=
  ∀ (i : ReqId) (s : State) (r : Req), Turn s i 0x0701 r → churnRunFields s r = true →
    (((partOf s r.pid).g.churn = [] ∨ domOn s 7 = false) → Reads (.churnRun i) s r (ansRefused 0x0601))
    ∧ ((partOf s r.pid).g.churn ≠ [] → domOn s 7 = true → s.units.churn.fenced = true →
      Reads (.churnRun i) s r (ansFenced 0x0114))

/-- CHURN_SLICE_START: the next of 100 slices begins, and at slice 0 the owners are those of the grants (R349, R350,
R366). -/
def sliceRow : Prop :=
  ∀ s : State, domOn s 7 = true →
    Ends .churnSliceStart s (fun t =>
      t.units.churn.slice = (s.units.churn.slice + 1) % 100
      ∧ t.units.churn.owners = (if (s.units.churn.slice + 1) % 100 = 0 then churnOwners s else s.units.churn.owners)
      ∧ (∀ p, (partOf t p).g = (partOf s p).g ∧ (partOf t p).runs.length = (partOf s p).runs.length)
      ∧ t.host = s.host ∧ t.ao = s.ao)

/-- CHURN_SAVE_LOAD_DONE: the incoming run goes on; the first failure is retried (R351). -/
def saveLoadRow : Prop :=
  ∀ (s : State) (p : Pid) (r : Run), s.units.churn.holder = some p → s.units.churn.moving = true → churnUp s = true →
    topRun (partOf s p) = some r → s.units.churn.moveRetried = false →
    exec (.churnSaveLoadDone true) s = .next (modRun p r (fun r => { r with started := true, saved := false })
      (modChurn (fun c => { c with moving := false, moveRetried := false }) s))
    ∧ exec (.churnSaveLoadDone false) s = .next (modChurn (fun c => { c with moveRetried := true }) s)

/-- CHURN_RUN_END of a host's run: its result is in the window, and the run is over (R347, R364). -/
def runEndRow : Prop :=
  ∀ (s : State) (p : Pid) (r : Run), s.units.churn.holder = some p → s.units.churn.moving = false → churnUp s = true →
    topRun (partOf s p) = some r → r.started = true → r.saved = false → r.kind = 2 → r.slot = 0 →
    Ends .churnRunEnd s (fun t =>
      (∀ x ∈ (partOf t p).runs, sameRun r x = false)
      ∧ t.units.mem = (winWrite p r.resultAddr (resultBytes r.tag 0 r.prob.k (runAt r (schedSweeps r.sched))) s).units.mem
      ∧ (∀ i, r.req = some i → findReq t i = none))

/-- PACKING_BUDGET_EXPIRY: the packing run of the older step is over (R357). -/
def packBudgetRow : Prop :=
  ∀ (p : Pid) (k : Nat) (s : State) (r : Run),
    (partOf s p).sc.steps.findSome? (fun st => (partOf s p).runs.find? (fun r =>
      r.kind == 0 && r.slot == st.slot && r.exact.isNone)) = some r →
    Ends (.packingBudgetExpiry p k) s (fun t =>
      (∀ x ∈ (partOf t p).runs, sameRun r x = false) ∧ (partOf t p).st = (partOf s p).st
      ∧ (partOf t p).ex = (partOf s p).ex)

/-- PLACEMENT_BUDGET_EXPIRY: the revision keeps the placement, which is counted (R332, R363). -/
def placeBudgetRow : Prop :=
  ∀ (p : Pid) (s : State) (r : Run), (partOf s p).runs.find? (fun r => r.kind == 1) = some r →
    Ends (.placementBudgetExpiry p) s (fun t =>
      (∀ x ∈ (partOf t p).runs, sameRun r x = false) ∧ (partOf t p).ex.running = false
      ∧ (partOf t p).ex.kept = (partOf s p).ex.kept + 1 ∧ (partOf t p).ex.placement = (partOf s p).ex.placement
      ∧ (partOf t p).st = (partOf s p).st)

/-- CHURN_SRAM_UNCORRECTABLE during a run's first attempt: the run starts again from its beginning once its problem is
loaded (R365). -/
def churnSramRow : Prop :=
  ∀ (s : State) (p : Pid) (r : Run), s.units.churn.holder = some p → churnUp s = true → topRun (partOf s p) = some r →
    r.started = true → r.saved = false → r.retried = false →
    exec .churnSramUncorrectable s = .next (modChurn (fun c => { c with moving := true, moveRetried := false })
      (modRun p r (fun r => { r with retried := true, started := false, stage := 0, chain := none }) s))

end Sys2Proof.Claims
namespace Sys2Proof.Claims
open Sys2Proof.Machine

/-! ## Camera packets -/

/-- A packet of a block that its stream knows and still takes: the port is up in the ingest role, the stream is bound and
open, the block is open, and the packet is neither here nor lost (R371, R373, R383). -/
structure Takes (s : State) (p : Pid) (n : Nat) (d : StreamDecl) (x : Stream) (b : Block) (bid packet : Nat) : Prop where
  decl : declOf (partOf s p) n = some d
  stream : streamOf (partOf s p) n = some x
  reach : streamReachable s p n d x = true
  port : d.port < 8
  known : x.blocks.findRev? (fun y => y.blockId == bid) = some b
  first : blockAt s p n b.uid = some b
  newest : x.nextBlk ≤ b.uid + 1
  id : d.extId = true ∨ (1 ≤ bid ∧ bid ≤ 65535)
  open_ : b.st = 0
  fresh : b.got.contains packet = false
  kept : b.lost.contains packet = false

/-- What a packet that is taken leaves: port and stream have counted it, no violation has, and its block holds it. -/
def Taken (s t : State) (p : Pid) (n : Nat) (d : StreamDecl) (x : Stream) (b : Block) (packet : Nat) (P : Block → Prop) :
    Prop :=
  (portOf t d.port).frames = satAdd 64 (portOf s d.port).frames 1
  ∧ (portOf t d.port).violations = (portOf s d.port).violations
  ∧ ∃ y, streamOf (partOf t p) n = some y ∧ y.cnt.packets = satAdd 64 x.cnt.packets 1
    ∧ y.cnt.violations = x.cnt.violations ∧ y.cnt.blocks = x.cnt.blocks
    ∧ ∃ z ∈ y.blocks, z.uid = b.uid ∧ z.got = b.got ++ [packet] ∧ P z

/-- GVSP_LEADER of the stream's format: it is taken, and the block has the camera's time and the device time of its
arrival, marked unsynchronised while the PTP clock is not locked (R374, R380, R385). -/
def leaderRow : Prop :=
  ∀ (p : Pid) (n : Nat) (l : Leader) (s : State) (d : StreamDecl) (x : Stream) (b : Block), Takes s p n d x b l.blockId 0 →
    l.extId = d.extId → l.wellFormed = true → l.unavailable = false → l.allIn = false →
    (l.payloadType = 1 ∨ l.payloadType = 0x4001) → l.pixelFormat ≤ 2 → l.payloadType = d.payloadType →
    l.pixelFormat = d.pixFmt → l.sizeX = d.width → l.sizeY = d.blockH → l.offPad = 0 →
    Ends (.gvspLeader p n l) s (fun t => Taken s t p n d x b 0 (fun z =>
      z.cameraTime = l.timestamp ∧ z.deviceTime = s.time ∧ z.unsync = !s.units.ptp.locked ∧ z.led = true))

/-- GVSP_LEADER of another format: the block is rejected as a violation (R374). -/
def leaderRejected : Prop :=
  ∀ (p : Pid) (n : Nat) (l : Leader) (s : State) (d : StreamDecl) (x : Stream) (b : Block), Takes s p n d x b l.blockId 0 →
    l.extId = d.extId → l.wellFormed = true → l.unavailable = false → l.sizeX ≠ d.width →
    Ends (.gvspLeader p n l) s (fun t =>
      ∃ y, streamOf (partOf t p) n = some y ∧ y.cnt.violations = satAdd 64 x.cnt.violations 1
        ∧ y.cnt.packets = x.cnt.packets ∧ ∃ z ∈ y.blocks, z.uid = b.uid ∧ z.st = 3)

/-- GVSP_PAYLOAD of the length that R375 gives its id is taken. -/
def payloadRow : Prop :=
  ∀ (p : Pid) (n : Nat) (k : Payload) (s : State) (d : StreamDecl) (x : Stream) (b : Block),
    Takes s p n d x b k.blockId k.packetId → k.extId = d.extId → k.wellFormed = true → 1 ≤ k.packetId →
    k.packetId ≤ packetsOf d → k.bytes.length = packetLen d k.packetId →
    Ends (.gvspPayload p n k) s (fun t => Taken s t p n d x b k.packetId (fun _ => True))

/-- GVSP_PAYLOAD of another length is a violation and is dropped (R375, Table ING-5). -/
def payloadBad : Prop :=
  ∀ (p : Pid) (n : Nat) (k : Payload) (s : State) (d : StreamDecl) (x : Stream) (b : Block),
    Takes s p n d x b k.blockId k.packetId → k.extId = d.extId → k.wellFormed = true →
    k.bytes.length ≠ packetLen d k.packetId →
    Ends (.gvspPayload p n k) s (fun t =>
      ∃ y, streamOf (partOf t p) n = some y ∧ y.cnt.violations = satAdd 64 x.cnt.violations 1
        ∧ y.cnt.packets = x.cnt.packets ∧ y.blocks = x.blocks ∧ y.wins = x.wins)

/-- GVSP_TRAILER in its place is taken (R375). -/
def trailerRow : Prop :=
  ∀ (p : Pid) (n : Nat) (k : Trailer) (s : State) (d : StreamDecl) (x : Stream) (b : Block),
    Takes s p n d x b k.blockId k.packetId → k.extId = d.extId → k.unavailable = false → k.packetId = packetsOf d + 1 →
    Ends (.gvspTrailer p n k) s (fun t => Taken s t p n d x b k.packetId (fun _ => True))

/-- BLOCK_TIMEOUT: what the oldest open block still lacks becomes a range (R381). -/
def blockTimeoutRow : Prop :=
  ∀ (p : Pid) (n : Nat) (s : State) (d : StreamDecl) (x : Stream) (b : Block), declOf (partOf s p) n = some d →
    streamOf (partOf s p) n = some x → x.blocks.find? (fun b => b.st == 0 && !b.tail) = some b →
    blockAt s p n b.uid = some b → x.ranges.length < 256 →
    ((List.range (packetsOf d + 2)).drop b.nxt).filter (fun n => !b.got.contains n) ≠ [] →
    Ends (.blockTimeout p n) s (fun t =>
      ∃ y, streamOf (partOf t p) n = some y
        ∧ y.ranges = x.ranges ++ [⟨x.nextRange, b.uid,
            ((List.range (packetsOf d + 2)).drop b.nxt).filter (fun n => !b.got.contains n), 0⟩]
        ∧ y.cnt = x.cnt ∧ y.wins = x.wins ∧ ∃ z ∈ y.blocks, z.uid = b.uid ∧ z.tail = true)

/-- STREAM_TIMEOUT of an open stream: it is stalled, and the next block starts the sequence again (R377, R381). -/
def streamTimeoutRow : Prop :=
  ∀ (p : Pid) (n : Nat) (s : State) (d : StreamDecl) (x : Stream), declOf (partOf s p) n = some d →
    streamOf (partOf s p) n = some x → x.codec.st = 1 → d.camera = true →
    Ends (.streamTimeout p n) s (fun t =>
      ∃ y, streamOf (partOf t p) n = some y ∧ y.codec.st = 4 ∧ y.last = none ∧ (partOf t p).st = (partOf s p).st)

/-- RESEND_DELAY_EXPIRY and RESEND_TIMEOUT: a range is asked for a first and a second time, each run of missing packets
with a request (R382). -/
def resendRows : Prop :=
  ∀ (p : Pid) (n k : Nat) (s : State) (d : StreamDecl) (x : Stream) (r : Range) (b : Block), declOf (partOf s p) n = some d →
    streamOf (partOf s p) n = some x → x.ranges.find? (fun r => r.id == k) = some r → blockAt s p n r.block = some b →
    (let after (t : State) : Prop := ∃ y, streamOf (partOf t p) n = some y
        ∧ y.ranges = modFirst (fun y => y.id == k) (fun y => { y with tries := y.tries + 1 }) x.ranges
        ∧ y.cnt.requests = satAdd 64 x.cnt.requests (runsOf (r.ids.filter (fun n => !b.got.contains n))).length
        ∧ y.cnt.lost = x.cnt.lost
     (r.tries = 0 → Ends (.resendDelayExpiry p n k) s after) ∧ (r.tries = 1 → Ends (.resendTimeout p n k) s after))

/-- RESEND_TIMEOUT after the second request: the range is lost (R382, R383). -/
def rangeLost : Prop :=
  ∀ (p : Pid) (n k : Nat) (s : State) (d : StreamDecl) (x : Stream) (r : Range), declOf (partOf s p) n = some d →
    streamOf (partOf s p) n = some x → x.ranges.find? (fun r => r.id == k) = some r → 2 ≤ r.tries →
    Ends (.resendTimeout p n k) s (fun t =>
      ∃ y, streamOf (partOf t p) n = some y ∧ y.cnt.lost = satAdd 64 x.cnt.lost 1 ∧ ∀ z ∈ y.ranges, z.id ≠ k)

/-! ## Streams and ports -/

/-- STREAM_OPEN of a stream that is not open, with its standing reservation granted: it is open, and its first window is
the next one (R294, R510). -/
def streamOpenRow : Prop :=
  ∀ (i : ReqId) (s s' : State) (r : Req) (d : StreamDecl) (x : Stream), Turn s i 0x0401 r → r.part < 64 →
    streamFields s r = true → declOf (partOf s r.pid) (field r.payload 0 1) = some d →
    streamOf (partOf s r.pid) (field r.payload 0 1) = some x → streamOpen x = false →
    reserveNow r.pid (standingFor (partOf s r.pid) x) s = some s' →
    Answers (.streamOpen i) s r (ansOk (toLe 4 x.nextWin ++ zeros 4)) (fun t =>
      (∃ y, streamOf (partOf t r.pid) (field r.payload 0 1) = some y ∧ y.codec.st = 1 ∧ y.w0 = x.nextWin
        ∧ y.codec.forceIrap = true ∧ y.last = none ∧ y.blocks = [])
      ∧ (∀ p, p ≠ r.pid → partOf t p = partOf s p) ∧ t.host = s.host ∧ t.ao = s.ao)

/-- STREAM_OPEN of an open stream changes nothing, and without its reservation it is NO_BUFFER (R491, R510). -/
def streamOpenElse : Prop :=
  ∀ (i : ReqId) (s : State) (r : Req) (d : StreamDecl) (x : Stream), Turn s i 0x0401 r → streamFields s r = true →
    declOf (partOf s r.pid) (field r.payload 0 1) = some d → streamOf (partOf s r.pid) (field r.payload 0 1) = some x →
    (streamOpen x = true → Reads (.streamOpen i) s r (ansOk (toLe 4 x.w0 ++ zeros 4)))
    ∧ (streamOpen x = false → reserveNow r.pid (standingFor (partOf s r.pid) x) s = none →
      Reads (.streamOpen i) s r { status := stNoBuffer, reason := 0x010B, retry := 10 })

/-- STREAM_CLOSE: with no picture in work the stream is closed at once; with one, at the next boundary; a closed one stays
as it is (R294). -/
def streamCloseRow : Prop :=
  ∀ (i : ReqId) (s : State) (r : Req) (x : Stream), Turn s i 0x0402 r → r.part < 64 → streamFields s r = true →
    streamOf (partOf s r.pid) (field r.payload 0 1) = some x →
    (streamOpen x = false → Reads (.streamClose i) s r ansOk)
    ∧ (streamOpen x = true → (∀ w ∈ x.wins, w.done = true ∧ (w.encoded = true ∨ w.uncoded = true)) →
      Answers (.streamClose i) s r ansOk (fun t =>
        ∃ y, streamOf (partOf t r.pid) (field r.payload 0 1) = some y ∧ y.codec.st = 0 ∧ y.codec.closing = false
          ∧ y.blocks = [] ∧ y.ranges = [] ∧ y.nextWin = x.nextWin))
    ∧ (streamOpen x = true → (∃ w ∈ x.wins, w.done = false) →
      Answers (.streamClose i) s r ansOk (fun t =>
        t = modCodec r.pid (field r.payload 0 1) (fun k => { k with closing := true }) s))

/-- STREAM_STATUS answers with the 88 bytes of R510. -/
def streamStatusRow : Prop :=
  ∀ (i : ReqId) (s : State) (r : Req) (d : StreamDecl) (x : Stream), Turn s i 0x0403 r → streamFields s r = true →
    declOf (partOf s r.pid) (field r.payload 0 1) = some d → streamOf (partOf s r.pid) (field r.payload 0 1) = some x →
    ∃ bs, Reads (.streamStatus i) s r (ansOk bs) ∧ bs.length = 88
      ∧ bs.take 16 = toLe 1 x.codec.st ++ toLe 1 (!d.encode).toNat ++ zeros 2 ++ toLe 4 x.nextWin ++ toLe 8 x.codec.pictures

/-- INGEST_PORT_CONFIG of a port of the partition's: the port has the role, address, prefix, VLAN and bindings of the
request, and no other port changes (R368, R371, R516). -/
def portConfigRow : Prop :=
  ∀ (i : ReqId) (s : State) (r : Req), Turn s i 0x0801 r → r.part < 64 →
    r.payload.length = 16 + 12 * field r.payload 0x0B 1 → portCfgOk r.payload = true →
    portHolder s (field r.payload 0 1) = some r.pid →
    bindsAssigned (bodyOf (partOf s r.pid)) (field r.payload 0 1) (bindingsOf r.payload) = true →
    (bit (field r.payload 3 1) 1 = true → s.units.ptp.port = none ∨ s.units.ptp.port = some (field r.payload 0 1)) →
    Answers (.ingestPortConfig i) s r ansOk (fun t =>
      (let y := portOf t (field r.payload 0 1)
       y.role = field r.payload 1 1 ∧ y.prefix_ = field r.payload 2 1 ∧ y.addr = field r.payload 4 4
       ∧ y.binds = bindingsOf r.payload
       ∧ y.vlan = (if bit (field r.payload 3 1) 0 then some (field r.payload 8 2) else none))
      ∧ (∀ k, k ≠ field r.payload 0 1 → portOf t k = portOf s k)
      ∧ (bit (field r.payload 3 1) 1 = true → t.units.ptp.port = some (field r.payload 0 1))
      ∧ (∀ p, (partOf t p).g = (partOf s p).g ∧ (partOf t p).st = (partOf s p).st) ∧ t.host = s.host)

/-- INGEST_PORT_CONFIG of a port that no partition or another one holds is turned away and changes nothing (R516). -/
def portConfigStops : Prop :=
  ∀ (i : ReqId) (s : State) (r : Req), Turn s i 0x0801 r → r.payload.length = 16 + 12 * field r.payload 0x0B 1 →
    portCfgOk r.payload = true →
    (portHolder s (field r.payload 0 1) = none → Reads (.ingestPortConfig i) s r (ansRefused 0x0901))
    ∧ (∀ h, portHolder s (field r.payload 0 1) = some h → h ≠ r.pid → Reads (.ingestPortConfig i) s r ansNotOwner)

/-- INGEST_STATUS answers with the port's link, role and counters, and changes nothing (R516). -/
def ingestStatusRow : Prop :=
  ∀ (i : ReqId) (s : State) (r : Req), Turn s i 0x0802 r → field r.payload 0 1 < 8 → zeroAt r.payload 1 3 = true →
    portHolder s (field r.payload 0 1) = some r.pid →
    ∃ bs, Reads (.ingestStatus i) s r (ansOk bs)
      ∧ bs.take 2 = toLe 1 (linkCode (portOf s (field r.payload 0 1)).link) ++ toLe 1 (portOf s (field r.payload 0 1)).role

/-! ## The PTP clock -/

/-- What an offset does to the clock and the device time: above 1 ms they are set and the lock is lost; below 100 ns
sixteen in a row lock; a locked clock follows (R384). -/
def ptpRule (off : Int) (s t : State) : Prop :=
  t.units.ptp.offset = off ∧ t.units.ptp.waiting = none ∧ t.units.ptp.delay = s.units.ptp.delay
  ∧ (1000000 < off.natAbs → t.units.ptp.locked = false ∧ t.units.ptp.good = 0 ∧ t.time = (Int.ofNat s.time - off).toNat)
  ∧ (off.natAbs ≤ 1000000 →
      t.units.ptp.good = (if off.natAbs < 100 then min 16 (s.units.ptp.good + 1) else 0)
      ∧ t.units.ptp.locked = (s.units.ptp.locked || decide (16 ≤ if off.natAbs < 100 then min 16 (s.units.ptp.good + 1) else 0))
      ∧ t.time = (if t.units.ptp.locked then (Int.ofNat s.time - off).toNat else s.time))

/-- PTP_SYNC on the port that carries the clock: a one-step Sync gives its offset, a two-step one waits for its
Follow_Up; PTP_FOLLOW_UP gives it then (R384). -/
def ptpSyncRows : Prop :=
  ∀ (n : Nat) (origin rx : Int) (s : State), ptpHere s n = true →
    Ends (.ptpSync n origin rx false) s (fun t => ptpRule (rx - origin - s.units.ptp.delay) s t)
    ∧ Ends (.ptpSync n origin rx true) s (fun t =>
      t.units.ptp = { s.units.ptp with waiting := some rx } ∧ t.time = s.time ∧ t.out = .ptpDelayReq n :: s.out)
    ∧ (s.units.ptp.waiting = some rx → Ends (.ptpFollowUp n origin) s (fun t =>
      ptpRule (rx - origin - s.units.ptp.delay) s t))

/-- PTP_DELAY_RESP: the mean path delay is half of the sum of the two offsets (R384). -/
def ptpDelayRow : Prop :=
  ∀ (n : Nat) (rx tx : Int) (s : State), ptpHere s n = true →
    Ends (.ptpDelayResp n rx tx) s (fun t =>
      t.units.ptp = { s.units.ptp with delay := (s.units.ptp.syncDiff + (rx - tx)).tdiv 2 } ∧ t.time = s.time
      ∧ t.parts = s.parts ∧ t.host = s.host)

/-- PTP_ANNOUNCE: the first master heard is taken; a worse one is not (R384; the order is log entry 38's). -/
def ptpAnnounceRow : Prop :=
  ∀ (n m q : Nat) (s : State), ptpHere s n = true →
    (s.units.ptp.master = none → Ends (.ptpAnnounce n m q) s (fun t =>
      t.units.ptp = { s.units.ptp with master := some (m, q) } ∧ t.time = s.time))
    ∧ (∀ m' q', s.units.ptp.master = some (m', q') → q' < q → Ends (.ptpAnnounce n m q) s (fun t =>
      t.units.ptp = s.units.ptp ∧ t.time = s.time))

/-- PTP_SYNC_TIMEOUT: the clock is not locked any more and runs on (R384). -/
def ptpTimeoutRow : Prop :=
  ∀ s : State, exec .ptpSyncTimeout s =
    .next (modPtp (fun x => { x with locked := false, good := 0, waiting := none }) s)

/-! ## Ethernet links and frames -/

/-- ETHERNET_LINK_UP of a configured port: it is UP; ETHERNET_LINK_DOWN of one that is up: it is LINK_DOWN, no device
fault; LINK_RETRAIN_TICK trains it again (R389). -/
def ethLinkRows : Prop :=
  ∀ (n : Nat) (s : State), n < 8 → domOn s 5 = true →
    ((portOf s n).link = .down → (portOf s n).role ≠ 0 → Ends (.ethernetLinkUp n) s (fun t =>
      (portOf t n).link = .up ∧ (portOf t n).trainTried = false ∧ (∀ k, k ≠ n → portOf t k = portOf s k)
      ∧ (∀ p, (partOf t p).st = (partOf s p).st)))
    ∧ ((portOf s n).link = .up → Ends (.ethernetLinkDown n) s (fun t =>
      (modPort n (fun x => { x with link := .down, training := false }) s).LoggedTo t))
    ∧ ((portOf s n).link = .down → (portOf s n).role ≠ 0 →
      exec (.linkRetrainTick n) s = .next (modPort n (fun x => { x with training := true }) s))

/-- LINK_TRAINING_FAIL with signal: the training is retried once, and a second failure fences the port; no partition is
fenced for it (R389). -/
def trainingFailRow : Prop :=
  ∀ (n : Nat) (s : State), n < 8 → domOn s 5 = true → (portOf s n).link = .down → (portOf s n).role ≠ 0 →
    ((portOf s n).trainTried = false →
      exec (.linkTrainingFail n) s = .next (modPort n (fun x => { x with trainTried := true, training := false }) s))
    ∧ ((portOf s n).trainTried = true → Ends (.linkTrainingFail n) s (fun t =>
      (portOf t n).link = .fenced ∧ (∀ k, k ≠ n → portOf t k = portOf s k) ∧ (∀ p, (partOf t p).st = (partOf s p).st)))

/-- ETHERNET_FRAME_RECEIVED of a frame with a bad FCS or for another address, and of one that carries neither UDP nor
anything a port answers: counted and dropped (R370). -/
def frameDropRow : Prop :=
  ∀ (n : Nat) (f : EthFrame) (s : State), portTakes s n = true →
    ((f.fcsOk = false ∨ f.toUs = false) → exec (.ethernetFrameReceived n f) s = .next (dropFrame n (countFrame n s)))
    ∧ (f.fcsOk = true → f.toUs = true → f.size ≤ 9216 → f.vlan = none → f.ether ≠ 0 →
      exec (.ethernetFrameReceived n f) s = .next (dropFrame n (countFrame n s)))

/-- A frame beyond 9,216 bytes, and any GVCP message that reaches an ingest port, is a violation (Table ING-5, R389). -/
def frameViolationRows : Prop :=
  ∀ (n : Nat) (f : EthFrame) (s : State), n < 8 → portTakes s n = true →
    (let after (t : State) : Prop :=
        (portOf t n).violations = satAdd 64 (portOf s n).violations 1
        ∧ (portOf t n).frames = satAdd 64 (portOf s n).frames 1 ∧ (portOf t n).link = (portOf s n).link
        ∧ (∀ p, (partOf t p).st = (partOf s p).st)
     (f.fcsOk = true → f.toUs = true → 9216 < f.size → Ends (.ethernetFrameReceived n f) s after)
     ∧ ((portOf s n).role = 1 → Ends (.gvcpMessageReceived n) s after))

/-- ARP for the port's address and ICMP echo are answered; PAUSE is counted (R369, R393). -/
def frameAnswerRows : Prop :=
  ∀ (n sender : Nat) (body : List Byte) (m : Option Nat) (s : State), portTakes s n = true →
    exec (.arpRequestReceived n (portOf s n).addr sender) s = .next (emit (.arpReply n sender) (countFrame n s))
    ∧ (∀ a, a ≠ (portOf s n).addr → exec (.arpRequestReceived n a sender) s = .next (countFrame n s))
    ∧ exec (.icmpEchoRequest n sender body) s = .next (emit (.icmpReply n sender body) (countFrame n s))
    ∧ exec (.pauseFrameReceived n m) s =
        .next (modPort n (fun x => { x with pauses := satAdd 64 x.pauses 1 }) (countFrame n s))

/-- A port that is not up takes no frame (R370). -/
def portDeaf : Prop :=
  ∀ (n a b : Nat) (body : List Byte) (f : EthFrame) (m : Option Nat) (s : State), portTakes s n = false →
    exec (.ethernetFrameReceived n f) s = .next s ∧ exec (.arpRequestReceived n a b) s = .next s
    ∧ exec (.icmpEchoRequest n a body) s = .next s ∧ exec (.pauseFrameReceived n m) s = .next s
    ∧ exec (.gvcpMessageReceived n) s = .next s

end Sys2Proof.Claims
namespace Sys2Proof.Claims
open Sys2Proof.Machine

/-! ## Delivery sessions -/

/-- The session of a target is closed with a cause; what was sent and not acknowledged stays, with its sequences (R409). -/
def Closed (t : State) (p : Pid) (n cause : Nat) (x : Target) : Prop :=
  ∃ y, targetOf (partOf t p) n = some y ∧ y.st = 3 ∧ y.cause = cause ∧ y.nextSeq = x.nextSeq ∧ y.acked = x.acked
    ∧ y.released = x.released ∧ y.sent.map (fun b => b.seq) = x.sent.map (fun b => b.seq)

/-- DELIVERY_OPEN of a RoCEv2 session on a target that had none: it is OPENING, starts at the sequence the request names,
and both of the trainer's sequences are one before it; device QPN and PSN are free values (R395, R398). -/
def deliveryOpenRow : Prop :=
  ∀ (i : ReqId) (s : State) (r : Req), Turn s i 0x0901 r → r.part < 64 → openFieldsOk r.payload = true →
    (parOf r.payload).p2p = false → portHolder s (parOf r.payload).port = some r.pid →
    (portOf s (parOf r.payload).port).role = 2 → targetOf (partOf s r.pid) (field r.payload 0 1) = none →
    onSubnet (portOf s (parOf r.payload).port) (parOf r.payload).addr = true →
    slotsFit (partOf s r.pid) (field r.payload 0 1) (parOf r.payload) = true →
    ∃ a, a.status = 0 ∧ a.pend = false ∧ a.payload.drop 8 = toLe 8 (field r.payload 0x58 8)
      ∧ Answers (.deliveryOpen i) s r a (fun t =>
        ∃ y, targetOf (partOf t r.pid) (field r.payload 0 1) = some y ∧ y.st = 1 ∧ y.nextSeq = field r.payload 0x58 8
          ∧ y.acked = seqPred (field r.payload 0x58 8) ∧ y.released = seqPred (field r.payload 0x58 8) ∧ y.sent = []
          ∧ y.par.slots = (parOf r.payload).slots ∧ y.par.port = (parOf r.payload).port
          ∧ y.rate = 200000000000)

/-- DELIVERY_OPEN of a CLOSED target goes on where it was: what is not acknowledged keeps its sequence, and the trainer's
sequences are one before the first of them (R398, R410). -/
def deliveryReopen : Prop :=
  ∀ (i : ReqId) (s : State) (r : Req) (x : Target), Turn s i 0x0901 r → r.part < 64 → openFieldsOk r.payload = true →
    (parOf r.payload).p2p = false → portHolder s (parOf r.payload).port = some r.pid →
    (portOf s (parOf r.payload).port).role = 2 → targetOf (partOf s r.pid) (field r.payload 0 1) = some x →
    x.live = false → onSubnet (portOf s (parOf r.payload).port) (parOf r.payload).addr = true →
    slotsFit (partOf s r.pid) (field r.payload 0 1) (parOf r.payload) = true →
    ∃ a, a.status = 0 ∧ a.payload.drop 8 = toLe 8 (firstUnacked x)
      ∧ Answers (.deliveryOpen i) s r a (fun t =>
        ∃ y, targetOf (partOf t r.pid) (field r.payload 0 1) = some y ∧ y.st = 1 ∧ y.nextSeq = x.nextSeq
          ∧ y.acked = seqPred (firstUnacked x) ∧ y.released = seqPred (firstUnacked x)
          ∧ y.sent.map (fun b => b.seq) = x.sent.map (fun b => b.seq))

/-- DELIVERY_OPEN on a target with a session is BUSY; on a port that another partition, or none, holds, or that is not in
the delivery role, it is turned away (R395). -/
def deliveryOpenStops : Prop :=
  ∀ (i : ReqId) (s : State) (r : Req), Turn s i 0x0901 r → openFieldsOk r.payload = true → (parOf r.payload).p2p = false →
    (∀ h, portHolder s (parOf r.payload).port = some h → h ≠ r.pid → Reads (.deliveryOpen i) s r ansNotOwner)
    ∧ (portHolder s (parOf r.payload).port = none → Reads (.deliveryOpen i) s r (ansRefused 0x0901))
    ∧ (portHolder s (parOf r.payload).port = some r.pid → (portOf s (parOf r.payload).port).role ≠ 2 →
      Reads (.deliveryOpen i) s r (ansRefused 0x0902))
    ∧ (∀ x, portHolder s (parOf r.payload).port = some r.pid → (portOf s (parOf r.payload).port).role = 2 →
      targetOf (partOf s r.pid) (field r.payload 0 1) = some x → x.live = true →
      Reads (.deliveryOpen i) s r (ansBusy 0 1000))

/-- DELIVERY_CLOSE of an open session closes it with cause 1; of a target without one it is BAD_FIELD (R409, R517). -/
def deliveryCloseRow : Prop :=
  ∀ (i : ReqId) (s : State) (r : Req), Turn s i 0x0902 r → r.part < 64 → zeroAt r.payload 1 3 = true →
    (∀ x, targetOf (partOf s r.pid) (field r.payload 0 1) = some x → x.live = true →
      Answers (.deliveryClose i) s r ansOk (fun t => Closed t r.pid (field r.payload 0 1) 1 x))
    ∧ (targetOf (partOf s r.pid) (field r.payload 0 1) = none →
      exec (.deliveryClose i) s = .next (finish r ansBad (violation r.fn 8 0x0902 s)))

/-- DELIVERY_STATUS answers with a record for each target it names (R518). -/
def deliveryStatusRow : Prop :=
  ∀ (i : ReqId) (s : State) (r : Req), Turn s i 0x0903 r → within 1 32 (field r.payload 1 1) = true →
    field r.payload 0 1 + field r.payload 1 1 ≤ 64 → zeroAt r.payload 2 2 = true →
    Reads (.deliveryStatus i) s r (ansOk (toLe 2 (field r.payload 1 1) ++ zeros 6
      ++ (List.range (field r.payload 1 1)).flatMap (fun k => targetRecord (partOf s r.pid) (field r.payload 0 1 + k))))

/-! ## What a trainer sends -/

/-- A trainer's message that a session takes: of the session's target, right in its layout, with a receive left for it
(R413, Table DLV-4). -/
structure Heard (s : State) (p : Pid) (n : Nat) (m : List Byte) (x : Target) : Prop where
  target : targetOf (partOf s p) n = some x
  live : x.live = true
  roce : x.par.p2p = false
  net : domOn s 5 = true
  layout : trainerMsgOk m = true
  mine : field m 2 1 = n
  receive : x.rqTime ≠ s.time ∨ 0 < x.rqLeft

/-- BDP_UPDATE with sequences that may follow those before: the session is OPEN and has them (R396, R398, R405). -/
def bdpUpdateRow : Prop :=
  ∀ (p : Pid) (n : Nat) (m : List Byte) (s : State) (x : Target), Heard s p n m x → field m 0 1 = 0x81 →
    (field m 8 8 = x.acked ∨ (seqAhead (field m 8 8) x.acked = true ∧ seqAhead (field m 8 8) (lastSent x) = false)) →
    (field m 0x10 8 = x.released ∨ seqAhead (field m 0x10 8) x.released = true) →
    seqAhead (field m 0x10 8) (field m 8 8) = false →
    Ends (.bdpUpdate p n m) s (fun t =>
      ∃ y, targetOf (partOf t p) n = some y ∧ y.st = 2 ∧ y.acked = field m 8 8 ∧ y.released = field m 0x10 8
        ∧ y.cnViol = x.cnViol)

/-- An acknowledgement of what was never sent is a violation and changes no sequence (Table DLV-4). -/
def bdpUpdateBad : Prop :=
  ∀ (p : Pid) (n : Nat) (m : List Byte) (s : State) (x : Target), Heard s p n m x → field m 0 1 = 0x81 → x.st = 2 →
    field m 8 8 ≠ x.acked → seqAhead (field m 8 8) (lastSent x) = true → field m 0x10 8 = x.released →
    seqAhead x.released x.acked = false →
    Ends (.bdpUpdate p n m) s (fun t =>
      ∃ y, targetOf (partOf t p) n = some y ∧ y.acked = x.acked ∧ y.released = x.released
        ∧ y.cnViol = satAdd 64 x.cnViol 1)

/-- BDP_NAK_BATCH of a batch in flight: it is marked for its one rewrite; the second is a lasting fault that closes the
session with cause 7 (R407). -/
def bdpNakRow : Prop :=
  ∀ (p : Pid) (n : Nat) (m : List Byte) (s : State) (x : Target) (b : Sent), Heard s p n m x → field m 0 1 = 0x82 →
    x.sent.find? (fun b => b.seq == field m 8 8 && b.timer) = some b →
    (b.naked = false → x.sent.find? (fun b => b.seq == field m 8 8) = some b → Ends (.bdpNakBatch p n m) s (fun t =>
      ∃ y, targetOf (partOf t p) n = some y ∧ (∃ k ∈ y.sent, k.seq = field m 8 8 ∧ k.naked = true) ∧ y.acked = x.acked))
    ∧ (b.naked = true → Ends (.bdpNakBatch p n m) s (fun t => Closed t p n 7 x))

/-- BDP_NAK_BATCH of a batch that is not in flight is a violation (Table DLV-4). -/
def bdpNakBad : Prop :=
  ∀ (p : Pid) (n : Nat) (m : List Byte) (s : State) (x : Target), Heard s p n m x → field m 0 1 = 0x82 →
    x.sent.find? (fun b => b.seq == field m 8 8 && b.timer) = none →
    Ends (.bdpNakBatch p n m) s (fun t =>
      ∃ y, targetOf (partOf t p) n = some y ∧ y.cnViol = satAdd 64 x.cnViol 1 ∧ y.sent = x.sent ∧ y.acked = x.acked)

/-- BDP_CLOSE_RECEIVED closes the session with the cause it names (R409). -/
def bdpCloseRow : Prop :=
  ∀ (p : Pid) (n : Nat) (m : List Byte) (s : State) (x : Target), Heard s p n m x → field m 0 1 = 0x03 →
    within 1 7 (field m 0x10 2) = true → Ends (.bdpCloseReceived p n m) s (fun t => Closed t p n (field m 0x10 2) x)

/-- A message beyond the 16 receives of an instant is answered with an RNR NAK and is a violation (R413). -/
def bdpRnr : Prop :=
  ∀ (p : Pid) (n : Nat) (m : List Byte) (s : State) (x : Target), targetOf (partOf s p) n = some x → x.live = true →
    x.par.p2p = false → domOn s 5 = true → x.rqTime = s.time → x.rqLeft = 0 →
    Ends (.bdpUpdate p n m) s (fun t => t.out.head? = some (.rnrNak p n)
      ∧ ∃ y, targetOf (partOf t p) n = some y ∧ y.st = x.st ∧ y.acked = x.acked ∧ y.cnViol = satAdd 64 x.cnViol 1)

/-! ## Timers and the transport -/

/-- BDP_ACK_TIMER_EXPIRY: HELLO is sent once more, then the session closes with cause 4; so is a BATCH_READY (R406). -/
def ackTimerRow : Prop :=
  ∀ (p : Pid) (n k : Nat) (s : State) (x : Target), targetOf (partOf s p) n = some x → timersRun (partOf s p) x = true →
    (x.st = 1 → x.helloSent = true → x.helloResent = false → Ends (.bdpAckTimerExpiry p n none) s (fun t =>
      ∃ y, targetOf (partOf t p) n = some y ∧ y.helloResent = true ∧ y.st = 1 ∧ y.cnResends = satAdd 64 x.cnResends 1))
    ∧ (x.st = 1 → x.helloSent = true → x.helloResent = true →
      Ends (.bdpAckTimerExpiry p n none) s (fun t => Closed t p n 4 x))
    ∧ (∀ b, x.sent.find? (fun b => b.seq == k && b.timer) = some b → b.resent = true →
      Ends (.bdpAckTimerExpiry p n (some k)) s (fun t => Closed t p n 4 x))
    ∧ (∀ b, x.sent.find? (fun b => b.seq == k && b.timer) = some b → x.sent.find? (fun b => b.seq == k) = some b →
      b.resent = false → Ends (.bdpAckTimerExpiry p n (some k)) s (fun t =>
        ∃ y, targetOf (partOf t p) n = some y ∧ y.st = x.st ∧ y.cnResends = satAdd 64 x.cnResends 1
          ∧ ∃ z ∈ y.sent, z.seq = k ∧ z.resent = true))

/-- CREDIT_TIMER_EXPIRY of a session that admission waits on closes it with cause 3 (R408). -/
def creditTimerRow : Prop :=
  ∀ (p : Pid) (n : Nat) (s : State) (x : Target), targetOf (partOf s p) n = some x → timersRun (partOf s p) x = true →
    x.par.creditMs ≠ 0 → awaited (partOf s p) x = true →
    Ends (.creditTimerExpiry p n) s (fun t => Closed t p n 3 x)

/-- The RC transport of a live session: RC_ACK_TIMEOUT and RNR_NAK_RECEIVED retry once and then close with cause 5;
RC_TRANSPORT_ACK of what needed no retry clears nothing; CNP_RECEIVED halves the rate, to no lower than 1 Gb/s, and
RATE_INCREASE_TICK adds 10 Gb/s, up to 200 (R392, R393). -/
def transportRows : Prop :=
  ∀ (p : Pid) (n : Nat) (s : State) (x : Target), targetOf (partOf s p) n = some x → x.live = true → x.par.p2p = false →
    domOn s 5 = true →
    (x.rcTried = false →
      exec (.rcAckTimeout p n) s = .next (modTarget p n (fun x => { x with rcTried := true }) s))
    ∧ (x.rcTried = true → Ends (.rcAckTimeout p n) s (fun t => Closed t p n 5 x))
    ∧ (x.rnrTried = false →
      exec (.rnrNakReceived p n) s = .next (modTarget p n (fun x => { x with rnrTried := true }) s))
    ∧ (x.rnrTried = true → Ends (.rnrNakReceived p n) s (fun t => Closed t p n 5 x))
    ∧ Ends (.rcTransportAck p n) s (fun t =>
      ∃ y, targetOf (partOf t p) n = some y ∧ y.rcTried = false ∧ y.rnrTried = false ∧ y.st = x.st
        ∧ y.cnTransient = (if x.rcTried || x.rnrTried then satAdd 64 x.cnTransient 1 else x.cnTransient))
    ∧ exec (.cnpReceived p n) s =
        .next (modTarget p n (fun x => { x with rate := max (x.rate / 2) 1000000000, cnCnp := satAdd 64 x.cnCnp 1 }) s)
    ∧ exec (.rateIncreaseTick p n) s =
        .next (modTarget p n (fun x => { x with rate := min (x.rate + 10000000000) 200000000000 }) s)

/-- REMOTE_ACCESS_ERROR_NAK and RDMA_REQUEST_TO_DEVICE are violations that close the session with cause 6 (Table
DLV-4). -/
def accessErrorRows : Prop :=
  ∀ (p : Pid) (n : Nat) (s : State) (x : Target), targetOf (partOf s p) n = some x → x.live = true → x.par.p2p = false →
    domOn s 5 = true →
    Ends (.remoteAccessErrorNak p n) s (fun t => Closed t p n 6 x)
    ∧ Ends (.rdmaRequestToDevice p n) s (fun t => Closed t p n 6 x)

/-- P2P_STATUS_POLL: a read that fails is tried again, and a second failure closes the session with cause 5; a record that
repeats what is known changes no sequence (R411, R412). -/
def p2pPollRow : Prop :=
  ∀ (p : Pid) (n : Nat) (s : State) (x : Target) (b : List Byte), targetOf (partOf s p) n = some x →
    timersRun (partOf s p) x = true → x.par.p2p = true → canSend s x = true →
    (x.pollTried = false →
      exec (.p2pStatusPoll p n .error) s = .next (modTarget p n (fun x => { x with pollTried := true }) s))
    ∧ (x.pollTried = true → Ends (.p2pStatusPoll p n .error) s (fun t => Closed t p n 5 x))
    ∧ (field b 0 8 = x.acked → field b 8 8 = x.released → seqAhead x.released x.acked = false →
      field b 0x1C 4 = x.nakCount → Ends (.p2pStatusPoll p n (.ok b)) s (fun t =>
        ∃ y, targetOf (partOf t p) n = some y ∧ y.acked = x.acked ∧ y.released = x.released ∧ y.st = x.st
          ∧ y.pollTried = false ∧ y.nakCount = x.nakCount))

/-- A session has never more credits than slots, and none unless it is OPEN (R396, R399). -/
def creditBound : Prop :=
  ∀ x : Target, creditsFree x ≤ x.par.slots ∧ (x.st ≠ 2 → creditsFree x = 0)

end Sys2Proof.Claims
namespace Sys2Proof.Claims
open Sys2Proof.Machine

/-! ## Drives: attach and detach -/

/-- STORAGE_ATTACH of a port without a drive or with a detached one: OK with PENDING, the port trains, and no other port
changes (R427, R519). -/
def attachRow : Prop :=
  ∀ (i : ReqId) (s : State) (r : Req), Turn s i 0x0A01 r → CanPend s r → field r.payload 0 1 < 4 →
    zeroAt r.payload 1 3 = true → domOn s 5 = true →
    ((driveOf s (field r.payload 0 1)).st = 0 ∨ (driveOf s (field r.payload 0 1)).st = 4) →
    Answers (.storageAttach i) s r ansPend (fun t =>
      (let d := driveOf t (field r.payload 0 1)
       d.st = 1 ∧ d.phase = 0 ∧ d.tried = false ∧ d.req = some r.id ∧ d.cmds = [])
      ∧ (∀ k, k ≠ field r.payload 0 1 → driveOf t k = driveOf s k) ∧ t.parts = s.parts ∧ t.host = s.host)

/-- STORAGE_ATTACH of a drive that is attached, or with PD_NET off, is REFUSED with 0x0118 (R519). -/
def attachStops : Prop :=
  ∀ (i : ReqId) (s : State) (r : Req), Turn s i 0x0A01 r → field r.payload 0 1 < 4 → zeroAt r.payload 1 3 = true →
    (domOn s 5 = false ∨ (driveOf s (field r.payload 0 1)).st = 2 ∨ (driveOf s (field r.payload 0 1)).st = 1) →
    Reads (.storageAttach i) s r (ansRefused 0x0118)

/-- ROOT_PORT_LINK_UP during an attach: a drive that trained waits for its controller; no drive ends the attach; a failure
is tried again once (R425, R427). -/
def rootPortRow : Prop :=
  ∀ (n : Nat) (s : State), n < 4 → (driveOf s n).st = 1 → (driveOf s n).phase = 0 →
    (∀ rate width, (driveOf s n).tried = false → Ends (.rootPortLinkUp n (.drive rate width)) s (fun t =>
      driveOf t n = { driveOf s n with rate := rate, width := width, phase := 1, tried := false }
      ∧ (∀ k, k ≠ n → driveOf t k = driveOf s k) ∧ t.parts = s.parts ∧ t.host = s.host))
    ∧ ((driveOf s n).tried = false → Ends (.rootPortLinkUp n .failed) s (fun t =>
      driveOf t n = { driveOf s n with phase := 0, tried := true } ∧ t.parts = s.parts ∧ t.host = s.host))
    ∧ ((driveOf s n).tried = true → Ends (.rootPortLinkUp n .failed) s (fun t => (driveOf t n).st = 3))
    ∧ Ends (.rootPortLinkUp n .noDrive) s (fun t =>
      (driveOf t n).st = 0 ∧ (driveOf t n).req = none ∧ ∀ i, (driveOf s n).req = some i → findReq t i = none)

/-- CONTROLLER_STATUS_CHANGE: an attach goes through RDY 0 and RDY 1 and ends with the namespaces Identify reported; a
detach ends when shutdown is complete (R427, R519). -/
def controllerRow : Prop :=
  ∀ (n : Nat) (s : State), n < 4 →
    ((driveOf s n).st = 1 → (driveOf s n).phase = 1 →
      exec (.controllerStatusChange n .notReady) s = .next (modDrive n (fun d => { d with phase := 2 }) s))
    ∧ (∀ mdts mqes ns, (driveOf s n).st = 1 → (driveOf s n).phase = 2 →
      Ends (.controllerStatusChange n (.ready mdts mqes ns)) s (fun t =>
        (driveOf t n).st = 2 ∧ (driveOf t n).ns = ns ∧ (driveOf t n).mdts = mdts ∧ (driveOf t n).req = none
        ∧ ∀ i, (driveOf s n).req = some i → findReq t i = none))
    ∧ ((driveOf s n).st = 2 → (driveOf s n).phase = 3 → Ends (.controllerStatusChange n .shutdown) s (fun t =>
      (driveOf t n).st = 4 ∧ (driveOf t n).cmds = [] ∧ (driveOf t n).ns = []
      ∧ ∀ i, (driveOf s n).req = some i → findReq t i = none))

/-- CONTROLLER_READY_TIMEOUT: the attach is tried again once, then the drive is fenced; DETACH_SHUTDOWN_TIMEOUT: the
detach ends all the same (R427, R519). -/
def driveTimeoutRows : Prop :=
  ∀ (n : Nat) (s : State), n < 4 →
    ((driveOf s n).st = 1 → ((driveOf s n).phase = 1 ∨ (driveOf s n).phase = 2) → (driveOf s n).tried = false →
      Ends (.controllerReadyTimeout n) s (fun t =>
        driveOf t n = { driveOf s n with tried := true, phase := 1 } ∧ t.parts = s.parts ∧ t.host = s.host))
    ∧ ((driveOf s n).st = 1 → ((driveOf s n).phase = 1 ∨ (driveOf s n).phase = 2) → (driveOf s n).tried = true →
      Ends (.controllerReadyTimeout n) s (fun t => (driveOf t n).st = 3))
    ∧ ((driveOf s n).st = 2 → (driveOf s n).phase = 3 → Ends (.detachShutdownTimeout n) s (fun t =>
      (driveOf t n).st = 4 ∧ (driveOf t n).cmds = [] ∧ ∀ i, (driveOf s n).req = some i → findReq t i = none))

/-- STORAGE_DETACH of a running drive of which nothing is granted: OK with PENDING, and shutdown is asked for; while a
namespace is granted it is REFUSED, and while another operation runs it is BUSY (R427, R519). -/
def detachRow : Prop :=
  ∀ (i : ReqId) (s : State) (r : Req), Turn s i 0x0A02 r → CanPend s r → field r.payload 0 1 < 4 →
    zeroAt r.payload 1 3 = true → (∀ k, (driveOf s k).phase ≠ 4 ∧ (driveOf s k).phase ≠ 5) →
    (nsGranted s (field r.payload 0 1) = true → Reads (.storageDetach i) s r (ansRefused 0x0118))
    ∧ (nsGranted s (field r.payload 0 1) = false → (driveOf s (field r.payload 0 1)).req.isSome = true →
      Reads (.storageDetach i) s r (ansBusy 0 1000))
    ∧ (nsGranted s (field r.payload 0 1) = false → (driveOf s (field r.payload 0 1)).req = none →
      (driveOf s (field r.payload 0 1)).st = 2 → Answers (.storageDetach i) s r ansPend (fun t =>
        driveOf t (field r.payload 0 1) = { driveOf s (field r.payload 0 1) with phase := 3, req := some r.id }
        ∧ t.parts = s.parts ∧ t.host = s.host))

/-- STORAGE_STATUS answers with link, state, namespaces and counters (R520). -/
def storageStatusRow : Prop :=
  ∀ (i : ReqId) (s : State) (r : Req), Turn s i 0x0A03 r → field r.payload 0 1 < 4 → zeroAt r.payload 1 3 = true →
    ∃ bs, Reads (.storageStatus i) s r (ansOk bs)
      ∧ bs.take 8 = toLe 1 (driveOf s (field r.payload 0 1)).rate ++ toLe 1 (driveOf s (field r.payload 0 1)).width
          ++ toLe 1 (driveOf s (field r.payload 0 1)).st ++ toLe 1 (driveOf s (field r.payload 0 1)).ns.length
          ++ toLe 4 (driveOf s (field r.payload 0 1)).mdts

/-! ## NVMe commands -/

/-- A completion of a command that the drive has (R434, Table HIO-8). -/
structure Completes (s : State) (n : Nat) (e : NvmeCqe) (c : NvmeCmd) : Prop where
  port : n < 4
  net : domOn s 5 = true
  up : (driveOf s n).st = 2
  alive : (driveOf s n).dead.contains e.cid = false
  known : cqeKnown (driveOf s n) e = true
  cmd : (driveOf s n).cmds.find? (fun c => c.cid == e.cid && sqOf c == e.sqid) = some c
  still : (driveOf s n).waiting = []
  clean : e.poisoned = false

/-- NVME_COMPLETION of a read without an error: the command is gone, and no counter of errors moves (R434). -/
def nvmeDoneRow : Prop :=
  ∀ (n : Nat) (e : NvmeCqe) (s : State) (c : NvmeCmd), Completes s n e c → e.sct = 0 → e.sc = 0 → c.op = 0 →
    c.retried = false →
    Ends (.nvmeCompletion n e) s (fun t =>
      (driveOf t n).cmds = (driveOf s n).cmds.erase c ∧ (driveOf t n).lasting = (driveOf s n).lasting
      ∧ (driveOf t n).transient = (driveOf s n).transient ∧ (driveOf t n).st = 2)

/-- NVME_COMPLETION with an error that may be retried: the command is issued once more under a new identifier (R434). -/
def nvmeRetryRow : Prop :=
  ∀ (n : Nat) (e : NvmeCqe) (s : State) (c : NvmeCmd), Completes s n e c → e.sct = 0 → e.sc ≠ 0 → e.dnr = false →
    c.op = 0 → c.admin = false → c.retried = false →
    Ends (.nvmeCompletion n e) s (fun t =>
      (∃ k, (driveOf t n).cmds = (driveOf s n).cmds.erase c ++ [k] ∧ k.retried = true ∧ k.cid = (driveOf s n).nextCid
        ∧ k.lba = c.lba ∧ k.blocks = c.blocks ∧ k.sample = c.sample ∧ k.part = c.part)
      ∧ (driveOf t n).st = 2 ∧ t.parts = s.parts ∧ t.host = s.host)

/-- NVME_COMPLETION with an error that must not be retried: a lasting fault of the drive (R434). -/
def nvmeLastingRow : Prop :=
  ∀ (n : Nat) (e : NvmeCqe) (s : State) (c : NvmeCmd), Completes s n e c → e.sct = 0 → e.sc ≠ 0 → e.dnr = true →
    c.op = 0 → Ends (.nvmeCompletion n e) s (fun t => (driveOf t n).st = 3 ∧ (driveOf t n).cmds = [])

/-- NVME_COMPLETION of a dead identifier is a late discard: the identifier is retired, and no command changes (R474). -/
def nvmeLateRow : Prop :=
  ∀ (n : Nat) (e : NvmeCqe) (s : State), n < 4 → domOn s 5 = true → (driveOf s n).st = 2 →
    (driveOf s n).dead.contains e.cid = true →
    Ends (.nvmeCompletion n e) s (fun t =>
      (driveOf t n).dead = (driveOf s n).dead.erase e.cid ∧ (driveOf t n).late = satAdd 64 (driveOf s n).late 1
      ∧ (driveOf t n).cmds = (driveOf s n).cmds ∧ ∀ p, (partOf t p).st = (partOf s p).st)

/-- NVME_IO_TIMEOUT and NVME_ADMIN_TIMEOUT of a command's first run: its identifier is dead, and it is issued again; the
second run's is a lasting fault; an Abort that times out is not sent again (R433). -/
def nvmeTimeoutRows : Prop :=
  ∀ (n : Nat) (s : State) (c : NvmeCmd), n < 4 →
    (let again (t : State) : Prop := c.cid ∈ (driveOf t n).dead ∧ (driveOf t n).timeouts = satAdd 64 (driveOf s n).timeouts 1
        ∧ (∃ k ∈ (driveOf t n).cmds, k.retried = true ∧ k.first = 1 ∧ k.lba = c.lba ∧ k.op = c.op ∧ k.sample = c.sample)
        ∧ t.parts = s.parts ∧ t.host = s.host
     ((driveOf s n).cmds.find? (fun x => x.cid == c.cid && x.admin == false) = some c →
      (c.retried = false → Ends (.nvmeIoTimeout n c.cid) s again)
      ∧ (c.retried = true → Ends (.nvmeIoTimeout n c.cid) s (fun t => (driveOf t n).st = 3)))
     ∧ ((driveOf s n).cmds.find? (fun x => x.cid == c.cid && x.admin) = some c →
      (c.op ≠ 6 → c.retried = false → Ends (.nvmeAdminTimeout n c.cid) s again)
      ∧ (c.op = 6 → exec (.nvmeAdminTimeout n c.cid) s = .next (modDrive n (fun d => { d with
            cmds := d.cmds.erase c, dead := d.dead ++ [c.cid], timeouts := satAdd 64 d.timeouts 1 }) s))))

/-- NVME_CONTROLLER_FATAL, and DRIVE_LINK_DOWN with signal, of a running drive that was not reset before: the controller is
reset, and every command it had is dead; within 10 s of the last reset it is a lasting fault (R434). -/
def controllerFatalRows : Prop :=
  ∀ (n : Nat) (s : State), n < 4 → (driveOf s n).st = 2 →
    (let reset (t : State) : Prop := (driveOf t n).lastReset = some s.time ∧ (driveOf t n).st = 2
        ∧ (∀ c ∈ (driveOf s n).cmds, c.cid ∈ (driveOf t n).dead) ∧ t.parts = s.parts ∧ t.host = s.host
     ((driveOf s n).lastReset = none →
        Ends (.nvmeControllerFatal n) s reset ∧ Ends (.driveLinkDown n true) s reset)
     ∧ (∀ k, (driveOf s n).lastReset = some k → s.time < k + 10000000000 → k ≤ s.time →
        Ends (.nvmeControllerFatal n) s (fun t => (driveOf t n).st = 3)
        ∧ Ends (.driveLinkDown n true) s (fun t => (driveOf t n).st = 3)))
    ∧ exec (.driveLinkDown n false) s = .next (modDrive n (fun d => { d with rate := 0, width := 0 }) s)

/-- DRIVE_DMA through a read command's aperture: the bytes go to the sample's buffer; one outside every aperture is answered
Completer Abort and is a violation (R429, R436). -/
def driveDmaRow : Prop :=
  ∀ (n addr len : Nat) (b : List Byte) (s : State), n < 4 → domOn s 5 = true → (driveOf s n).st = 2 →
    (∀ (c : NvmeCmd) (k : Nat × Nat) (d : Desc),
      (driveOf s n).cmds.find? (fun c => apertureTakes c addr b.length true) = some c → c.sample = some k → c.part < 64 →
      inputBuffer s n c.part k = some d → c.off + (addr - c.aperture) + b.length ≤ classSize d.cls →
      exec (.driveDma n addr len (some b)) s = .next (bufWrite d (c.off + (addr - c.aperture)) b s))
    ∧ (((driveOf s n).cmds.find? (fun c => apertureTakes c addr b.length true) = none →
      Ends (.driveDma n addr len (some b)) s (fun t => t.out.head? = some (.completerAbort n)
        ∧ (driveOf t n).violations = satAdd 64 (driveOf s n).violations 1 ∧ (driveOf t n).cmds = (driveOf s n).cmds
        ∧ t.units.mem.cells = s.units.mem.cells ∧ ∀ p, (partOf t p).st = (partOf s p).st)))

/-- DRIVE_MSIX_WRITE: a vector that the drive was given changes nothing; another is a violation (R436). -/
def driveMsixRow : Prop :=
  ∀ (n v : Nat) (s : State), n < 4 → domOn s 5 = true → (driveOf s n).st = 2 →
    (v ≤ (driveOf s n).queues.length → exec (.driveMsixWrite n v) s = .next s)
    ∧ ((driveOf s n).queues.length < v → Ends (.driveMsixWrite n v) s (fun t =>
      (driveOf t n).violations = satAdd 64 (driveOf s n).violations 1 ∧ (driveOf t n).cmds = (driveOf s n).cmds
      ∧ ∀ p, (partOf t p).st = (partOf s p).st))

end Sys2Proof.Claims
namespace Sys2Proof.Claims
open Sys2Proof.Machine

/-! ## The pair: commands -/

abbrev pair (s : State) : PairSt := s.units.pair

/-- PAIR_STATUS answers with the pair's state, role, link and generation (R520, Table CMD-10). -/
def pairStatusRow : Prop :=
  ∀ (i : ReqId) (s : State) (r : Req), Turn s i 0x0B01 r →
    ∃ bs, Reads (.pairStatus i) s r (ansOk bs)
      ∧ bs.take 12 = toLe 1 (pair s).st ++ toLe 1 (pair s).role ++ toLe 1 (pair s).partner ++ toLe 1 (pair s).auto_.toNat
          ++ toLe 1 (pair s).partnerAuto.toNat ++ toLe 1 (linkCode (pair s).link) ++ zeros 2 ++ toLe 4 (pair s).gen

/-- PAIR_PLAN_SET: a request of zeros removes the plan; one whose domains are on, whose near memory is free and whose
window needs no zeroing makes a plan that is UNSEEDED (R447, R522). -/
def planSetRow : Prop :=
  ∀ (i : ReqId) (s : State) (r : Req), Turn s i 0x0B03 r → planFields s r = true →
    r.payload.length = planLength r.payload →
    (planEmpty r.payload = true → Answers (.pairPlanSet i) s r (ansOk (toLe 8 0)) (fun t =>
      (∀ x ∈ (pair t).plans, x.part ≠ r.part) ∧ (∀ p, (partOf t p).g = (partOf s p).g)))
    ∧ (∀ win, planEmpty r.payload = false →
      (List.range 5).any (fun c => nth (parseGrant r.payload).ceil c != 0
        && decide (nth (parseGrant r.payload).ceil c < nth (parseGrant r.payload).min c)) = false →
      (∀ d ∈ planDomains (parseGrant r.payload), domSeen s d = .on) →
      planShorts (dropPlan r.part s) (parseGrant r.payload) = [] →
      takeGranules (dropPlan r.part s) (parseGrant r.payload).a (parseGrant r.payload).w (parseGrant r.payload).e = some win →
      win.unzero = [] → Answers (.pairPlanSet i) s r (ansOk (toLe 8 0)) (fun t =>
        (∃ x ∈ (pair t).plans, x.part = r.part ∧ x.st = 1 ∧ x.win = win ∧ x.grants = r.payload.take 120)
        ∧ (∀ p, (partOf t p).g = (partOf s p).g)))

/-- PAIR_TAKEOVER while the partner is present is REFUSED (R523). -/
def takeoverPresent : Prop :=
  ∀ (i : ReqId) (s : State) (r : Req), Turn s i 0x0B04 r → findReq s i = some r → zeroAt r.payload 1 3 = true →
    (pair s).partner = 0 →
    (field r.payload 0 1 = 0 → Reads (.pairTakeoverTakeOver i) s r (ansRefused 0x0113))
    ∧ (field r.payload 0 1 = 1 → Reads (.pairTakeoverReleaseIds i) s r (ansRefused 0x0113))

/-- PAIR_TAKEOVER_TAKE_OVER of the one partition of a lost partner, mirrored here without a plan: the pair generation
rises, the partition is SUSPENDED here with cause 0x0803, its id is the partner's no more, and the request is complete
(R456, R457, R523). -/
def takeOverRow : Prop :=
  ∀ (i : ReqId) (s : State) (r : Req) (p : Pid) (g : Nat) (m : Mirror), Turn s i 0x0B04 r → findReq s i = some r →
    CanPend s r → field r.payload 0 1 = 0 → zeroAt r.payload 1 3 = true → (pair s).partner ≠ 0 →
    (pair s).partnerIds = [(p.val, g)] → mirrorOf s p.val = some m → isMirrored m = true → planOf s p.val = none →
    (partOf s p).st = .free → mirPrio s p.val < 256 →
    Ends (.pairTakeoverTakeOver i) s (fun t =>
      (pair t).gen = ((pair s).gen + 1) % 2 ^ 32 ∧ (pair t).partnerIds = [] ∧ (partOf t p).st = .suspended
      ∧ (partOf t p).cause = 0x0803 ∧ (partOf t p).gen = ((pair s).gen + 1) % 2 ^ 32 ∧ findReq t i = none)

/-- PAIR_TAKEOVER_RELEASE_IDS: the lost chip's ids that are not MIRRORED here are free (R523). -/
def releaseIdsRow : Prop :=
  ∀ (i : ReqId) (s : State) (r : Req), Turn s i 0x0B04 r → field r.payload 0 1 = 1 → zeroAt r.payload 1 3 = true →
    (pair s).partner ≠ 0 →
    Answers (.pairTakeoverReleaseIds i) s r (ansOk (toLe 4 (pair s).partnerIds.length)) (fun t =>
      (∀ x, x ∈ (pair t).partnerIds ↔ x ∈ (pair s).partnerIds ∧ ∃ m, mirrorOf s x.1 = some m ∧ isMirrored m = true)
      ∧ t.parts = s.parts ∧ t.host = s.host)

/-- PAIR_MOVE of a MIRRORED partition with a plan that passes, in PAIRED: OK with PENDING, and MOVE goes out (R463,
R524). -/
def pairMoveRow : Prop :=
  ∀ (i : ReqId) (s : State) (r : Req), Turn s i 0x0B05 r → CanPend s r → transferOpen s r.pid = false →
    (pair s).st = 3 → planPasses s r.pid.val = true → (partOf s r.pid).mirWait = [] → (partOf s r.pid).g.mirrored = true →
    (pair s).moving.any (fun m => m.1 == r.pid.val) = false →
    Answers (.pairMove i) s r ansPend (fun t =>
      (pair t).moving = (pair s).moving ++ [(r.pid.val, r.id)] ∧ t.parts = s.parts ∧ t.host = s.host)

/-- PAIR_MOVE unless PAIRED is REFUSED with 0x0801, and without a plan that passes with 0x0802 (R524). -/
def pairMoveStops : Prop :=
  ∀ (i : ReqId) (s : State) (r : Req), Turn s i 0x0B05 r → transferOpen s r.pid = false →
    ((pair s).st ≠ 3 → Reads (.pairMove i) s r (ansRefused 0x0801))
    ∧ ((pair s).st = 3 → planPasses s r.pid.val = false → Reads (.pairMove i) s r (ansRefused 0x0802))

/-! ## The Darrad link -/

/-- DARRAD_LINK_TRAINED of a link that is down: it is UP, numbering starts from 0 in both directions, and HELLO goes out
(R439, R441). -/
def linkTrainedRow : Prop :=
  ∀ s : State, domOn s 5 = true → (pair s).link = .down → (pair s).training = false →
    Ends .darradLinkTrained s (fun t =>
      (pair t).link = .up ∧ (pair t).trained = true ∧ (pair t).rxSeq = 0 ∧ (pair t).txSeq = 1 ∧ (pair t).helloOut = true
      ∧ (pair t).helloSeen = false ∧ t.parts = s.parts)

/-- DARRAD_FRAME_ERROR: a frame made good by its replay is a transient fault; the second failure retrains the link
(R439, R470). -/
def frameErrorRow : Prop :=
  ∀ s : State, darradUp s = true →
    Ends (.darradFrameError false) s (fun t => s.LoggedTo t)
    ∧ Ends (.darradFrameError true) s (fun t =>
      (pair t).link = .down ∧ (pair t).training = true ∧ (pair t).trained = false)

/-- DARRAD_RETRAIN_DONE: the link is up again; the second failed retraining fences it (R439, R470). -/
def retrainDoneRow : Prop :=
  ∀ s : State, domOn s 5 = true → (pair s).training = true →
    Ends (.darradRetrainDone true) s (fun t => (pair t).link = .up ∧ (pair t).training = false ∧ (pair t).helloOut = true)
    ∧ ((pair s).retrainTried = false →
      exec (.darradRetrainDone false) s = .next (modPair (fun p => { p with retrainTried := true }) s))
    ∧ ((pair s).retrainTried = true → Ends (.darradRetrainDone false) s (fun t => (pair t).link = .fenced))

/-- DARRAD_TX_FAILURE: the link is down, and every MIRRORED partition that runs is FENCED (R455). -/
def txFailureRow : Prop :=
  ∀ s : State, domOn s 5 = true → (pair s).link = .up →
    Ends .darradTxFailure s (fun t =>
      (pair t).link = .down ∧ (pair t).trained = false
      ∧ ∀ p, (partOf s p).st = .enabled → (partOf s p).g.mirrored = true → (partOf s p).sc.teardownAtBoundary = false →
          (partOf t p).st = .fenced)

/-- DARRAD_UNKNOWN_FRAME is dropped as a violation (Table PAIR-5). -/
def unknownFrameRow : Prop :=
  ∀ (h : DarradHdr) (s : State), darradUp s = true →
    Ends (.darradUnknownFrame h) s (fun t =>
      (modPair (fun p => { p with rxSeq := (h.linkSeq + 1) % 2 ^ 32 }) s).LoggedTo t)

/-! ## HELLO, HOLD and heartbeats -/

/-- DARRAD_HELLO of a chip that matches, while ALONE: the pair is JOINING at the greater generation, the chip with the lower
serial has role 0, and the partner is present (R441, R444). -/
def helloRow : Prop :=
  ∀ (h : DarradHdr) (serial numerics lo hi policy : Nat) (s : State), darradUp s = true → h.flags ≤ 1 → policy ≤ 1 →
    helloMismatch s serial numerics lo hi = 0 → (pair s).st = 0 → serial ≠ s.ao.fuse.serial →
    Ends (.darradHello h serial numerics lo hi policy) s (fun t =>
      (pair t).st = 1 ∧ (pair t).gen = max (pair s).gen h.gen
      ∧ (pair t).role = (if s.ao.fuse.serial < serial then 0 else 1) ∧ (pair t).partner = 0
      ∧ (pair t).partnerSerial = serial ∧ (pair t).partnerAuto = (policy == 1) ∧ (pair t).helloSeen = true
      ∧ (pair t).holdSeen = false ∧ t.parts = s.parts)

/-- DARRAD_HELLO of a chip with other numerics, no common interface or no serial: no pair (R441). -/
def helloRefused : Prop :=
  ∀ (h : DarradHdr) (serial numerics lo hi policy : Nat) (s : State), darradUp s = true → h.flags ≤ 1 → policy ≤ 1 →
    helloMismatch s serial numerics lo hi ≠ 0 →
    Ends (.darradHello h serial numerics lo hi policy) s (fun t =>
      (pair t).st = 0 ∧ (pair t).helloSeen = false ∧ (pair t).role = 0xFF)

/-- HELLO_RETRY_TICK: while ALONE or INTERRUPTED HELLO goes out; otherwise nothing changes (R441, R452). -/
def helloRetryRow : Prop :=
  ∀ s : State,
    (darradUp s = true → ((pair s).st = 0 ∨ (pair s).st = 4) → Ends .helloRetryTick s (fun t =>
      t.units.pair = { pair s with helloOut := true, txSeq := ((pair s).txSeq + 1) % 2 ^ 32 } ∧ t.parts = s.parts
      ∧ t.host = s.host))
    ∧ ((pair s).st = 3 → exec .helloRetryTick s = .next s)

/-- A frame that the chip takes in: the link is up, the flags are known, HELLO was exchanged, and the frame's pair
generation is not behind (R439, R442, Table PAIR-5). -/
structure Frame (s : State) (h : DarradHdr) : Prop where
  up : darradUp s = true
  flags : h.flags ≤ 1
  hello : (pair s).helloSeen = true
  gen : (pair s).gen ≤ h.gen

/-- HOLD: the partner holds the ids it names; an id that this chip holds at a lower ownership generation is fenced here as
a lost conflict (R442, R461). -/
def holdRow : Prop :=
  ∀ (h : DarradHdr) (s : State), Frame s h →
    (∀ ids : List (Nat × Nat), (∀ x ∈ ids, x.1 < 64 ∧ ∀ p : Pid, p.val = x.1 → (partOf s p).st = .free) →
      Ends (.hold h ids) s (fun t => (pair t).partnerIds = ids ∧ (pair t).holdSeen = true ∧ t.parts = s.parts))
    ∧ (∀ (p : Pid) (g : Nat), (partOf s p).st = .enabled → (partOf s p).conflict = false → (partOf s p).gen < g →
      (partOf s p).sc.teardownAtBoundary = false →
      Ends (.hold h [(p.val, g)]) s (fun t => (partOf t p).st = .fenced ∧ (partOf t p).conflict = true
        ∧ (pair t).partnerIds = [(p.val, g)]))

/-- HEARTBEAT in PAIRED: the partner is not missed, and what it reports of policy, plans and generation is kept (R453). -/
def heartbeatRow : Prop :=
  ∀ (h : DarradHdr) (st policy : Nat) (next : List (Nat × Nat × Nat)) (plans : List PlanState) (s : State), Frame s h →
    st ≤ 4 → policy ≤ 1 → (pair s).partner = 0 → (pair s).st = 3 → mirroredHeld s = [] →
    Ends (.heartbeat h st policy next plans) s (fun t =>
      (pair t).missed = 0 ∧ (pair t).partnerPlans = plans ∧ (pair t).partnerAuto = (policy == 1)
      ∧ (pair t).gen = max (pair s).gen h.gen ∧ (pair t).st = 3 ∧ t.parts = s.parts ∧ t.host = s.host)

/-- HEARTBEAT_SEND_TICK sends one frame over a link that is up (R453). -/
def heartbeatSendRow : Prop :=
  ∀ s : State,
    (darradUp s = true → Ends .heartbeatSendTick s (fun t =>
      t.units.pair = { pair s with txSeq := ((pair s).txSeq + 1) % 2 ^ 32 } ∧ t.parts = s.parts ∧ t.host = s.host))
    ∧ (darradUp s = false → exec .heartbeatSendTick s = .next s)

/-- HEARTBEAT_MISS: the third in a row declares the partner LOST without its signal and SILENT with it (R453). -/
def heartbeatMissRow : Prop :=
  ∀ (los : Bool) (s : State), domOn s 5 = true → (pair s).partner = 0 → (pair s).st ≠ 0 →
    ((pair s).missed + 1 < 3 →
      exec (.heartbeatMiss los) s = .next (modPair (fun p => { p with missed := p.missed + 1 }) s))
    ∧ (2 ≤ (pair s).missed → (pair s).auto_ = false → Ends (.heartbeatMiss los) s (fun t =>
      (pair t).partner = (if los then 1 else 2) ∧ (pair t).st = 0 ∧ (pair t).role = 0xFF ∧ (pair t).helloSeen = false
      ∧ (pair t).gen = (pair s).gen))

/-- DEPARTURE without AUTO: the partner is LOST, and nothing is taken over (R453, R454). -/
def departureRow : Prop :=
  ∀ (h : DarradHdr) (s : State), Frame s h → (pair s).partner = 0 → (pair s).auto_ = false →
    Ends (.departure h) s (fun t => (pair t).partner = 1 ∧ (pair t).st = 0 ∧ (pair t).gen = (pair s).gen)

/-! ## Mirror messages -/

/-- MIRROR_GRANT for an id that the partner holds is stored and acknowledged (R445, R451). -/
def mirrorGrantRow : Prop :=
  ∀ (h : DarradHdr) (m : MirGrant) (s : State) (p : Pid), Frame s h → h.part = p.val → m.grants.length = 120 →
    (m.imageHash.length = 48 ∨ m.imageHash.length = 0) → partnerHolds s p.val = true →
    Ends (.mirrorGrant h m) s (fun t =>
      (∃ y, mirrorOf t p.val = some y ∧ y.grant = some m) ∧ (pair t).txSeq = ((pair s).txSeq + 1) % 2 ^ 32
      ∧ t.parts = s.parts ∧ t.host = s.host ∧ t.log = s.log)

/-- MIRROR_GRANT for an id that the partner does not hold is dropped (Table PAIR-5). -/
def mirrorGrantForeign : Prop :=
  ∀ (h : DarradHdr) (m : MirGrant) (s : State) (p : Pid), Frame s h → h.part = p.val → m.grants.length = 120 →
    m.imageHash.length = 48 → partnerHolds s p.val = false →
    Ends (.mirrorGrant h m) s (fun t =>
      (modPair (fun p => { p with rxSeq := (h.linkSeq + 1) % 2 ^ 32 }) s).LoggedTo t)

/-- MIRROR_STEP in its turn: it is the last one applied, and the next is expected (R451). -/
def mirrorStepRow : Prop :=
  ∀ (h : DarradHdr) (m : MirStep) (s : State) (p : Pid) (x : Mirror) (g : MirGrant), Frame s h → h.flags = 0 →
    h.part = p.val → partnerHolds s p.val = true → mirrorOf s p.val = some x → x.grant = some g →
    (x.expect = none ∨ x.expect = some m.boundary) →
    Ends (.mirrorStep h m) s (fun t =>
      (∃ y, mirrorOf t p.val = some y ∧ y.step = some m ∧ y.expect = some (m.boundary + 1) ∧ y.grant = some g)
      ∧ (pair t).txSeq = ((pair s).txSeq + 1) % 2 ^ 32 ∧ t.parts = s.parts ∧ t.host = s.host)

/-- MIRROR_ACK of a MIRROR_GRANT that waits: it waits no more; one of nothing that waits is a late discard (R452). -/
def mirrorAckRow : Prop :=
  ∀ (h : DarradHdr) (s : State) (p : Pid), Frame s h → h.part = p.val →
    (∀ m, (partOf s p).mirWait.find? (fun m => m.tag == h.tag) = some m → m.step = none →
      Ends (.mirrorAck h) s (fun t => (partOf t p).mirWait = (partOf s p).mirWait.filter (fun x => x.tag != h.tag)
        ∧ (partOf t p).st = (partOf s p).st))
    ∧ ((partOf s p).mirWait.find? (fun m => m.tag == h.tag) = none →
      Ends (.mirrorAck h) s (fun t =>
        (modPair (fun p => { p with rxSeq := (h.linkSeq + 1) % 2 ^ 32 }) s).LoggedTo t))

/-- MIRROR_ACK of a step's message: its boundary completes (R451, Table SCH-7). -/
def mirrorAckStep : Prop :=
  ∀ (h : DarradHdr) (s : State) (p : Pid) (m : MirMsg) (x : MirStep) (st : OpenStep), Frame s h → h.part = p.val →
    (partOf s p).mirWait.find? (fun m => m.tag == h.tag) = some m → m.step = some x →
    (partOf s p).sc.steps.find? (fun st => st.mirroring) = some st → x.boundary = (partOf s p).sc.boundaries + 1 →
    Ends (.mirrorAck h) s (fun t => (partOf t p).ld.cursor = stepAfter (partOf s p) st.first
      ∧ (partOf t p).cnt.steps = satAdd 64 (partOf s p).cnt.steps 1)

/-- MIRROR_ACK_TIMEOUT: the oldest message is sent once more; its second timeout interrupts the pair (R452). -/
def mirrorTimeoutRow : Prop :=
  ∀ (p : Pid) (s : State),
    ((partOf s p).mirWait = [] → exec (.mirrorAckTimeout p) s = .next s)
    ∧ (∀ m rest, (partOf s p).mirWait = m :: rest → m.resent = false → Ends (.mirrorAckTimeout p) s (fun t =>
      (partOf t p).mirWait = { m with resent := true } :: rest ∧ (pair t).st = (pair s).st
      ∧ (∀ q, q ≠ p → partOf t q = partOf s q) ∧ t.host = s.host))
    ∧ (∀ m rest, (partOf s p).mirWait = m :: rest → m.resent = true → (pair s).st = 3 →
      Ends (.mirrorAckTimeout p) s (fun t => (pair t).st = 4 ∧ (pair t).resync = []))

/-! ## Moves, split runs and seeding -/

/-- MOVE of an id that the partner holds and that this chip has a SEEDED plan for, which passes and whose resources are
free: the partition passes here in PAUSED at a pair generation raised by 1; without a plan it is refused (R463). -/
def moveRow : Prop :=
  ∀ (h : DarradHdr) (s : State) (p : Pid), Frame s h → h.part = p.val → partnerHolds s p.val = true →
    (∀ x m i g, planOf s p.val = some x → mirrorOf s p.val = some m → x.image = some i → m.grant = some g → x.st = 3 →
      x.reason = 0 → x.req = none →
      (examine (modPair (fun y => { y with rxSeq := (h.linkSeq + 1) % 2 ^ 32 }) s) p { planGrants x g with prio := 0 } []).reason = 0 →
      Ends (.move h) s (fun t => (partOf t p).st = .paused ∧ (partOf t p).gen = ((pair s).gen + 1) % 2 ^ 32
        ∧ (partOf t p).ld.image = some i ∧ (partOf t p).ld.seed = g.seed ∧ partnerHolds t p.val = false
        ∧ planOf t p.val = none))
    ∧ (planOf s p.val = none → Ends (.move h) s (fun t => t.units.pair.partnerIds = (pair s).partnerIds
      ∧ (∀ q, (partOf t q).st = (partOf s q).st) ∧ (pair t).gen = (pair s).gen))

/-- MOVE_ACK: a refusal answers PAIR_MOVE and leaves the partition here; an acceptance ends it here: the copy is torn down,
and the partner holds the id (R463, R524). -/
def moveAckRow : Prop :=
  ∀ (h : DarradHdr) (s : State) (p : Pid) (i : ReqId), Frame s h → h.part = p.val →
    (pair s).moving.find? (fun m => m.1 == p.val) = some (p.val, i) →
    (∀ k, k ≠ 0 → Ends (.moveAck h k) s (fun t => findReq t i = none ∧ (∀ m ∈ (pair t).moving, m.1 ≠ p.val)
      ∧ (pair t).partnerIds = (pair s).partnerIds))
    ∧ ((partOf s p).sc.pauseReq = none → Ends (.moveAck h 0) s (fun t =>
      findReq t i = none ∧ (partOf t p).st = .tearingDown ∧ (partOf t p).td = 0
      ∧ partnerHolds t p.val = true ∧ (pair t).gen = max (pair s).gen h.gen))

/-- CHURN_PROBLEM: the first segment of a problem is kept for chain 1 (R354, R440). -/
def churnProblemRow : Prop :=
  ∀ (h : DarradHdr) (b : List Byte) (s : State) (p : Pid), Frame s h → h.part = p.val → 17 ≤ b.length → b.length ≤ 4072 →
    zeroAt b 6 2 = true → partnerHolds s p.val = true → churnUp s = true → field b 0x0C 4 = 0 →
    Ends (.churnProblem h b) s (fun t =>
      (∃ x ∈ t.units.churn.chain1, x.part = p ∧ x.rev = field b 0 4 ∧ x.epoch = field b 4 2 ∧ x.total = field b 8 4
        ∧ x.bytes = b.drop 0x10)
      ∧ t.parts = s.parts ∧ t.host = s.host)

/-- CHURN_STAGE from chain 1: the holder's run has what the other chain reported (R354). -/
def churnStageRow : Prop :=
  ∀ (h : DarradHdr) (b : List Byte) (s : State) (p : Pid), Frame s h → h.part = p.val → b.length = 2072 →
    zeroAt b 6 2 = true → zeroAt b 0x14 4 = true → field b 4 1 = 1 → field b 5 1 ≤ 15 →
    Ends (.churnStage h b) s (fun t =>
      (partOf t p).runs = modFirst (fun r => r.kind == 1 && r.split && r.tag == field b 0 4) (hearStage b) (partOf s p).runs
      ∧ (∀ q, q ≠ p → partOf t q = partOf s q) ∧ t.host = s.host)

/-- SEED of a copy in work, not its last frame: the bytes are in the standby window, and the plan has counted them; a frame
outside the window is dropped, and the plan is UNSEEDED (R440, R448, Table PAIR-5). -/
def seedRow : Prop :=
  ∀ (h : DarradHdr) (b : List Byte) (s : State) (p : Pid) (x : Plan), Frame s h → h.part = p.val → 17 ≤ b.length →
    b.length ≤ 4072 → zeroAt b 0x0D 3 = true → field b 0x0C 1 = 0 → planOf s p.val = some x →
    (inWindow x.win (field b 0 8) (b.length - 16) = true → x.win.unzero = [] → x.st = 2 → x.copy = field b 8 4 →
      Ends (.seed h b) s (fun t =>
        (∃ y, planOf t p.val = some y ∧ y.st = 2 ∧ y.copy = x.copy ∧ y.got = x.got + (b.length - 16) ∧ y.win = x.win)
        ∧ t.units.mem = (winWriteAt x.win (field b 0 8) (b.drop 16) s.units.mem) ∧ t.parts = s.parts ∧ t.host = s.host))
    ∧ (inWindow x.win (field b 0 8) (b.length - 16) = false → Ends (.seed h b) s (fun t =>
        (∃ y, planOf t p.val = some y ∧ y.st = 1 ∧ y.got = 0) ∧ t.units.mem = s.units.mem))

/-- SEED_DONE of a copy under way that is complete: it is under way no more (R440, R448). -/
def seedDoneRow : Prop :=
  ∀ (h : DarradHdr) (b : List Byte) (s : State) (p : Pid) (k : Nat), Frame s h → h.part = p.val → b.length = 16 →
    zeroAt b 5 3 = true → field b 4 1 = 0 → field b 0 4 = k →
    (pair s).seeding.find? (fun e => e.1 == p.val && e.2.1 == k) = some (p.val, k, false) →
    Ends (.seedDone h b) s (fun t =>
      (pair t).seeding = (pair s).seeding.filter (fun y => y.1 != p.val) ∧ t.parts = s.parts ∧ t.host = s.host)

/-- SUSPENDED_RESOURCES_FREE once all that was lost is free: the partition is PAUSED and owes nothing; before, nothing
changes (R458). -/
def resourcesFreeRow : Prop :=
  ∀ (p : Pid) (s : State) (l : Grants), (partOf s p).st = .suspended → (partOf s p).lent = some l →
    (lostFree s p l = true → Ends (.suspendedResourcesFree p) s (fun t =>
      (partOf t p).st = .paused ∧ (partOf t p).lent = none ∧ (partOf t p).cause = 0
      ∧ (∀ c ∈ l.clusters, c ∈ (partOf t p).g.clusters) ∧ (∀ q, q ≠ p → partOf t q = partOf s q)))
    ∧ (lostFree s p l = false → exec (.suspendedResourcesFree p) s = .next s)

end Sys2Proof.Claims
namespace Sys2Proof.Claims
open Sys2Proof.Machine

/-! ## The event log and DIAG_RUN -/

/-- A record is 36 bytes: Table ERR-7's 32 and their CRC-32 (R480). -/
def recordLayout : Prop :=
  ∀ r : LogRec, (recBytes r).length = 36
    ∧ (recBytes r).take 32 = toLe 8 r.ts ++ toLe 4 r.seq ++ toLe 1 r.part ++ toLe 1 r.sev ++ toLe 2 r.code
        ++ toLe 4 r.a0 ++ toLe 4 r.a1 ++ toLe 4 r.a2 ++ toLe 4 r.a3
    ∧ (recBytes r).drop 32 = toLe 4 (crc32 ((recBytes r).take 32))

/-- LOG_READ answers with the retained records from the start it names that the reader may see, and changes nothing
(R37, R484, R525). -/
def logReadRow : Prop :=
  ∀ (i : ReqId) (s : State) (r : Req), Turn s i 0x0C01 r → 1 ≤ field r.payload 4 2 → field r.payload 4 2 ≤ 112 →
    field r.payload 6 1 ≤ 1 → zeroAt r.payload 7 1 = true →
    Reads (.logRead i) s r (ansOk (logAnswer s.log (field r.payload 0 4) (field r.payload 4 2)
      (bit (field r.payload 6 1) 0) (fun x => r.part == 0xFF || x.part == r.part)))

/-- An answer of LOG_READ never shows a VF another partition's record (R37). -/
def logReadOwn : Prop :=
  ∀ (l : LogSt) (start cap : Nat) (o : Bool) (sees : LogRec → Bool), ∃ got : List LogRec,
    (logAnswer l start cap o sees).drop 16 = got.flatMap recBytes ∧ got.length ≤ cap ∧ ∀ x ∈ got, sees x = true ∧ x ∈ retained l

/-- LOG_RATE_SECOND: the second that follows starts with nothing counted, and drops are reported in one record (R483). -/
def logRateRow : Prop :=
  ∀ s : State,
    (s.log.dropped = 0 → exec .logRateSecond s =
      .next (modLog (fun l => { l with inSecond := 0, dropped := 0, dropFirst := 0 }) s))
    ∧ (s.log.dropped ≠ 0 → Ends .logRateSecond s (fun t =>
      t.log.dropped = 0 ∧ t.log.nextSeq = (s.log.nextSeq + 1) % 2 ^ 32 ∧ t.parts = s.parts ∧ t.units = s.units))

/-- DIAG_RUN answers with the result that the test gives and changes nothing: SELF_TEST of a unit that no partition is
granted, LOCKSTEP_CHECK of a control pair, LOOPBACK of an Ethernet port, SCOREBOARD_DUMP of a cluster with its 256
entries (R237, R526). -/
def diagRows : Prop :=
  ∀ (i : ReqId) (res : DiagResult) (s : State) (r : Req) (u k : Nat), Turn s i 0x0C02 r → s.ao.service = false →
    field r.payload 0 4 = u → u = unitId k (u % 2 ^ 24) → unitExists u = true → zeroAt r.payload 5 3 = true →
    (field r.payload 4 1 = 1 → unitGranted s u = false → k ≠ 0x0B → k ≠ 0x0C → k ≠ 0x14 →
      Reads (.diagRunSelfTest i res) s r (ansOk (toLe 1 (min res.result 2) ++ zeros 3 ++ toLe 4 res.detail)))
    ∧ (field r.payload 4 1 = 2 → k = 8 →
      Reads (.diagRunScoreboardDump i) s r (ansOk (toLe 1 0 ++ zeros 3 ++ toLe 4 0 ++ boardBytes s (u % 2 ^ 24))))
    ∧ (field r.payload 4 1 = 3 → k = 0x11 →
      Reads (.diagRunLockstepCheck i res) s r (ansOk (toLe 1 (min res.result 2) ++ zeros 3 ++ toLe 4 res.detail)))
    ∧ (field r.payload 4 1 = 4 → k = 0x0A →
      Reads (.diagRunLoopback i res) s r (ansOk (toLe 1 (min res.result 2) ++ zeros 3 ++ toLe 4 res.detail)))

/-- DIAG_RUN, SELF_TEST, of a unit that a partition is granted is NOT_OWNER (R526). -/
def diagOwned : Prop :=
  ∀ (i : ReqId) (res : DiagResult) (s : State) (r : Req), Turn s i 0x0C02 r → s.ao.service = false →
    unitExists (field r.payload 0 4) = true → field r.payload 4 1 = 1 → zeroAt r.payload 5 3 = true →
    unitGranted s (field r.payload 0 4) = true → Reads (.diagRunSelfTest i res) s r ansNotOwner

/-- DIAG_RUN, LOOPBACK, of a unit that is no port, and SELF_TEST of a target, do not apply: result 2 (R526). -/
def diagNotApplicable : Prop :=
  ∀ (i : ReqId) (res : DiagResult) (s : State) (r : Req), Turn s i 0x0C02 r → s.ao.service = false →
    unitExists (field r.payload 0 4) = true → field r.payload 4 1 = 4 → zeroAt r.payload 5 3 = true →
    field r.payload 0 4 / 2 ^ 24 = 0x11 →
    Reads (.diagRunLoopback i res) s r (ansOk (toLe 1 2 ++ zeros 3 ++ toLe 4 0))

end Sys2Proof.Claims
namespace Sys2Proof.Claims
open Sys2Proof.Machine

/-! ## Every command -/

/-- Every command has an effect in every state: no step of the block faults or is refused. -/
def everyCommand : Prop := ∀ (c : Instr) (s : State), ∃ t, exec c s = .next t

/-- With no command waiting a step only lets time pass (log entry 2). -/
def stepIdle : Prop := ∀ s : State, s.pending = [] → step s = .next { s with time := s.time + 1 }

/-- No command adds to the queue of waiting commands or takes from it, takes back a message that was sent, or restores a
fuse (R75, R77, R137, R420). -/
def commandKeeps : Prop :=
  ∀ (c : Instr) (s t : State), exec c s = .next t →
    t.pending = s.pending ∧ s.out <:+ t.out ∧ s.ao.fuse.Before t.ao.fuse

/-- Every step keeps the bounds of the log ring, the spill area and the hold queues, and the canonical form of near
memory (R100, R482). -/
def stepKeepsInv : Prop := ∀ s t : State, s.Inv → step s = .next t → t.Inv

/-! ## Reset -/

/-- The state after reset meets the invariant, and nothing waits. -/
def resetInv : Prop := State.reset.Inv ∧ State.reset.pending = []

/-- After reset every partition is FREE and holds nothing, every mailbox is IDLE and both rings of every function are
disabled with LOG_ENTRIES 0, interrupts are masked, every switched domain is OFF, and PERST# is asserted. -/
def resetValues : Prop :=
  (∀ p, partOf State.reset p = {}) ∧ (∀ f, (mbx State.reset f).state = .idle ∧ (mbx State.reset f).nextSeq = 0)
  ∧ (∀ f, (ring State.reset f).sqEn = false ∧ (ring State.reset f).cqEn = false
      ∧ (ring State.reset f).sqSize = 0 ∧ (ring State.reset f).cqSize = 0)
  ∧ (∀ f, (irq State.reset f).mask = 0xF ∧ (irq State.reset f).status = 0)
  ∧ domOf State.reset 0 = .on ∧ (∀ d, 1 ≤ d → d < 8 → domOf State.reset d = .off)
  ∧ State.reset.ao.mod_.perst = true ∧ State.reset.log.ring = [] ∧ State.reset.units.mem.cells = []

/-! ## Dill -/

/-- The key schedule (R301). -/
def dillKeys : Prop :=
  ∀ v : BitVec 128, dillKey v =
    [v.extractLsb' 0 32, v.extractLsb' 32 32, v.extractLsb' 64 32, v.extractLsb' 96 32,
      0x3A5DC7B1#32 ^^^ v.extractLsb' 0 32 ^^^ v.extractLsb' 32 32 ^^^ v.extractLsb' 64 32 ^^^ v.extractLsb' 96 32]

/-- The trace of Table RNG-4: seed 0, index 0 (R307). -/
def dillTrace : Prop :=
  let k := dillKey 0
  let x := dillInject k 1 (dillRounds 5 (dillInject k 0 ⟨0, 0, 0, 0⟩))
  dillRounds 5 (dillInject k 0 ⟨0, 0, 0, 0⟩) = ⟨0, 0, 0, 0⟩
  ∧ x = ⟨0, 0, 0, 0x3A5DC7B2⟩
  ∧ dillRounds 1 x = ⟨0x23A5DC7B, 0xD3AFC3DB, 0xDF986141, 0x17E626E4⟩
  ∧ dillRounds 2 x = ⟨0x3F789BB4, 0x2F378E4B, 0x30C649AD, 0xCA7B07B9⟩
  ∧ dillRounds 3 x = ⟨0x24B36102, 0x081E2D18, 0x54D2B782, 0xF5C5C90A⟩
  ∧ dillRounds 4 x = ⟨0x08AA7759, 0x4DA8D493, 0x5691DDE5, 0xBAAE4D4F⟩
  ∧ dillRounds 5 x = ⟨0x283A5CF5, 0x2192702C, 0xF6E5D310, 0x99B0082E⟩
  ∧ dillInject k 2 (dillRounds 5 x) = ⟨0x283A5CF5, 0x2192702C, 0x31439AC1, 0x99B00830⟩
  ∧ dill 0 0 = 0x99B0083031439AC12192702C283A5CF5

/-- The fields of a logical index are where R303 puts them, and distinct fields give distinct indices. -/
def dillIndexFields : Prop :=
  ∀ e i o x : Nat, e < 2 ^ 16 → i < 2 ^ 40 → o < 2 ^ 16 → x < 2 ^ 56 →
    ((dillIndex e i o x).extractLsb' 112 16).toNat = e ∧ ((dillIndex e i o x).extractLsb' 72 40).toNat = i
    ∧ ((dillIndex e i o x).extractLsb' 56 16).toNat = o ∧ ((dillIndex e i o x).extractLsb' 0 56).toNat = x
    ∧ (∀ step, step < 2 ^ 38 → stepScopeId step = 2 ^ 39 + step)

/-! ## Routing keys -/

/-- Keys of R318: distinct tokens have distinct keys, a higher score gives a higher key, and an equal score gives the
higher key to the lower token index. -/
def routeKeys : Prop :=
  ∀ (v w : Word32) (i j : Nat), i < 2 ^ 40 → j < 2 ^ 40 → v.toNat < 2 ^ 31 → w.toNat < 2 ^ 31 →
    (w.toNat < v.toNat → routeKey w j < routeKey v i)
    ∧ (i < j → routeKey v j < routeKey v i)
    ∧ (routeKey v i = routeKey w j → v = w ∧ i = j)
    ∧ routeKey v i < 2 ^ 71
    ∧ routeKey v i / 2 ^ 40 = v.toNat ∧ routeKey v i % 2 ^ 40 = 2 ^ 40 - 1 - i

/-! ## Buffers and windows as memory -/

/-- A handle's fields are where Table BUF-3 puts them (R209). -/
def handleFields : Prop :=
  ∀ d : Desc, d.cls < 8 → d.part < 64 → d.gen < 2 ^ 15 → d.index < 2 ^ 24 →
    hCls (handleOf d) = d.cls ∧ hPart (handleOf d) = d.part ∧ hGen (handleOf d) = d.gen ∧ hIndex (handleOf d) = d.index
    ∧ handleOf d < 2 ^ 48

/-- BUFFER_ACCESS as memory (R224): after a write by the owner, a read of the bytes it wrote gives them, a read of any
other byte of the buffer gives what it gave before (zero where its sector had not been written), and the handle is still
good. -/
def bufferReadsBack : Prop :=
  ∀ (p : Pid) (u : Owner) (h : Word64) (off : Nat) (bs : List Byte) (d : Desc) (s : State),
    s.units.pool.inService = true → ownedBy s p u h.toNat = some d → off + bs.length ≤ classSize d.cls →
    (∀ r ∈ s.units.pool.area, r < 1024) → memWf s.units.mem.cells = true →
    Ends (.bufferAccess p u h off 0 (some bs)) s (fun t =>
      ∃ e, ownedBy t p u h.toNat = some e
      ∧ (∀ k, k < bs.length → bufRead t e (off + k) 1 = [bs.getD k 0])
      ∧ (∀ b, b < classSize d.cls → (b < off ∨ off + bs.length ≤ b) → bufRead t e b 1 = bufRead s d b 1))

/-- Isolation of windows (R181, R185): where no half-row is in two windows, what a partition writes through its window
changes no byte that another partition reads through its own. -/
def windowIsolation : Prop :=
  ∀ (a : MemAccess) (bs : List Byte) (q : Pid) (s : State), domOn s 2 = true → plainAccess a → a.write = some bs →
    inWindow (partOf s a.part).g.win a.addr bs.length = true → writesRo (partOf s a.part) a.addr bs.length = false →
    (∀ x ∈ winHalfRows (partOf s a.part).g.win, x ∉ winHalfRows (partOf s q).g.win) →
    (∀ w ∈ [(partOf s a.part).g.win, (partOf s q).g.win], ∀ x ∈ winHalfRows w, x.row < 1024) →
    memWf s.units.mem.cells = true →
    Ends (.nearMemoryAccess a) s (fun t => ∀ wa n, winRead t q wa n = winRead s q wa n)

end Sys2Proof.Claims
namespace Sys2Proof.Claims
open Sys2Proof.Machine

/-! ## Rules stated whole -/

/-- Which partitions a function serves (R82): VF v serves partition v − 1 alone; the PF serves partition id 0xFF and may
name any partition. -/
def functionPartitions : Prop :=
  (∀ (f : Fn) (part : Nat), f.val ≠ 0 → (partCheck f part = none ↔ part = f.val - 1))
  ∧ (∀ (f : Fn) (part : Nat), f.val = 0 → (partCheck f part = none ↔ part < 64 ∨ part = 0xFF))
  ∧ ∀ v : Pid, (fnOfPart v).val = v.val + 1

/-- DEVICE_RESET (R497): kind 1 is WARM and kind 2 COLD, each with three reserved bytes of zero; each is answered OK and
the reset is due; any other kind, or a reserved byte that is not zero, is BAD_FIELD and no reset is due. -/
def deviceResetKinds : Prop :=
  ∀ (i : ReqId) (s : State) (r : Req), Turn s i 0x0104 r →
    (field r.payload 0 1 = 1 → zeroAt r.payload 1 3 = true →
      Answers (.deviceResetWarm i) s r ansOk (fun t => t = modBoot (fun b => { b with resetKind := 1 }) s))
    ∧ (field r.payload 0 1 = 2 → zeroAt r.payload 1 3 = true →
      Answers (.deviceResetCold i) s r ansOk (fun t => t = modBoot (fun b => { b with resetKind := 2 }) s))
    ∧ (field r.payload 0 1 ≠ 1 → field r.payload 0 1 ≠ 2 →
      exec (.deviceResetWarm i) s = .next (finish r ansBad (violation r.fn 8 0x0104 s)))
    ∧ (field r.payload 0 1 = 1 → zeroAt r.payload 1 3 = false →
      exec (.deviceResetWarm i) s = .next (finish r ansBad (violation r.fn 8 0x0104 s)))
    ∧ (field r.payload 0 1 = 2 → zeroAt r.payload 1 3 = false →
      exec (.deviceResetCold i) s = .next (finish r ansBad (violation r.fn 8 0x0104 s)))

/-- Once a DEVICE_RESET was answered no command that waits takes effect any more (R497). -/
def resetEndsCommands : Prop :=
  ∀ (s : State), s.ao.boot.resetKind ≠ 0 →
    headReq s = none ∧ ∀ i op sel fields body, runCmd i op sel fields body s = s

/-- The takeover policy (R443, R521): CONFIRM at reset; PAIR_CONFIG of a VF never becomes a request; of the PF it sets
AUTO with 1 and CONFIRM with 0, at once and nothing else; any other value, or a reserved byte that is not zero, is
BAD_FIELD; the next HELLO and HEARTBEAT carry the policy in force. -/
def pairPolicy : Prop :=
  State.reset.units.pair.auto_ = false
  ∧ (∀ (s : State) (f : Fn) (q : Bool) (len part cap : Nat), f.val ≠ 0 → ∃ k a, headerChecks s f q 0x0B02 len part cap = some (k, a))
  ∧ (∀ (i : ReqId) (s : State) (r : Req), Turn s i 0x0B02 r →
    (field r.payload 0 1 ≤ 1 → zeroAt r.payload 1 3 = true →
      Answers (.pairConfig i) s r ansOk (fun t => t = modPair (fun p => { p with auto_ := field r.payload 0 1 == 1 }) s))
    ∧ ((1 < field r.payload 0 1 ∨ zeroAt r.payload 1 3 = false) →
      exec (.pairConfig i) s = .next (finish r ansBad (violation r.fn 8 0x0B02 s))))
  ∧ (∀ s : State, darradUp s = true →
    ((pair s).st = 0 ∨ (pair s).st = 4 → Ends .helloRetryTick s (fun t => ∃ h, t.out =
      .hello h s.ao.fuse.serial s.ao.fw.numerics s.ao.fw.verMin s.ao.fw.verMax (pair s).auto_.toNat :: s.out))
    ∧ Ends .heartbeatSendTick s (fun t => ∃ h next plans, t.out =
      .heartbeat h (pair s).st (pair s).auto_.toNat next plans :: s.out))

/-- A function in D3hot sends no MSI-X message (R418). -/
def d3NoMessage : Prop :=
  ∀ (f : Fn) (v : Fin 3) (s : State), (fnOf s f).d3 = true → (sendMsix f v s).out = s.out

end Sys2Proof.Claims
/-! ## The obligations -/

open Sys2Proof

/-- A step carries out the command at the front of the queue on the rest. -/
def Obligations.StepRunsFrontCommand : Prop :=
  Claims.stepRunsFront

/-- No command faults or is refused, in any state; with none waiting a step lets time pass (the model's choice, log
entry 2). Rests on log entry 2. -/
def Obligations.EveryStepGoesOn : Prop :=
  Claims.everyCommand ∧ Claims.stepIdle

/-- The state after reset (values the spec leaves open: log entry 1) meets the invariant, and what it holds. Rests
on log entry 1. -/
def Obligations.ResetStateMeetsInvariant : Prop :=
  Claims.resetInv ∧ Claims.resetValues

/-- Every step keeps the log, hold-queue and near-memory invariant. -/
def Obligations.StepKeepsInvariant : Prop :=
  Claims.stepKeepsInv

/-- No command touches the waiting commands, takes back a message or restores a fuse. -/
def Obligations.CommandsKeepQueueFusesAndMessages : Prop :=
  Claims.commandKeeps

/-- A cursor packs and unpacks, a response window reads 0 past its payload, a log record has its layout. -/
def Obligations.CursorWindowAndRecordLayouts : Prop :=
  Claims.cursorPack ∧ Claims.windowBeyond ∧ Claims.recordLayout

/-- Which partitions each PCIe function serves. -/
def Obligations.FunctionsServePartitions : Prop :=
  Claims.functionPartitions

/-- MBX_SUBMIT takes, refuses, replays or ignores; MBX_RELEASE; MAILBOX_TIMEOUT; deferred requests and stalled
rings. Rests on log entries 23, 39. -/
def Obligations.MailboxRequests : Prop :=
  Claims.mbxSubmitTaken ∧ Claims.mbxSubmitOverrun ∧ Claims.mbxSubmitReplay ∧ Claims.mbxSubmitRefused ∧
    Claims.mbxReleaseRow ∧ Claims.mbxReleaseElsewhere ∧ Claims.mailboxTimeoutRow ∧ Claims.deferredStartRow ∧
    Claims.stallAnswersBusy

/-- Where an answer goes: mailbox window, completion entry, or hold queue. -/
def Obligations.AnswersReachMailboxOrRing : Prop :=
  Claims.finishMailbox ∧ Claims.windowHolds ∧ Claims.finishRing ∧ Claims.finishHeld

/-- Doorbells, ring enables and disables, and the stall of a full completion queue. Rests on log entries 17, 18,
39. -/
def Obligations.RingRegistersAndStalls : Prop :=
  Claims.sqDoorbellRow ∧ Claims.sqDoorbellBeyond ∧ Claims.cqHeadRow ∧ Claims.sqEnableRow ∧ Claims.cqEnableRow ∧
    Claims.enableTooLarge ∧ Claims.sqDisableRow ∧ Claims.cqDisableRow ∧ Claims.cqFullTimeoutRow

/-- DESCRIPTOR_CONSUME makes a descriptor the last request, and stops at 64 open submissions. -/
def Obligations.DescriptorConsumption : Prop :=
  Claims.descriptorConsumeRow ∧ Claims.descriptorLimit

/-- REGISTER_WRITE, misaligned access, MSI-X unmasking and interrupt coalescing. Rests on log entry 39. -/
def Obligations.RegistersAndInterrupts : Prop :=
  Claims.registerWriteWindow ∧ Claims.registerWritePlain ∧ Claims.registerWriteDoorbells ∧ Claims.misalignedRow ∧
    Claims.msixUnmaskRow ∧ Claims.irqCoalesceRow

/-- HOST_DMA_COMPLETE and HOST_COMPLETION_TIMEOUT. -/
def Obligations.HostDmaCompletions : Prop :=
  Claims.hostDmaData ∧ Claims.hostDmaPosted ∧ Claims.hostDmaRetry ∧ Claims.hostDmaDead ∧
    Claims.completionTimeoutRow

/-- Link, configuration requests, D3hot and D0, and VF enable. Rests on log entries 8, 19. -/
def Obligations.HostLinkAndFunctions : Prop :=
  Claims.tlpReplayRow ∧ Claims.configRow ∧ Claims.hostLinkUpRow ∧ Claims.d3Row ∧ Claims.d0Row ∧ Claims.d3Holds ∧
    Claims.d3NoMessage ∧ Claims.vfEnableRow ∧ Claims.vfBeyond

/-- VF FLR, PF FLR, hot reset and loss of the host link. Rests on log entry 17. -/
def Obligations.FunctionAndHostResets : Prop :=
  Claims.vfFlrRow ∧ Claims.vfFlrPauses ∧ Claims.hostResets

/-- Device reads, the identity record, the tile map and its hidden columns. Rests on log entry 11. -/
def Obligations.DeviceReadsAndIdentity : Prop :=
  Claims.deviceReads ∧ Claims.identifyFields ∧ Claims.tileMapRows ∧ Claims.hiddenTwo

/-- DEVICE_POWER_SET begins a domain or answers BUSY. -/
def Obligations.DevicePowerSet : Prop :=
  Claims.powerSetMem ∧ Claims.powerSetBusy

/-- DEVICE_RESET: its kinds, and the silence after its answer. -/
def Obligations.DeviceResetKindsAndSilence : Prop :=
  Claims.deviceResetKinds ∧ Claims.resetSilence ∧ Claims.resetEndsCommands

/-- FIRMWARE_UPDATE, DEVICE_POOL_CONFIG and the pool's entry into service. Rests on log entries 12, 20. -/
def Obligations.FirmwareAndPoolConfig : Prop :=
  Claims.firmwareCommit ∧ Claims.firmwareWrite ∧ Claims.poolConfigRow ∧ Claims.poolEntersRow

/-- Power inputs, rails, the restart latch and the PWR_GOOD hold. Rests on log entry 1. -/
def Obligations.ModuleInputsAndRails : Prop :=
  Claims.inputsGoodRow ∧ Claims.inputsHeld ∧ Claims.railsRows ∧ Claims.latchReleaseRow ∧ Claims.holdExpiryRow

/-- PERST#, PLL lock, PD_HOST, and the verification of the boot slots. Rests on log entry 60. -/
def Obligations.BootSequence : Prop :=
  Claims.perstAssertRow ∧ Claims.perstDeassertRow ∧ Claims.pllLockRow ∧ Claims.hostUpRow ∧ Claims.imageVerifyRow

/-- Reset delay, warm reset, departure notice and the control pairs. Rests on log entry 67. -/
def Obligations.WarmResetAndLockstep : Prop :=
  Claims.resetDelayRow ∧ Claims.warmResetRow ∧ Claims.departureSent ∧ Claims.pairARows ∧ Claims.pairBRow

/-- Loss of REFCLK or PLL lock, and the one relock. Rests on log entry 59. -/
def Obligations.ClockLossAndRelock : Prop :=
  Claims.clockLossRows ∧ Claims.refclkReturnRow ∧ Claims.relockRow

/-- Domain power-up, failure, power-down and power-good loss; the inrush delay. Rests on log entry 61. -/
def Obligations.PowerDomains : Prop :=
  Claims.domainUpRow ∧ Claims.domainUpFailRow ∧ Claims.domainDownRow ∧ Claims.churnLossRow ∧ Claims.memLossRow ∧
    Claims.inrushRow ∧ Claims.inrushBegins

/-- Crossing FIFO faults, Ethernet links up and down, and failed trainings. Rests on log entries 62, 92, 93. -/
def Obligations.FifoAndEthernetLinkFaults : Prop :=
  Claims.fifoRow ∧ Claims.ethLinkRows ∧ Claims.trainingFailRow

/-- Thermal samples, the power window, THERMTRIP#, the sideband, the FRU latch and JTAG. Rests on log entries 56,
57, 58. -/
def Obligations.ThermalPowerAndSideband : Prop :=
  Claims.thermalRow ∧ Claims.thermtripRow ∧ Claims.powerWindowRow ∧ Claims.setPowerLimitRow ∧ Claims.sidebandRows ∧
    Claims.thermalPowerFields ∧ Claims.fruRow ∧ Claims.jtagRow

/-- PARTITION_GRANT and PARTITION_RELEASE: what the partition holds after, and its frame. Rests on log entry 21. -/
def Obligations.GrantAndReleaseOfUnits : Prop :=
  Claims.grantRow ∧ Claims.grantShort ∧ Claims.releaseRow ∧ Claims.releaseBusy

/-- PARTITION_GRANT never gives a partition what another holds. -/
def Obligations.GrantsStayExclusive : Prop :=
  Claims.grantExclusive

/-- PARTITION_ENABLE, PIPELINE_RESUME and PIPELINE_PAUSE. Rests on log entries 15, 31, 109. -/
def Obligations.EnableResumeAndPause : Prop :=
  Claims.enableRow ∧ Claims.enableShort ∧ Claims.enableZeroing ∧ Claims.resumeRow ∧ Claims.pauseRow

/-- PARTITION_TEARDOWN, its phases in their turn, and its completion. Rests on log entries 106, 107. -/
def Obligations.TeardownPhases : Prop :=
  Claims.teardownRows ∧ Claims.teardownGuards ∧ Claims.teardownPhaseRow ∧ Claims.teardownReleases ∧
    Claims.teardownCompleteRow

/-- PARTITION_STATUS, step digests, region transfers and PIPELINE_LOAD. Rests on log entries 6, 13, 109. -/
def Obligations.StatusRegionsAndLoad : Prop :=
  Claims.partitionReads ∧ Claims.regionLoadRow ∧ Claims.regionReadRow ∧ Claims.regionOutside ∧ Claims.loadFetch ∧
    Claims.loadRow ∧ Claims.loadRefused

/-- Window translation stays inside the window and is one to one within a granule. -/
def Obligations.WindowTranslation : Prop :=
  Claims.translateInside ∧ Claims.translateInjective

/-- GRANULE_ZEROED, WINDOW_ZEROED and BACKGROUND_ZEROING_DONE. -/
def Obligations.WindowZeroing : Prop :=
  Claims.granuleZeroedRow ∧ Claims.windowZeroedRow ∧ Claims.backgroundZeroRow

/-- Tile reset, SRAM errors and scrub, image faults and slot starts. Rests on log entry 27. -/
def Obligations.TileEvents : Prop :=
  Claims.tileResetDoneRow ∧ Claims.tileSramRow ∧ Claims.tileScrubRow ∧ Claims.correctedSecondRow ∧
    Claims.tileImageFaultRow ∧ Claims.slotStartRow

/-- Flits, mesh faults, packets, barriers and flags. Rests on log entry 66. -/
def Obligations.MeshEvents : Prop :=
  Claims.flitRows ∧ Claims.meshLastingRows ∧ Claims.meshPacketRow ∧ Claims.barrierRow ∧ Claims.barrierReleaseRule ∧
    Claims.flagRow

/-- NEAR_MEMORY_ACCESS, re-reads, retirement and the patrol scrub. Rests on log entries 5, 64. -/
def Obligations.NearMemoryAccessAndErrors : Prop :=
  Claims.nearMemoryRow ∧ Claims.nearMemoryByte ∧ Claims.nearMemoryFault ∧ Claims.memUncorrectableRow ∧
    Claims.rereadRow ∧ Claims.retiredNotFree ∧ Claims.memScrubRow

/-- What a partition writes through its window changes no byte that another reads through its own. -/
def Obligations.WindowsAreIsolated : Prop :=
  Claims.windowIsolation

/-- A reservation is granted whole or refused whole. Rests on log entry 68. -/
def Obligations.ReservationsWholeOrNot : Prop :=
  Claims.decideRow

/-- Reserve, shortness, draw, unreserve, hand-off, release, wakes and caches. Rests on log entries 68, 69, 112. -/
def Obligations.PoolAccountsAndOwnership : Prop :=
  Claims.reserveRow ∧ Claims.shortRule ∧ Claims.drawRow ∧ Claims.unreserveRow ∧ Claims.handOffRows ∧
    Claims.releaseBufferRow ∧ Claims.staleHandle ∧ Claims.wakeTimeoutRow ∧ Claims.fetchRow ∧ Claims.cacheFillRow

/-- BUFFER_ACCESS, its faults, and the fields of a handle. Rests on log entry 5. -/
def Obligations.BufferAccessAndHandles : Prop :=
  Claims.accessReadRow ∧ Claims.accessWriteRow ∧ Claims.accessFaultRow ∧ Claims.handleFields

/-- A buffer reads back what its owner wrote, and every other byte as before. Rests on log entry 5. -/
def Obligations.BufferReadsBackWrites : Prop :=
  Claims.bufferReadsBack

/-- The key schedule of Dill and the trace of Table RNG-4. -/
def Obligations.DillKeysAndTrace : Prop :=
  Claims.dillKeys ∧ Claims.dillTrace

/-- Seeds, the entropy source and its health, RANDOM_EVALUATE, lane keys and logical indices. Rests on log entries
9, 27, 94, 97. -/
def Obligations.SeedsEntropyAndDraws : Prop :=
  Claims.seedSetRow ∧ Claims.seedSetPaused ∧ Claims.seedDrawRow ∧ Claims.entropyReadRow ∧ Claims.entropyServeRow ∧
    Claims.entropyBlockRow ∧ Claims.healthFailRow ∧ Claims.entropyRestartRow ∧ Claims.randomStatusRow ∧
    Claims.evaluateRow ∧ Claims.laneKeyRow ∧ Claims.dillIndexFields

/-- Placement commands, route counts, list building and routing keys. Rests on log entries 29, 98, 110. -/
def Obligations.ExpertRouting : Prop :=
  Claims.reviseNowRow ∧ Claims.reviseNowStops ∧ Claims.placeSetRow ∧ Claims.countersRow ∧ Claims.routeCountsRow ∧
    Claims.listBuildRow ∧ Claims.routeKeys

/-- Admission, issue, stage completion, step boundaries and the watchdog. Rests on log entries 73, 77, 113. -/
def Obligations.StagesAndBoundaries : Prop :=
  Claims.admitRow ∧ Claims.admitAskRow ∧ Claims.issueRow ∧ Claims.stageCompleteRow ∧ Claims.boundaryRow ∧
    Claims.watchdogRow

/-- Still decoding and the crop/resize/warp unit. Rests on log entries 36, 77, 79. -/
def Obligations.StillAndWarpEngines : Prop :=
  Claims.stillRerunRows ∧ Claims.stillDoneRow ∧ Claims.warpDoneRow ∧ Claims.warpParityRow

/-- Segments of the video codec: ready, done, late and timed out. Rests on log entries 35, 36. -/
def Obligations.CodecSegments : Prop :=
  Claims.segmentReadyRow ∧ Claims.segmentDoneRow ∧ Claims.segmentLateRow ∧ Claims.segmentTimeoutRow

/-- CHURN_RUN, slices, saves and loads, run ends and budgets. Rests on log entries 45, 95, 96, 97. -/
def Obligations.ChurnRuns : Prop :=
  Claims.churnRunRow ∧ Claims.churnRunStops ∧ Claims.sliceRow ∧ Claims.saveLoadRow ∧ Claims.runEndRow ∧
    Claims.packBudgetRow ∧ Claims.placeBudgetRow ∧ Claims.churnSramRow

/-- Leaders, payloads, trailers, timeouts and resends of a camera stream. Rests on log entries 37, 75, 81. -/
def Obligations.CameraPackets : Prop :=
  Claims.leaderRow ∧ Claims.leaderRejected ∧ Claims.payloadRow ∧ Claims.payloadBad ∧ Claims.trailerRow ∧
    Claims.blockTimeoutRow ∧ Claims.streamTimeoutRow ∧ Claims.resendRows ∧ Claims.rangeLost

/-- STREAM and INGEST commands. Rests on log entry 92. -/
def Obligations.StreamAndPortCommands : Prop :=
  Claims.streamOpenRow ∧ Claims.streamOpenElse ∧ Claims.streamCloseRow ∧ Claims.streamStatusRow ∧
    Claims.portConfigRow ∧ Claims.portConfigStops ∧ Claims.ingestStatusRow

/-- The PTP clock and what a port does with a frame. Rests on log entries 38, 82, 92. -/
def Obligations.PtpAndEthernetFrames : Prop :=
  Claims.ptpSyncRows ∧ Claims.ptpDelayRow ∧ Claims.ptpAnnounceRow ∧ Claims.ptpTimeoutRow ∧ Claims.frameDropRow ∧
    Claims.frameViolationRows ∧ Claims.frameAnswerRows ∧ Claims.portDeaf

/-- DELIVERY_OPEN, DELIVERY_CLOSE and DELIVERY_STATUS. Rests on log entries 90, 91. -/
def Obligations.DeliverySessions : Prop :=
  Claims.deliveryOpenRow ∧ Claims.deliveryReopen ∧ Claims.deliveryOpenStops ∧ Claims.deliveryCloseRow ∧
    Claims.deliveryStatusRow

/-- BDP messages, their timers, transport failures and P2P polls. Rests on log entries 86, 87, 88. -/
def Obligations.DeliveryMessages : Prop :=
  Claims.bdpUpdateRow ∧ Claims.bdpUpdateBad ∧ Claims.bdpNakRow ∧ Claims.bdpNakBad ∧ Claims.bdpCloseRow ∧
    Claims.bdpRnr ∧ Claims.ackTimerRow ∧ Claims.creditTimerRow ∧ Claims.transportRows ∧ Claims.accessErrorRows ∧
    Claims.p2pPollRow ∧ Claims.creditBound

/-- STORAGE commands and the attach sequence of a drive. Rests on log entries 32, 84, 85. -/
def Obligations.StorageAttachAndDetach : Prop :=
  Claims.attachRow ∧ Claims.attachStops ∧ Claims.rootPortRow ∧ Claims.controllerRow ∧ Claims.driveTimeoutRows ∧
    Claims.detachRow ∧ Claims.storageStatusRow

/-- NVMe completions, retries, timeouts, fatal controllers and drive requests. Rests on log entries 32, 53, 84. -/
def Obligations.NvmeCommands : Prop :=
  Claims.nvmeDoneRow ∧ Claims.nvmeRetryRow ∧ Claims.nvmeLastingRow ∧ Claims.nvmeLateRow ∧ Claims.nvmeTimeoutRows ∧
    Claims.controllerFatalRows ∧ Claims.driveDmaRow ∧ Claims.driveMsixRow

/-- PAIR_CONFIG and the takeover policy. -/
def Obligations.TakeoverPolicy : Prop :=
  Claims.pairPolicy

/-- PAIR commands, and the Darrad link's training, errors and heartbeats. Rests on log entries 99, 101, 102, 103,
108. -/
def Obligations.PairCommandsAndLink : Prop :=
  Claims.pairStatusRow ∧ Claims.planSetRow ∧ Claims.takeoverPresent ∧ Claims.takeOverRow ∧ Claims.releaseIdsRow ∧
    Claims.pairMoveRow ∧ Claims.pairMoveStops ∧ Claims.linkTrainedRow ∧ Claims.frameErrorRow ∧
    Claims.retrainDoneRow ∧ Claims.txFailureRow ∧ Claims.unknownFrameRow ∧ Claims.helloRetryRow ∧
    Claims.heartbeatSendRow ∧ Claims.heartbeatMissRow

/-- HELLO, HOLD, HEARTBEAT, DEPARTURE, MOVE and its answer, and resources that come back. Rests on log entries 100,
103, 105. -/
def Obligations.PairStateAndMoveMessages : Prop :=
  Claims.helloRow ∧ Claims.helloRefused ∧ Claims.holdRow ∧ Claims.heartbeatRow ∧ Claims.departureRow ∧
    Claims.moveRow ∧ Claims.moveAckRow ∧ Claims.resourcesFreeRow

/-- Mirror messages and their timeout, split Churn runs, and seeding copies. Rests on log entries 49, 104, 105. -/
def Obligations.MirrorSplitRunAndSeedMessages : Prop :=
  Claims.mirrorGrantRow ∧ Claims.mirrorGrantForeign ∧ Claims.mirrorStepRow ∧ Claims.mirrorAckRow ∧
    Claims.mirrorAckStep ∧ Claims.mirrorTimeoutRow ∧ Claims.churnProblemRow ∧ Claims.churnStageRow ∧ Claims.seedRow
    ∧ Claims.seedDoneRow

/-- LOG_READ, the log rate limit and DIAG_RUN. Rests on log entry 63. -/
def Obligations.LogAndDiagnostics : Prop :=
  Claims.logReadRow ∧ Claims.logReadOwn ∧ Claims.logRateRow ∧ Claims.diagRows ∧ Claims.diagOwned ∧
    Claims.diagNotApplicable
end

