-- ==== Sys2Proof/Laws/State.lean ====
section
/-!
SUPPORT. What each named update of the state leaves in each field, one lemma per field and update, so that no proof
unfolds a record update.
-/
namespace Sys2Proof.Machine

/-! ### modAo -/

@[simp] theorem modAo_ao (g : AoSt → AoSt) (s : State) : (modAo g s).ao = g s.ao := rfl
@[simp] theorem modAo_host (g : AoSt → AoSt) (s : State) : (modAo g s).host = s.host := rfl
@[simp] theorem modAo_units (g : AoSt → AoSt) (s : State) : (modAo g s).units = s.units := rfl
@[simp] theorem modAo_parts (g : AoSt → AoSt) (s : State) : (modAo g s).parts = s.parts := rfl
@[simp] theorem modAo_log (g : AoSt → AoSt) (s : State) : (modAo g s).log = s.log := rfl
@[simp] theorem modAo_time (g : AoSt → AoSt) (s : State) : (modAo g s).time = s.time := rfl
@[simp] theorem modAo_freeCtr (g : AoSt → AoSt) (s : State) : (modAo g s).freeCtr = s.freeCtr := rfl
@[simp] theorem modAo_out (g : AoSt → AoSt) (s : State) : (modAo g s).out = s.out := rfl
@[simp] theorem modAo_pending (g : AoSt → AoSt) (s : State) : (modAo g s).pending = s.pending := rfl

/-! ### modHost -/

@[simp] theorem modHost_ao (g : HostSt → HostSt) (s : State) : (modHost g s).ao = s.ao := rfl
@[simp] theorem modHost_host (g : HostSt → HostSt) (s : State) : (modHost g s).host = g s.host := rfl
@[simp] theorem modHost_units (g : HostSt → HostSt) (s : State) : (modHost g s).units = s.units := rfl
@[simp] theorem modHost_parts (g : HostSt → HostSt) (s : State) : (modHost g s).parts = s.parts := rfl
@[simp] theorem modHost_log (g : HostSt → HostSt) (s : State) : (modHost g s).log = s.log := rfl
@[simp] theorem modHost_time (g : HostSt → HostSt) (s : State) : (modHost g s).time = s.time := rfl
@[simp] theorem modHost_freeCtr (g : HostSt → HostSt) (s : State) : (modHost g s).freeCtr = s.freeCtr := rfl
@[simp] theorem modHost_out (g : HostSt → HostSt) (s : State) : (modHost g s).out = s.out := rfl
@[simp] theorem modHost_pending (g : HostSt → HostSt) (s : State) : (modHost g s).pending = s.pending := rfl

/-! ### modUnits -/

@[simp] theorem modUnits_ao (g : UnitSt → UnitSt) (s : State) : (modUnits g s).ao = s.ao := rfl
@[simp] theorem modUnits_host (g : UnitSt → UnitSt) (s : State) : (modUnits g s).host = s.host := rfl
@[simp] theorem modUnits_units (g : UnitSt → UnitSt) (s : State) : (modUnits g s).units = g s.units := rfl
@[simp] theorem modUnits_parts (g : UnitSt → UnitSt) (s : State) : (modUnits g s).parts = s.parts := rfl
@[simp] theorem modUnits_log (g : UnitSt → UnitSt) (s : State) : (modUnits g s).log = s.log := rfl
@[simp] theorem modUnits_time (g : UnitSt → UnitSt) (s : State) : (modUnits g s).time = s.time := rfl
@[simp] theorem modUnits_freeCtr (g : UnitSt → UnitSt) (s : State) : (modUnits g s).freeCtr = s.freeCtr := rfl
@[simp] theorem modUnits_out (g : UnitSt → UnitSt) (s : State) : (modUnits g s).out = s.out := rfl
@[simp] theorem modUnits_pending (g : UnitSt → UnitSt) (s : State) : (modUnits g s).pending = s.pending := rfl

/-! ### modLog -/

@[simp] theorem modLog_ao (g : LogSt → LogSt) (s : State) : (modLog g s).ao = s.ao := rfl
@[simp] theorem modLog_host (g : LogSt → LogSt) (s : State) : (modLog g s).host = s.host := rfl
@[simp] theorem modLog_units (g : LogSt → LogSt) (s : State) : (modLog g s).units = s.units := rfl
@[simp] theorem modLog_parts (g : LogSt → LogSt) (s : State) : (modLog g s).parts = s.parts := rfl
@[simp] theorem modLog_log (g : LogSt → LogSt) (s : State) : (modLog g s).log = g s.log := rfl
@[simp] theorem modLog_time (g : LogSt → LogSt) (s : State) : (modLog g s).time = s.time := rfl
@[simp] theorem modLog_freeCtr (g : LogSt → LogSt) (s : State) : (modLog g s).freeCtr = s.freeCtr := rfl
@[simp] theorem modLog_out (g : LogSt → LogSt) (s : State) : (modLog g s).out = s.out := rfl
@[simp] theorem modLog_pending (g : LogSt → LogSt) (s : State) : (modLog g s).pending = s.pending := rfl

/-! ### emit -/

@[simp] theorem emit_ao (o : Output) (s : State) : (emit o s).ao = s.ao := rfl
@[simp] theorem emit_host (o : Output) (s : State) : (emit o s).host = s.host := rfl
@[simp] theorem emit_units (o : Output) (s : State) : (emit o s).units = s.units := rfl
@[simp] theorem emit_parts (o : Output) (s : State) : (emit o s).parts = s.parts := rfl
@[simp] theorem emit_log (o : Output) (s : State) : (emit o s).log = s.log := rfl
@[simp] theorem emit_time (o : Output) (s : State) : (emit o s).time = s.time := rfl
@[simp] theorem emit_freeCtr (o : Output) (s : State) : (emit o s).freeCtr = s.freeCtr := rfl
@[simp] theorem emit_out (o : Output) (s : State) : (emit o s).out = o :: s.out := rfl
@[simp] theorem emit_pending (o : Output) (s : State) : (emit o s).pending = s.pending := rfl

/-! ### modFn -/

@[simp] theorem modFn_ao (f : Fn) (g : FnState → FnState) (s : State) : (modFn f g s).ao = s.ao := rfl
@[simp] theorem modFn_host (f : Fn) (g : FnState → FnState) (s : State) :
    (modFn f g s).host = { s.host with fns := vmod s.host.fns f g } := rfl
@[simp] theorem modFn_units (f : Fn) (g : FnState → FnState) (s : State) : (modFn f g s).units = s.units := rfl
@[simp] theorem modFn_parts (f : Fn) (g : FnState → FnState) (s : State) : (modFn f g s).parts = s.parts := rfl
@[simp] theorem modFn_log (f : Fn) (g : FnState → FnState) (s : State) : (modFn f g s).log = s.log := rfl
@[simp] theorem modFn_time (f : Fn) (g : FnState → FnState) (s : State) : (modFn f g s).time = s.time := rfl
@[simp] theorem modFn_freeCtr (f : Fn) (g : FnState → FnState) (s : State) : (modFn f g s).freeCtr = s.freeCtr := rfl
@[simp] theorem modFn_out (f : Fn) (g : FnState → FnState) (s : State) : (modFn f g s).out = s.out := rfl
@[simp] theorem modFn_pending (f : Fn) (g : FnState → FnState) (s : State) : (modFn f g s).pending = s.pending := rfl

/-! ### modMbx -/

@[simp] theorem modMbx_ao (f : Fn) (g : MbxBlock → MbxBlock) (s : State) : (modMbx f g s).ao = s.ao := rfl
@[simp] theorem modMbx_host (f : Fn) (g : MbxBlock → MbxBlock) (s : State) :
    (modMbx f g s).host = { s.host with fns := vmod s.host.fns f (fun x => { x with mbx := g x.mbx }) } := rfl
@[simp] theorem modMbx_units (f : Fn) (g : MbxBlock → MbxBlock) (s : State) : (modMbx f g s).units = s.units := rfl
@[simp] theorem modMbx_parts (f : Fn) (g : MbxBlock → MbxBlock) (s : State) : (modMbx f g s).parts = s.parts := rfl
@[simp] theorem modMbx_log (f : Fn) (g : MbxBlock → MbxBlock) (s : State) : (modMbx f g s).log = s.log := rfl
@[simp] theorem modMbx_time (f : Fn) (g : MbxBlock → MbxBlock) (s : State) : (modMbx f g s).time = s.time := rfl
@[simp] theorem modMbx_freeCtr (f : Fn) (g : MbxBlock → MbxBlock) (s : State) :
    (modMbx f g s).freeCtr = s.freeCtr := rfl
@[simp] theorem modMbx_out (f : Fn) (g : MbxBlock → MbxBlock) (s : State) : (modMbx f g s).out = s.out := rfl
@[simp] theorem modMbx_pending (f : Fn) (g : MbxBlock → MbxBlock) (s : State) :
    (modMbx f g s).pending = s.pending := rfl

/-! ### modRing -/

@[simp] theorem modRing_ao (f : Fn) (g : RingBlock → RingBlock) (s : State) : (modRing f g s).ao = s.ao := rfl
@[simp] theorem modRing_host (f : Fn) (g : RingBlock → RingBlock) (s : State) :
    (modRing f g s).host = { s.host with fns := vmod s.host.fns f (fun x => { x with ring := g x.ring }) } := rfl
@[simp] theorem modRing_units (f : Fn) (g : RingBlock → RingBlock) (s : State) : (modRing f g s).units = s.units := rfl
@[simp] theorem modRing_parts (f : Fn) (g : RingBlock → RingBlock) (s : State) : (modRing f g s).parts = s.parts := rfl
@[simp] theorem modRing_log (f : Fn) (g : RingBlock → RingBlock) (s : State) : (modRing f g s).log = s.log := rfl
@[simp] theorem modRing_time (f : Fn) (g : RingBlock → RingBlock) (s : State) : (modRing f g s).time = s.time := rfl
@[simp] theorem modRing_freeCtr (f : Fn) (g : RingBlock → RingBlock) (s : State) :
    (modRing f g s).freeCtr = s.freeCtr := rfl
@[simp] theorem modRing_out (f : Fn) (g : RingBlock → RingBlock) (s : State) : (modRing f g s).out = s.out := rfl
@[simp] theorem modRing_pending (f : Fn) (g : RingBlock → RingBlock) (s : State) :
    (modRing f g s).pending = s.pending := rfl

/-! ### modIrq -/

@[simp] theorem modIrq_ao (f : Fn) (g : IrqBlock → IrqBlock) (s : State) : (modIrq f g s).ao = s.ao := rfl
@[simp] theorem modIrq_host (f : Fn) (g : IrqBlock → IrqBlock) (s : State) :
    (modIrq f g s).host = { s.host with fns := vmod s.host.fns f (fun x => { x with irq := g x.irq }) } := rfl
@[simp] theorem modIrq_units (f : Fn) (g : IrqBlock → IrqBlock) (s : State) : (modIrq f g s).units = s.units := rfl
@[simp] theorem modIrq_parts (f : Fn) (g : IrqBlock → IrqBlock) (s : State) : (modIrq f g s).parts = s.parts := rfl
@[simp] theorem modIrq_log (f : Fn) (g : IrqBlock → IrqBlock) (s : State) : (modIrq f g s).log = s.log := rfl
@[simp] theorem modIrq_time (f : Fn) (g : IrqBlock → IrqBlock) (s : State) : (modIrq f g s).time = s.time := rfl
@[simp] theorem modIrq_freeCtr (f : Fn) (g : IrqBlock → IrqBlock) (s : State) :
    (modIrq f g s).freeCtr = s.freeCtr := rfl
@[simp] theorem modIrq_out (f : Fn) (g : IrqBlock → IrqBlock) (s : State) : (modIrq f g s).out = s.out := rfl
@[simp] theorem modIrq_pending (f : Fn) (g : IrqBlock → IrqBlock) (s : State) :
    (modIrq f g s).pending = s.pending := rfl

/-! ### modCnt -/

@[simp] theorem modCnt_ao (f : Fn) (g : CntBlock → CntBlock) (s : State) : (modCnt f g s).ao = s.ao := rfl
@[simp] theorem modCnt_host (f : Fn) (g : CntBlock → CntBlock) (s : State) :
    (modCnt f g s).host = { s.host with fns := vmod s.host.fns f (fun x => { x with cnt := g x.cnt }) } := rfl
@[simp] theorem modCnt_units (f : Fn) (g : CntBlock → CntBlock) (s : State) : (modCnt f g s).units = s.units := rfl
@[simp] theorem modCnt_parts (f : Fn) (g : CntBlock → CntBlock) (s : State) : (modCnt f g s).parts = s.parts := rfl
@[simp] theorem modCnt_log (f : Fn) (g : CntBlock → CntBlock) (s : State) : (modCnt f g s).log = s.log := rfl
@[simp] theorem modCnt_time (f : Fn) (g : CntBlock → CntBlock) (s : State) : (modCnt f g s).time = s.time := rfl
@[simp] theorem modCnt_freeCtr (f : Fn) (g : CntBlock → CntBlock) (s : State) :
    (modCnt f g s).freeCtr = s.freeCtr := rfl
@[simp] theorem modCnt_out (f : Fn) (g : CntBlock → CntBlock) (s : State) : (modCnt f g s).out = s.out := rfl
@[simp] theorem modCnt_pending (f : Fn) (g : CntBlock → CntBlock) (s : State) :
    (modCnt f g s).pending = s.pending := rfl

/-! ### modPart -/

@[simp] theorem modPart_ao (p : Pid) (g : Part → Part) (s : State) : (modPart p g s).ao = s.ao := rfl
@[simp] theorem modPart_host (p : Pid) (g : Part → Part) (s : State) : (modPart p g s).host = s.host := rfl
@[simp] theorem modPart_units (p : Pid) (g : Part → Part) (s : State) : (modPart p g s).units = s.units := rfl
@[simp] theorem modPart_parts (p : Pid) (g : Part → Part) (s : State) : (modPart p g s).parts = vmod s.parts p g := rfl
@[simp] theorem modPart_log (p : Pid) (g : Part → Part) (s : State) : (modPart p g s).log = s.log := rfl
@[simp] theorem modPart_time (p : Pid) (g : Part → Part) (s : State) : (modPart p g s).time = s.time := rfl
@[simp] theorem modPart_freeCtr (p : Pid) (g : Part → Part) (s : State) : (modPart p g s).freeCtr = s.freeCtr := rfl
@[simp] theorem modPart_out (p : Pid) (g : Part → Part) (s : State) : (modPart p g s).out = s.out := rfl
@[simp] theorem modPart_pending (p : Pid) (g : Part → Part) (s : State) : (modPart p g s).pending = s.pending := rfl

/-! ### modParts -/

@[simp] theorem modParts_ao (g : Part → Part) (s : State) : (modParts g s).ao = s.ao := rfl
@[simp] theorem modParts_host (g : Part → Part) (s : State) : (modParts g s).host = s.host := rfl
@[simp] theorem modParts_units (g : Part → Part) (s : State) : (modParts g s).units = s.units := rfl
@[simp] theorem modParts_parts (g : Part → Part) (s : State) : (modParts g s).parts = s.parts.map g := rfl
@[simp] theorem modParts_log (g : Part → Part) (s : State) : (modParts g s).log = s.log := rfl
@[simp] theorem modParts_time (g : Part → Part) (s : State) : (modParts g s).time = s.time := rfl
@[simp] theorem modParts_freeCtr (g : Part → Part) (s : State) : (modParts g s).freeCtr = s.freeCtr := rfl
@[simp] theorem modParts_out (g : Part → Part) (s : State) : (modParts g s).out = s.out := rfl
@[simp] theorem modParts_pending (g : Part → Part) (s : State) : (modParts g s).pending = s.pending := rfl

/-! ### modPartN -/

@[simp] theorem modPartN_ao (n : Nat) (g : Part → Part) (s : State) : (modPartN n g s).ao = s.ao := rfl
@[simp] theorem modPartN_host (n : Nat) (g : Part → Part) (s : State) : (modPartN n g s).host = s.host := rfl
@[simp] theorem modPartN_units (n : Nat) (g : Part → Part) (s : State) : (modPartN n g s).units = s.units := rfl
@[simp] theorem modPartN_parts (n : Nat) (g : Part → Part) (s : State) :
    (modPartN n g s).parts = vmodN s.parts n g := rfl
@[simp] theorem modPartN_log (n : Nat) (g : Part → Part) (s : State) : (modPartN n g s).log = s.log := rfl
@[simp] theorem modPartN_time (n : Nat) (g : Part → Part) (s : State) : (modPartN n g s).time = s.time := rfl
@[simp] theorem modPartN_freeCtr (n : Nat) (g : Part → Part) (s : State) : (modPartN n g s).freeCtr = s.freeCtr := rfl
@[simp] theorem modPartN_out (n : Nat) (g : Part → Part) (s : State) : (modPartN n g s).out = s.out := rfl
@[simp] theorem modPartN_pending (n : Nat) (g : Part → Part) (s : State) : (modPartN n g s).pending = s.pending := rfl

/-! ### modPool -/

@[simp] theorem modPool_ao (g : PoolSt → PoolSt) (s : State) : (modPool g s).ao = s.ao := rfl
@[simp] theorem modPool_host (g : PoolSt → PoolSt) (s : State) : (modPool g s).host = s.host := rfl
@[simp] theorem modPool_units (g : PoolSt → PoolSt) (s : State) :
    (modPool g s).units = { s.units with pool := g s.units.pool } := rfl
@[simp] theorem modPool_parts (g : PoolSt → PoolSt) (s : State) : (modPool g s).parts = s.parts := rfl
@[simp] theorem modPool_log (g : PoolSt → PoolSt) (s : State) : (modPool g s).log = s.log := rfl
@[simp] theorem modPool_time (g : PoolSt → PoolSt) (s : State) : (modPool g s).time = s.time := rfl
@[simp] theorem modPool_freeCtr (g : PoolSt → PoolSt) (s : State) : (modPool g s).freeCtr = s.freeCtr := rfl
@[simp] theorem modPool_out (g : PoolSt → PoolSt) (s : State) : (modPool g s).out = s.out := rfl
@[simp] theorem modPool_pending (g : PoolSt → PoolSt) (s : State) : (modPool g s).pending = s.pending := rfl

/-! ### modMem -/

@[simp] theorem modMem_ao (g : MemSt → MemSt) (s : State) : (modMem g s).ao = s.ao := rfl
@[simp] theorem modMem_host (g : MemSt → MemSt) (s : State) : (modMem g s).host = s.host := rfl
@[simp] theorem modMem_units (g : MemSt → MemSt) (s : State) :
    (modMem g s).units = { s.units with mem := g s.units.mem } := rfl
@[simp] theorem modMem_parts (g : MemSt → MemSt) (s : State) : (modMem g s).parts = s.parts := rfl
@[simp] theorem modMem_log (g : MemSt → MemSt) (s : State) : (modMem g s).log = s.log := rfl
@[simp] theorem modMem_time (g : MemSt → MemSt) (s : State) : (modMem g s).time = s.time := rfl
@[simp] theorem modMem_freeCtr (g : MemSt → MemSt) (s : State) : (modMem g s).freeCtr = s.freeCtr := rfl
@[simp] theorem modMem_out (g : MemSt → MemSt) (s : State) : (modMem g s).out = s.out := rfl
@[simp] theorem modMem_pending (g : MemSt → MemSt) (s : State) : (modMem g s).pending = s.pending := rfl

/-! ### modMesh -/

@[simp] theorem modMesh_ao (g : MeshSt → MeshSt) (s : State) : (modMesh g s).ao = s.ao := rfl
@[simp] theorem modMesh_host (g : MeshSt → MeshSt) (s : State) : (modMesh g s).host = s.host := rfl
@[simp] theorem modMesh_units (g : MeshSt → MeshSt) (s : State) :
    (modMesh g s).units = { s.units with mesh := g s.units.mesh } := rfl
@[simp] theorem modMesh_parts (g : MeshSt → MeshSt) (s : State) : (modMesh g s).parts = s.parts := rfl
@[simp] theorem modMesh_log (g : MeshSt → MeshSt) (s : State) : (modMesh g s).log = s.log := rfl
@[simp] theorem modMesh_time (g : MeshSt → MeshSt) (s : State) : (modMesh g s).time = s.time := rfl
@[simp] theorem modMesh_freeCtr (g : MeshSt → MeshSt) (s : State) : (modMesh g s).freeCtr = s.freeCtr := rfl
@[simp] theorem modMesh_out (g : MeshSt → MeshSt) (s : State) : (modMesh g s).out = s.out := rfl
@[simp] theorem modMesh_pending (g : MeshSt → MeshSt) (s : State) : (modMesh g s).pending = s.pending := rfl

/-! ### modChurn -/

@[simp] theorem modChurn_ao (g : ChurnSt → ChurnSt) (s : State) : (modChurn g s).ao = s.ao := rfl
@[simp] theorem modChurn_host (g : ChurnSt → ChurnSt) (s : State) : (modChurn g s).host = s.host := rfl
@[simp] theorem modChurn_units (g : ChurnSt → ChurnSt) (s : State) :
    (modChurn g s).units = { s.units with churn := g s.units.churn } := rfl
@[simp] theorem modChurn_parts (g : ChurnSt → ChurnSt) (s : State) : (modChurn g s).parts = s.parts := rfl
@[simp] theorem modChurn_log (g : ChurnSt → ChurnSt) (s : State) : (modChurn g s).log = s.log := rfl
@[simp] theorem modChurn_time (g : ChurnSt → ChurnSt) (s : State) : (modChurn g s).time = s.time := rfl
@[simp] theorem modChurn_freeCtr (g : ChurnSt → ChurnSt) (s : State) : (modChurn g s).freeCtr = s.freeCtr := rfl
@[simp] theorem modChurn_out (g : ChurnSt → ChurnSt) (s : State) : (modChurn g s).out = s.out := rfl
@[simp] theorem modChurn_pending (g : ChurnSt → ChurnSt) (s : State) : (modChurn g s).pending = s.pending := rfl

/-! ### modPair -/

@[simp] theorem modPair_ao (g : PairSt → PairSt) (s : State) : (modPair g s).ao = s.ao := rfl
@[simp] theorem modPair_host (g : PairSt → PairSt) (s : State) : (modPair g s).host = s.host := rfl
@[simp] theorem modPair_units (g : PairSt → PairSt) (s : State) :
    (modPair g s).units = { s.units with pair := g s.units.pair } := rfl
@[simp] theorem modPair_parts (g : PairSt → PairSt) (s : State) : (modPair g s).parts = s.parts := rfl
@[simp] theorem modPair_log (g : PairSt → PairSt) (s : State) : (modPair g s).log = s.log := rfl
@[simp] theorem modPair_time (g : PairSt → PairSt) (s : State) : (modPair g s).time = s.time := rfl
@[simp] theorem modPair_freeCtr (g : PairSt → PairSt) (s : State) : (modPair g s).freeCtr = s.freeCtr := rfl
@[simp] theorem modPair_out (g : PairSt → PairSt) (s : State) : (modPair g s).out = s.out := rfl
@[simp] theorem modPair_pending (g : PairSt → PairSt) (s : State) : (modPair g s).pending = s.pending := rfl

/-! ### modPort -/

@[simp] theorem modPort_ao (n : Nat) (g : Port → Port) (s : State) : (modPort n g s).ao = s.ao := rfl
@[simp] theorem modPort_host (n : Nat) (g : Port → Port) (s : State) : (modPort n g s).host = s.host := rfl
@[simp] theorem modPort_units (n : Nat) (g : Port → Port) (s : State) :
    (modPort n g s).units = { s.units with ports := vmodN s.units.ports n g } := rfl
@[simp] theorem modPort_parts (n : Nat) (g : Port → Port) (s : State) : (modPort n g s).parts = s.parts := rfl
@[simp] theorem modPort_log (n : Nat) (g : Port → Port) (s : State) : (modPort n g s).log = s.log := rfl
@[simp] theorem modPort_time (n : Nat) (g : Port → Port) (s : State) : (modPort n g s).time = s.time := rfl
@[simp] theorem modPort_freeCtr (n : Nat) (g : Port → Port) (s : State) : (modPort n g s).freeCtr = s.freeCtr := rfl
@[simp] theorem modPort_out (n : Nat) (g : Port → Port) (s : State) : (modPort n g s).out = s.out := rfl
@[simp] theorem modPort_pending (n : Nat) (g : Port → Port) (s : State) : (modPort n g s).pending = s.pending := rfl

/-! ### modDrive -/

@[simp] theorem modDrive_ao (n : Nat) (g : Drive → Drive) (s : State) : (modDrive n g s).ao = s.ao := rfl
@[simp] theorem modDrive_host (n : Nat) (g : Drive → Drive) (s : State) : (modDrive n g s).host = s.host := rfl
@[simp] theorem modDrive_units (n : Nat) (g : Drive → Drive) (s : State) :
    (modDrive n g s).units = { s.units with drives := vmodN s.units.drives n g } := rfl
@[simp] theorem modDrive_parts (n : Nat) (g : Drive → Drive) (s : State) : (modDrive n g s).parts = s.parts := rfl
@[simp] theorem modDrive_log (n : Nat) (g : Drive → Drive) (s : State) : (modDrive n g s).log = s.log := rfl
@[simp] theorem modDrive_time (n : Nat) (g : Drive → Drive) (s : State) : (modDrive n g s).time = s.time := rfl
@[simp] theorem modDrive_freeCtr (n : Nat) (g : Drive → Drive) (s : State) : (modDrive n g s).freeCtr = s.freeCtr := rfl
@[simp] theorem modDrive_out (n : Nat) (g : Drive → Drive) (s : State) : (modDrive n g s).out = s.out := rfl
@[simp] theorem modDrive_pending (n : Nat) (g : Drive → Drive) (s : State) : (modDrive n g s).pending = s.pending := rfl

/-! ### modPwr -/

@[simp] theorem modPwr_ao (g : PowerSt → PowerSt) (s : State) : (modPwr g s).ao = { s.ao with pwr := g s.ao.pwr } := rfl
@[simp] theorem modPwr_host (g : PowerSt → PowerSt) (s : State) : (modPwr g s).host = s.host := rfl
@[simp] theorem modPwr_units (g : PowerSt → PowerSt) (s : State) : (modPwr g s).units = s.units := rfl
@[simp] theorem modPwr_parts (g : PowerSt → PowerSt) (s : State) : (modPwr g s).parts = s.parts := rfl
@[simp] theorem modPwr_log (g : PowerSt → PowerSt) (s : State) : (modPwr g s).log = s.log := rfl
@[simp] theorem modPwr_time (g : PowerSt → PowerSt) (s : State) : (modPwr g s).time = s.time := rfl
@[simp] theorem modPwr_freeCtr (g : PowerSt → PowerSt) (s : State) : (modPwr g s).freeCtr = s.freeCtr := rfl
@[simp] theorem modPwr_out (g : PowerSt → PowerSt) (s : State) : (modPwr g s).out = s.out := rfl
@[simp] theorem modPwr_pending (g : PowerSt → PowerSt) (s : State) : (modPwr g s).pending = s.pending := rfl

/-! ### modBoot -/

@[simp] theorem modBoot_ao (g : BootSt → BootSt) (s : State) :
    (modBoot g s).ao = { s.ao with boot := g s.ao.boot } := rfl
@[simp] theorem modBoot_host (g : BootSt → BootSt) (s : State) : (modBoot g s).host = s.host := rfl
@[simp] theorem modBoot_units (g : BootSt → BootSt) (s : State) : (modBoot g s).units = s.units := rfl
@[simp] theorem modBoot_parts (g : BootSt → BootSt) (s : State) : (modBoot g s).parts = s.parts := rfl
@[simp] theorem modBoot_log (g : BootSt → BootSt) (s : State) : (modBoot g s).log = s.log := rfl
@[simp] theorem modBoot_time (g : BootSt → BootSt) (s : State) : (modBoot g s).time = s.time := rfl
@[simp] theorem modBoot_freeCtr (g : BootSt → BootSt) (s : State) : (modBoot g s).freeCtr = s.freeCtr := rfl
@[simp] theorem modBoot_out (g : BootSt → BootSt) (s : State) : (modBoot g s).out = s.out := rfl
@[simp] theorem modBoot_pending (g : BootSt → BootSt) (s : State) : (modBoot g s).pending = s.pending := rfl

/-! ### modClk -/

@[simp] theorem modClk_ao (g : ClockSt → ClockSt) (s : State) : (modClk g s).ao = { s.ao with clk := g s.ao.clk } := rfl
@[simp] theorem modClk_host (g : ClockSt → ClockSt) (s : State) : (modClk g s).host = s.host := rfl
@[simp] theorem modClk_units (g : ClockSt → ClockSt) (s : State) : (modClk g s).units = s.units := rfl
@[simp] theorem modClk_parts (g : ClockSt → ClockSt) (s : State) : (modClk g s).parts = s.parts := rfl
@[simp] theorem modClk_log (g : ClockSt → ClockSt) (s : State) : (modClk g s).log = s.log := rfl
@[simp] theorem modClk_time (g : ClockSt → ClockSt) (s : State) : (modClk g s).time = s.time := rfl
@[simp] theorem modClk_freeCtr (g : ClockSt → ClockSt) (s : State) : (modClk g s).freeCtr = s.freeCtr := rfl
@[simp] theorem modClk_out (g : ClockSt → ClockSt) (s : State) : (modClk g s).out = s.out := rfl
@[simp] theorem modClk_pending (g : ClockSt → ClockSt) (s : State) : (modClk g s).pending = s.pending := rfl

/-! ### modFw -/

@[simp] theorem modFw_ao (g : FwSt → FwSt) (s : State) : (modFw g s).ao = { s.ao with fw := g s.ao.fw } := rfl
@[simp] theorem modFw_host (g : FwSt → FwSt) (s : State) : (modFw g s).host = s.host := rfl
@[simp] theorem modFw_units (g : FwSt → FwSt) (s : State) : (modFw g s).units = s.units := rfl
@[simp] theorem modFw_parts (g : FwSt → FwSt) (s : State) : (modFw g s).parts = s.parts := rfl
@[simp] theorem modFw_log (g : FwSt → FwSt) (s : State) : (modFw g s).log = s.log := rfl
@[simp] theorem modFw_time (g : FwSt → FwSt) (s : State) : (modFw g s).time = s.time := rfl
@[simp] theorem modFw_freeCtr (g : FwSt → FwSt) (s : State) : (modFw g s).freeCtr = s.freeCtr := rfl
@[simp] theorem modFw_out (g : FwSt → FwSt) (s : State) : (modFw g s).out = s.out := rfl
@[simp] theorem modFw_pending (g : FwSt → FwSt) (s : State) : (modFw g s).pending = s.pending := rfl

/-! ### modEnt -/

@[simp] theorem modEnt_ao (g : EntropySt → EntropySt) (s : State) :
    (modEnt g s).ao = { s.ao with ent := g s.ao.ent } := rfl
@[simp] theorem modEnt_host (g : EntropySt → EntropySt) (s : State) : (modEnt g s).host = s.host := rfl
@[simp] theorem modEnt_units (g : EntropySt → EntropySt) (s : State) : (modEnt g s).units = s.units := rfl
@[simp] theorem modEnt_parts (g : EntropySt → EntropySt) (s : State) : (modEnt g s).parts = s.parts := rfl
@[simp] theorem modEnt_log (g : EntropySt → EntropySt) (s : State) : (modEnt g s).log = s.log := rfl
@[simp] theorem modEnt_time (g : EntropySt → EntropySt) (s : State) : (modEnt g s).time = s.time := rfl
@[simp] theorem modEnt_freeCtr (g : EntropySt → EntropySt) (s : State) : (modEnt g s).freeCtr = s.freeCtr := rfl
@[simp] theorem modEnt_out (g : EntropySt → EntropySt) (s : State) : (modEnt g s).out = s.out := rfl
@[simp] theorem modEnt_pending (g : EntropySt → EntropySt) (s : State) : (modEnt g s).pending = s.pending := rfl

/-! ### modTherm -/

@[simp] theorem modTherm_ao (g : ThermSt → ThermSt) (s : State) :
    (modTherm g s).ao = { s.ao with therm := g s.ao.therm } := rfl
@[simp] theorem modTherm_host (g : ThermSt → ThermSt) (s : State) : (modTherm g s).host = s.host := rfl
@[simp] theorem modTherm_units (g : ThermSt → ThermSt) (s : State) : (modTherm g s).units = s.units := rfl
@[simp] theorem modTherm_parts (g : ThermSt → ThermSt) (s : State) : (modTherm g s).parts = s.parts := rfl
@[simp] theorem modTherm_log (g : ThermSt → ThermSt) (s : State) : (modTherm g s).log = s.log := rfl
@[simp] theorem modTherm_time (g : ThermSt → ThermSt) (s : State) : (modTherm g s).time = s.time := rfl
@[simp] theorem modTherm_freeCtr (g : ThermSt → ThermSt) (s : State) : (modTherm g s).freeCtr = s.freeCtr := rfl
@[simp] theorem modTherm_out (g : ThermSt → ThermSt) (s : State) : (modTherm g s).out = s.out := rfl
@[simp] theorem modTherm_pending (g : ThermSt → ThermSt) (s : State) : (modTherm g s).pending = s.pending := rfl

/-! ### modModule -/

@[simp] theorem modModule_ao (g : ModuleSt → ModuleSt) (s : State) :
    (modModule g s).ao = { s.ao with mod_ := g s.ao.mod_ } := rfl
@[simp] theorem modModule_host (g : ModuleSt → ModuleSt) (s : State) : (modModule g s).host = s.host := rfl
@[simp] theorem modModule_units (g : ModuleSt → ModuleSt) (s : State) : (modModule g s).units = s.units := rfl
@[simp] theorem modModule_parts (g : ModuleSt → ModuleSt) (s : State) : (modModule g s).parts = s.parts := rfl
@[simp] theorem modModule_log (g : ModuleSt → ModuleSt) (s : State) : (modModule g s).log = s.log := rfl
@[simp] theorem modModule_time (g : ModuleSt → ModuleSt) (s : State) : (modModule g s).time = s.time := rfl
@[simp] theorem modModule_freeCtr (g : ModuleSt → ModuleSt) (s : State) : (modModule g s).freeCtr = s.freeCtr := rfl
@[simp] theorem modModule_out (g : ModuleSt → ModuleSt) (s : State) : (modModule g s).out = s.out := rfl
@[simp] theorem modModule_pending (g : ModuleSt → ModuleSt) (s : State) : (modModule g s).pending = s.pending := rfl

/-! ### modCtrl -/

@[simp] theorem modCtrl_ao (g : CtrlSt → CtrlSt) (s : State) :
    (modCtrl g s).ao = { s.ao with ctrl := g s.ao.ctrl } := rfl
@[simp] theorem modCtrl_host (g : CtrlSt → CtrlSt) (s : State) : (modCtrl g s).host = s.host := rfl
@[simp] theorem modCtrl_units (g : CtrlSt → CtrlSt) (s : State) : (modCtrl g s).units = s.units := rfl
@[simp] theorem modCtrl_parts (g : CtrlSt → CtrlSt) (s : State) : (modCtrl g s).parts = s.parts := rfl
@[simp] theorem modCtrl_log (g : CtrlSt → CtrlSt) (s : State) : (modCtrl g s).log = s.log := rfl
@[simp] theorem modCtrl_time (g : CtrlSt → CtrlSt) (s : State) : (modCtrl g s).time = s.time := rfl
@[simp] theorem modCtrl_freeCtr (g : CtrlSt → CtrlSt) (s : State) : (modCtrl g s).freeCtr = s.freeCtr := rfl
@[simp] theorem modCtrl_out (g : CtrlSt → CtrlSt) (s : State) : (modCtrl g s).out = s.out := rfl
@[simp] theorem modCtrl_pending (g : CtrlSt → CtrlSt) (s : State) : (modCtrl g s).pending = s.pending := rfl

/-! ### modSched -/

@[simp] theorem modSched_ao (p : Pid) (g : Sched → Sched) (s : State) : (modSched p g s).ao = s.ao := rfl
@[simp] theorem modSched_host (p : Pid) (g : Sched → Sched) (s : State) : (modSched p g s).host = s.host := rfl
@[simp] theorem modSched_units (p : Pid) (g : Sched → Sched) (s : State) : (modSched p g s).units = s.units := rfl
@[simp] theorem modSched_parts (p : Pid) (g : Sched → Sched) (s : State) :
    (modSched p g s).parts = vmod s.parts p (fun q => { q with sc := g q.sc }) := rfl
@[simp] theorem modSched_log (p : Pid) (g : Sched → Sched) (s : State) : (modSched p g s).log = s.log := rfl
@[simp] theorem modSched_time (p : Pid) (g : Sched → Sched) (s : State) : (modSched p g s).time = s.time := rfl
@[simp] theorem modSched_freeCtr (p : Pid) (g : Sched → Sched) (s : State) : (modSched p g s).freeCtr = s.freeCtr := rfl
@[simp] theorem modSched_out (p : Pid) (g : Sched → Sched) (s : State) : (modSched p g s).out = s.out := rfl
@[simp] theorem modSched_pending (p : Pid) (g : Sched → Sched) (s : State) : (modSched p g s).pending = s.pending := rfl

/-! ### modPCnt -/

@[simp] theorem modPCnt_ao (p : Pid) (g : PCnt → PCnt) (s : State) : (modPCnt p g s).ao = s.ao := rfl
@[simp] theorem modPCnt_host (p : Pid) (g : PCnt → PCnt) (s : State) : (modPCnt p g s).host = s.host := rfl
@[simp] theorem modPCnt_units (p : Pid) (g : PCnt → PCnt) (s : State) : (modPCnt p g s).units = s.units := rfl
@[simp] theorem modPCnt_parts (p : Pid) (g : PCnt → PCnt) (s : State) :
    (modPCnt p g s).parts = vmod s.parts p (fun q => { q with cnt := g q.cnt }) := rfl
@[simp] theorem modPCnt_log (p : Pid) (g : PCnt → PCnt) (s : State) : (modPCnt p g s).log = s.log := rfl
@[simp] theorem modPCnt_time (p : Pid) (g : PCnt → PCnt) (s : State) : (modPCnt p g s).time = s.time := rfl
@[simp] theorem modPCnt_freeCtr (p : Pid) (g : PCnt → PCnt) (s : State) : (modPCnt p g s).freeCtr = s.freeCtr := rfl
@[simp] theorem modPCnt_out (p : Pid) (g : PCnt → PCnt) (s : State) : (modPCnt p g s).out = s.out := rfl
@[simp] theorem modPCnt_pending (p : Pid) (g : PCnt → PCnt) (s : State) : (modPCnt p g s).pending = s.pending := rfl

/-! ### modLd -/

@[simp] theorem modLd_ao (p : Pid) (g : Loaded → Loaded) (s : State) : (modLd p g s).ao = s.ao := rfl
@[simp] theorem modLd_host (p : Pid) (g : Loaded → Loaded) (s : State) : (modLd p g s).host = s.host := rfl
@[simp] theorem modLd_units (p : Pid) (g : Loaded → Loaded) (s : State) : (modLd p g s).units = s.units := rfl
@[simp] theorem modLd_parts (p : Pid) (g : Loaded → Loaded) (s : State) :
    (modLd p g s).parts = vmod s.parts p (fun q => { q with ld := g q.ld }) := rfl
@[simp] theorem modLd_log (p : Pid) (g : Loaded → Loaded) (s : State) : (modLd p g s).log = s.log := rfl
@[simp] theorem modLd_time (p : Pid) (g : Loaded → Loaded) (s : State) : (modLd p g s).time = s.time := rfl
@[simp] theorem modLd_freeCtr (p : Pid) (g : Loaded → Loaded) (s : State) : (modLd p g s).freeCtr = s.freeCtr := rfl
@[simp] theorem modLd_out (p : Pid) (g : Loaded → Loaded) (s : State) : (modLd p g s).out = s.out := rfl
@[simp] theorem modLd_pending (p : Pid) (g : Loaded → Loaded) (s : State) : (modLd p g s).pending = s.pending := rfl

/-! ### modEx -/

@[simp] theorem modEx_ao (p : Pid) (g : Experts → Experts) (s : State) : (modEx p g s).ao = s.ao := rfl
@[simp] theorem modEx_host (p : Pid) (g : Experts → Experts) (s : State) : (modEx p g s).host = s.host := rfl
@[simp] theorem modEx_units (p : Pid) (g : Experts → Experts) (s : State) : (modEx p g s).units = s.units := rfl
@[simp] theorem modEx_parts (p : Pid) (g : Experts → Experts) (s : State) :
    (modEx p g s).parts = vmod s.parts p (fun q => { q with ex := g q.ex }) := rfl
@[simp] theorem modEx_log (p : Pid) (g : Experts → Experts) (s : State) : (modEx p g s).log = s.log := rfl
@[simp] theorem modEx_time (p : Pid) (g : Experts → Experts) (s : State) : (modEx p g s).time = s.time := rfl
@[simp] theorem modEx_freeCtr (p : Pid) (g : Experts → Experts) (s : State) : (modEx p g s).freeCtr = s.freeCtr := rfl
@[simp] theorem modEx_out (p : Pid) (g : Experts → Experts) (s : State) : (modEx p g s).out = s.out := rfl
@[simp] theorem modEx_pending (p : Pid) (g : Experts → Experts) (s : State) : (modEx p g s).pending = s.pending := rfl

/-! ### setDom -/

@[simp] theorem setDom_ao (n : Nat) (d : DomSt) (s : State) :
    (setDom n d s).ao = { s.ao with pwr := { s.ao.pwr with dom := vmodN s.ao.pwr.dom n (fun _ => d) } } := rfl
@[simp] theorem setDom_host (n : Nat) (d : DomSt) (s : State) : (setDom n d s).host = s.host := rfl
@[simp] theorem setDom_units (n : Nat) (d : DomSt) (s : State) : (setDom n d s).units = s.units := rfl
@[simp] theorem setDom_parts (n : Nat) (d : DomSt) (s : State) : (setDom n d s).parts = s.parts := rfl
@[simp] theorem setDom_log (n : Nat) (d : DomSt) (s : State) : (setDom n d s).log = s.log := rfl
@[simp] theorem setDom_time (n : Nat) (d : DomSt) (s : State) : (setDom n d s).time = s.time := rfl
@[simp] theorem setDom_freeCtr (n : Nat) (d : DomSt) (s : State) : (setDom n d s).freeCtr = s.freeCtr := rfl
@[simp] theorem setDom_out (n : Nat) (d : DomSt) (s : State) : (setDom n d s).out = s.out := rfl
@[simp] theorem setDom_pending (n : Nat) (d : DomSt) (s : State) : (setDom n d s).pending = s.pending := rfl

/-! ### dropReq -/

@[simp] theorem dropReq_ao (i : ReqId) (s : State) : (dropReq i s).ao = s.ao := rfl
@[simp] theorem dropReq_host (i : ReqId) (s : State) :
    (dropReq i s).host = { s.host with reqs := s.host.reqs.filter (fun r => !reqMatches i r) } := rfl
@[simp] theorem dropReq_units (i : ReqId) (s : State) : (dropReq i s).units = s.units := rfl
@[simp] theorem dropReq_parts (i : ReqId) (s : State) : (dropReq i s).parts = s.parts := rfl
@[simp] theorem dropReq_log (i : ReqId) (s : State) : (dropReq i s).log = s.log := rfl
@[simp] theorem dropReq_time (i : ReqId) (s : State) : (dropReq i s).time = s.time := rfl
@[simp] theorem dropReq_freeCtr (i : ReqId) (s : State) : (dropReq i s).freeCtr = s.freeCtr := rfl
@[simp] theorem dropReq_out (i : ReqId) (s : State) : (dropReq i s).out = s.out := rfl
@[simp] theorem dropReq_pending (i : ReqId) (s : State) : (dropReq i s).pending = s.pending := rfl

/-! ### modReq -/

@[simp] theorem modReq_ao (i : ReqId) (g : Req → Req) (s : State) : (modReq i g s).ao = s.ao := rfl
@[simp] theorem modReq_host (i : ReqId) (g : Req → Req) (s : State) :
    (modReq i g s).host = { s.host with reqs := modFirst (reqMatches i) g s.host.reqs } := rfl
@[simp] theorem modReq_units (i : ReqId) (g : Req → Req) (s : State) : (modReq i g s).units = s.units := rfl
@[simp] theorem modReq_parts (i : ReqId) (g : Req → Req) (s : State) : (modReq i g s).parts = s.parts := rfl
@[simp] theorem modReq_log (i : ReqId) (g : Req → Req) (s : State) : (modReq i g s).log = s.log := rfl
@[simp] theorem modReq_time (i : ReqId) (g : Req → Req) (s : State) : (modReq i g s).time = s.time := rfl
@[simp] theorem modReq_freeCtr (i : ReqId) (g : Req → Req) (s : State) : (modReq i g s).freeCtr = s.freeCtr := rfl
@[simp] theorem modReq_out (i : ReqId) (g : Req → Req) (s : State) : (modReq i g s).out = s.out := rfl
@[simp] theorem modReq_pending (i : ReqId) (g : Req → Req) (s : State) : (modReq i g s).pending = s.pending := rfl

end Sys2Proof.Machine
end

