-- ==== Sys2Proof/Laws/Access.lean ====
section
/-!
SUPPORT. What reading a function, a partition, a port, a drive or a domain gives after each named update: the updated
value where the update names it, the old value elsewhere.
-/
namespace Sys2Proof.Machine
variable {s : State}

/-! ## Vectors -/

theorem vec_get {α : Type} {n : Nat} (v : Vector α n) (i : Fin n) : v.get i = v[i.val] := rfl

theorem vmod_get_same {α : Type} {n : Nat} (v : Vector α n) (i : Fin n) (g : α → α) :
    (vmod v i g).get i = g (v.get i) := by
  simp [vmod, vec_get]

theorem vmod_get_ne {α : Type} {n : Nat} (v : Vector α n) {i j : Fin n} (g : α → α) (h : j ≠ i) :
    (vmod v i g).get j = v.get j := by
  have : (i : Nat) ≠ j := fun e => h (Fin.ext e.symm)
  simp [vmod, vec_get, Vector.getElem_set_ne, this]

theorem vget_of_lt {α : Type} {n : Nat} (v : Vector α n) {i : Nat} (d : α) (h : i < n) : vget v i d = v.get ⟨i, h⟩ := by
  simp [vget, vec_get, h]

theorem vget_of_ge {α : Type} {n : Nat} (v : Vector α n) {i : Nat} (d : α) (h : n ≤ i) : vget v i d = d := by
  simp [vget, Nat.not_lt.mpr h]

theorem vmodN_get {α : Type} {n : Nat} (v : Vector α n) (i : Nat) (g : α → α) (j : Fin n) :
    (vmodN v i g).get j = if i = j.val then g (v.get j) else v.get j := by
  unfold vmodN
  split
  · rename_i h
    by_cases e : i = j.val
    · subst e; simp [vec_get]
    · simp [vec_get, Vector.getElem_set_ne, e]
  · rename_i h
    have : i ≠ j.val := fun e => h (e ▸ j.isLt)
    simp [this]

theorem vget_vmodN_same {α : Type} {n : Nat} (v : Vector α n) {i : Nat} (g : α → α) (d : α) (h : i < n) :
    vget (vmodN v i g) i d = g (vget v i d) := by
  simp [vget_of_lt _ _ h, vmodN_get]

theorem vget_vmodN_ne {α : Type} {n : Nat} (v : Vector α n) {i j : Nat} (g : α → α) (d : α) (h : j ≠ i) :
    vget (vmodN v i g) j d = vget v j d := by
  by_cases hj : j < n
  · simp [vget_of_lt _ _ hj, vmodN_get, Ne.symm h]
  · simp [vget_of_ge _ _ (Nat.le_of_not_lt hj)]

theorem vmod_vmod {α : Type} {n : Nat} (v : Vector α n) (i : Fin n) (g k : α → α) :
    vmod (vmod v i g) i k = vmod v i (fun x => k (g x)) := by
  simp [vmod, vec_get]

/-! ## Functions -/

@[simp] theorem fnOf_modFn (f : Fn) (g : FnState → FnState) : fnOf (modFn f g s) f = g (fnOf s f) :=
  vmod_get_same _ _ _
theorem fnOf_modFn_ne {f k : Fn} (g : FnState → FnState) (h : k ≠ f) : fnOf (modFn f g s) k = fnOf s k :=
  vmod_get_ne _ _ h
@[simp] theorem fnOf_modMbx (f : Fn) (g : MbxBlock → MbxBlock) :
    fnOf (modMbx f g s) f = { fnOf s f with mbx := g (fnOf s f).mbx } := fnOf_modFn _ _
theorem fnOf_modMbx_ne {f k : Fn} (g : MbxBlock → MbxBlock) (h : k ≠ f) : fnOf (modMbx f g s) k = fnOf s k :=
  fnOf_modFn_ne _ h
@[simp] theorem fnOf_modRing (f : Fn) (g : RingBlock → RingBlock) :
    fnOf (modRing f g s) f = { fnOf s f with ring := g (fnOf s f).ring } := fnOf_modFn _ _
theorem fnOf_modRing_ne {f k : Fn} (g : RingBlock → RingBlock) (h : k ≠ f) : fnOf (modRing f g s) k = fnOf s k :=
  fnOf_modFn_ne _ h
@[simp] theorem fnOf_modIrq (f : Fn) (g : IrqBlock → IrqBlock) :
    fnOf (modIrq f g s) f = { fnOf s f with irq := g (fnOf s f).irq } := fnOf_modFn _ _
theorem fnOf_modIrq_ne {f k : Fn} (g : IrqBlock → IrqBlock) (h : k ≠ f) : fnOf (modIrq f g s) k = fnOf s k :=
  fnOf_modFn_ne _ h
@[simp] theorem fnOf_modCnt (f : Fn) (g : CntBlock → CntBlock) :
    fnOf (modCnt f g s) f = { fnOf s f with cnt := g (fnOf s f).cnt } := fnOf_modFn _ _
theorem fnOf_modCnt_ne {f k : Fn} (g : CntBlock → CntBlock) (h : k ≠ f) : fnOf (modCnt f g s) k = fnOf s k :=
  fnOf_modFn_ne _ h
/-- A change of the host side that keeps the functions. -/
theorem fnOf_modHost {g : HostSt → HostSt} (f : Fn) (h : (g s.host).fns = s.host.fns) :
    fnOf (modHost g s) f = fnOf s f := by show (g s.host).fns.get f = _; rw [h]; rfl
@[simp] theorem fnOf_modAo (g f) : fnOf (modAo g s) f = fnOf s f := rfl
@[simp] theorem fnOf_modUnits (g f) : fnOf (modUnits g s) f = fnOf s f := rfl
@[simp] theorem fnOf_modLog (g f) : fnOf (modLog g s) f = fnOf s f := rfl
@[simp] theorem fnOf_emit (o f) : fnOf (emit o s) f = fnOf s f := rfl
@[simp] theorem fnOf_modPart (p g f) : fnOf (modPart p g s) f = fnOf s f := rfl
@[simp] theorem fnOf_modPartN (p g f) : fnOf (modPartN p g s) f = fnOf s f := rfl
@[simp] theorem fnOf_modParts (g f) : fnOf (modParts g s) f = fnOf s f := rfl
@[simp] theorem fnOf_dropReq (i f) : fnOf (dropReq i s) f = fnOf s f := rfl
@[simp] theorem fnOf_modReq (i g f) : fnOf (modReq i g s) f = fnOf s f := rfl

theorem modFn_modFn (f : Fn) (g k : FnState → FnState) : modFn f k (modFn f g s) = modFn f (fun x => k (g x)) s := by
  simp [modFn, modHost, vmod_vmod]
theorem modMbx_modMbx (f : Fn) (g k : MbxBlock → MbxBlock) :
    modMbx f k (modMbx f g s) = modMbx f (fun x => k (g x)) s := modFn_modFn _ _ _
theorem modRing_modRing (f : Fn) (g k : RingBlock → RingBlock) :
    modRing f k (modRing f g s) = modRing f (fun x => k (g x)) s := modFn_modFn _ _ _
theorem modIrq_modIrq (f : Fn) (g k : IrqBlock → IrqBlock) :
    modIrq f k (modIrq f g s) = modIrq f (fun x => k (g x)) s := modFn_modFn _ _ _

/-! ## Partitions -/

@[simp] theorem partOf_modPart (p : Pid) (g : Part → Part) : partOf (modPart p g s) p = g (partOf s p) :=
  vmod_get_same _ _ _
theorem partOf_modPart_ne {p k : Pid} (g : Part → Part) (h : k ≠ p) : partOf (modPart p g s) k = partOf s k :=
  vmod_get_ne _ _ h
@[simp] theorem partOf_modSched (p : Pid) (g : Sched → Sched) :
    partOf (modSched p g s) p = { partOf s p with sc := g (partOf s p).sc } := partOf_modPart _ _
@[simp] theorem partOf_modPCnt (p : Pid) (g : PCnt → PCnt) :
    partOf (modPCnt p g s) p = { partOf s p with cnt := g (partOf s p).cnt } := partOf_modPart _ _
@[simp] theorem partOf_modLd (p : Pid) (g : Loaded → Loaded) :
    partOf (modLd p g s) p = { partOf s p with ld := g (partOf s p).ld } := partOf_modPart _ _
@[simp] theorem partOf_modEx (p : Pid) (g : Experts → Experts) :
    partOf (modEx p g s) p = { partOf s p with ex := g (partOf s p).ex } := partOf_modPart _ _
@[simp] theorem partOf_modParts (g : Part → Part) (p : Pid) : partOf (modParts g s) p = g (partOf s p) := by
  show (s.parts.map g).get p = g (s.parts.get p)
  simp [vec_get]
theorem partOf_modPartN (n : Nat) (g : Part → Part) (p : Pid) :
    partOf (modPartN n g s) p = if n = p.val then g (partOf s p) else partOf s p := vmodN_get _ _ _ _
@[simp] theorem partOf_modHost (g p) : partOf (modHost g s) p = partOf s p := rfl
@[simp] theorem partOf_modUnits (g p) : partOf (modUnits g s) p = partOf s p := rfl
@[simp] theorem partOf_modAo (g p) : partOf (modAo g s) p = partOf s p := rfl
@[simp] theorem partOf_modLog (g p) : partOf (modLog g s) p = partOf s p := rfl
@[simp] theorem partOf_emit (o p) : partOf (emit o s) p = partOf s p := rfl
@[simp] theorem partAt_val (p : Pid) : partAt s p.val = partOf s p := by simp [partAt, partOf, vget_of_lt _ _ p.isLt]
theorem partAt_of_lt {n : Nat} (h : n < 64) : partAt s n = partOf s ⟨n, h⟩ := vget_of_lt _ _ h

/-! ## Ports, drives, domains -/

theorem portOf_modPort (n : Nat) (g : Port → Port) (h : n < 8) : portOf (modPort n g s) n = g (portOf s n) :=
  vget_vmodN_same _ _ _ h
theorem portOf_modPort_ne {n k : Nat} (g : Port → Port) (h : k ≠ n) : portOf (modPort n g s) k = portOf s k :=
  vget_vmodN_ne _ _ _ h
theorem driveOf_modDrive (n : Nat) (g : Drive → Drive) (h : n < 4) : driveOf (modDrive n g s) n = g (driveOf s n) :=
  vget_vmodN_same _ _ _ h
theorem driveOf_modDrive_ne {n k : Nat} (g : Drive → Drive) (h : k ≠ n) : driveOf (modDrive n g s) k = driveOf s k :=
  vget_vmodN_ne _ _ _ h
theorem domOf_setDom (n : Nat) (d : DomSt) (h : n < 8) : domOf (setDom n d s) n = d := vget_vmodN_same _ _ _ h
theorem domOf_setDom_ne {n k : Nat} (d : DomSt) (h : k ≠ n) : domOf (setDom n d s) k = domOf s k :=
  vget_vmodN_ne _ _ _ h

end Sys2Proof.Machine
end

