-- ==== Sys2Proof/Laws/Memory.lean ====
section
/-!
SUPPORT. Sparse byte memories: the canonical form is kept by every operation, and a read answers the last write.
-/
namespace Sys2Proof.Machine

/-- The canonical form as a pairwise condition. -/
theorem memWf_iff (m : List Host.Cell) :
    memWf m = true ↔ m.Pairwise (fun c d => c.1 < d.1) ∧ ∀ c ∈ m, c.2 ≠ 0 := by
  induction m with
  | nil => simp [memWf]
  | cons c r ih =>
    cases r with
    | nil => simp [memWf]
    | cons d r =>
      simp only [memWf, Bool.and_eq_true, bne_iff_ne, ne_eq, decide_eq_true_eq, ih]
      constructor
      · rintro ⟨⟨h1, h2⟩, h3, h4⟩
        refine ⟨List.pairwise_cons.2 ⟨?_, h3⟩, ?_⟩
        · intro e he
          rcases List.mem_cons.1 he with rfl | he
          · exact h2
          · exact Nat.lt_trans h2 ((List.pairwise_cons.1 h3).1 e he)
        · intro e he
          rcases List.mem_cons.1 he with rfl | he
          · exact h1
          · exact h4 e he
      · rintro ⟨h1, h2⟩
        have h3 := List.pairwise_cons.1 h1
        exact ⟨⟨h2 c (by simp), h3.1 d (by simp)⟩, h3.2, fun e he => h2 e (List.mem_cons_of_mem _ he)⟩

/-- Every address of a memory after a write was there before or is the one written. -/
theorem memWrite_mem (m : List Host.Cell) (a : Nat) (b : Byte) :
    ∀ c ∈ memWrite m a b, c ∈ m ∨ (c = (a, b) ∧ b ≠ 0) := by
  induction m with
  | nil =>
    intro c hc
    simp only [memWrite] at hc
    split at hc <;> simp_all
  | cons d r ih =>
    intro c hc
    simp only [memWrite] at hc
    split at hc
    · split at hc
      · exact Or.inl hc
      · rcases List.mem_cons.1 hc with rfl | h
        · exact Or.inr ⟨rfl, by assumption⟩
        · exact Or.inl h
    · split at hc
      · split at hc
        · exact Or.inl (List.mem_cons_of_mem _ hc)
        · rcases List.mem_cons.1 hc with rfl | h
          · exact Or.inr ⟨rfl, by assumption⟩
          · exact Or.inl (List.mem_cons_of_mem _ h)
      · rcases List.mem_cons.1 hc with rfl | h
        · simp
        · rcases ih c h with h | h
          · exact Or.inl (List.mem_cons_of_mem _ h)
          · exact Or.inr h

/-- A write keeps the canonical form. -/
theorem memWrite_wf (m : List Host.Cell) (a : Nat) (b : Byte) (h : memWf m = true) : memWf (memWrite m a b) = true := by
  rw [memWf_iff] at h ⊢
  induction m with
  | nil => simp only [memWrite]; split <;> simp_all
  | cons d r ih =>
    have hp := List.pairwise_cons.1 h.1
    have ihr := ih ⟨hp.2, fun e he => h.2 e (List.mem_cons_of_mem _ he)⟩
    simp only [memWrite]
    split
    · split
      · exact h
      · refine ⟨List.pairwise_cons.2 ⟨fun e he => ?_, h.1⟩, fun e he => ?_⟩
        · rcases List.mem_cons.1 he with rfl | he
          · assumption
          · exact Nat.lt_trans (by assumption) (hp.1 e he)
        · rcases List.mem_cons.1 he with rfl | he
          · assumption
          · exact h.2 e he
    · split
      · split
        · exact ⟨hp.2, fun e he => h.2 e (List.mem_cons_of_mem _ he)⟩
        · refine ⟨List.pairwise_cons.2 ⟨fun e he => ?_, hp.2⟩, fun e he => ?_⟩
          · have := hp.1 e he
            simp_all
          · rcases List.mem_cons.1 he with rfl | he
            · assumption
            · exact h.2 e (List.mem_cons_of_mem _ he)
      · refine ⟨List.pairwise_cons.2 ⟨fun e he => ?_, ihr.1⟩, fun e he => ?_⟩
        · rcases memWrite_mem r a b e he with he | ⟨rfl, _⟩
          · exact hp.1 e he
          · show d.1 < a
            omega
        · rcases List.mem_cons.1 he with rfl | he
          · exact h.2 e (List.mem_cons_self ..)
          · exact ihr.2 e he

/-- Writing bytes keeps the canonical form. -/
theorem memWriteN_wf (bs : List Byte) : ∀ (m : List Host.Cell) (a : Nat), memWf m = true → memWf (memWriteN m a bs) = true := by
  induction bs with
  | nil => exact fun m a h => h
  | cons b bs ih => exact fun m a h => ih _ _ (memWrite_wf m a b h)

/-- Clearing cells keeps the canonical form. -/
theorem memClear_wf (m : List Host.Cell) (t : Nat → Bool) (h : memWf m = true) : memWf (memClear m t) = true := by
  rw [memWf_iff] at h ⊢
  exact ⟨h.1.sublist List.filter_sublist, fun c hc => h.2 c (List.mem_filter.1 hc).1⟩

/-- In a canonical memory every address of the tail lies above the head. -/
theorem memRead_below (m : List Host.Cell) (a : Nat) (h : ∀ c ∈ m, a < c.1) : memRead m a = 0 := by
  cases m with
  | nil => rfl
  | cons c r =>
    have := h c (by simp)
    simp only [memRead]
    rw [if_neg (by omega), if_pos this]

/-- A read after a write to the same address gives the byte written. -/
theorem memRead_write_same (m : List Host.Cell) (a : Nat) (b : Byte) (h : memWf m = true) :
    memRead (memWrite m a b) a = b := by
  rw [memWf_iff] at h
  induction m with
  | nil => simp only [memWrite]; split <;> simp_all [memRead]
  | cons d r ih =>
    have hp := List.pairwise_cons.1 h.1
    simp only [memWrite]
    split
    · split
      · simp only [memRead]
        rw [if_neg (by omega), if_pos (by assumption)]
        simp_all
      · simp [memRead]
    · split
      · split
        · have := memRead_below r a (fun c hc => by have := hp.1 c hc; simp_all)
          simp_all
        · simp [memRead]
      · have := ih ⟨hp.2, fun e he => h.2 e (List.mem_cons_of_mem _ he)⟩
        simp only [memRead]
        rw [if_neg (by omega), if_neg (by omega)]
        exact this

/-- A write leaves every other address alone. -/
theorem memRead_write_other (m : List Host.Cell) (a k : Nat) (b : Byte) (hk : k ≠ a) (h : memWf m = true) :
    memRead (memWrite m a b) k = memRead m k := by
  rw [memWf_iff] at h
  induction m with
  | nil => simp only [memWrite]; split <;> simp_all [memRead]; intro; omega
  | cons d r ih =>
    have hp := List.pairwise_cons.1 h.1
    have ih := ih ⟨hp.2, fun e he => h.2 e (List.mem_cons_of_mem _ he)⟩
    simp only [memWrite]
    split
    · split
      · rfl
      · simp only [memRead]
        rw [if_neg (by omega)]
        split
        · rw [if_neg (by omega), if_pos (by omega)]
        · rfl
    · split
      · rename_i hlt heq
        subst heq
        split
        · by_cases hk' : k < d.1
          · rw [memRead_below r k (fun c hc => Nat.lt_trans hk' (hp.1 c hc))]
            simp only [memRead]
            rw [if_neg (Ne.symm hk), if_pos hk']
          · simp only [memRead]
            rw [if_neg (Ne.symm hk), if_neg hk']
        · simp only [memRead]
          rw [if_neg (Ne.symm hk), if_neg (Ne.symm hk)]
      · simp only [memRead, ih]

/-- Reading after writing several bytes: the written byte inside them, the old byte outside. -/
theorem memRead_writeN (bs : List Byte) : ∀ (m : List Host.Cell) (a k : Nat), memWf m = true →
    memRead (memWriteN m a bs) k = if a ≤ k ∧ k < a + bs.length then bs.getD (k - a) 0 else memRead m k := by
  induction bs with
  | nil => intro m a k _; simp [memWriteN]
  | cons b bs ih =>
    intro m a k h
    rw [memWriteN, ih _ _ _ (memWrite_wf m a b h)]
    by_cases e : k = a
    · subst e
      rw [if_neg (by omega), memRead_write_same _ _ _ h, if_pos (by simp)]
      simp
    · rw [memRead_write_other _ _ _ _ e h]
      by_cases c : a + 1 ≤ k ∧ k < a + 1 + bs.length
      · rw [if_pos c, if_pos (by simp; omega)]
        have : k - a = (k - (a + 1)) + 1 := by omega
        rw [this]; simp
      · rw [if_neg c, if_neg (by simp; omega)]

end Sys2Proof.Machine
end

