-- ==== Sys2Proof/Laws/Follows.lean ====
section
/-!
SUPPORT. The relation `Follows` between the state before an operation and the state after it, and what the named updates
do to it.  A lemma f_follows takes a state that follows s₀ and says that f leaves one that follows s₀, so that the lemma
of a function is the chain of the lemmas of what it calls.
-/
namespace Sys2Proof.Machine

/-- What every operation of the block does: it leaves the queue of waiting commands alone, takes nothing back that was
sent, only blows fuses, and keeps the invariant. -/
structure Follows (s t : State) : Prop where
  pending : t.pending = s.pending
  sent : s.out <:+ t.out
  fuse : s.ao.fuse.Before t.ao.fuse
  inv : s.Inv → t.Inv

variable {s₀ s : State}

theorem fuse_refl (a : FuseSt) : a.Before a := ⟨rfl, rfl, rfl, rfl, rfl, Nat.le_refl _⟩

theorem fuse_trans {a b c : FuseSt} (h : a.Before b) (k : b.Before c) : a.Before c :=
  ⟨k.bad.trans h.bad, k.keyHash.trans h.keyHash, k.serial.trans h.serial, k.stepping.trans h.stepping,
    k.privateTapOff.trans h.privateTapOff, Nat.le_trans h.rollback k.rollback⟩

theorem Follows.refl (s : State) : Follows s s := ⟨rfl, List.suffix_refl _, fuse_refl _, id⟩

theorem Follows.trans {r s t : State} (h : Follows r s) (k : Follows s t) : Follows r t :=
  ⟨k.pending.trans h.pending, h.sent.trans k.sent, fuse_trans h.fuse k.fuse, fun i => k.inv (h.inv i)⟩

/-- An update that leaves the queue, the fuses, what was sent, the log, the hold queues and near memory alone. -/
theorem Follows.of_eq {t : State} (h : Follows s₀ s) (hp : t.pending = s.pending) (ho : t.out = s.out)
    (ha : t.ao.fuse = s.ao.fuse) (hl : t.log = s.log) (hf : t.host.fns = s.host.fns)
    (hm : t.units.mem.cells = s.units.mem.cells) : Follows s₀ t :=
  ⟨hp.trans h.pending, ho ▸ h.sent, ha ▸ h.fuse, fun i => by
    obtain ⟨a, b, c, d⟩ := h.inv i
    exact ⟨hl ▸ a, hl ▸ b, hf ▸ c, hm ▸ d⟩⟩

theorem foldl_follows {α : Type} {l : List α} {g : State → α → State}
    (hg : ∀ (s : State) (x : α), Follows s₀ s → Follows s₀ (g s x)) (h : Follows s₀ s) : Follows s₀ (l.foldl g s) := by
  induction l generalizing s with
  | nil => exact h
  | cons x l ih => exact ih (hg s x h)

theorem foldl_snd_follows {α β : Type} {l : List β} {g : α × State → β → α × State} {x : α × State}
    (hg : ∀ (x : α × State) (b : β), Follows s₀ x.2 → Follows s₀ (g x b).2) (h : Follows s₀ x.2) :
    Follows s₀ (l.foldl g x).2 := by
  induction l generalizing x with
  | nil => exact h
  | cons b l ih => exact ih (hg x b h)

theorem foldl_fst_follows {α β : Type} {l : List β} {g : State × α → β → State × α} {x : State × α}
    (hg : ∀ (x : State × α) (b : β), Follows s₀ x.1 → Follows s₀ (g x b).1) (h : Follows s₀ x.1) :
    Follows s₀ (l.foldl g x).1 := by
  induction l generalizing x with
  | nil => exact h
  | cons b l ih => exact ih (hg x b h)

theorem ite_follows {c : Prop} [Decidable c] {a b : State} (ha : Follows s₀ a) (hb : Follows s₀ b) :
    Follows s₀ (if c then a else b) := by
  split
  · exact ha
  · exact hb

theorem ite_pair_follows {α : Type} {c : Prop} [Decidable c] {a b : State × α} (ha : Follows s₀ a.1)
    (hb : Follows s₀ b.1) : Follows s₀ (if c then a else b).1 := by
  split
  · exact ha
  · exact hb

theorem pair_follows' {α : Type} {x : α × State} {t : State} {a : α} (e : x = (a, t)) (h : Follows s₀ x.2) :
    Follows s₀ t := by subst e; exact h

theorem pair_follows {α : Type} {x : State × α} {t : State} {a : α} (e : x = (t, a)) (h : Follows s₀ x.1) :
    Follows s₀ t := by subst e; exact h

/-- A change of the always-on side that keeps the fuses. -/
theorem modAo_follows {g : AoSt → AoSt} (hg : (g s.ao).fuse = s.ao.fuse) (h : Follows s₀ s) :
    Follows s₀ (modAo g s) := h.of_eq rfl rfl hg rfl rfl rfl

theorem emit_follows (o) (h : Follows s₀ s) : Follows s₀ (emit o s) :=
  ⟨h.pending, h.sent.trans (List.suffix_cons _ _), h.fuse, fun i =>
    have ⟨a, b, c, d⟩ := h.inv i
    ⟨a, b, c, d⟩⟩

theorem modPart_follows (p g) (h : Follows s₀ s) : Follows s₀ (modPart p g s) := h.of_eq rfl rfl rfl rfl rfl rfl
theorem modPartN_follows (p g) (h : Follows s₀ s) : Follows s₀ (modPartN p g s) := h.of_eq rfl rfl rfl rfl rfl rfl
theorem modParts_follows (g) (h : Follows s₀ s) : Follows s₀ (modParts g s) := h.of_eq rfl rfl rfl rfl rfl rfl
theorem modSched_follows (p g) (h : Follows s₀ s) : Follows s₀ (modSched p g s) := h.of_eq rfl rfl rfl rfl rfl rfl
theorem modPCnt_follows (p g) (h : Follows s₀ s) : Follows s₀ (modPCnt p g s) := h.of_eq rfl rfl rfl rfl rfl rfl
theorem modLd_follows (p g) (h : Follows s₀ s) : Follows s₀ (modLd p g s) := h.of_eq rfl rfl rfl rfl rfl rfl
theorem modEx_follows (p g) (h : Follows s₀ s) : Follows s₀ (modEx p g s) := h.of_eq rfl rfl rfl rfl rfl rfl
theorem modPool_follows (g) (h : Follows s₀ s) : Follows s₀ (modPool g s) := h.of_eq rfl rfl rfl rfl rfl rfl
theorem modMesh_follows (g) (h : Follows s₀ s) : Follows s₀ (modMesh g s) := h.of_eq rfl rfl rfl rfl rfl rfl
theorem modChurn_follows (g) (h : Follows s₀ s) : Follows s₀ (modChurn g s) := h.of_eq rfl rfl rfl rfl rfl rfl
theorem modPair_follows (g) (h : Follows s₀ s) : Follows s₀ (modPair g s) := h.of_eq rfl rfl rfl rfl rfl rfl
theorem modPort_follows (n g) (h : Follows s₀ s) : Follows s₀ (modPort n g s) := h.of_eq rfl rfl rfl rfl rfl rfl
theorem modDrive_follows (n g) (h : Follows s₀ s) : Follows s₀ (modDrive n g s) := h.of_eq rfl rfl rfl rfl rfl rfl
theorem modPwr_follows (g) (h : Follows s₀ s) : Follows s₀ (modPwr g s) := h.of_eq rfl rfl rfl rfl rfl rfl
theorem modBoot_follows (g) (h : Follows s₀ s) : Follows s₀ (modBoot g s) := h.of_eq rfl rfl rfl rfl rfl rfl
theorem modClk_follows (g) (h : Follows s₀ s) : Follows s₀ (modClk g s) := h.of_eq rfl rfl rfl rfl rfl rfl
theorem modFw_follows (g) (h : Follows s₀ s) : Follows s₀ (modFw g s) := h.of_eq rfl rfl rfl rfl rfl rfl
theorem modEnt_follows (g) (h : Follows s₀ s) : Follows s₀ (modEnt g s) := h.of_eq rfl rfl rfl rfl rfl rfl
theorem modTherm_follows (g) (h : Follows s₀ s) : Follows s₀ (modTherm g s) := h.of_eq rfl rfl rfl rfl rfl rfl
theorem modModule_follows (g) (h : Follows s₀ s) : Follows s₀ (modModule g s) := h.of_eq rfl rfl rfl rfl rfl rfl
theorem modCtrl_follows (g) (h : Follows s₀ s) : Follows s₀ (modCtrl g s) := h.of_eq rfl rfl rfl rfl rfl rfl
theorem setDom_follows (n d) (h : Follows s₀ s) : Follows s₀ (setDom n d s) := h.of_eq rfl rfl rfl rfl rfl rfl
theorem dropReq_follows (i) (h : Follows s₀ s) : Follows s₀ (dropReq i s) := h.of_eq rfl rfl rfl rfl rfl rfl
theorem modReq_follows (i g) (h : Follows s₀ s) : Follows s₀ (modReq i g s) := h.of_eq rfl rfl rfl rfl rfl rfl

/-- A change of the host side that keeps every function. -/
theorem modHost_follows {g : HostSt → HostSt} (hg : (g s.host).fns = s.host.fns) (h : Follows s₀ s) :
    Follows s₀ (modHost g s) := h.of_eq rfl rfl rfl rfl hg rfl

/-- A change of the units that keeps near memory's cells. -/
theorem modUnits_follows {g : UnitSt → UnitSt} (hg : (g s.units).mem.cells = s.units.mem.cells) (h : Follows s₀ s) :
    Follows s₀ (modUnits g s) := h.of_eq rfl rfl rfl rfl rfl hg

/-- A change of near memory that keeps the canonical form. -/
theorem modMem_follows {g : MemSt → MemSt} (hg : memWf s.units.mem.cells = true → memWf (g s.units.mem).cells = true)
    (h : Follows s₀ s) : Follows s₀ (modMem g s) :=
  ⟨h.pending, h.sent, h.fuse, fun i => by
    obtain ⟨a, b, c, d⟩ := h.inv i
    exact ⟨a, b, c, hg d⟩⟩

/-- A change of a function that keeps the bound of its hold queue. -/
theorem modFn_follows {f : Fn} {g : FnState → FnState}
    (hg : (fnOf s f).ring.hold.length ≤ 256 → (g (fnOf s f)).ring.hold.length ≤ 256) (h : Follows s₀ s) :
    Follows s₀ (modFn f g s) :=
  ⟨h.pending, h.sent, h.fuse, fun i => by
    obtain ⟨a, b, c, d⟩ := h.inv i
    refine ⟨a, b, fun k => ?_, d⟩
    show ((vmod s.host.fns f g).get k).ring.hold.length ≤ 256
    by_cases e : f = k
    · subst e
      have : (vmod s.host.fns f g).get f = g (fnOf s f) := by simp [vmod, Vector.get_eq_getElem, fnOf]
      rw [this]
      exact hg (c f)
    · have : (vmod s.host.fns f g).get k = s.host.fns.get k := by
        simp only [vmod, Vector.get_eq_getElem]
        exact Vector.getElem_set_ne _ _ (fun x => e (Fin.ext x))
      rw [this]
      exact c k⟩

theorem modMbx_follows (f g) (h : Follows s₀ s) : Follows s₀ (modMbx f g s) := modFn_follows id h
theorem modIrq_follows (f g) (h : Follows s₀ s) : Follows s₀ (modIrq f g s) := modFn_follows id h
theorem modCnt_follows (f g) (h : Follows s₀ s) : Follows s₀ (modCnt f g s) := modFn_follows id h
theorem modRing_follows {f : Fn} {g : RingBlock → RingBlock}
    (hg : (fnOf s f).ring.hold.length ≤ 256 → (g (fnOf s f).ring).hold.length ≤ 256) (h : Follows s₀ s) :
    Follows s₀ (modRing f g s) := modFn_follows hg h

/-- A change of the log that keeps its bounds. -/
theorem modLog_follows {g : LogSt → LogSt}
    (hg : s.log.ring.length ≤ 8192 → s.log.spill.length ≤ 2097152 →
      (g s.log).ring.length ≤ 8192 ∧ (g s.log).spill.length ≤ 2097152) (h : Follows s₀ s) :
    Follows s₀ (modLog g s) :=
  ⟨h.pending, h.sent, h.fuse, fun i => by
    obtain ⟨a, b, c, d⟩ := h.inv i
    exact ⟨(hg a b).1, (hg a b).2, c, d⟩⟩

end Sys2Proof.Machine
end

