-- ==== Sys2Proof/Laws/FollowsHost.lean ====
section
/-!
SUPPORT. What every operation of the host interface, logging, DMA, power, reset and the module leaves: a state that follows.
-/
namespace Sys2Proof.Machine

variable {s₀ : State}

/-! ### Ops -/

theorem fresh_follows {s : State} (h : Follows s₀ s) : Follows s₀ (fresh s).2 := h.of_eq rfl rfl rfl rfl rfl rfl

theorem cntFaults_follows {s : State} (part : Nat) (g : FaultSet → FaultSet) (hF : Follows s₀ s) :
    Follows s₀ (cntFaults part g s) := by
  unfold cntFaults
  dsimp only
  with_reducible repeat' first | assumption | apply ite_follows | rfl | apply modAo_follows | apply modPartN_follows

theorem sendMsix_follows {s : State} (f : Fn) (v : Fin 3) (hF : Follows s₀ s) :
    Follows s₀ (sendMsix f v s) := by
  unfold sendMsix
  dsimp only
  with_reducible repeat' first | assumption | apply ite_follows | apply modIrq_follows | apply emit_follows

theorem raiseIrq_follows {s : State} (f : Fn) (b : Fin 4) (hF : Follows s₀ s) :
    Follows s₀ (raiseIrq f b s) := by
  unfold raiseIrq
  dsimp only
  with_reducible repeat' first | assumption | apply ite_follows | apply modIrq_follows | apply sendMsix_follows

/-- A push keeps the bounds of the log. -/
theorem pushRec_bounds (m : Bool) (r : LogRec) (l : LogSt) (h : l.ring.length ≤ 8192) (k : l.spill.length ≤ 2097152) :
    (pushRec m r l).ring.length ≤ 8192 ∧ (pushRec m r l).spill.length ≤ 2097152 := by
  unfold pushRec
  dsimp only
  split
  · exact ⟨by assumption, k⟩
  · split
    · exact ⟨by simp_all, k⟩
    · rename_i o rest e
      have : rest.length ≤ 8192 := by
        have e' := congrArg List.length e
        simp only [List.length_append, List.length_cons, List.length_nil] at e'
        omega
      split
      · refine ⟨this, ?_⟩
        simp only [List.length_drop, List.length_append, List.length_cons, List.length_nil]
        omega
      · exact ⟨this, k⟩

theorem logEvent_follows {s : State} (part code a0 a1 a2 a3 : Nat) (h : Follows s₀ s) :
    Follows s₀ (logEvent part code a0 a1 a2 a3 s) := by
  unfold logEvent
  dsimp only
  split
  · exact cntFaults_follows _ _ (modLog_follows (fun a b => ⟨a, b⟩) h)
  · repeat' first | assumption | split | apply raiseIrq_follows | exact modLog_follows (pushRec_bounds _ _ _) h

theorem logDev_follows {s : State} (code a0 a1 a2 a3 : Nat) (hF : Follows s₀ s) :
    Follows s₀ (logDev code a0 a1 a2 a3 s) := by
  unfold logDev
  with_reducible repeat' first | assumption | apply logEvent_follows

theorem transientFault_follows {s : State} (part unit fault tag : Nat) (hF : Follows s₀ s) :
    Follows s₀ (transientFault part unit fault tag s) := by
  unfold transientFault
  dsimp only
  with_reducible repeat' first | assumption | apply logEvent_follows | apply cntFaults_follows

theorem lastingFault_follows {s : State} (part unit fault scope tag : Nat) (hF : Follows s₀ s) :
    Follows s₀ (lastingFault part unit fault scope tag s) := by
  unfold lastingFault
  dsimp only
  with_reducible repeat' first | assumption | apply logEvent_follows | apply cntFaults_follows

theorem lateDiscard_follows {s : State} (part unit rung tag : Nat) (hF : Follows s₀ s) :
    Follows s₀ (lateDiscard part unit rung tag s) := by
  unfold lateDiscard
  dsimp only
  with_reducible repeat' first | assumption | apply logEvent_follows | apply cntFaults_follows

theorem guaranteeLapse_follows {s : State} (part cond : Nat) (hF : Follows s₀ s) :
    Follows s₀ (guaranteeLapse part cond s) := by
  unfold guaranteeLapse
  dsimp only
  with_reducible repeat' first | assumption | apply logEvent_follows | apply cntFaults_follows

theorem limited_follows {s : State} (key : LimKey) (n : Nat) (write : Nat → State → State) (part : Nat)
    (hw : ∀ n (t : State), Follows s₀ t → Follows s₀ (write n t)) (h : Follows s₀ s) :
    Follows s₀ (limited key n write part s) := by
  unfold limited
  dsimp only
  split
  · split
    · exact cntFaults_follows _ _ (modLog_follows (fun a b => ⟨a, b⟩) h)
    · exact hw _ _ (modLog_follows (fun a b => ⟨a, b⟩) h)
  · exact hw _ _ (modLog_follows (fun a b => ⟨a, b⟩) h)

theorem partnerViolation_follows {s : State} (key : LimKey) (part unit kind what detail : Nat) (h : Follows s₀ s) :
    Follows s₀ (partnerViolation key part unit kind what detail s) := by
  unfold partnerViolation
  dsimp only
  exact limited_follows _ _ _ _ (fun _ _ k => logEvent_follows _ _ _ _ _ _ k) (cntFaults_follows _ _ h)

theorem violation_follows {s : State} (f : Fn) (check opcode : Nat) (hF : Follows s₀ s) :
    Follows s₀ (violation f check opcode s) := by
  unfold violation
  dsimp only
  with_reducible repeat' first | assumption | apply modMbx_follows | apply partnerViolation_follows

theorem issueDma_follows {s : State} (f : Fn) (k : DmaKind) (addr : Nat) (bytes : List Byte) (len : Nat)
    (hF : Follows s₀ s) :
    Follows s₀ (issueDma f k addr bytes len s) := by
  unfold issueDma
  dsimp only
  with_reducible repeat' first | assumption | rfl | split | apply modHost_follows | apply emit_follows

theorem writeCqe_follows {s : State} (f : Fn) (c : Cqe) (hF : Follows s₀ s) :
    Follows s₀ (writeCqe f c s) := by
  unfold writeCqe
  dsimp only
  with_reducible repeat' first | assumption | exact fun a => a | split | apply modRing_follows
                               | apply issueDma_follows

theorem fenceAtNext_follows {s : State} (part cause : Nat) (hF : Follows s₀ s) :
    Follows s₀ (fenceAtNext part cause s) := by
  unfold fenceAtNext
  dsimp only
  with_reducible repeat' first | assumption | apply ite_follows | apply modPartN_follows

theorem postCqe_follows {s : State} (f : Fn) (c : Cqe) (h : Follows s₀ s) : Follows s₀ (postCqe f c s) := by
  unfold postCqe
  dsimp only
  split
  · exact h
  split
  · exact lateDiscard_follows _ _ _ _ (modCnt_follows _ _ h)
  split
  · exact writeCqe_follows _ _ h
  split
  · refine modRing_follows (fun _ => ?_) h
    simp only [List.length_append, List.length_cons, List.length_nil]
    omega
  · exact fenceAtNext_follows _ _ (logEvent_follows _ _ _ _ _ _ (modCnt_follows _ _ h))

theorem drainHold_follows (f : Fn) (n : Nat) : ∀ {s : State}, Follows s₀ s → Follows s₀ (drainHold f n s) := by
  induction n with
  | zero => exact fun h => h
  | succ n ih =>
    intro s h
    simp only [drainHold]
    split
    · exact modRing_follows (fun a => a) h
    · rename_i c rest e
      split
      · exact h
      · have h' := modRing_follows (f := f) (g := fun r => { r with hold := rest })
          (fun a => by rw [e] at a; simp only [List.length_cons] at a ⊢; omega) h
        apply ih
        split
        · exact writeCqe_follows _ _ h'
        · exact issueDma_follows _ _ _ _ _ h'

theorem cqPosted_follows {s : State} (f : Fn) (c : Cqe) (hF : Follows s₀ s) :
    Follows s₀ (cqPosted f c s) := by
  unfold cqPosted
  dsimp only
  with_reducible repeat' first | assumption | apply ite_follows | split | apply modIrq_follows
                               | apply sendMsix_follows

theorem postResponse_follows {s : State} (f : Fn) (a : Ans) (tag seq opcode : Nat) (irq advance : Bool)
    (hF : Follows s₀ s) :
    Follows s₀ (postResponse f a tag seq opcode irq advance s) := by
  unfold postResponse
  dsimp only
  with_reducible repeat' first | assumption | apply ite_follows | split | apply modMbx_follows
                               | apply raiseIrq_follows

theorem postRing_follows {s : State} (r : Req) (payload : List Byte) (c : Cqe) (hF : Follows s₀ s) :
    Follows s₀ (postRing r payload c s) := by
  unfold postRing
  with_reducible repeat' first | assumption | apply ite_follows | apply postCqe_follows | apply issueDma_follows

theorem finish_follows {s : State} (r : Req) (a : Ans) (hF : Follows s₀ s) :
    Follows s₀ (finish r a s) := by
  unfold finish
  dsimp only
  with_reducible repeat' first | assumption | apply ite_follows | split | apply modReq_follows | apply dropReq_follows
                               | apply postRing_follows | apply postResponse_follows

theorem complete_follows {s : State} (i : ReqId) (status reason result : Nat) (last : Bool) (hF : Follows s₀ s) :
    Follows s₀ (complete i status reason result last s) := by
  unfold complete
  dsimp only
  with_reducible repeat' first | assumption | apply ite_follows | split | apply dropReq_follows
                               | apply postRing_follows | apply postCqe_follows

theorem completeOpt_follows {s : State} (i : Option ReqId) (status reason result : Nat) (hF : Follows s₀ s) :
    Follows s₀ (completeOpt i status reason result s) := by
  unfold completeOpt
  with_reducible repeat' first | assumption | split | apply complete_follows

/-! ### Intake -/

theorem rejectMbx_follows {s : State} (f : Fn) (check : Nat) (a : Ans) (tag seq op : Nat) (irq : Bool)
    (hF : Follows s₀ s) :
    Follows s₀ (rejectMbx f check a tag seq op irq s) := by
  unfold rejectMbx
  with_reducible repeat' first | assumption | apply postResponse_follows | apply violation_follows

theorem doMbxSubmit_follows {s : State} (f : Fn) (hF : Follows s₀ s) :
    Follows s₀ (doMbxSubmit f s) := by
  unfold doMbxSubmit
  dsimp only
  with_reducible repeat' first | assumption | apply ite_follows | rfl | split | apply violation_follows
                               | apply modMbx_follows | apply rejectMbx_follows | apply raiseIrq_follows
                               | apply modCnt_follows | apply modHost_follows

theorem doMbxRelease_follows {s : State} (f : Fn) (hF : Follows s₀ s) :
    Follows s₀ (doMbxRelease f s) := by
  unfold doMbxRelease
  with_reducible repeat' first | assumption | apply ite_follows | apply modMbx_follows

theorem ringReject_follows {s : State} (r : Req) (check : Nat) (a : Ans) (hF : Follows s₀ s) :
    Follows s₀ (ringReject r check a s) := by
  unfold ringReject
  with_reducible repeat' first | assumption | split | apply postCqe_follows | apply violation_follows

theorem startReq_follows {s : State} (r : Req) (hF : Follows s₀ s) :
    Follows s₀ (startReq r s) := by
  unfold startReq
  dsimp only
  with_reducible repeat' first | assumption | apply ite_follows | rfl | apply modHost_follows | apply issueDma_follows

theorem takeDescriptor_follows {s : State} (f : Fn) (seq : Nat) (b : List Byte) (hF : Follows s₀ s) :
    Follows s₀ (takeDescriptor f seq b s) := by
  unfold takeDescriptor
  dsimp only
  with_reducible repeat' first | assumption | apply ite_follows | rfl | split | apply ringReject_follows
                               | apply modHost_follows | apply startReq_follows

theorem doDescriptorConsume_follows {s : State} (f : Fn) (fetch : FetchResult) (hF : Follows s₀ s) :
    Follows s₀ (doDescriptorConsume f fetch s) := by
  unfold doDescriptorConsume
  dsimp only
  with_reducible repeat' first | assumption | apply ite_follows | exact fun a => a | split | apply modRing_follows
                               | apply modCnt_follows | apply takeDescriptor_follows | apply transientFault_follows
                               | apply lastingFault_follows | apply ringReject_follows

theorem doDeferredStart_follows {s : State} (i : ReqId) (hF : Follows s₀ s) :
    Follows s₀ (doDeferredStart i s) := by
  unfold doDeferredStart
  with_reducible repeat' first | assumption | apply ite_follows | split | apply startReq_follows
                               | apply dropReq_follows

theorem doMailboxTimeout_follows {s : State} (f : Fn) (hF : Follows s₀ s) :
    Follows s₀ (doMailboxTimeout f s) := by
  unfold doMailboxTimeout
  with_reducible repeat' first | assumption | apply ite_follows | split | apply finish_follows

theorem runCmd_follows {s : State} (i : ReqId) (op : Nat) (sel : List Byte → Bool) (fields : State → Req → Bool)
    (body : Req → State → State × Option Ans) (hb : ∀ r (t : State), Follows s₀ t → Follows s₀ (body r t).1)
    (h : Follows s₀ s) : Follows s₀ (runCmd i op sel fields body s) := by
  unfold runCmd
  repeat' first | (with_reducible assumption) | split | (with_reducible apply finish_follows) |
    (with_reducible apply violation_follows) | (with_reducible refine pair_follows ‹_ = (_, _)› ?_) |
    (with_reducible apply hb)

theorem answering_follows {s : State} (body : Req → State → State × Ans) (r : Req)
    (hb : ∀ r (t : State), Follows s₀ t → Follows s₀ (body r t).1) (h : Follows s₀ s) :
    Follows s₀ (answering body r s).1 := hb r s h

theorem reading_follows {s : State} (body : Req → State → Ans) (r : Req) (hF : Follows s₀ s) :
    Follows s₀ (reading body r s).1 := by
  unfold reading
  dsimp only
  with_reducible repeat' first | assumption

/-! ### HostIf -/

theorem doSqDoorbell_follows {s : State} (f : Fn) (v : Nat) (hF : Follows s₀ s) :
    Follows s₀ (doSqDoorbell f v s) := by
  unfold doSqDoorbell
  dsimp only
  with_reducible repeat' first | assumption | apply ite_follows | exact fun a => a | apply violation_follows
                               | apply modRing_follows

theorem doCqHead_follows {s : State} (f : Fn) (v : Nat) (hF : Follows s₀ s) :
    Follows s₀ (doCqHead f v s) := by
  unfold doCqHead
  dsimp only
  with_reducible repeat' first | assumption | apply ite_follows | exact fun a => a | apply modRing_follows
                               | apply drainHold_follows

theorem killDma_follows {s : State} (t : DmaOp → Bool) (hF : Follows s₀ s) :
    Follows s₀ (killDma t s) := by
  unfold killDma
  with_reducible repeat' first | assumption | rfl | apply modHost_follows

theorem dropRuns_follows {s : State} (i : ReqId) (hF : Follows s₀ s) :
    Follows s₀ (dropRuns i s) := by
  unfold dropRuns
  with_reducible repeat' first | assumption | apply modParts_follows

theorem fenceReq_follows {s : State} (r : Req) (hF : Follows s₀ s) :
    Follows s₀ (fenceReq s r) := by
  unfold fenceReq
  dsimp only
  with_reducible repeat' first | assumption | apply dropReq_follows | apply killDma_follows | apply dropRuns_follows
                               | apply modCnt_follows | apply lateDiscard_follows

theorem fenceReqs_follows {s : State} (t : Req → Bool) (hF : Follows s₀ s) :
    Follows s₀ (fenceReqs t s) := by
  unfold fenceReqs
  with_reducible repeat' first | assumption | intro s x h | apply fenceReq_follows | apply foldl_follows

theorem doSqEnable_follows {s : State} (f : Fn) (hF : Follows s₀ s) :
    Follows s₀ (doSqEnable f s) := by
  unfold doSqEnable
  dsimp only
  with_reducible repeat' first | assumption | apply ite_follows | exact fun a => a | apply violation_follows
                               | apply modRing_follows

theorem doSqDisable_follows {s : State} (f : Fn) (hF : Follows s₀ s) :
    Follows s₀ (doSqDisable f s) := by
  unfold doSqDisable
  with_reducible repeat' first | assumption | apply ite_follows | exact fun a => a | apply fenceReqs_follows
                               | apply modRing_follows

theorem doCqEnable_follows {s : State} (f : Fn) (hF : Follows s₀ s) :
    Follows s₀ (doCqEnable f s) := by
  unfold doCqEnable
  dsimp only
  with_reducible repeat' first | assumption | apply ite_follows | exact fun a => a | apply violation_follows
                               | apply modRing_follows

theorem disableCq_follows {s : State} (f : Fn) (hF : Follows s₀ s) :
    Follows s₀ (disableCq f s) := by
  unfold disableCq
  dsimp only
  with_reducible repeat' first | assumption | with_unfolding_all exact fun _ => Nat.zero_le 256 | intro s x h
                               | apply modRing_follows | apply modCnt_follows | apply lateDiscard_follows
                               | apply foldl_follows

theorem doCqDisable_follows {s : State} (f : Fn) (hF : Follows s₀ s) :
    Follows s₀ (doCqDisable f s) := by
  unfold doCqDisable
  with_reducible repeat' first | assumption | apply ite_follows | apply disableCq_follows

theorem doCqFullTimeout_follows {s : State} (f : Fn) (hF : Follows s₀ s) :
    Follows s₀ (doCqFullTimeout f s) := by
  unfold doCqFullTimeout
  dsimp only
  with_reducible repeat' first | assumption | apply ite_follows | exact fun a => a | apply logEvent_follows
                               | apply guaranteeLapse_follows | apply modRing_follows | apply raiseIrq_follows

theorem sendUnmasked_follows {s : State} (f : Fn) (hF : Follows s₀ s) :
    Follows s₀ (sendUnmasked f s) := by
  unfold sendUnmasked
  dsimp only
  with_reducible repeat' first | assumption | apply ite_follows | intro s x h | apply sendMsix_follows
                               | apply modIrq_follows | apply foldl_follows

theorem doMsixUnmask_follows {s : State} (f : Fn) (vec : Option (Fin 3)) (hF : Follows s₀ s) :
    Follows s₀ (doMsixUnmask f vec s) := by
  unfold doMsixUnmask
  dsimp only
  with_reducible repeat' first | assumption | apply ite_follows | split | apply modIrq_follows
                               | apply sendUnmasked_follows

theorem doIrqCoalesceTimeout_follows {s : State} (f : Fn) (hF : Follows s₀ s) :
    Follows s₀ (doIrqCoalesceTimeout f s) := by
  unfold doIrqCoalesceTimeout
  dsimp only
  with_reducible repeat' first | assumption | apply ite_follows | apply modIrq_follows | apply sendMsix_follows

theorem ringCfg_follows {s : State} (f : Fn) (on : Bool) {g : RingBlock → RingBlock} (hg : ∀ r, (g r).hold = r.hold)
    (h : Follows s₀ s) : Follows s₀ (ringCfg f on g s) := by
  unfold ringCfg
  exact ite_follows (modMbx_follows _ _ h) (modRing_follows (fun a => by rw [hg]; exact a) h)

theorem writeCtrl_follows {s : State} (f : Fn) (v : Nat) (hF : Follows s₀ s) :
    Follows s₀ (writeCtrl f v s) := by
  unfold writeCtrl
  dsimp only
  with_reducible repeat' first | assumption | apply ite_follows | split | apply doSqEnable_follows
                               | apply doSqDisable_follows | apply doCqEnable_follows | apply doCqDisable_follows

theorem writeReg_follows {s : State} (f : Fn) (off v : Nat) (hF : Follows s₀ s) :
    Follows s₀ (writeReg f off v s) := by
  unfold writeReg
  dsimp only
  with_reducible repeat' first | assumption | apply ite_follows | with_unfolding_all exact fun _ => rfl | split
                               | apply doMbxSubmit_follows | apply modMbx_follows | apply doMbxRelease_follows
                               | apply ringCfg_follows | apply doSqDoorbell_follows | apply doCqHead_follows
                               | apply writeCtrl_follows | apply modIrq_follows

theorem writeMsix_follows (f : Fn) (bs : List Byte) :
    ∀ (o : Nat) {s : State}, Follows s₀ s → Follows s₀ (writeMsix f o bs s) := by
  induction bs with
  | nil => exact fun _ _ h => h
  | cons b bs ih => exact fun o s h => ih _ (modIrq_follows _ _ h)

theorem barredAccess_follows {s : State} (f : Fn) (off : Nat) (isRead : Bool) (hF : Follows s₀ s) :
    Follows s₀ (barredAccess f off isRead s) := by
  unfold barredAccess
  dsimp only
  with_reducible repeat' first | assumption | apply ite_follows | apply violation_follows | apply emit_follows

theorem doRegisterWrite_follows {s : State} (f : Fn) (off : Nat) (bs : List Byte) (hF : Follows s₀ s) :
    Follows s₀ (doRegisterWrite f off bs s) := by
  unfold doRegisterWrite
  dsimp only
  with_reducible repeat' first | assumption | apply ite_follows | apply barredAccess_follows | apply writeReg_follows
                               | apply modMbx_follows | apply sendUnmasked_follows | apply writeMsix_follows

theorem doMisaligned_follows {s : State} (f : Fn) (off width : Nat) (isRead : Bool) (hF : Follows s₀ s) :
    Follows s₀ (doMisaligned f off width isRead s) := by
  unfold doMisaligned
  with_reducible repeat' first | assumption | apply ite_follows | apply barredAccess_follows

theorem doConfigRequest_follows {s : State} (f : Fn) (hF : Follows s₀ s) :
    Follows s₀ (doConfigRequest f s) := by
  unfold doConfigRequest
  with_reducible repeat' first | assumption | apply ite_follows | apply emit_follows

theorem doHostLinkUp_follows {s : State} (rate width : Nat) (hF : Follows s₀ s) :
    Follows s₀ (doHostLinkUp rate width s) := by
  unfold doHostLinkUp
  dsimp only
  with_reducible repeat' first | assumption | apply ite_follows | rfl | apply modHost_follows

theorem resetFn_follows {s : State} (f : Fn) (hF : Follows s₀ s) :
    Follows s₀ (resetFn f s) := by
  unfold resetFn
  dsimp only
  with_reducible repeat' first | assumption | with_unfolding_all exact fun _ => Nat.zero_le 256
                               | apply fenceReqs_follows | apply killDma_follows | apply modFn_follows

theorem doVfEnableSet_follows {s : State} (n : Nat) (hF : Follows s₀ s) :
    Follows s₀ (doVfEnableSet n s) := by
  unfold doVfEnableSet
  dsimp only
  with_reducible repeat' first | assumption | apply ite_follows | rfl | intro s x h | apply resetFn_follows
                               | apply modHost_follows | apply foldl_follows

theorem doD3_follows {s : State} (f : Fn) (hF : Follows s₀ s) :
    Follows s₀ (doD3 f s) := by
  unfold doD3
  with_reducible repeat' first | assumption | apply ite_follows | exact fun a => a | apply modFn_follows

theorem doD0_follows {s : State} (f : Fn) (hF : Follows s₀ s) :
    Follows s₀ (doD0 f s) := by
  unfold doD0
  dsimp only
  with_reducible repeat' first | assumption | apply ite_follows | exact fun a => a | apply modFn_follows
                               | apply drainHold_follows

/-! ### Mem -/

/-- A write through a window keeps the canonical form. -/
theorem winWriteAt_wf (w : Window) (bs : List Byte) :
    ∀ (wa : Nat) (m : MemSt), memWf m.cells = true → memWf (winWriteAt w wa bs m).cells = true := by
  induction bs with
  | nil => exact fun _ _ h => h
  | cons b bs ih =>
    intro wa m h
    apply ih
    split
    · exact memWrite_wf _ _ _ h
    · exact h

theorem winWrite_follows {s : State} (p : Pid) (wa : Nat) (bs : List Byte) (h : Follows s₀ s) :
    Follows s₀ (winWrite p wa bs s) := modMem_follows (winWriteAt_wf _ _ _ _) h

theorem unclean_follows {s : State} (hs : List HR) (h : Follows s₀ s) : Follows s₀ (unclean hs s) :=
  modMem_follows (fun a => a) h

/-- Zeroing keeps the canonical form. -/
theorem zeroHalfRows_wf (hs : List HR) (m : MemSt) (h : memWf m.cells = true) :
    memWf (zeroHalfRows hs m).cells = true := memClear_wf m.cells (fun d => hs.contains (dpaHalfRow d)) h

/-! ### Pool -/

theorem setDesc_follows {s : State} (d : Desc) (hF : Follows s₀ s) :
    Follows s₀ (setDesc d s) := by
  unfold setDesc
  with_reducible repeat' first | assumption | apply modPool_follows

theorem holdAdd_follows {s : State} (p : Pid) (counts : List Nat) (hF : Follows s₀ s) :
    Follows s₀ (holdAdd p counts s) := by
  unfold holdAdd
  dsimp only
  with_reducible repeat' first | assumption | apply modPart_follows

theorem countNoBuf_follows {s : State} (p : Pid) (c cause : Nat) (hF : Follows s₀ s) :
    Follows s₀ (countNoBuf p c cause s) := by
  unfold countNoBuf
  dsimp only
  with_reducible repeat' first | assumption | split | apply modPCnt_follows

theorem poolWake_follows {s : State} (p : Pid) (c : Nat) (hF : Follows s₀ s) :
    Follows s₀ (poolWake p c s) := by
  unfold poolWake
  dsimp only
  with_reducible repeat' first | assumption | apply modPool_follows

theorem unreserve_follows {s : State} (p : Pid) (c n : Nat) (hF : Follows s₀ s) :
    Follows s₀ (unreserve p c n s) := by
  unfold unreserve
  dsimp only
  with_reducible repeat' first | assumption | apply ite_follows | apply poolWake_follows | apply modPart_follows

theorem unreserveAll_follows {s : State} (p : Pid) (l : List Nat) (hF : Follows s₀ s) :
    Follows s₀ (unreserveAll p l s) := by
  unfold unreserveAll
  with_reducible repeat' first | assumption | intro s x h | apply unreserve_follows | apply foldl_follows

theorem cacheBack_follows {s : State} (c : Nat) (hF : Follows s₀ s) :
    Follows s₀ (cacheBack c s) := by
  unfold cacheBack
  dsimp only
  with_reducible repeat' first | assumption | apply modPool_follows

theorem releaseDesc_follows {s : State} (d : Desc) (hF : Follows s₀ s) :
    Follows s₀ (releaseDesc d s) := by
  unfold releaseDesc
  dsimp only
  with_reducible repeat' first | assumption | split | apply setDesc_follows | apply modPool_follows
                               | apply cacheBack_follows | apply modPart_follows | apply poolWake_follows

theorem releaseWhere_follows {s : State} (t : Desc → Bool) (hF : Follows s₀ s) :
    Follows s₀ (releaseWhere t s) := by
  unfold releaseWhere
  with_reducible repeat' first | assumption | intro s x h | apply releaseDesc_follows | apply foldl_follows

theorem dropRequests_follows {s : State} (p : Pid) (t : ReserveReq → Bool) (hF : Follows s₀ s) :
    Follows s₀ (dropRequests p t s) := by
  unfold dropRequests
  with_reducible repeat' first | assumption | apply modPool_follows

theorem formSet_follows {s : State} (hF : Follows s₀ s) :
    Follows s₀ (formSet s) := by
  unfold formSet
  dsimp only
  with_reducible repeat' first | assumption | apply ite_follows | split | apply modPool_follows

theorem bufPut_follows {s : State} (d : Desc) (off : Nat) (b : Byte) (hF : Follows s₀ s) :
    Follows s₀ (bufPut d off b s) := by
  unfold bufPut
  dsimp only
  with_reducible repeat' first | assumption | exact memWrite_wf _ _ _ | apply modMem_follows

theorem bufPutN_follows (d : Desc) (y1 : List Byte) :
    ∀ (y0 : Nat) {s : State}, Follows s₀ s → Follows s₀ (bufPutN d y0 y1 s) := by
  induction y1 generalizing d with
  | nil => intros; simpa only [bufPutN]
  | cons b bs ih =>
    intro y0 s h
    simp only [bufPutN]
    with_reducible repeat' first | assumption | apply bufPut_follows | apply ih

theorem bufWrite_follows {s : State} (d : Desc) (off : Nat) (bs : List Byte) (hF : Follows s₀ s) :
    Follows s₀ (bufWrite d off bs s) := by
  unfold bufWrite
  dsimp only
  with_reducible repeat' first | assumption | intro s x h | apply bufPutN_follows | apply setDesc_follows
                               | apply foldl_follows

theorem drawDesc_follows {s : State} (p : Pid) (c : Nat) (unit : Owner) (index : Nat) (for_ : Option
    (Nat × Option Nat)) (hF : Follows s₀ s) :
    Follows s₀ (drawDesc p c unit index for_ s).2 := by
  unfold drawDesc
  dsimp only
  with_reducible repeat' first | assumption | split | apply setDesc_follows | apply modPool_follows
                               | apply modPart_follows

theorem poolIn_follows {s : State} (hF : Follows s₀ s) :
    Follows s₀ (poolIn s) := by
  unfold poolIn
  dsimp only
  with_reducible repeat' first | assumption | apply modParts_follows | apply modPool_follows

/-! ### Fence -/

theorem nvmePush_follows {s : State} (n : Nat) (c : NvmeCmd) (hF : Follows s₀ s) :
    Follows s₀ (nvmePush n c s) := by
  unfold nvmePush
  dsimp only
  with_reducible repeat' first | assumption | apply emit_follows | apply modDrive_follows

theorem nvmeFence_follows {s : State} (n : Nat) (c : NvmeCmd) (hF : Follows s₀ s) :
    Follows s₀ (nvmeFence n c s) := by
  unfold nvmeFence
  dsimp only
  with_reducible repeat' first | assumption | apply modDrive_follows | apply nvmePush_follows

theorem nvmeFenceWhere_follows {s : State} (t : NvmeCmd → Bool) (hF : Follows s₀ s) :
    Follows s₀ (nvmeFenceWhere t s) := by
  unfold nvmeFenceWhere
  dsimp only
  with_reducible repeat' first | assumption | intro s x h | apply modDrive_follows | apply nvmeFence_follows
                               | apply foldl_follows

theorem killJobs_follows {s : State} (seg : SegJob → Bool) (still : StillJob → Bool) (warp : WarpTask → Bool)
    (hF : Follows s₀ s) :
    Follows s₀ (killJobs seg still warp s) := by
  unfold killJobs
  dsimp only
  with_reducible repeat' first | assumption | rfl | apply modUnits_follows

theorem killWork_follows {s : State} (p : Pid) (k : Option Nat) (hF : Follows s₀ s) :
    Follows s₀ (killWork p k s) := by
  unfold killWork
  dsimp only
  with_reducible repeat' first | assumption | split | apply killJobs_follows | apply nvmeFenceWhere_follows
                               | apply modPart_follows | apply modCtrl_follows

theorem fenceOpen_follows {s : State} (p : Pid) (hF : Follows s₀ s) :
    Follows s₀ (fenceOpen p s) := by
  unfold fenceOpen
  dsimp only
  with_reducible repeat' first | assumption | apply ite_follows | intro s x h | apply dropRuns_follows
                               | apply killDma_follows | apply complete_follows | apply finish_follows
                               | apply foldl_follows

theorem returnCredits_follows {s : State} (p : Pid) (st : OpenStep) (hF : Follows s₀ s) :
    Follows s₀ (returnCredits p st s) := by
  unfold returnCredits
  with_reducible repeat' first | assumption | apply modPart_follows

theorem withdrawStep_follows {s : State} (p : Pid) (st : OpenStep) (hF : Follows s₀ s) :
    Follows s₀ (withdrawStep p st s) := by
  unfold withdrawStep
  dsimp only
  with_reducible repeat' first | assumption | intro s x h | split | apply killWork_follows
                               | apply returnCredits_follows | apply modPart_follows | apply releaseWhere_follows
                               | apply unreserveAll_follows | apply foldl_follows

theorem beginTeardown_follows {s : State} (p : Pid) (hF : Follows s₀ s) :
    Follows s₀ (beginTeardown p s) := by
  unfold beginTeardown
  dsimp only
  with_reducible repeat' first | assumption | apply dropRequests_follows | apply modPart_follows
                               | apply completeOpt_follows

theorem maybePaused_follows {s : State} (p : Pid) (hF : Follows s₀ s) :
    Follows s₀ (maybePaused p s) := by
  unfold maybePaused
  dsimp only
  with_reducible repeat' first | assumption | apply ite_follows | apply beginTeardown_follows | apply modPart_follows
                               | apply completeOpt_follows

theorem beginPause_follows {s : State} (p : Pid) (req : Option ReqId) (hF : Follows s₀ s) :
    Follows s₀ (beginPause p req s) := by
  unfold beginPause
  dsimp only
  with_reducible repeat' first | assumption | intro s x h | split | apply modSched_follows
                               | apply dropRequests_follows | apply withdrawStep_follows | apply maybePaused_follows
                               | apply foldl_follows

theorem markRecheck_follows {s : State} (hF : Follows s₀ s) :
    Follows s₀ (markRecheck s) := by
  unfold markRecheck
  dsimp only
  with_reducible repeat' first | assumption | apply modParts_follows

theorem countFence_follows {s : State} (parts : List Pid) (hF : Follows s₀ s) :
    Follows s₀ (countFence parts s) := by
  unfold countFence
  dsimp only
  with_reducible repeat' first | assumption | apply ite_follows | rfl | intro s x h | apply modAo_follows
                               | apply modPCnt_follows | apply foldl_follows

theorem lastingFence_follows {s : State} (part unit fault scope tag : Nat) (users : List Pid) (hF : Follows s₀ s) :
    Follows s₀ (lastingFence part unit fault scope tag users s) := by
  unfold lastingFence
  with_reducible repeat' first | assumption | apply markRecheck_follows | apply countFence_follows
                               | apply lastingFault_follows

theorem fencePart_follows {s : State} (p : Pid) (cause : Nat) (hF : Follows s₀ s) :
    Follows s₀ (fencePart p cause s) := by
  unfold fencePart
  dsimp only
  with_reducible repeat' first | assumption | apply ite_follows | apply logEvent_follows | apply countFence_follows
                               | apply killWork_follows | apply fenceOpen_follows | apply dropRequests_follows
                               | apply modPart_follows | apply completeOpt_follows | apply beginTeardown_follows

theorem fenceParts_follows {s : State} (l : List Pid) (cause : Nat) (hF : Follows s₀ s) :
    Follows s₀ (fenceParts l cause s) := by
  unfold fenceParts
  with_reducible repeat' first | assumption | intro s x h | apply fencePart_follows | apply foldl_follows

theorem fenceWhere_follows {s : State} (t : Part → Bool) (cause : Nat) (hF : Follows s₀ s) :
    Follows s₀ (fenceWhere t cause s) := by
  unfold fenceWhere
  with_reducible repeat' first | assumption | apply fenceParts_follows

theorem poolOut_follows {s : State} (cause : Nat) (hF : Follows s₀ s) :
    Follows s₀ (poolOut cause s) := by
  unfold poolOut
  dsimp only
  with_reducible repeat' first | assumption | apply ite_follows | apply fenceWhere_follows | apply modParts_follows
                               | apply modPool_follows

theorem imageFault_follows {s : State} (p : Pid) (unit kind addr : Nat) (hF : Follows s₀ s) :
    Follows s₀ (imageFault p unit kind addr s) := by
  unfold imageFault
  with_reducible repeat' first | assumption | apply fencePart_follows | apply logEvent_follows

theorem endUnitJob_follows {s : State} (p : Pid) (o : Owner) (hF : Follows s₀ s) :
    Follows s₀ (endUnitJob p o s) := by
  unfold endUnitJob
  with_reducible repeat' first | assumption | apply ite_follows | rfl | apply modUnits_follows | apply modPart_follows

theorem accessFault_follows {s : State} (p : Pid) (o : Owner) (tile : Option Nat) (what addr : Nat)
    (hF : Follows s₀ s) :
    Follows s₀ (accessFault p o tile what addr s) := by
  unfold accessFault
  dsimp only
  with_reducible repeat' first | assumption | apply ite_follows | split | apply imageFault_follows
                               | apply logEvent_follows | apply fencePart_follows | apply endUnitJob_follows

/-! ### Power -/

theorem changeDom_follows {s : State} (d : Nat) (st : DomSt) (attempt : Nat) (hF : Follows s₀ s) :
    Follows s₀ (changeDom d st attempt s) := by
  unfold changeDom
  with_reducible repeat' first | assumption | apply logDev_follows | apply setDom_follows

theorem memOff_follows {s : State} (hF : Follows s₀ s) :
    Follows s₀ (memOff s) := by
  unfold memOff
  dsimp only
  with_reducible repeat' first | assumption | with_unfolding_all exact fun a _ => ⟨a, Nat.zero_le _⟩
                               | with_unfolding_all exact fun _ => rfl | apply modMem_follows
                               | apply modParts_follows | apply modPair_follows | apply modLog_follows

theorem tilesOff_follows {s : State} (d : Nat) (hF : Follows s₀ s) :
    Follows s₀ (tilesOff d s) := by
  unfold tilesOff
  dsimp only
  with_reducible repeat' first | assumption | rfl | apply modUnits_follows

theorem netOff_follows {s : State} (hF : Follows s₀ s) :
    Follows s₀ (netOff s) := by
  unfold netOff
  dsimp only
  with_reducible repeat' first | assumption | rfl | intro s x h | apply completeOpt_follows | apply modUnits_follows
                               | apply foldl_follows

theorem vidOff_follows {s : State} (hF : Follows s₀ s) :
    Follows s₀ (vidOff s) := by
  unfold vidOff
  with_reducible repeat' first | assumption | rfl | apply modUnits_follows

theorem churnOff_follows {s : State} (hF : Follows s₀ s) :
    Follows s₀ (churnOff s) := by
  unfold churnOff
  dsimp only
  with_reducible repeat' first | assumption | intro s x h | apply completeOpt_follows | apply modParts_follows
                               | apply modChurn_follows | apply foldl_follows

theorem unitsOff_follows {s : State} (d : Nat) (hF : Follows s₀ s) :
    Follows s₀ (unitsOff d s) := by
  unfold unitsOff
  with_reducible repeat' first | assumption | apply ite_follows | apply memOff_follows | apply tilesOff_follows
                               | apply netOff_follows | apply vidOff_follows | apply churnOff_follows

theorem linkDown_follows {s : State} (hF : Follows s₀ s) :
    Follows s₀ (linkDown s) := by
  unfold linkDown
  dsimp only
  with_reducible repeat' first | assumption | rfl | apply modHost_follows

theorem finishDom_follows {s : State} (d : Nat) (st : DomSt) (attempt status reason : Nat) (hF : Follows s₀ s) :
    Follows s₀ (finishDom d st attempt status reason s) := by
  unfold finishDom
  dsimp only
  with_reducible repeat' first | assumption | apply ite_follows | split | apply modPwr_follows
                               | apply complete_follows

theorem dropDom_follows  (y0 : Nat) :
    ∀ (y1 : Nat) {s : State}, Follows s₀ s → Follows s₀ (dropDom y0 y1 s) := by
  induction y0 with
  | zero => intros; simpa only [dropDom]
  | succ n ih =>
    intro y1 s h
    simp only [dropDom]
    with_reducible repeat' first | assumption | apply ite_follows | intro s x h | split | apply changeDom_follows
                                 | apply finishDom_follows | apply linkDown_follows | apply fenceWhere_follows
                                 | apply poolOut_follows | apply unitsOff_follows | apply ih | apply foldl_follows

theorem beginDom_follows {s : State} (d attempt : Nat) (hF : Follows s₀ s) :
    Follows s₀ (beginDom d attempt s) := by
  unfold beginDom
  dsimp only
  with_reducible repeat' first | assumption | split | apply changeDom_follows | apply modPwr_follows

theorem advancePower_follows  (y0 : Nat) :
    ∀ {s : State}, Follows s₀ s → Follows s₀ (advancePower y0 s) := by
  induction y0 with
  | zero => intros; simpa only [advancePower]
  | succ n ih =>
    intro s h
    simp only [advancePower]
    with_reducible repeat' first | assumption | split | apply finishDom_follows | apply beginDom_follows
                                 | apply changeDom_follows | apply poolOut_follows | apply ih

theorem powerSet_follows {s : State} (r : Req) (hF : Follows s₀ s) :
    Follows s₀ (powerSet r s).1 := by
  unfold powerSet
  dsimp only
  with_reducible repeat' first | assumption | apply ite_pair_follows | apply modPwr_follows
                               | apply advancePower_follows

theorem memOn_follows {s : State} (hF : Follows s₀ s) :
    Follows s₀ (memOn s) := by
  unfold memOn
  dsimp only
  with_reducible repeat' first | assumption | apply ite_follows | exact fun a b => ⟨a, b⟩ | apply modPool_follows
                               | apply logDev_follows | apply modLog_follows

theorem tilesOn_follows {s : State} (d : Nat) (bad : List Nat) (hF : Follows s₀ s) :
    Follows s₀ (tilesOn d bad s) := by
  unfold tilesOn
  dsimp only
  with_reducible repeat' first | assumption | rfl | intro s x h | apply modUnits_follows | apply lastingFence_follows
                               | apply foldl_follows

theorem netOn_follows {s : State} (hF : Follows s₀ s) :
    Follows s₀ (netOn s) := by
  unfold netOn
  dsimp only
  with_reducible repeat' first | assumption | rfl | apply modUnits_follows

theorem unitsOn_follows {s : State} (d : Nat) (bad : List Nat) (hF : Follows s₀ s) :
    Follows s₀ (unitsOn d bad s) := by
  unfold unitsOn
  with_reducible repeat' first | assumption | apply ite_follows | apply memOn_follows | apply tilesOn_follows
                               | apply netOn_follows | apply vidOff_follows | apply churnOff_follows

/-! ### Reset -/

theorem flrPause_follows {s : State} (p : Pid) (hF : Follows s₀ s) :
    Follows s₀ (flrPause p s) := by
  unfold flrPause
  with_reducible repeat' first | assumption | apply ite_follows | apply beginPause_follows

theorem doVfFlr_follows {s : State} (v : Pid) (hF : Follows s₀ s) :
    Follows s₀ (doVfFlr v s) := by
  unfold doVfFlr
  dsimp only
  with_reducible repeat' first | assumption | apply ite_follows | apply flrPause_follows | apply resetFn_follows

theorem hostReset_follows {s : State} (hF : Follows s₀ s) :
    Follows s₀ (hostReset s) := by
  unfold hostReset
  dsimp only
  with_reducible repeat' first | assumption | rfl | intro s x h | apply resetFn_follows | apply modHost_follows
                               | apply flrPause_follows | apply foldl_follows

theorem doPfFlr_follows {s : State} (hF : Follows s₀ s) :
    Follows s₀ (doPfFlr s) := by
  unfold doPfFlr
  with_reducible repeat' first | assumption | apply ite_follows | apply hostReset_follows

theorem doHotReset_follows {s : State} (hF : Follows s₀ s) :
    Follows s₀ (doHotReset s) := by
  unfold doHotReset
  with_reducible repeat' first | assumption | apply ite_follows | apply hostReset_follows

theorem doHostLinkDown_follows {s : State} (hF : Follows s₀ s) :
    Follows s₀ (doHostLinkDown s) := by
  unfold doHostLinkDown
  with_reducible repeat' first | assumption | apply ite_follows | apply hostReset_follows | apply linkDown_follows

/-- A state whose log, functions and memory are as after power-on keeps the invariant. -/
theorem coldState_follows {s : State} (h : Follows s₀ s) : Follows s₀ (coldState s) :=
  ⟨h.pending, h.sent, h.fuse, fun _ => ⟨Nat.zero_le _, Nat.zero_le _, fun f => by
    simp [coldState, Vector.get_eq_getElem], rfl⟩⟩

theorem warmState_follows {s : State} (h : Follows s₀ s) : Follows s₀ (warmState s) :=
  ⟨h.pending, h.sent, h.fuse, fun i => ⟨(h.inv i).ring, Nat.zero_le _, fun f => by
    simp [warmState, Vector.get_eq_getElem], rfl⟩⟩

theorem departureNotice_follows {s : State} (hF : Follows s₀ s) :
    Follows s₀ (departureNotice s) := by
  unfold departureNotice
  with_reducible repeat' first | assumption | apply ite_follows | apply emit_follows | apply modPair_follows

theorem warmTrigger_follows {s : State} (hF : Follows s₀ s) :
    Follows s₀ (warmTrigger s) := by
  unfold warmTrigger
  with_reducible repeat' first | assumption | apply ite_follows | apply modBoot_follows
                               | apply departureNotice_follows

theorem doWarmResetBegin_follows {s : State} (hF : Follows s₀ s) :
    Follows s₀ (doWarmResetBegin s) := by
  unfold doWarmResetBegin
  with_reducible repeat' first | assumption | apply ite_follows | apply modPwr_follows | apply warmState_follows

theorem doResetDelay_follows {s : State} (hF : Follows s₀ s) :
    Follows s₀ (doResetDelay s) := by
  unfold doResetDelay
  dsimp only
  with_reducible repeat' first | assumption | apply ite_follows | apply warmTrigger_follows | apply coldState_follows
                               | apply departureNotice_follows | apply modBoot_follows

theorem bootStart_follows {s : State} (hF : Follows s₀ s) :
    Follows s₀ (bootStart s) := by
  unfold bootStart
  with_reducible repeat' first | assumption | apply modBoot_follows

theorem doPerstDeassert_follows {s : State} (hF : Follows s₀ s) :
    Follows s₀ (doPerstDeassert s) := by
  unfold doPerstDeassert
  dsimp only
  with_reducible repeat' first | assumption | apply ite_follows | apply modModule_follows | apply modTherm_follows
                               | apply bootStart_follows

theorem doPerstAssert_follows {s : State} (hF : Follows s₀ s) :
    Follows s₀ (doPerstAssert s) := by
  unfold doPerstAssert
  with_reducible repeat' first | assumption | apply ite_follows | apply modModule_follows | apply coldState_follows

theorem beginHost_follows {s : State} (hF : Follows s₀ s) :
    Follows s₀ (beginHost s) := by
  unfold beginHost
  with_reducible repeat' first | assumption | apply modPwr_follows

theorem enterService_follows {s : State} (cause : Nat) (hF : Follows s₀ s) :
    Follows s₀ (enterService cause s) := by
  unfold enterService
  dsimp only
  with_reducible repeat' first | assumption | apply ite_follows | rfl | apply modAo_follows | apply logDev_follows

theorem romResponder_follows {s : State} (hF : Follows s₀ s) :
    Follows s₀ (romResponder s) := by
  unfold romResponder
  dsimp only
  with_reducible repeat' first | assumption | rfl | apply modBoot_follows | apply modAo_follows
                               | apply modHost_follows

theorem doPllLockDone_follows {s : State} (ok : Bool) (hF : Follows s₀ s) :
    Follows s₀ (doPllLockDone ok s) := by
  unfold doPllLockDone
  dsimp only
  with_reducible repeat' first | assumption | apply ite_follows | apply beginHost_follows | apply modBoot_follows
                               | apply modClk_follows | apply logDev_follows | apply enterService_follows

theorem doImageVerifyDone_follows {s : State} (hF : Follows s₀ s) :
    Follows s₀ (doImageVerifyDone s) := by
  unfold doImageVerifyDone
  dsimp only
  with_reducible repeat' first | assumption | apply ite_follows | rfl | apply modFw_follows | apply modBoot_follows
                               | apply modHost_follows | apply enterService_follows | apply logDev_follows
                               | apply romResponder_follows

theorem bootHostOn_follows {s : State} (hF : Follows s₀ s) :
    Follows s₀ (bootHostOn s) := by
  unfold bootHostOn
  dsimp only
  with_reducible repeat' first | assumption | apply ite_follows | apply romResponder_follows | apply modBoot_follows

theorem unfenceHost_follows {s : State} (hF : Follows s₀ s) :
    Follows s₀ (unfenceHost s) := by
  unfold unfenceHost
  dsimp only
  with_reducible repeat' first | assumption | rfl | apply modMesh_follows | apply modHost_follows

theorem doDomainUp_follows {s : State} (d : Domain) (bad : List Nat) (hF : Follows s₀ s) :
    Follows s₀ (doDomainUp d bad s) := by
  unfold doDomainUp
  dsimp only
  with_reducible repeat' first | assumption | apply ite_follows | rfl | split | apply bootHostOn_follows
                               | apply setDom_follows | apply transientFault_follows | apply changeDom_follows
                               | apply unitsOn_follows | apply modAo_follows | apply hostReset_follows
                               | apply unfenceHost_follows | apply advancePower_follows | apply finishDom_follows

theorem doDomainUpFail_follows {s : State} (d : Domain) (hF : Follows s₀ s) :
    Follows s₀ (doDomainUpFail d s) := by
  unfold doDomainUpFail
  dsimp only
  with_reducible repeat' first | assumption | apply ite_follows | split | apply modPwr_follows
                               | apply beginDom_follows | apply changeDom_follows | apply lastingFence_follows
                               | apply fenceParts_follows | apply enterService_follows | apply advancePower_follows
                               | apply finishDom_follows

theorem doDomainDown_follows {s : State} (d : Domain) (hF : Follows s₀ s) :
    Follows s₀ (doDomainDown d s) := by
  unfold doDomainDown
  dsimp only
  with_reducible repeat' first | assumption | apply ite_follows | split | apply changeDom_follows
                               | apply unitsOff_follows | apply enterService_follows | apply advancePower_follows
                               | apply finishDom_follows

theorem doInrush_follows {s : State} (hF : Follows s₀ s) :
    Follows s₀ (doInrush s) := by
  unfold doInrush
  with_reducible repeat' first | assumption | apply ite_follows | apply advancePower_follows | apply modPwr_follows

theorem aoLost_follows {s : State} (hF : Follows s₀ s) :
    Follows s₀ (aoLost s) := by
  unfold aoLost
  dsimp only
  with_reducible repeat' first | assumption | apply coldState_follows | apply modBoot_follows | apply setDom_follows

theorem doPowerGoodLoss_follows {s : State} (d : Domain) (hF : Follows s₀ s) :
    Follows s₀ (doPowerGoodLoss d s) := by
  unfold doPowerGoodLoss
  dsimp only
  with_reducible repeat' first | assumption | apply ite_follows | intro s x h | split | apply aoLost_follows
                               | apply dropDom_follows | apply advancePower_follows | apply enterService_follows
                               | apply logEvent_follows | apply modPwr_follows | apply beginDom_follows
                               | apply foldl_follows

theorem doPoolIn_follows {s : State} (hF : Follows s₀ s) :
    Follows s₀ (doPoolIn s) := by
  unfold doPoolIn
  with_reducible repeat' first | assumption | apply ite_follows | apply poolIn_follows

theorem memFault_follows {s : State} (unit fault tag : Nat) (hF : Follows s₀ s) :
    Follows s₀ (memFault unit fault tag s) := by
  unfold memFault
  dsimp only
  with_reducible repeat' first | assumption | apply lastingFence_follows | apply fenceParts_follows
                               | apply dropDom_follows | apply changeDom_follows | apply advancePower_follows
                               | apply enterService_follows

theorem clockLoss_follows {s : State} (cause : Nat) (hF : Follows s₀ s) :
    Follows s₀ (clockLoss cause s) := by
  unfold clockLoss
  dsimp only
  with_reducible repeat' first | assumption | apply ite_follows | rfl | intro s x h | apply modClk_follows
                               | apply countFence_follows | apply fenceParts_follows | apply dropDom_follows
                               | apply logDev_follows | apply modBoot_follows | apply markRecheck_follows
                               | apply modAo_follows | apply foldl_follows

theorem doRefclkLost_follows {s : State} (hF : Follows s₀ s) :
    Follows s₀ (doRefclkLost s) := by
  unfold doRefclkLost
  dsimp only
  with_reducible repeat' first | assumption | apply ite_follows | apply clockLoss_follows | apply modClk_follows
                               | apply hostReset_follows | apply linkDown_follows

theorem doPllLost_follows {s : State} (hF : Follows s₀ s) :
    Follows s₀ (doPllLost s) := by
  unfold doPllLost
  with_reducible repeat' first | assumption | apply ite_follows | apply modClk_follows | apply clockLoss_follows

theorem doRefclkReturn_follows {s : State} (hF : Follows s₀ s) :
    Follows s₀ (doRefclkReturn s) := by
  unfold doRefclkReturn
  with_reducible repeat' first | assumption | apply ite_follows | apply modClk_follows

theorem doPairALockstep_follows {s : State} (hF : Follows s₀ s) :
    Follows s₀ (doPairALockstep s) := by
  unfold doPairALockstep
  with_reducible repeat' first | assumption | apply ite_follows | apply warmTrigger_follows | apply logDev_follows

theorem doPairAWatchdog_follows {s : State} (hF : Follows s₀ s) :
    Follows s₀ (doPairAWatchdog s) := by
  unfold doPairAWatchdog
  with_reducible repeat' first | assumption | apply ite_follows | apply warmTrigger_follows

/-! ### Module -/

theorem railsOff_follows {s : State} (hF : Follows s₀ s) :
    Follows s₀ (railsOff s) := by
  unfold railsOff
  dsimp only
  with_reducible repeat' first | assumption | apply ite_follows | apply aoLost_follows | apply emit_follows
                               | apply modModule_follows

theorem doInputsGood_follows {s : State} (hF : Follows s₀ s) :
    Follows s₀ (doInputsGood s) := by
  unfold doInputsGood
  dsimp only
  with_reducible repeat' first | assumption | apply ite_follows | apply modModule_follows | apply emit_follows
                               | apply coldState_follows

theorem doRailOut_follows {s : State} (n : Nat) (hF : Follows s₀ s) :
    Follows s₀ (doRailOut n s) := by
  unfold doRailOut
  with_reducible repeat' first | assumption | apply ite_follows | apply railsOff_follows

theorem doMainLoss_follows {s : State} (hF : Follows s₀ s) :
    Follows s₀ (doMainLoss s) := by
  unfold doMainLoss
  with_reducible repeat' first | assumption | apply railsOff_follows | apply modModule_follows

theorem doAuxRemoved_follows {s : State} (hF : Follows s₀ s) :
    Follows s₀ (doAuxRemoved s) := by
  unfold doAuxRemoved
  dsimp only
  with_reducible repeat' first | assumption | apply ite_follows | apply railsOff_follows | apply modModule_follows
                               | apply emit_follows

theorem doHoldExpiry_follows {s : State} (hF : Follows s₀ s) :
    Follows s₀ (doHoldExpiry s) := by
  unfold doHoldExpiry
  dsimp only
  with_reducible repeat' first | assumption | apply ite_follows | apply modModule_follows | apply bootStart_follows

theorem doLatchRelease_follows {s : State} (hF : Follows s₀ s) :
    Follows s₀ (doLatchRelease s) := by
  unfold doLatchRelease
  with_reducible repeat' first | assumption | apply ite_follows | apply modModule_follows

theorem stepChange_follows {s : State} (g : ThermSt → ThermSt) (hF : Follows s₀ s) :
    Follows s₀ (stepChange g s) := by
  unfold stepChange
  dsimp only
  with_reducible repeat' first | assumption | apply ite_follows | apply modTherm_follows | apply logDev_follows

theorem thermTrip_follows {s : State} (hF : Follows s₀ s) :
    Follows s₀ (thermTrip s) := by
  unfold thermTrip
  dsimp only
  with_reducible repeat' first | assumption | apply emit_follows | apply modModule_follows | apply railsOff_follows

theorem doThermalSample_follows {s : State} (temps : List Int) (hF : Follows s₀ s) :
    Follows s₀ (doThermalSample temps s) := by
  unfold doThermalSample
  dsimp only
  with_reducible repeat' first | assumption | apply ite_follows | apply modTherm_follows | apply thermTrip_follows
                               | apply stepChange_follows

theorem doPowerWindow_follows {s : State} (mw : Nat) (hF : Follows s₀ s) :
    Follows s₀ (doPowerWindow mw s) := by
  unfold doPowerWindow
  with_reducible repeat' first | assumption | apply ite_follows | apply stepChange_follows

theorem sideband_follows {s : State} (bs : List Byte) (hF : Follows s₀ s) :
    Follows s₀ (sideband bs s) := by
  unfold sideband
  with_reducible repeat' first | assumption | apply ite_follows | apply emit_follows

theorem doMctp_follows {s : State} (cmd arg : Nat) (hF : Follows s₀ s) :
    Follows s₀ (doMctp cmd arg s) := by
  unfold doMctp
  with_reducible repeat' first | assumption | apply ite_follows | apply sideband_follows | apply modTherm_follows

theorem doSetPowerLimit_follows {s : State} (w : Nat) (hF : Follows s₀ s) :
    Follows s₀ (doSetPowerLimit w s) := by
  unfold doSetPowerLimit
  with_reducible repeat' first | assumption | apply ite_follows | apply sideband_follows | apply modTherm_follows

theorem doFruWrite_follows {s : State} (v : Byte) (hF : Follows s₀ s) :
    Follows s₀ (doFruWrite v s) := by
  unfold doFruWrite
  with_reducible repeat' first | assumption | apply ite_follows | apply modModule_follows

theorem doJtag_follows {s : State} (i : Jtag) (hF : Follows s₀ s) :
    Follows s₀ (doJtag i s) := by
  unfold doJtag
  dsimp only
  with_reducible repeat' first | assumption | apply ite_follows | split | apply modTherm_follows | apply emit_follows

/-! ### DeviceCmd -/

theorem acceptReset_follows {s : State} (kind : Nat) (_x0 : Req) (hF : Follows s₀ s) :
    Follows s₀ (acceptReset kind _x0 s).1 := by
  unfold acceptReset
  dsimp only
  with_reducible repeat' first | assumption | apply modBoot_follows

theorem fwCommit_follows {s : State} (r : Req) (h : Follows s₀ s) : Follows s₀ (fwCommit r s).1 := by
  have blow (n : Nat) {t : State} (k : Follows s₀ t) : Follows s₀
      (modAo (fun a => { a with fuse := { a.fuse with rollback := max a.fuse.rollback n } }) t) :=
    ⟨k.pending, k.sent, fuse_trans k.fuse ⟨rfl, rfl, rfl, rfl, rfl, Nat.le_max_left _ _⟩, fun i =>
      have ⟨a, b, c, d⟩ := k.inv i
      ⟨a, b, c, d⟩⟩
  unfold fwCommit
  dsimp only
  with_reducible repeat' first | assumption | apply ite_pair_follows | split | apply blow | apply modFw_follows

theorem fwBody_follows {s : State} (r : Req) (hF : Follows s₀ s) :
    Follows s₀ (fwBody r s).1 := by
  unfold fwBody
  dsimp only
  with_reducible repeat' first | assumption | apply ite_pair_follows | apply issueDma_follows | apply modReq_follows
                               | apply fwCommit_follows

theorem tileMapClusters_follows {s : State} (r : Req) (hF : Follows s₀ s) :
    Follows s₀ (tileMapClusters r s).1 := by
  unfold tileMapClusters
  dsimp only
  with_reducible repeat' first | assumption | apply ite_pair_follows | apply violation_follows

theorem tileMapHidden_follows {s : State} (r : Req) (hF : Follows s₀ s) :
    Follows s₀ (tileMapHidden r s).1 := by
  unfold tileMapHidden
  dsimp only
  with_reducible repeat' first | assumption | apply ite_pair_follows | apply violation_follows

theorem poolConfig_follows {s : State} (r : Req) (hF : Follows s₀ s) :
    Follows s₀ (poolConfig r s).1 := by
  unfold poolConfig
  dsimp only
  with_reducible repeat' first | assumption | apply ite_pair_follows | exact fun a => a | apply modPool_follows
                               | apply modMem_follows

end Sys2Proof.Machine
end

