-- ==== Sys2Proof/Laws/FollowsGrants.lean ====
section
/-!
SUPPORT. What every operation of grants, regions, tiles, networks, near memory, buffers and pipeline commands leaves: a state that follows.
-/
namespace Sys2Proof.Machine

variable {s₀ : State}

/-! ### PairLink -/

theorem darradSend_follows {s : State} (type flags part tag : Nat) (bytes : List Byte) (hF : Follows s₀ s) :
    Follows s₀ (darradSend type flags part tag bytes s) := by
  unfold darradSend
  with_reducible repeat' first | assumption | apply ite_follows | apply emit_follows | apply modPair_follows

theorem darradPut_follows {s : State} (flags part tag : Nat) (o : DarradHdr → Output) (hF : Follows s₀ s) :
    Follows s₀ (darradPut flags part tag o s) := by
  unfold darradPut
  with_reducible repeat' first | assumption | apply ite_follows | apply emit_follows | apply modPair_follows

theorem sendHold_follows {s : State} (hF : Follows s₀ s) :
    Follows s₀ (sendHold s) := by
  unfold sendHold
  with_reducible repeat' first | assumption | apply darradPut_follows

theorem holdChanged_follows {s : State} (hF : Follows s₀ s) :
    Follows s₀ (holdChanged s) := by
  unfold holdChanged
  with_reducible repeat' first | assumption | apply ite_follows | apply sendHold_follows

theorem putMirror_follows {s : State} (p : Pid) (m : MirMsg) (hF : Follows s₀ s) :
    Follows s₀ (putMirror p m s) := by
  unfold putMirror
  dsimp only
  with_reducible repeat' first | assumption | split | apply darradPut_follows

theorem sendMirror_follows {s : State} (p : Pid) (g : Option MirGrant) (x : Option MirStep) (hF : Follows s₀ s) :
    Follows s₀ (sendMirror p g x s) := by
  unfold sendMirror
  dsimp only
  with_reducible repeat' first | assumption | apply putMirror_follows | apply modPart_follows

theorem sendMirGrant_follows {s : State} (p : Pid) (hF : Follows s₀ s) :
    Follows s₀ (sendMirGrant p s) := by
  unfold sendMirGrant
  with_reducible repeat' first | assumption | apply sendMirror_follows

theorem mirrorGrantOf_follows {s : State} (p : Pid) (hF : Follows s₀ s) :
    Follows s₀ (mirrorGrantOf p s) := by
  unfold mirrorGrantOf
  with_reducible repeat' first | assumption | apply ite_follows | apply sendMirGrant_follows

/-! ### Grants -/

theorem createQueue_follows {s : State} (p : Pid) (x : Nat × Nat) (hF : Follows s₀ s) :
    Follows s₀ (createQueue p x s) := by
  unfold createQueue
  with_reducible repeat' first | assumption | apply nvmePush_follows

theorem deleteQueue_follows {s : State} (x : Nat × Nat) (hF : Follows s₀ s) :
    Follows s₀ (deleteQueue x s) := by
  unfold deleteQueue
  with_reducible repeat' first | assumption | apply ite_follows | apply nvmePush_follows | apply modDrive_follows

theorem resetClusters_follows {s : State} (cl : List Nat) (hF : Follows s₀ s) :
    Follows s₀ (resetClusters cl s) := by
  unfold resetClusters
  with_reducible repeat' first | assumption | rfl | apply modUnits_follows

theorem clearSync_follows {s : State} (p : Pid) (hF : Follows s₀ s) :
    Follows s₀ (clearSync p s) := by
  unfold clearSync
  with_reducible repeat' first | assumption | apply modMesh_follows

theorem grantsChanged_follows {s : State} (p : Pid) (hF : Follows s₀ s) :
    Follows s₀ (grantsChanged p s) := by
  unfold grantsChanged
  dsimp only
  with_reducible repeat' first | assumption | apply modPart_follows

theorem grantBody_follows {s : State} (r : Req) (hF : Follows s₀ s) :
    Follows s₀ (grantBody r s).1 := by
  unfold grantBody
  dsimp only
  with_reducible repeat' first | assumption | apply ite_pair_follows | intro s x h | split | apply createQueue_follows
                               | apply modReq_follows | apply unclean_follows | apply resetClusters_follows
                               | apply clearSync_follows | apply modPart_follows | apply grantsChanged_follows
                               | apply holdChanged_follows | apply mirrorGrantOf_follows | apply foldl_follows

theorem releasePort_follows {s : State} (n : Nat) (hF : Follows s₀ s) :
    Follows s₀ (releasePort n s) := by
  unfold releasePort
  with_reducible repeat' first | assumption | apply modPort_follows

theorem releaseBody_follows {s : State} (r : Req) (hF : Follows s₀ s) :
    Follows s₀ (releaseBody r s).1 := by
  unfold releaseBody
  dsimp only
  with_reducible repeat' first | assumption | apply ite_pair_follows | intro s x h | apply releasePort_follows
                               | apply deleteQueue_follows | apply grantsChanged_follows | apply modPart_follows
                               | apply mirrorGrantOf_follows | apply foldl_follows

/-! ### Region -/

theorem seedFrames_follows (p : Pid) (copy addr : Nat) (last : Bool) (y0 : Nat) :
    ∀ (y1 : List Byte) {s : State}, Follows s₀ s → Follows s₀ (seedFrames p copy addr last y0 y1 s) := by
  induction y0 generalizing p copy addr last with
  | zero => intros; simpa only [seedFrames]
  | succ n ih =>
    intro y1 s h
    simp only [seedFrames]
    with_reducible repeat' first | assumption | apply ite_follows | apply darradSend_follows | apply ih

theorem seedRegions_follows (p : Pid) (copy : Nat) (y0 : List Region) :
    ∀ {s : State}, Follows s₀ s → Follows s₀ (seedRegions p copy y0 s) := by
  induction y0 generalizing p copy with
  | nil => intros; simpa only [seedRegions]
  | cons b bs ih =>
    intro s h
    simp only [seedRegions]
    with_reducible repeat' first | assumption | apply seedFrames_follows | apply ih

theorem startSeeding_follows {s : State} (p : Pid) (retried : Bool) (hF : Follows s₀ s) :
    Follows s₀ (startSeeding p retried s) := by
  unfold startSeeding
  dsimp only
  with_reducible repeat' first | assumption | apply ite_follows | apply modPart_follows | apply modPair_follows
                               | apply seedRegions_follows

theorem reseed_follows {s : State} (p : Pid) (wa n : Nat) (hF : Follows s₀ s) :
    Follows s₀ (reseed p wa n s) := by
  unfold reseed
  dsimp only
  with_reducible repeat' first | assumption | apply ite_follows | apply startSeeding_follows

theorem finishMove_follows {s : State} (r : Req) (n : Nat) (a : Ans) (hF : Follows s₀ s) :
    Follows s₀ (finishMove r n a s) := by
  unfold finishMove
  with_reducible repeat' first | assumption | apply finish_follows | apply modCnt_follows

theorem serviceTransfer_follows {s : State} (r : Req) (hF : Follows s₀ s) :
    Follows s₀ (serviceTransfer s r) := by
  unfold serviceTransfer
  dsimp only
  with_reducible repeat' first | assumption | apply ite_follows | rfl | apply modHost_follows | apply dropReq_follows
                               | apply reseed_follows | apply finishMove_follows | apply winWrite_follows
                               | apply issueDma_follows | apply modReq_follows

theorem serviceTransfers_follows {s : State} (p : Pid) (hF : Follows s₀ s) :
    Follows s₀ (serviceTransfers p s) := by
  unfold serviceTransfers
  with_reducible repeat' first | assumption | intro s x h | apply serviceTransfer_follows | apply foldl_follows

theorem regionLoad_follows {s : State} (r : Req) (hF : Follows s₀ s) :
    Follows s₀ (regionLoad r s).1 := by
  unfold regionLoad
  dsimp only
  with_reducible repeat' first | assumption | apply issueDma_follows | apply modReq_follows

theorem regionRead_follows {s : State} (r : Req) (hF : Follows s₀ s) :
    Follows s₀ (regionRead r s).1 := by
  unfold regionRead
  dsimp only
  with_reducible repeat' first | assumption | apply serviceTransfers_follows | apply modReq_follows

theorem doGranuleZeroed_follows {s : State} (p : Pid) (mode g : Nat) (hF : Follows s₀ s) :
    Follows s₀ (doGranuleZeroed p mode g s) := by
  unfold doGranuleZeroed
  dsimp only
  with_reducible repeat' first | assumption | apply ite_follows | exact zeroHalfRows_wf _ _ | split
                               | apply modMem_follows | apply modPart_follows | apply serviceTransfers_follows

theorem zeroDone_follows {s : State} (op : Nat) (part : Nat) (hF : Follows s₀ s) :
    Follows s₀ (zeroDone op part s) := by
  unfold zeroDone
  with_reducible repeat' first | assumption | intro s x h | apply complete_follows | apply foldl_follows

theorem doWindowZeroed_follows {s : State} (p : Pid) (standby : Bool) (hF : Follows s₀ s) :
    Follows s₀ (doWindowZeroed p standby s) := by
  unfold doWindowZeroed
  dsimp only
  with_reducible repeat' first | assumption | apply ite_follows | exact zeroHalfRows_wf _ _ | split
                               | apply modMem_follows | apply modPair_follows | apply zeroDone_follows
                               | apply modPart_follows | apply serviceTransfers_follows

theorem doBackgroundZero_follows {s : State} (west : Bool) (row : Nat) (hF : Follows s₀ s) :
    Follows s₀ (doBackgroundZero west row s) := by
  unfold doBackgroundZero
  dsimp only
  with_reducible repeat' first | assumption | apply ite_follows | exact zeroHalfRows_wf _ _ | apply modMem_follows

/-! ### Tile -/

theorem modTile_follows {s : State} (t : Nat) (g : Tile → Tile) (hF : Follows s₀ s) :
    Follows s₀ (modTile t g s) := by
  unfold modTile
  dsimp only
  with_reducible repeat' first | assumption | rfl | apply modUnits_follows

theorem loadTile_follows {s : State} (t : Nat) (hF : Follows s₀ s) :
    Follows s₀ (loadTile t s) := by
  unfold loadTile
  dsimp only
  with_reducible repeat' first | assumption | apply ite_follows | split | apply modTile_follows

theorem loadTiles_follows {s : State} (p : Pid) (hF : Follows s₀ s) :
    Follows s₀ (loadTiles p s) := by
  unfold loadTiles
  with_reducible repeat' first | assumption | intro s x h | apply loadTile_follows | apply foldl_follows

theorem beginTileReset_follows {s : State} (t : Nat) (hF : Follows s₀ s) :
    Follows s₀ (beginTileReset t s) := by
  unfold beginTileReset
  dsimp only
  with_reducible repeat' first | assumption | apply modTile_follows | apply modMesh_follows

theorem doTileResetDone_follows {s : State} (t : Nat) (hF : Follows s₀ s) :
    Follows s₀ (doTileResetDone t s) := by
  unfold doTileResetDone
  dsimp only
  with_reducible repeat' first | assumption | apply ite_follows | split | apply loadTile_follows
                               | apply modTile_follows | apply transientFault_follows

theorem tileLasting_follows {s : State} (t off : Nat) (hF : Follows s₀ s) :
    Follows s₀ (tileLasting t off s) := by
  unfold tileLasting
  dsimp only
  with_reducible repeat' first | assumption | rfl | apply lastingFence_follows | apply modTile_follows
                               | apply modUnits_follows | apply fenceParts_follows

theorem sramError_follows {s : State} (t off : Nat) (rereadOk : Bool) (hF : Follows s₀ s) :
    Follows s₀ (sramError t off rereadOk s) := by
  unfold sramError
  dsimp only
  with_reducible repeat' first | assumption | apply ite_follows | split | apply tileLasting_follows
                               | apply transientFault_follows | apply beginTileReset_follows | apply modTile_follows
                               | apply modSched_follows

theorem tileCorrected_follows {s : State} (t : Nat) (hF : Follows s₀ s) :
    Follows s₀ (tileCorrected t s) := by
  unfold tileCorrected
  dsimp only
  with_reducible repeat' first | assumption | apply modTile_follows | apply cntFaults_follows

theorem doTileScrub_follows {s : State} (t line : Nat) (corrected : Bool) (unc : Option Bool) (hF : Follows s₀ s) :
    Follows s₀ (doTileScrub t line corrected unc s) := by
  unfold doTileScrub
  dsimp only
  with_reducible repeat' first | assumption | apply ite_follows | split | apply tileCorrected_follows
                               | apply sramError_follows | apply modTile_follows | apply transientFault_follows

theorem doCorrectedSecond_follows {s : State} (hF : Follows s₀ s) :
    Follows s₀ (doCorrectedSecond s) := by
  unfold doCorrectedSecond
  dsimp only
  with_reducible repeat' first | assumption | apply ite_follows | rfl | intro s x h | apply logEvent_follows
                               | apply logDev_follows | apply modUnits_follows | apply foldl_follows

theorem doTileImageFault_follows {s : State} (t : Nat) (k : ImgFault) (addr : Nat) (hF : Follows s₀ s) :
    Follows s₀ (doTileImageFault t k addr s) := by
  unfold doTileImageFault
  with_reducible repeat' first | assumption | split | apply imageFault_follows

/-! ### Mesh -/

theorem doFlitCrcFail_follows {s : State} (x y : Nat) (hF : Follows s₀ s) :
    Follows s₀ (doFlitCrcFail x y s) := by
  unfold doFlitCrcFail
  with_reducible repeat' first | assumption | apply ite_follows | apply modMesh_follows

theorem meshLasting_follows {s : State} (x y fault tag : Nat) (hF : Follows s₀ s) :
    Follows s₀ (meshLasting x y fault tag s) := by
  unfold meshLasting
  dsimp only
  with_reducible repeat' first | assumption | apply ite_follows | split | apply lastingFence_follows
                               | apply dropDom_follows | apply fenceWhere_follows

theorem doFlitReplayDone_follows {s : State} (x y tag : Nat) (ok : Bool) (hF : Follows s₀ s) :
    Follows s₀ (doFlitReplayDone x y tag ok s) := by
  unfold doFlitReplayDone
  dsimp only
  with_reducible repeat' first | assumption | apply ite_follows | apply modMesh_follows | apply transientFault_follows
                               | apply meshLasting_follows

theorem doSyncMismatch_follows {s : State} (x y : Nat) (again : Bool) (hF : Follows s₀ s) :
    Follows s₀ (doSyncMismatch x y again s) := by
  unfold doSyncMismatch
  with_reducible repeat' first | assumption | apply ite_follows | apply meshLasting_follows
                               | apply transientFault_follows

theorem doMeshPacket_follows {s : State} (t : Nat) (tag : Option Pid) (hF : Follows s₀ s) :
    Follows s₀ (doMeshPacket t tag s) := by
  unfold doMeshPacket
  dsimp only
  with_reducible repeat' first | assumption | apply ite_follows | intro s x h | split | apply limited_follows
                               | apply logEvent_follows

theorem doSlotStart_follows {s : State} (hF : Follows s₀ s) :
    Follows s₀ (doSlotStart s) := by
  unfold doSlotStart
  with_reducible repeat' first | assumption | apply ite_follows | apply modMesh_follows

theorem doBarrier_follows {s : State} (p : Pid) (cl : Option Nat) (ctx tile : Nat) (next : Bool) (hF : Follows s₀ s) :
    Follows s₀ (doBarrier p cl ctx tile next s) := by
  unfold doBarrier
  dsimp only
  with_reducible repeat' first | assumption | apply ite_follows | apply modMesh_follows

theorem doFlag_follows {s : State} (p : Pid) (cl : Option Nat) (no tile : Nat) (set : Bool) (hF : Follows s₀ s) :
    Follows s₀ (doFlag p cl no tile set s) := by
  unfold doFlag
  dsimp only
  with_reducible repeat' first | assumption | apply ite_follows | split | apply modMesh_follows

/-! ### NearMemory -/

theorem doNearMemory_follows {s : State} (a : MemAccess) (hF : Follows s₀ s) :
    Follows s₀ (doNearMemory a s) := by
  unfold doNearMemory
  dsimp only
  with_reducible repeat' first | assumption | apply ite_follows | split | apply accessFault_follows
                               | apply winWrite_follows | apply emit_follows

theorem doMemUncorrectable_follows {s : State} (dpa : Nat) (p : Option Pid) (hF : Follows s₀ s) :
    Follows s₀ (doMemUncorrectable dpa p s) := by
  unfold doMemUncorrectable
  with_reducible repeat' first | assumption | apply ite_follows | exact fun a => a | apply modMem_follows

theorem retireHalfRow_follows {s : State} (dpa : Nat) (hF : Follows s₀ s) :
    Follows s₀ (retireHalfRow dpa s) := by
  unfold retireHalfRow
  dsimp only
  with_reducible repeat' first | assumption | apply ite_follows | exact fun a => a | apply modMem_follows
                               | apply logEvent_follows | apply memFault_follows

theorem memLasting_follows {s : State} (dpa : Nat) (hF : Follows s₀ s) :
    Follows s₀ (memLasting dpa s) := by
  unfold memLasting
  dsimp only
  with_reducible repeat' first | assumption | apply ite_follows | apply memFault_follows | apply lastingFault_follows
                               | apply retireHalfRow_follows | apply fenceParts_follows

theorem scrubZero_follows {s : State} (dpa : Nat) (hF : Follows s₀ s) :
    Follows s₀ (scrubZero dpa s) := by
  unfold scrubZero
  dsimp only
  with_reducible repeat' first | assumption | apply ite_follows | exact memClear_wf _ _ | apply memLasting_follows
                               | apply modMem_follows | apply transientFault_follows

theorem rereadEnd_follows {s : State} (dpa : Nat) (scrub ok : Bool) (hF : Follows s₀ s) :
    Follows s₀ (rereadEnd dpa scrub ok s) := by
  unfold rereadEnd
  dsimp only
  with_reducible repeat' first | assumption | apply ite_follows | apply transientFault_follows
                               | apply scrubZero_follows | apply memLasting_follows

theorem doReread_follows {s : State} (dpa : Nat) (ok : Bool) (hF : Follows s₀ s) :
    Follows s₀ (doReread dpa ok s) := by
  unfold doReread
  with_reducible repeat' first | assumption | exact fun a => a | split | apply rereadEnd_follows
                               | apply modMem_follows

theorem doMemScrub_follows {s : State} (ch : Nat) (corrected : Bool) (unc : Option Bool) (hF : Follows s₀ s) :
    Follows s₀ (doMemScrub ch corrected unc s) := by
  unfold doMemScrub
  dsimp only
  with_reducible repeat' first | assumption | apply ite_follows | exact fun a => a | split | apply modMem_follows
                               | apply cntFaults_follows | apply rereadEnd_follows

/-! ### BufferOps -/

theorem reserveNow_follows {s t : State} {p : Pid} {c : List Nat} (e : reserveNow p c s = some t) (h : Follows s₀ s) :
    Follows s₀ t := by
  unfold reserveNow at e
  split at e
  · exact Option.some.inj e ▸ h
  · split at e
    · exact absurd e (by simp)
    · split at e
      · exact Option.some.inj e ▸ holdAdd_follows _ _ h
      · exact absurd e (by simp)

theorem bufferFault_follows {s : State} (p : Pid) (unit : Owner) (c addr : Nat) (hF : Follows s₀ s) :
    Follows s₀ (bufferFault p unit c addr s) := by
  unfold bufferFault
  with_reducible repeat' first | assumption | apply accessFault_follows | apply modPCnt_follows

theorem answerNoBuf_follows {s : State} (q : ReserveReq) (short : List (Nat × Nat)) (hF : Follows s₀ s) :
    Follows s₀ (answerNoBuf q short s) := by
  unfold answerNoBuf
  dsimp only
  with_reducible repeat' first | assumption | apply ite_follows | split | apply countNoBuf_follows
                               | apply modPool_follows | apply emit_follows

theorem doReserve_follows {s : State} (q : ReserveReq) (hF : Follows s₀ s) :
    Follows s₀ (doReserve q s) := by
  unfold doReserve
  dsimp only
  with_reducible repeat' first | assumption | apply ite_follows | apply modPool_follows | apply answerNoBuf_follows

theorem decideHead_follows {s : State} (hF : Follows s₀ s) :
    Follows s₀ (decideHead s).1 := by
  unfold decideHead
  dsimp only
  with_reducible repeat' first | assumption | apply ite_pair_follows | split | apply formSet_follows
                               | apply modPool_follows | apply holdAdd_follows | apply answerNoBuf_follows

theorem takeUndrawn_follows {s : State} (p : Pid) (c : Nat) (for_ : Option (Nat × Option Nat)) (hF : Follows s₀ s) :
    Follows s₀ (takeUndrawn p c for_ s) := by
  unfold takeUndrawn
  with_reducible repeat' first | assumption | split | apply modSched_follows

theorem doDraw_follows {s : State} (p : Pid) (c : Cls) (unit : Owner) (index : Nat) (for_ : Option
    (Nat × Option Nat)) (hF : Follows s₀ s) :
    Follows s₀ (doDraw p c unit index for_ s) := by
  unfold doDraw
  dsimp only
  with_reducible repeat' first | assumption | apply ite_follows | apply bufferFault_follows | apply drawDesc_follows
                               | apply emit_follows | apply takeUndrawn_follows

theorem doUnreserve_follows {s : State} (p : Pid) (c : Cls) (n : Nat) (unit : Owner) (hF : Follows s₀ s) :
    Follows s₀ (doUnreserve p c n unit s) := by
  unfold doUnreserve
  dsimp only
  with_reducible repeat' first | assumption | apply ite_follows | apply bufferFault_follows | apply unreserve_follows

theorem doHandOff_follows {s : State} (p : Pid) (unit : Owner) (h : Nat) (new : Owner) (hF : Follows s₀ s) :
    Follows s₀ (doHandOff p unit h new s) := by
  unfold doHandOff
  with_reducible repeat' first | assumption | apply ite_follows | split | apply setDesc_follows
                               | apply bufferFault_follows

theorem dropCached_follows {s : State} (c i : Nat) (hF : Follows s₀ s) :
    Follows s₀ (dropCached c i s) := by
  unfold dropCached
  with_reducible repeat' first | assumption | apply modPool_follows

theorem doHandOffApply_follows {s : State} (c : Cls) (index : Nat) (hF : Follows s₀ s) :
    Follows s₀ (doHandOffApply c index s) := by
  unfold doHandOffApply
  dsimp only
  with_reducible repeat' first | assumption | apply ite_follows | apply setDesc_follows | apply dropCached_follows

theorem doRelease_follows {s : State} (p : Pid) (unit : Owner) (h : Nat) (hF : Follows s₀ s) :
    Follows s₀ (doRelease p unit h s) := by
  unfold doRelease
  with_reducible repeat' first | assumption | apply ite_follows | split | apply releaseDesc_follows
                               | apply bufferFault_follows

theorem doBufferAccess_follows {s : State} (p : Pid) (unit : Owner) (h off len : Nat) (write : Option (List Byte))
    (hF : Follows s₀ s) :
    Follows s₀ (doBufferAccess p unit h off len write s) := by
  unfold doBufferAccess
  dsimp only
  with_reducible repeat' first | assumption | apply ite_follows | split | apply bufferFault_follows
                               | apply bufWrite_follows | apply emit_follows | apply modPCnt_follows

theorem doWakeTimeout_follows {s : State} (q : ReserveReq) (hF : Follows s₀ s) :
    Follows s₀ (doWakeTimeout q s) := by
  unfold doWakeTimeout
  dsimp only
  with_reducible repeat' first | assumption | apply ite_follows | apply modPool_follows

theorem doFetch_follows {s : State} (c : Cls) (hF : Follows s₀ s) :
    Follows s₀ (doFetch c s) := by
  unfold doFetch
  dsimp only
  with_reducible repeat' first | assumption | apply ite_follows | apply modPool_follows

theorem doCacheFill_follows {s : State} (unit : Owner) (c : Cls) (index : Nat) (hF : Follows s₀ s) :
    Follows s₀ (doCacheFill unit c index s) := by
  unfold doCacheFill
  dsimp only
  with_reducible repeat' first | assumption | apply ite_follows | apply modPool_follows

/-! ### PipelineCmd -/

theorem commitLoad_follows {s : State} (r : Req) (i : Image) (hF : Follows s₀ s) :
    Follows s₀ (commitLoad r i s) := by
  unfold commitLoad
  dsimp only
  with_reducible repeat' first | assumption | split | apply winWrite_follows | apply modPart_follows
                               | apply loadTiles_follows | apply reseed_follows | apply mirrorGrantOf_follows

theorem loadBody_follows {s : State} (r : Req) (hF : Follows s₀ s) :
    Follows s₀ (loadBody r s).1 := by
  unfold loadBody
  dsimp only
  with_reducible repeat' first | assumption | apply ite_pair_follows | split | apply issueDma_follows
                               | apply modReq_follows | apply commitLoad_follows

theorem drawLaneKeys_follows {s : State} (p : Pid) (hF : Follows s₀ s) :
    Follows s₀ (drawLaneKeys p s) := by
  unfold drawLaneKeys
  dsimp only
  with_reducible repeat' first | assumption | intro s x h | apply fresh_follows | apply modTile_follows
                               | apply foldl_follows

theorem openStreams_follows {s : State} (p : Pid) (hF : Follows s₀ s) :
    Follows s₀ (openStreams p s) := by
  unfold openStreams
  dsimp only
  with_reducible repeat' first | assumption | apply modPart_follows

theorem installPlacement_follows {s : State} (p : Pid) (hF : Follows s₀ s) :
    Follows s₀ (installPlacement p s) := by
  unfold installPlacement
  dsimp only
  with_reducible repeat' first | assumption | split | apply modEx_follows | apply loadTiles_follows
                               | apply logEvent_follows

theorem goOn_follows {s : State} (p : Pid) (c : Checked) (payload : List Byte) (hF : Follows s₀ s) :
    Follows s₀ (goOn p c payload s) := by
  unfold goOn
  dsimp only
  with_reducible repeat' first | assumption | split | apply modPart_follows | apply loadTiles_follows
                               | apply openStreams_follows | apply drawLaneKeys_follows
                               | apply installPlacement_follows

theorem enableBody_follows {s : State} (r : Req) (hF : Follows s₀ s) :
    Follows s₀ (enableBody r s).1 := by
  unfold enableBody
  dsimp only
  with_reducible repeat' first | assumption | apply ite_pair_follows | split | apply goOn_follows
                               | apply modPart_follows | refine reserveNow_follows ‹_ = some _› ?_

theorem resumeBody_follows {s : State} (r : Req) (hF : Follows s₀ s) :
    Follows s₀ (resumeBody r s).1 := by
  unfold resumeBody
  dsimp only
  with_reducible repeat' first | assumption | apply ite_pair_follows | split | apply goOn_follows
                               | refine reserveNow_follows ‹_ = some _› ?_

theorem pauseBody_follows {s : State} (r : Req) (hF : Follows s₀ s) :
    Follows s₀ (pauseBody r s).1 := by
  unfold pauseBody
  with_reducible repeat' first | assumption | apply ite_pair_follows

end Sys2Proof.Machine
end

