-- ==== Sys2Proof/Laws/FollowsPipeline.lean ====
section
/-!
SUPPORT. What every operation of the pipeline: stages, experts, decoding, ingest, delivery, storage, random numbers, Churn and the scheduler leaves: a state that follows.
-/
namespace Sys2Proof.Machine

variable {s₀ : State}

/-! ### Stage -/

theorem refreshBoard_follows {s : State} (p : Pid) (hF : Follows s₀ s) :
    Follows s₀ (refreshBoard p s) := by
  unfold refreshBoard
  dsimp only
  with_reducible repeat' first | assumption | apply modSched_follows

theorem modStep_follows {s : State} (p : Pid) (slot : Nat) (g : OpenStep → OpenStep) (hF : Follows s₀ s) :
    Follows s₀ (modStep p slot g s) := by
  unfold modStep
  with_reducible repeat' first | assumption | apply modSched_follows

theorem modSample_follows {s : State} (p : Pid) (slot off : Nat) (g : Sample → Sample) (hF : Follows s₀ s) :
    Follows s₀ (modSample p slot off g s) := by
  unfold modSample
  with_reducible repeat' first | assumption | apply modStep_follows

theorem closeSamples_follows {s : State} (p : Pid) (slot : Nat) (hF : Follows s₀ s) :
    Follows s₀ (closeSamples p slot s) := by
  unfold closeSamples
  dsimp only
  with_reducible repeat' first | assumption | intro s x h | split | apply unreserveAll_follows
                               | apply modSample_follows | apply foldl_follows

theorem entriesDone_follows {s : State} (p : Pid) (slot : Nat) (t : Entry → Bool) (hF : Follows s₀ s) :
    Follows s₀ (entriesDone p slot t s) := by
  unfold entriesDone
  dsimp only
  with_reducible repeat' first | assumption | apply modSched_follows | apply refreshBoard_follows
                               | apply closeSamples_follows

theorem groupRetryOver_follows {s : State} (p : Pid) (e : Entry) (hF : Follows s₀ s) :
    Follows s₀ (groupRetryOver p e s) := by
  unfold groupRetryOver
  dsimp only
  with_reducible repeat' first | assumption | intro s x h | apply transientFault_follows | apply modTile_follows
                               | apply foldl_follows

theorem entryDone_follows {s : State} (p : Pid) (e : Entry) (hF : Follows s₀ s) :
    Follows s₀ (entryDone p e s) := by
  unfold entryDone
  dsimp only
  with_reducible repeat' first | assumption | split | apply groupRetryOver_follows | apply entriesDone_follows

theorem sampleStageDone_follows {s : State} (p : Pid) (slot off stage : Nat) (hF : Follows s₀ s) :
    Follows s₀ (sampleStageDone p slot off stage s) := by
  unfold sampleStageDone
  with_reducible repeat' first | assumption | split | apply entryDone_follows

theorem skipFrom_follows {s : State} (p : Pid) (slot off stage : Nat) (hF : Follows s₀ s) :
    Follows s₀ (skipFrom p slot off stage s) := by
  unfold skipFrom
  dsimp only
  with_reducible repeat' first | assumption | split | apply modSample_follows | apply entriesDone_follows

theorem damageSample_follows {s : State} (p : Pid) (slot off stage : Nat) (hF : Follows s₀ s) :
    Follows s₀ (damageSample p slot off stage s) := by
  unfold damageSample
  dsimp only
  with_reducible repeat' first | assumption | apply modSample_follows | apply modPCnt_follows | apply skipFrom_follows

theorem setPlanes_follows {s : State} (p : Pid) (slot off : Nat) (ps : List Plane) (hF : Follows s₀ s) :
    Follows s₀ (setPlanes p slot off ps s) := by
  unfold setPlanes
  with_reducible repeat' first | assumption | apply modSample_follows

/-! ### Routing -/

theorem freshWords_follows {s : State} (n : Nat) (h : Follows s₀ s) : Follows s₀ (freshWords n s).2 :=
  h.of_eq rfl rfl rfl rfl rfl rfl

theorem fillH_follows (d : Nat) (x : List Token × State) (t : Token) (h : Follows s₀ x.2) :
    Follows s₀ (fillH d x t).2 := by
  unfold fillH
  split
  · exact h
  · exact freshWords_follows d h

theorem fillY_follows (d : Nat) (x : List Token × State) (t : Token) (h : Follows s₀ x.2) :
    Follows s₀ (fillY d x t).2 := by
  unfold fillY
  dsimp only
  exact foldl_snd_follows (fun a _ k => freshWords_follows d k) h

theorem fillTokens_follows {s : State} (p : Pid) (slot : Nat) (pick : Sample → Bool)
    {g : List Token × State → Token → List Token × State}
    (hg : ∀ x t, Follows s₀ x.2 → Follows s₀ (g x t).2) (h : Follows s₀ s) :
    Follows s₀ (fillTokens p slot pick g s) := by
  unfold fillTokens
  split
  · exact h
  · refine foldl_follows (fun t x k => ?_) h
    exact modSample_follows _ _ _ _ (foldl_snd_follows (x := ([], t)) hg k)

theorem scoreHome_follows {s : State} (p : Pid) (slot rel : Nat) (hF : Follows s₀ s) :
    Follows s₀ (scoreHome p slot rel s) := by
  unfold scoreHome
  dsimp only
  with_reducible repeat' first | assumption | intro s x h | apply fillTokens_follows | apply fillH_follows
                               | apply modStep_follows

theorem doRouteCounts_follows {s : State} (p : Pid) (slot rel : Nat) (hF : Follows s₀ s) :
    Follows s₀ (doRouteCounts p slot rel s) := by
  unfold doRouteCounts
  dsimp only
  with_reducible repeat' first | assumption | apply ite_follows | split | apply modStep_follows
                               | apply scoreHome_follows | apply modCtrl_follows

theorem doListBuild_follows {s : State} (hF : Follows s₀ s) :
    Follows s₀ (doListBuild s) := by
  unfold doListBuild
  dsimp only
  with_reducible repeat' first | assumption | split | apply modCtrl_follows | apply winWrite_follows
                               | apply modStep_follows | apply entriesDone_follows

theorem setEmbeddings_follows {s : State} (p : Pid) (slot off : Nat) (hs : List (List Word16)) (hF : Follows s₀ s) :
    Follows s₀ (setEmbeddings p slot off hs s) := by
  unfold setEmbeddings
  dsimp only
  with_reducible repeat' first | assumption | apply modSample_follows

theorem setOutputs_follows {s : State} (p : Pid) (slot e : Nat) (ys : List (Nat × List Word16)) (hF : Follows s₀ s) :
    Follows s₀ (setOutputs p slot e ys s) := by
  unfold setOutputs
  dsimp only
  with_reducible repeat' first | assumption | apply modStep_follows

theorem returnOutputs_follows {s : State} (p : Pid) (slot : Nat) (hF : Follows s₀ s) :
    Follows s₀ (returnOutputs p slot s) := by
  unfold returnOutputs
  dsimp only
  with_reducible repeat' first | assumption | intro s x h | split | apply fillTokens_follows | apply fillH_follows
                               | apply fillY_follows | apply modStep_follows

theorem commitCounters_follows {s : State} (p : Pid) (st : OpenStep) (hF : Follows s₀ s) :
    Follows s₀ (commitCounters p st s) := by
  unfold commitCounters
  dsimp only
  with_reducible repeat' first | assumption | apply ite_follows | apply modEx_follows

/-! ### Still -/

theorem modEngine_follows {s : State} (jpeg : Bool) (i : Nat) (g : Engine → Engine) (hF : Follows s₀ s) :
    Follows s₀ (modEngine jpeg i g s) := by
  unfold modEngine
  with_reducible repeat' first | assumption | rfl | split | apply modUnits_follows

theorem startStill_follows {s : State} (jpeg : Bool) (i : Nat) (hF : Follows s₀ s) :
    Follows s₀ (startStill jpeg i s) := by
  unfold startStill
  dsimp only
  with_reducible repeat' first | assumption | apply ite_follows | rfl | split | apply modUnits_follows
                               | apply modEngine_follows

theorem startStills_follows {s : State} (hF : Follows s₀ s) :
    Follows s₀ (startStills s) := by
  unfold startStills
  dsimp only
  with_reducible repeat' first | assumption | intro s x h | apply startStill_follows | apply foldl_follows

theorem stillDamaged_follows {s : State} (j : StillJob) (i code off : Nat) (hF : Follows s₀ s) :
    Follows s₀ (stillDamaged j i code off s) := by
  unfold stillDamaged
  dsimp only
  with_reducible repeat' first | assumption | apply damageSample_follows | apply logEvent_follows

theorem engineLasting_follows {s : State} (j : StillJob) (i code : Nat) (hF : Follows s₀ s) :
    Follows s₀ (engineLasting j i code s) := by
  unfold engineLasting
  dsimp only
  with_reducible repeat' first | assumption | apply ite_follows | rfl | apply lastingFence_follows
                               | apply modEngine_follows | apply fenceWhere_follows | apply fencePart_follows
                               | apply modUnits_follows

theorem stillFailed_follows {s : State} (j : StillJob) (i code off : Nat) (hF : Follows s₀ s) :
    Follows s₀ (stillFailed j i code off s) := by
  unfold stillFailed
  with_reducible repeat' first | assumption | apply ite_follows | split | apply modEngine_follows
                               | apply stillDamaged_follows | apply engineLasting_follows

theorem stillDone_follows {s : State} (j : StillJob) (i : Nat) (ps : List Plane) (hF : Follows s₀ s) :
    Follows s₀ (stillDone j i ps s) := by
  unfold stillDone
  dsimp only
  with_reducible repeat' first | assumption | split | apply transientFault_follows | apply modEngine_follows
                               | apply sampleStageDone_follows | apply setPlanes_follows

theorem doStillComplete_follows {s : State} (jpeg : Bool) (i : Nat) (res : StillResult) (hF : Follows s₀ s) :
    Follows s₀ (doStillComplete jpeg i res s) := by
  unfold doStillComplete
  dsimp only
  with_reducible repeat' first | assumption | split | apply startStills_follows | apply stillDone_follows
                               | apply stillFailed_follows | apply lateDiscard_follows | apply modEngine_follows

theorem doStillTimeout_follows {s : State} (jpeg : Bool) (i : Nat) (hF : Follows s₀ s) :
    Follows s₀ (doStillTimeout jpeg i s) := by
  unfold doStillTimeout
  with_reducible repeat' first | assumption | split | apply startStills_follows | apply stillFailed_follows

theorem warpPop_follows {s : State} (c : Nat) (hF : Follows s₀ s) :
    Follows s₀ (warpPop c s) := by
  unfold warpPop
  with_reducible repeat' first | assumption | rfl | apply modUnits_follows

theorem doWarpComplete_follows {s : State} (c : Nat) (hF : Follows s₀ s) :
    Follows s₀ (doWarpComplete c s) := by
  unfold doWarpComplete
  dsimp only
  with_reducible repeat' first | assumption | apply ite_follows | split | apply warpPop_follows
                               | apply fencePart_follows | apply logEvent_follows | apply transientFault_follows
                               | apply sampleStageDone_follows | apply setPlanes_follows

theorem doWarpParity_follows {s : State} (c : Nat) (hF : Follows s₀ s) :
    Follows s₀ (doWarpParity c s) := by
  unfold doWarpParity
  dsimp only
  with_reducible repeat' first | assumption | apply ite_follows | rfl | split | apply modUnits_follows
                               | apply lastingFence_follows | apply warpPop_follows | apply fencePart_follows

/-! ### Storage -/

theorem nvmeIo_follows {s : State} (n : Nat) (c : NvmeCmd) (hF : Follows s₀ s) :
    Follows s₀ (nvmeIo n c s) := by
  unfold nvmeIo
  dsimp only
  with_reducible repeat' first | assumption | apply ite_follows | apply nvmePush_follows | apply modDrive_follows

theorem nvmePump_follows (n : Nat) (y0 : Nat) :
    ∀ {s : State}, Follows s₀ s → Follows s₀ (nvmePump n y0 s) := by
  induction y0 generalizing n with
  | zero => intros; simpa only [nvmePump]
  | succ n ih =>
    intro s h
    simp only [nvmePump]
    with_reducible repeat' first | assumption | split | apply nvmePush_follows | apply modDrive_follows | apply ih

theorem damagedFetch_follows {s : State} (p : Pid) (slot off stage cause : Nat) (hF : Follows s₀ s) :
    Follows s₀ (damagedFetch p slot off stage cause s) := by
  unfold damagedFetch
  dsimp only
  with_reducible repeat' first | assumption | split | apply damageSample_follows | apply logEvent_follows

theorem startFetch_follows {s : State} (p : Pid) (slot off stage : Nat) (hF : Follows s₀ s) :
    Follows s₀ (startFetch p slot off stage s) := by
  unfold startFetch
  dsimp only
  with_reducible repeat' first | assumption | intro s x h | split | apply damagedFetch_follows | apply nvmeIo_follows
                               | apply foldl_follows

theorem modStream_follows {s : State} (p : Pid) (i : Nat) (g : Stream → Stream) (hF : Follows s₀ s) :
    Follows s₀ (modStream p i g s) := by
  unfold modStream
  with_reducible repeat' first | assumption | apply modPart_follows

theorem modCodec_follows {s : State} (p : Pid) (i : Nat) (g : CodecSt → CodecSt) (hF : Follows s₀ s) :
    Follows s₀ (modCodec p i g s) := by
  unfold modCodec
  with_reducible repeat' first | assumption | apply modStream_follows

theorem startArchive_follows {s : State} (p : Pid) (i : Nat) (hF : Follows s₀ s) :
    Follows s₀ (startArchive p i s) := by
  unfold startArchive
  dsimp only
  with_reducible repeat' first | assumption | apply ite_follows | intro s x h | split | apply nvmeIo_follows
                               | apply modCodec_follows | apply foldl_follows

theorem archived_follows {s : State} (p : Pid) (i : Nat) (hF : Follows s₀ s) :
    Follows s₀ (archived p i s) := by
  unfold archived
  dsimp only
  with_reducible repeat' first | assumption | intro s x h | split | apply modSched_follows | apply winWrite_follows
                               | apply modCodec_follows | apply startArchive_follows | apply foldl_follows

theorem stopArchive_follows {s : State} (p : Pid) (n : Nat) (hF : Follows s₀ s) :
    Follows s₀ (stopArchive p n s) := by
  unfold stopArchive
  dsimp only
  with_reducible repeat' first | assumption | apply modPart_follows

theorem wakeGrants_follows {s : State} (hF : Follows s₀ s) :
    Follows s₀ (wakeGrants s) := by
  unfold wakeGrants
  with_reducible repeat' first | assumption | rfl | apply modHost_follows

theorem driveLasting_follows {s : State} (n part code tag : Nat) (hF : Follows s₀ s) :
    Follows s₀ (driveLasting n part code tag s) := by
  unfold driveLasting
  dsimp only
  with_reducible repeat' first | assumption | apply ite_follows | intro s x h | apply lastingFence_follows
                               | apply modDrive_follows | apply emit_follows | apply logDev_follows
                               | apply completeOpt_follows | apply stopArchive_follows | apply fencePart_follows
                               | apply wakeGrants_follows | apply foldl_follows

theorem driveTransient_follows {s : State} (n : Nat) (c : NvmeCmd) (hF : Follows s₀ s) :
    Follows s₀ (driveTransient n c s) := by
  unfold driveTransient
  with_reducible repeat' first | assumption | apply modDrive_follows | apply transientFault_follows

theorem nvmeReissue_follows {s : State} (n : Nat) (c : NvmeCmd) (code : Nat) (media : Bool) (hF : Follows s₀ s) :
    Follows s₀ (nvmeReissue n c code media s) := by
  unfold nvmeReissue
  with_reducible repeat' first | assumption | apply nvmePush_follows

theorem nvmeDone_follows {s : State} (n : Nat) (c : NvmeCmd) (hF : Follows s₀ s) :
    Follows s₀ (nvmeDone n c s) := by
  unfold nvmeDone
  dsimp only
  with_reducible repeat' first | assumption | apply ite_follows | split | apply sampleStageDone_follows
                               | apply nvmeIo_follows | apply modCodec_follows | apply archived_follows
                               | apply modDrive_follows | apply wakeGrants_follows

theorem nvmeMedia_follows {s : State} (n : Nat) (c : NvmeCmd) (hF : Follows s₀ s) :
    Follows s₀ (nvmeMedia n c s) := by
  unfold nvmeMedia
  dsimp only
  with_reducible repeat' first | assumption | split | apply modDrive_follows | apply nvmeFenceWhere_follows
                               | apply damagedFetch_follows

theorem nvmeOutcome_follows {s : State} (n : Nat) (c : NvmeCmd) (e : NvmeCqe) (hF : Follows s₀ s) :
    Follows s₀ (nvmeOutcome n c e s) := by
  unfold nvmeOutcome
  dsimp only
  with_reducible repeat' first | assumption | apply ite_follows | split | apply modDrive_follows
                               | apply nvmeDone_follows | apply driveTransient_follows | apply nvmeReissue_follows
                               | apply nvmeMedia_follows | apply driveLasting_follows

theorem driveViolation_follows {s : State} (n row : Nat) (hF : Follows s₀ s) :
    Follows s₀ (driveViolation n row s) := by
  unfold driveViolation
  dsimp only
  with_reducible repeat' first | assumption | apply modDrive_follows | apply partnerViolation_follows

theorem driveLate_follows {s : State} (n cid rung : Nat) (hF : Follows s₀ s) :
    Follows s₀ (driveLate n cid rung s) := by
  unfold driveLate
  dsimp only
  with_reducible repeat' first | assumption | apply modDrive_follows | apply lateDiscard_follows

theorem doNvmeCompletion_follows {s : State} (n : Nat) (e : NvmeCqe) (hF : Follows s₀ s) :
    Follows s₀ (doNvmeCompletion n e s) := by
  unfold doNvmeCompletion
  dsimp only
  with_reducible repeat' first | assumption | apply ite_follows | split | apply driveLate_follows
                               | apply driveViolation_follows | apply nvmePump_follows | apply nvmeOutcome_follows

theorem nvmeTimeout_follows {s : State} (n cid : Nat) (admin : Bool) (hF : Follows s₀ s) :
    Follows s₀ (nvmeTimeout n cid admin s) := by
  unfold nvmeTimeout
  dsimp only
  with_reducible repeat' first | assumption | apply ite_follows | split | apply modDrive_follows
                               | apply nvmeFence_follows | apply driveLasting_follows | apply nvmeReissue_follows

theorem doAdminTimeout_follows {s : State} (n cid : Nat) (hF : Follows s₀ s) :
    Follows s₀ (doAdminTimeout n cid s) := by
  unfold doAdminTimeout
  with_reducible repeat' first | assumption | apply ite_follows | split | apply modDrive_follows
                               | apply nvmeTimeout_follows

theorem controllerFailure_follows {s : State} (n code : Nat) (hF : Follows s₀ s) :
    Follows s₀ (controllerFailure n code s) := by
  unfold controllerFailure
  dsimp only
  with_reducible repeat' first | assumption | apply ite_follows | intro s x h | apply driveLasting_follows
                               | apply modDrive_follows | apply emit_follows | apply nvmePush_follows
                               | apply nvmeReissue_follows | apply foldl_follows

theorem doDriveLinkDown_follows {s : State} (n : Nat) (signal : Bool) (hF : Follows s₀ s) :
    Follows s₀ (doDriveLinkDown n signal s) := by
  unfold doDriveLinkDown
  with_reducible repeat' first | assumption | apply ite_follows | apply controllerFailure_follows
                               | apply modDrive_follows

theorem doDriveDma_follows {s : State} (n addr len : Nat) (write : Option (List Byte)) (hF : Follows s₀ s) :
    Follows s₀ (doDriveDma n addr len write s) := by
  unfold doDriveDma
  dsimp only
  with_reducible repeat' first | assumption | apply ite_follows | split | apply emit_follows
                               | apply driveViolation_follows | apply bufWrite_follows

theorem doDriveMsix_follows {s : State} (n v : Nat) (hF : Follows s₀ s) :
    Follows s₀ (doDriveMsix n v s) := by
  unfold doDriveMsix
  with_reducible repeat' first | assumption | apply ite_follows | apply driveViolation_follows

theorem attachBody_follows {s : State} (r : Req) (hF : Follows s₀ s) :
    Follows s₀ (attachBody r s).1 := by
  unfold attachBody
  dsimp only
  with_reducible repeat' first | assumption | apply ite_pair_follows | apply emit_follows | apply modDrive_follows

theorem detachDone_follows {s : State} (n outcome : Nat) (hF : Follows s₀ s) :
    Follows s₀ (detachDone n outcome s) := by
  unfold detachDone
  dsimp only
  with_reducible repeat' first | assumption | apply modDrive_follows | apply completeOpt_follows
                               | apply logDev_follows

theorem detachBody_follows {s : State} (r : Req) (hF : Follows s₀ s) :
    Follows s₀ (detachBody r s).1 := by
  unfold detachBody
  dsimp only
  with_reducible repeat' first | assumption | apply ite_pair_follows | apply emit_follows | apply modDrive_follows

theorem attachFailed_follows {s : State} (n phase code : Nat) (hF : Follows s₀ s) :
    Follows s₀ (attachFailed n phase code s) := by
  unfold attachFailed
  with_reducible repeat' first | assumption | apply ite_follows | apply driveLasting_follows | apply emit_follows
                               | apply modDrive_follows

theorem attachStep_follows {s : State} (n code : Nat) (g : Drive → Drive) (hF : Follows s₀ s) :
    Follows s₀ (attachStep n code g s) := by
  unfold attachStep
  dsimp only
  with_reducible repeat' first | assumption | split | apply modDrive_follows | apply transientFault_follows

theorem attachDone_follows {s : State} (n st outcome count : Nat) (hF : Follows s₀ s) :
    Follows s₀ (attachDone n st outcome count s) := by
  unfold attachDone
  dsimp only
  with_reducible repeat' first | assumption | apply modDrive_follows | apply completeOpt_follows
                               | apply logDev_follows

theorem doRootPortUp_follows {s : State} (n : Nat) (f : PortFound) (hF : Follows s₀ s) :
    Follows s₀ (doRootPortUp n f s) := by
  unfold doRootPortUp
  dsimp only
  with_reducible repeat' first | assumption | apply ite_follows | split | apply attachDone_follows
                               | apply attachFailed_follows | apply attachStep_follows

theorem doControllerStatus_follows {s : State} (n : Nat) (st : CtrlStatus) (hF : Follows s₀ s) :
    Follows s₀ (doControllerStatus n st s) := by
  unfold doControllerStatus
  dsimp only
  with_reducible repeat' first | assumption | apply ite_follows | split | apply modDrive_follows
                               | apply attachDone_follows | apply attachStep_follows | apply attachFailed_follows
                               | apply detachDone_follows

theorem doReadyTimeout_follows {s : State} (n : Nat) (hF : Follows s₀ s) :
    Follows s₀ (doReadyTimeout n s) := by
  unfold doReadyTimeout
  dsimp only
  with_reducible repeat' first | assumption | apply ite_follows | apply attachFailed_follows

theorem doShutdownTimeout_follows {s : State} (n : Nat) (hF : Follows s₀ s) :
    Follows s₀ (doShutdownTimeout n s) := by
  unfold doShutdownTimeout
  dsimp only
  with_reducible repeat' first | assumption | apply ite_follows | apply detachDone_follows

/-! ### Live -/

theorem modWin_follows {s : State} (p : Pid) (i w : Nat) (g : Win → Win) (hF : Follows s₀ s) :
    Follows s₀ (modWin p i w g s) := by
  unfold modWin
  with_reducible repeat' first | assumption | apply modStream_follows

theorem logGap_follows {s : State} (p : Pid) (i first last : Nat) (hF : Follows s₀ s) :
    Follows s₀ (logGap p i first last s) := by
  unfold logGap
  with_reducible repeat' first | assumption | apply logEvent_follows

theorem dropBuffer_follows {s : State} (p : Pid) (i w : Nat) (hF : Follows s₀ s) :
    Follows s₀ (dropBuffer p i w s) := by
  unfold dropBuffer
  dsimp only
  with_reducible repeat' first | assumption | split | apply releaseDesc_follows | apply modWin_follows

theorem sweepStream_follows {s : State} (p : Pid) (x : Stream) (hF : Follows s₀ s) :
    Follows s₀ (sweepStream p s x) := by
  unfold sweepStream
  dsimp only
  with_reducible repeat' first | assumption | intro s x h | apply dropBuffer_follows | apply modStream_follows
                               | apply foldl_follows

theorem sweepWins_follows {s : State} (p : Pid) (hF : Follows s₀ s) :
    Follows s₀ (sweepWins p s) := by
  unfold sweepWins
  with_reducible repeat' first | assumption | intro s x h | apply sweepStream_follows | apply foldl_follows

theorem joinBacklog_follows {s : State} (p : Pid) (i w : Nat) (hF : Follows s₀ s) :
    Follows s₀ (joinBacklog p i w s) := by
  unfold joinBacklog
  dsimp only
  with_reducible repeat' first | assumption | apply ite_follows | split | apply modPCnt_follows
                               | apply modSched_follows | apply logEvent_follows | apply sweepWins_follows

theorem returnStanding_follows {s : State} (p : Pid) (i : Nat) (hF : Follows s₀ s) :
    Follows s₀ (returnStanding p i s) := by
  unfold returnStanding
  dsimp only
  with_reducible repeat' first | assumption | intro s x h | split | apply unreserve_follows | apply modStream_follows
                               | apply foldl_follows

theorem closeStream_follows {s : State} (p : Pid) (i : Nat) (hF : Follows s₀ s) :
    Follows s₀ (closeStream p i s) := by
  unfold closeStream
  dsimp only
  with_reducible repeat' first | assumption | apply returnStanding_follows | apply modStream_follows

/-! ### Codec -/

theorem modCore_follows {s : State} (c : Nat) (g : Core → Core) (hF : Follows s₀ s) :
    Follows s₀ (modCore c g s) := by
  unfold modCore
  with_reducible repeat' first | assumption | rfl | apply modUnits_follows

theorem handWindow_follows {s : State} (p : Pid) (i w : Nat) (ps : List Plane) (hF : Follows s₀ s) :
    Follows s₀ (handWindow p i w ps s) := by
  unfold handWindow
  dsimp only
  with_reducible repeat' first | assumption | apply modSched_follows | apply refreshBoard_follows

theorem ringWrite_follows {s : State} (p : Pid) (r : Region) (off : Nat) (bs : List Byte) (hF : Follows s₀ s) :
    Follows s₀ (ringWrite p r off bs s) := by
  unfold ringWrite
  dsimp only
  with_reducible repeat' first | assumption | apply winWrite_follows

theorem emitSlice_follows {s : State} (p : Pid) (i sl : Nat) (w : Win) (bs : List Byte) (flags : Nat) (qpSum : Int)
    (hF : Follows s₀ s) :
    Follows s₀ (emitSlice p i sl w bs flags qpSum s) := by
  unfold emitSlice
  dsimp only
  with_reducible repeat' first | assumption | split | apply ringWrite_follows | apply modCodec_follows

theorem recordWindow_follows {s : State} (p : Pid) (i : Nat) (w : Win) (hF : Follows s₀ s) :
    Follows s₀ (recordWindow p i w s) := by
  unfold recordWindow
  dsimp only
  with_reducible repeat' first | assumption | split | apply ringWrite_follows | apply startArchive_follows
                               | apply modCodec_follows

theorem finishPicture_follows {s : State} (p : Pid) (i : Nat) (d : StreamDecl) (w : Win) (irap : Bool) (rt : RateSt)
    (overrun intra : Bool) (hF : Follows s₀ s) :
    Follows s₀ (finishPicture p i d w irap rt overrun intra s) := by
  unfold finishPicture
  dsimp only
  with_reducible repeat' first | assumption | apply ite_follows | intro s x h | split | apply recordWindow_follows
                               | apply modWin_follows | apply modCodec_follows | apply limited_follows
                               | apply logEvent_follows | apply dropBuffer_follows | apply handWindow_follows
                               | apply sweepWins_follows | apply closeStream_follows

theorem emitSlices_follows (p : Pid) (i : Nat) (d : StreamDecl) (w : Win) (y0 : Nat) :
    ∀ {s : State}, Follows s₀ s → Follows s₀ (emitSlices p i d w y0 s) := by
  induction y0 generalizing p i d w with
  | zero => intros; simpa only [emitSlices]
  | succ n ih =>
    intro s h
    simp only [emitSlices]
    with_reducible repeat' first | assumption | apply ite_follows | split | apply emitSlice_follows
                                 | apply finishPicture_follows | apply ih

theorem startSegs_follows  (y0 : Nat) :
    ∀ {s : State}, Follows s₀ s → Follows s₀ (startSegs y0 s) := by
  induction y0 with
  | zero => intros; simpa only [startSegs]
  | succ n ih =>
    intro s h
    simp only [startSegs]
    with_reducible repeat' first | assumption | apply ite_follows | rfl | split | apply modUnits_follows
                                 | apply modCore_follows | apply ih

theorem doSegmentReady_follows {s : State} (p : Pid) (i seg : Nat) (hF : Follows s₀ s) :
    Follows s₀ (doSegmentReady p i seg s) := by
  unfold doSegmentReady
  dsimp only
  with_reducible repeat' first | assumption | apply ite_follows | rfl | split | apply startSegs_follows
                               | apply modUnits_follows

theorem startDecode_follows {s : State} (p : Pid) (slot off stage : Nat) (hF : Follows s₀ s) :
    Follows s₀ (startDecode p slot off stage s) := by
  unfold startDecode
  dsimp only
  with_reducible repeat' first | assumption | rfl | split | apply modCodec_follows | apply startSegs_follows
                               | apply modUnits_follows

theorem coreLasting_follows {s : State} (c : Nat) (j : SegJob) (code : Nat) (hF : Follows s₀ s) :
    Follows s₀ (coreLasting c j code s) := by
  unfold coreLasting
  dsimp only
  with_reducible repeat' first | assumption | apply ite_follows | apply lastingFence_follows | apply modCore_follows
                               | apply fencePart_follows | apply fenceWhere_follows

theorem damageInstance_follows {s : State} (p : Pid) (stage epoch : Nat) (hF : Follows s₀ s) :
    Follows s₀ (damageInstance p stage epoch s) := by
  unfold damageInstance
  dsimp only
  with_reducible repeat' first | assumption | intro s x h | apply damageSample_follows | apply killJobs_follows
                               | apply foldl_follows

theorem segDamaged_follows {s : State} (j : SegJob) (k : Nat × Nat) (c code off ctu : Nat) (hF : Follows s₀ s) :
    Follows s₀ (segDamaged j k c code off ctu s) := by
  unfold segDamaged
  dsimp only
  with_reducible repeat' first | assumption | split | apply logEvent_follows | apply modCodec_follows
                               | apply damageInstance_follows | apply modSched_follows

theorem segFailed_follows {s : State} (c : Nat) (j : SegJob) (code off ctu : Nat) (hF : Follows s₀ s) :
    Follows s₀ (segFailed c j code off ctu s) := by
  unfold segFailed
  dsimp only
  with_reducible repeat' first | assumption | apply ite_follows | rfl | split | apply modCore_follows
                               | apply modUnits_follows | apply segDamaged_follows | apply coreLasting_follows

theorem segOk_follows {s : State} (c : Nat) (j : SegJob) (hF : Follows s₀ s) :
    Follows s₀ (segOk c j s) := by
  unfold segOk
  dsimp only
  with_reducible repeat' first | assumption | split | apply modCore_follows | apply modCodec_follows
                               | apply transientFault_follows

theorem segCoded_follows {s : State} (j : SegJob) (rb : List Nat) (bs : List Byte) (ps : List Plane)
    (hF : Follows s₀ s) :
    Follows s₀ (segCoded j rb bs ps s) := by
  unfold segCoded
  dsimp only
  with_reducible repeat' first | assumption | apply ite_follows | split | apply modCodec_follows
                               | apply emitSlices_follows

theorem segDecoded_follows {s : State} (j : SegJob) (k : Nat × Nat) (ps : List Plane) (slices bits : Nat)
    (hF : Follows s₀ s) :
    Follows s₀ (segDecoded j k ps slices bits s) := by
  unfold segDecoded
  dsimp only
  with_reducible repeat' first | assumption | apply modCodec_follows | apply sampleStageDone_follows
                               | apply setPlanes_follows

theorem doSegmentComplete_follows {s : State} (c tag : Nat) (res : SegResult) (hF : Follows s₀ s) :
    Follows s₀ (doSegmentComplete c tag res s) := by
  unfold doSegmentComplete
  dsimp only
  with_reducible repeat' first | assumption | apply ite_follows | split | apply startSegs_follows
                               | apply segCoded_follows | apply segOk_follows | apply segDecoded_follows
                               | apply segFailed_follows | apply lateDiscard_follows | apply modCore_follows

theorem doSegmentTimeout_follows {s : State} (c : Nat) (hF : Follows s₀ s) :
    Follows s₀ (doSegmentTimeout c s) := by
  unfold doSegmentTimeout
  with_reducible repeat' first | assumption | split | apply startSegs_follows | apply segFailed_follows
                               | apply modCore_follows

/-! ### Ingest -/

theorem cameraViolation_follows {s : State} (p : Pid) (i row : Nat) (hF : Follows s₀ s) :
    Follows s₀ (cameraViolation p i row s) := by
  unfold cameraViolation
  dsimp only
  with_reducible repeat' first | assumption | split | apply modStream_follows | apply modPort_follows
                               | apply partnerViolation_follows

theorem portViolation_follows {s : State} (n row : Nat) (hF : Follows s₀ s) :
    Follows s₀ (portViolation n row s) := by
  unfold portViolation
  dsimp only
  with_reducible repeat' first | assumption | apply modPort_follows | apply partnerViolation_follows

theorem modIng_follows {s : State} (p : Pid) (i : Nat) (g : IngCnt → IngCnt) (hF : Follows s₀ s) :
    Follows s₀ (modIng p i g s) := by
  unfold modIng
  with_reducible repeat' first | assumption | apply modStream_follows

theorem refill_follows (p : Pid) (i : Nat) (d : StreamDecl) (y0 : Nat) :
    ∀ {s : State}, Follows s₀ s → Follows s₀ (refill p i d y0 s) := by
  induction y0 generalizing p i d with
  | zero => intros; simpa only [refill]
  | succ n ih =>
    intro s h
    simp only [refill]
    with_reducible repeat' first | assumption | apply ite_follows | split | apply modStream_follows | apply ih
                                 | refine reserveNow_follows ‹_ = some _› ?_

theorem newWindow_follows {s : State} (p : Pid) (i : Nat) (d : StreamDecl) (w : Nat) (hF : Follows s₀ s) :
    Follows s₀ (newWindow p i d w s) := by
  unfold newWindow
  dsimp only
  with_reducible repeat' first | assumption | apply ite_follows | split | apply refill_follows
                               | apply modStream_follows | apply modCodec_follows | apply logGap_follows
                               | apply drawDesc_follows

theorem refreshRecord_follows {s : State} (p : Pid) (i w : Nat) (hF : Follows s₀ s) :
    Follows s₀ (refreshRecord p i w s) := by
  unfold refreshRecord
  with_reducible repeat' first | assumption | split | apply modCodec_follows

theorem compareSet_follows {s : State} (p : Pid) (w : Nat) (set : Nat × Nat) (hF : Follows s₀ s) :
    Follows s₀ (compareSet p w set s) := by
  unfold compareSet
  dsimp only
  with_reducible repeat' first | assumption | apply ite_follows | intro s x h | split | apply modWin_follows
                               | apply modIng_follows | apply refreshRecord_follows | apply limited_follows
                               | apply logEvent_follows | apply foldl_follows

theorem finishWindow_follows {s : State} (p : Pid) (i : Nat) (d : StreamDecl) (w : Win) (gap : Bool)
    (hF : Follows s₀ s) :
    Follows s₀ (finishWindow p i d w gap s) := by
  unfold finishWindow
  dsimp only
  with_reducible repeat' first | assumption | split | apply modWin_follows | apply logGap_follows
                               | apply compareSet_follows | apply joinBacklog_follows | apply modStream_follows
                               | apply sweepWins_follows

theorem updateWin_follows {s : State} (p : Pid) (i : Nat) (d : StreamDecl) (w : Nat) (hF : Follows s₀ s) :
    Follows s₀ (updateWin p i d w s) := by
  unfold updateWin
  dsimp only
  with_reducible repeat' first | assumption | apply ite_follows | split | apply modWin_follows
                               | apply finishWindow_follows

theorem modBlock_follows {s : State} (p : Pid) (i uid : Nat) (g : Block → Block) (hF : Follows s₀ s) :
    Follows s₀ (modBlock p i uid g s) := by
  unfold modBlock
  with_reducible repeat' first | assumption | apply modStream_follows

theorem checkBlock_follows {s : State} (p : Pid) (i : Nat) (d : StreamDecl) (uid : Nat) (hF : Follows s₀ s) :
    Follows s₀ (checkBlock p i d uid s) := by
  unfold checkBlock
  dsimp only
  with_reducible repeat' first | assumption | split | apply modBlock_follows | apply updateWin_follows

theorem openRange_follows {s : State} (p : Pid) (i : Nat) (d : StreamDecl) (uid : Nat) (ids : List Nat)
    (hF : Follows s₀ s) :
    Follows s₀ (openRange p i d uid ids s) := by
  unfold openRange
  dsimp only
  with_reducible repeat' first | assumption | apply ite_follows | split | apply checkBlock_follows
                               | apply modBlock_follows | apply modIng_follows | apply modStream_follows

theorem openTail_follows {s : State} (p : Pid) (i : Nat) (d : StreamDecl) (uid : Nat) (hF : Follows s₀ s) :
    Follows s₀ (openTail p i d uid s) := by
  unfold openTail
  dsimp only
  with_reducible repeat' first | assumption | apply ite_follows | split | apply openRange_follows
                               | apply modBlock_follows

theorem closeRange_follows {s : State} (p : Pid) (i id : Nat) (hF : Follows s₀ s) :
    Follows s₀ (closeRange p i id s) := by
  unfold closeRange
  with_reducible repeat' first | assumption | apply modStream_follows

theorem loseRange_follows {s : State} (p : Pid) (i : Nat) (d : StreamDecl) (r : Range) (hF : Follows s₀ s) :
    Follows s₀ (loseRange p i d r s) := by
  unfold loseRange
  dsimp only
  with_reducible repeat' first | assumption | apply closeRange_follows | apply modBlock_follows
                               | apply checkBlock_follows | apply modIng_follows

theorem rangeReceived_follows {s : State} (p : Pid) (i bid : Nat) (r : Range) (hF : Follows s₀ s) :
    Follows s₀ (rangeReceived p i bid r s) := by
  unfold rangeReceived
  dsimp only
  with_reducible repeat' first | assumption | apply ite_follows | intro s x h | apply closeRange_follows
                               | apply modIng_follows | apply cntFaults_follows | apply limited_follows
                               | apply logEvent_follows

theorem newBlock_follows {s : State} (p : Pid) (i : Nat) (d : StreamDecl) (bid seq : Nat) (hF : Follows s₀ s) :
    Follows s₀ (newBlock p i d bid seq s) := by
  unfold newBlock
  dsimp only
  with_reducible repeat' first | assumption | split | apply newWindow_follows | apply modStream_follows

theorem skipBlocks_follows (p : Pid) (i : Nat) (d : StreamDecl) (bid seq : Nat) (y0 : Nat) :
    ∀ (y1 : Nat) {s : State}, Follows s₀ s → Follows s₀ (skipBlocks p i d bid seq y0 y1 s) := by
  induction y0 generalizing p i d bid seq with
  | zero => intros; simpa only [skipBlocks]
  | succ n ih =>
    intro y1 s h
    simp only [skipBlocks]
    with_reducible repeat' first | assumption | split | apply newBlock_follows | apply modBlock_follows
                                 | apply openRange_follows | apply ih

theorem placeBlock_follows {s : State} (p : Pid) (i : Nat) (d : StreamDecl) (bid : Nat) (hF : Follows s₀ s) :
    Follows s₀ (placeBlock p i d bid s).1 := by
  unfold placeBlock
  dsimp only
  with_reducible repeat' first | assumption | apply ite_follows | apply ite_pair_follows | intro s x h | split
                               | apply modIng_follows | apply modStream_follows | apply newBlock_follows
                               | apply cameraViolation_follows | apply openTail_follows | apply skipBlocks_follows
                               | apply foldl_follows

theorem rejectBlock_follows {s : State} (p : Pid) (i : Nat) (d : StreamDecl) (b : Block) (row : Nat)
    (hF : Follows s₀ s) :
    Follows s₀ (rejectBlock p i d b row s) := by
  unfold rejectBlock
  dsimp only
  with_reducible repeat' first | assumption | apply cameraViolation_follows | apply modStream_follows
                               | apply updateWin_follows | apply modBlock_follows

theorem leaderTimes_follows {s : State} (p : Pid) (i : Nat) (b : Block) (ts : Nat) (hF : Follows s₀ s) :
    Follows s₀ (leaderTimes p i b ts s) := by
  unfold leaderTimes
  dsimp only
  with_reducible repeat' first | assumption | apply ite_follows | apply modBlock_follows | apply modWin_follows

theorem writePayload_follows {s : State} (p : Pid) (i : Nat) (d : StreamDecl) (b : Block) (n : Nat) (bs : List Byte)
    (hF : Follows s₀ s) :
    Follows s₀ (writePayload p i d b n bs s) := by
  unfold writePayload
  dsimp only
  with_reducible repeat' first | assumption | split | apply bufWrite_follows | apply modBlock_follows

theorem acceptPacket_follows {s : State} (p : Pid) (i : Nat) (d : StreamDecl) (b : Block) (n : Nat) (payload : Bool)
    (hF : Follows s₀ s) :
    Follows s₀ (acceptPacket p i d b n payload s) := by
  unfold acceptPacket
  dsimp only
  with_reducible repeat' first | assumption | apply ite_follows | intro s x h | split | apply modBlock_follows
                               | apply modIng_follows | apply modWin_follows | apply openRange_follows
                               | apply rangeReceived_follows | apply modStream_follows | apply updateWin_follows
                               | apply checkBlock_follows | apply foldl_follows

theorem gvspEnter_follows {s : State} (p : Pid) (i bid n : Nat) (ext ok gone : Bool) (hF : Follows s₀ s) :
    Follows s₀ (gvspEnter p i bid n ext ok gone s).1 := by
  unfold gvspEnter
  dsimp only
  with_reducible repeat' first | assumption | apply ite_pair_follows | intro s x h | split | apply modPort_follows
                               | apply cameraViolation_follows | apply loseRange_follows | apply placeBlock_follows
                               | apply foldl_follows | refine pair_follows ‹_ = (_, _)› ?_

theorem gvspFilter_follows {s : State} (p : Pid) (i : Nat) (b : Block) (n : Nat) (hF : Follows s₀ s) :
    Follows s₀ (gvspFilter p i b n s).1 := by
  unfold gvspFilter
  with_reducible repeat' first | assumption | apply ite_pair_follows | apply cameraViolation_follows
                               | apply modIng_follows

theorem doLeader_follows {s : State} (p : Pid) (i : Nat) (l : Leader) (hF : Follows s₀ s) :
    Follows s₀ (doLeader p i l s) := by
  unfold doLeader
  with_reducible repeat' first | assumption | apply ite_follows | split | apply gvspEnter_follows
                               | apply gvspFilter_follows | apply rejectBlock_follows | apply acceptPacket_follows
                               | apply leaderTimes_follows | refine pair_follows ‹_ = (_, _)› ?_

theorem doPayload_follows {s : State} (p : Pid) (i : Nat) (k : Payload) (hF : Follows s₀ s) :
    Follows s₀ (doPayload p i k s) := by
  unfold doPayload
  with_reducible repeat' first | assumption | apply ite_follows | split | apply gvspEnter_follows
                               | apply cameraViolation_follows | apply gvspFilter_follows
                               | apply acceptPacket_follows | apply writePayload_follows
                               | refine pair_follows ‹_ = (_, _)› ?_

theorem doTrailer_follows {s : State} (p : Pid) (i : Nat) (t : Trailer) (hF : Follows s₀ s) :
    Follows s₀ (doTrailer p i t s) := by
  unfold doTrailer
  with_reducible repeat' first | assumption | apply ite_follows | split | apply gvspEnter_follows
                               | apply cameraViolation_follows | apply gvspFilter_follows
                               | apply acceptPacket_follows | refine pair_follows ‹_ = (_, _)› ?_

theorem doBlockTimeout_follows {s : State} (p : Pid) (i : Nat) (hF : Follows s₀ s) :
    Follows s₀ (doBlockTimeout p i s) := by
  unfold doBlockTimeout
  with_reducible repeat' first | assumption | split | apply openTail_follows

theorem doStreamTimeout_follows {s : State} (p : Pid) (i : Nat) (hF : Follows s₀ s) :
    Follows s₀ (doStreamTimeout p i s) := by
  unfold doStreamTimeout
  dsimp only
  with_reducible repeat' first | assumption | apply ite_follows | intro s x h | split | apply modStream_follows
                               | apply logEvent_follows | apply updateWin_follows | apply foldl_follows

theorem requestRange_follows {s : State} (p : Pid) (i : Nat) (d : StreamDecl) (r : Range) (hF : Follows s₀ s) :
    Follows s₀ (requestRange p i d r s) := by
  unfold requestRange
  dsimp only
  with_reducible repeat' first | assumption | intro s x h | split | apply emit_follows | apply modBlock_follows
                               | apply modStream_follows | apply modIng_follows | apply foldl_follows

theorem rangeTimer_follows {s : State} (p : Pid) (i id : Nat) (first : Bool) (hF : Follows s₀ s) :
    Follows s₀ (rangeTimer p i id first s) := by
  unfold rangeTimer
  with_reducible repeat' first | assumption | apply ite_follows | split | apply requestRange_follows
                               | apply loseRange_follows

theorem shiftTime_follows {s : State} (o : Int) (h : Follows s₀ s) : Follows s₀ (shiftTime o s) :=
  h.of_eq rfl rfl rfl rfl rfl rfl

theorem modPtp_follows {s : State} (g : PtpSt → PtpSt) (hF : Follows s₀ s) :
    Follows s₀ (modPtp g s) := by
  unfold modPtp
  with_reducible repeat' first | assumption | rfl | apply modUnits_follows

theorem ptpOffset_follows {s : State} (diff : Int) (hF : Follows s₀ s) :
    Follows s₀ (ptpOffset diff s) := by
  unfold ptpOffset
  dsimp only
  with_reducible repeat' first | assumption | apply ite_follows | split | apply modPtp_follows
                               | apply logEvent_follows | apply shiftTime_follows

theorem countFrame_follows {s : State} (n : Nat) (hF : Follows s₀ s) :
    Follows s₀ (countFrame n s) := by
  unfold countFrame
  with_reducible repeat' first | assumption | apply modPort_follows

theorem doPtpSync_follows {s : State} (n : Nat) (origin rx : Int) (twoStep : Bool) (hF : Follows s₀ s) :
    Follows s₀ (doPtpSync n origin rx twoStep s) := by
  unfold doPtpSync
  dsimp only
  with_reducible repeat' first | assumption | apply ite_follows | split | apply countFrame_follows
                               | apply modPtp_follows | apply ptpOffset_follows | apply emit_follows

theorem doFollowUp_follows {s : State} (n : Nat) (origin : Int) (hF : Follows s₀ s) :
    Follows s₀ (doFollowUp n origin s) := by
  unfold doFollowUp
  with_reducible repeat' first | assumption | apply ite_follows | split | apply ptpOffset_follows
                               | apply countFrame_follows

theorem doDelayResp_follows {s : State} (n : Nat) (rx tx : Int) (hF : Follows s₀ s) :
    Follows s₀ (doDelayResp n rx tx s) := by
  unfold doDelayResp
  with_reducible repeat' first | assumption | apply ite_follows | apply modPtp_follows | apply countFrame_follows

theorem doAnnounce_follows {s : State} (n master prio : Nat) (hF : Follows s₀ s) :
    Follows s₀ (doAnnounce n master prio s) := by
  unfold doAnnounce
  with_reducible repeat' first | assumption | apply ite_follows | apply modPtp_follows | apply countFrame_follows

theorem doSyncTimeout_follows {s : State} (hF : Follows s₀ s) :
    Follows s₀ (doSyncTimeout s) := by
  unfold doSyncTimeout
  with_reducible repeat' first | assumption | apply modPtp_follows

theorem setPort_follows {s : State} (b : List Byte) (hF : Follows s₀ s) :
    Follows s₀ (setPort b s) := by
  unfold setPort
  dsimp only
  with_reducible repeat' first | assumption | apply ite_follows | apply modPort_follows | apply modPtp_follows

theorem portConfigBody_follows {s : State} (r : Req) (hF : Follows s₀ s) :
    Follows s₀ (portConfigBody r s).1 := by
  unfold portConfigBody
  dsimp only
  with_reducible repeat' first | assumption | apply ite_pair_follows | split | apply violation_follows
                               | apply grantsChanged_follows | apply setPort_follows

theorem streamOpenBody_follows {s : State} (r : Req) (hF : Follows s₀ s) :
    Follows s₀ (streamOpenBody r s).1 := by
  unfold streamOpenBody
  dsimp only
  with_reducible repeat' first | assumption | apply ite_pair_follows | split | apply modStream_follows
                               | refine reserveNow_follows ‹_ = some _› ?_

theorem streamCloseBody_follows {s : State} (r : Req) (hF : Follows s₀ s) :
    Follows s₀ (streamCloseBody r s).1 := by
  unfold streamCloseBody
  dsimp only
  with_reducible repeat' first | assumption | apply ite_pair_follows | split | apply modCodec_follows
                               | apply closeStream_follows

/-! ### Deliver -/

theorem modTarget_follows {s : State} (p : Pid) (t : Nat) (g : Target → Target) (hF : Follows s₀ s) :
    Follows s₀ (modTarget p t g s) := by
  unfold modTarget
  with_reducible repeat' first | assumption | apply modPart_follows

theorem trainerViolation_follows {s : State} (p : Pid) (x : Target) (row detail : Nat) (hF : Follows s₀ s) :
    Follows s₀ (trainerViolation p x row detail s) := by
  unfold trainerViolation
  dsimp only
  with_reducible repeat' first | assumption | apply modTarget_follows | apply partnerViolation_follows

theorem bdpTransient_follows {s : State} (p : Pid) (x : Target) (fault seq : Nat) (hF : Follows s₀ s) :
    Follows s₀ (bdpTransient p x fault seq s) := by
  unfold bdpTransient
  with_reducible repeat' first | assumption | apply transientFault_follows | apply modTarget_follows

theorem sessWrite_follows {s : State} (p : Pid) (x : Target) (addr : Nat) (bs : List Byte) (hF : Follows s₀ s) :
    Follows s₀ (sessWrite p x addr bs s) := by
  unfold sessWrite
  dsimp only
  with_reducible repeat' first | assumption | apply ite_follows | split | apply issueDma_follows
                               | apply modCnt_follows | apply emit_follows

theorem sessReady_follows {s : State} (p : Pid) (x : Target) (seq : Nat) (m : List Byte) (hF : Follows s₀ s) :
    Follows s₀ (sessReady p x seq m s) := by
  unfold sessReady
  dsimp only
  with_reducible repeat' first | assumption | apply ite_follows | apply sessWrite_follows | apply emit_follows

theorem sessBatch_follows {s : State} (p : Pid) (x : Target) (b : Sent) (m : List Byte) (hF : Follows s₀ s) :
    Follows s₀ (sessBatch p x b m s) := by
  unfold sessBatch
  dsimp only
  with_reducible repeat' first | assumption | apply sessWrite_follows | apply modTarget_follows
                               | apply sessReady_follows

theorem modSent_follows {s : State} (p : Pid) (t seq : Nat) (g : Sent → Sent) (hF : Follows s₀ s) :
    Follows s₀ (modSent p t seq g s) := by
  unfold modSent
  with_reducible repeat' first | assumption | apply modTarget_follows

theorem modBatch_follows {s : State} (p : Pid) (slot idx : Nat) (g : Batch → Batch) (hF : Follows s₀ s) :
    Follows s₀ (modBatch p slot idx g s) := by
  unfold modBatch
  with_reducible repeat' first | assumption | apply modStep_follows

theorem pumpTarget_follows (p : Pid) (t : Nat) (y0 : Nat) :
    ∀ {s : State}, Follows s₀ s → Follows s₀ (pumpTarget p t y0 s) := by
  induction y0 generalizing p t with
  | zero => intros; simpa only [pumpTarget]
  | succ n ih =>
    intro s h
    simp only [pumpTarget]
    with_reducible repeat' first | assumption | apply ite_follows | split | apply emit_follows | apply modTarget_follows
                                 | apply sessBatch_follows | apply modSent_follows | apply modBatch_follows
                                 | apply ih

theorem pump_follows {s : State} (p : Pid) (t : Nat) (hF : Follows s₀ s) :
    Follows s₀ (pump p t s) := by
  unfold pump
  with_reducible repeat' first | assumption | apply pumpTarget_follows

theorem pumpAll_follows {s : State} (p : Pid) (hF : Follows s₀ s) :
    Follows s₀ (pumpAll p s) := by
  unfold pumpAll
  with_reducible repeat' first | assumption | intro s x h | apply pump_follows | apply foldl_follows

theorem closeSession_follows {s : State} (p : Pid) (t cause : Nat) (notice : Bool) (hF : Follows s₀ s) :
    Follows s₀ (closeSession p t cause notice s) := by
  unfold closeSession
  dsimp only
  with_reducible repeat' first | assumption | apply ite_follows | split | apply emit_follows | apply killDma_follows
                               | apply modTarget_follows | apply logEvent_follows

theorem releaseSent_follows {s : State} (p : Pid) (slot : Nat) (hF : Follows s₀ s) :
    Follows s₀ (releaseSent p slot s) := by
  unfold releaseSent
  with_reducible repeat' first | assumption | apply ite_follows | split | apply releaseWhere_follows

theorem ackBatch_follows {s : State} (p : Pid) (t : Nat) (b : Sent) (hF : Follows s₀ s) :
    Follows s₀ (ackBatch p t b s) := by
  unfold ackBatch
  dsimp only
  with_reducible repeat' first | assumption | split | apply modBatch_follows | apply bdpTransient_follows
                               | apply releaseSent_follows

theorem applySeqs_follows {s : State} (p : Pid) (t a r : Nat) (hF : Follows s₀ s) :
    Follows s₀ (applySeqs p t a r s) := by
  unfold applySeqs
  dsimp only
  with_reducible repeat' first | assumption | intro s x h | split | apply trainerViolation_follows
                               | apply modTarget_follows | apply ackBatch_follows | apply foldl_follows

theorem applyUpdate_follows {s : State} (p : Pid) (t a r : Nat) (hF : Follows s₀ s) :
    Follows s₀ (applyUpdate p t a r s) := by
  unfold applyUpdate
  dsimp only
  with_reducible repeat' first | assumption | split | apply applySeqs_follows | apply modTarget_follows
                               | apply bdpTransient_follows | apply pump_follows

theorem applyNak_follows {s : State} (p : Pid) (t seq : Nat) (hF : Follows s₀ s) :
    Follows s₀ (applyNak p t seq s) := by
  unfold applyNak
  with_reducible repeat' first | assumption | apply ite_follows | split | apply trainerViolation_follows
                               | apply closeSession_follows | apply lastingFault_follows | apply pump_follows
                               | apply modSent_follows

theorem trainerSend_follows {s : State} (p : Pid) (t : Nat) (m : List Byte) (hF : Follows s₀ s) :
    Follows s₀ (trainerSend p t m s) := by
  unfold trainerSend
  dsimp only
  with_reducible repeat' first | assumption | apply ite_follows | split | apply lateDiscard_follows
                               | apply trainerViolation_follows | apply emit_follows | apply modTarget_follows
                               | apply applyUpdate_follows | apply applyNak_follows | apply closeSession_follows

theorem doBdpUpdate_follows {s : State} (p : Pid) (t : Nat) (m : List Byte) (hF : Follows s₀ s) :
    Follows s₀ (doBdpUpdate p t m s) := by
  unfold doBdpUpdate
  with_reducible repeat' first | assumption | apply trainerSend_follows

theorem doBdpNak_follows {s : State} (p : Pid) (t : Nat) (m : List Byte) (hF : Follows s₀ s) :
    Follows s₀ (doBdpNak p t m s) := by
  unfold doBdpNak
  with_reducible repeat' first | assumption | apply trainerSend_follows

theorem doBdpClose_follows {s : State} (p : Pid) (t : Nat) (m : List Byte) (hF : Follows s₀ s) :
    Follows s₀ (doBdpClose p t m s) := by
  unfold doBdpClose
  with_reducible repeat' first | assumption | apply trainerSend_follows

theorem doAckTimer_follows {s : State} (p : Pid) (t : Nat) (seq : Option Nat) (hF : Follows s₀ s) :
    Follows s₀ (doAckTimer p t seq s) := by
  unfold doAckTimer
  dsimp only
  with_reducible repeat' first | assumption | apply ite_follows | split | apply modTarget_follows
                               | apply closeSession_follows | apply emit_follows | apply modSent_follows
                               | apply sessReady_follows

theorem doCreditTimer_follows {s : State} (p : Pid) (t : Nat) (hF : Follows s₀ s) :
    Follows s₀ (doCreditTimer p t s) := by
  unfold doCreditTimer
  dsimp only
  with_reducible repeat' first | assumption | apply ite_follows | split | apply closeSession_follows

theorem onRc_follows {s : State} (p : Pid) (t : Nat) {g : Target → State → State}
    (hg : ∀ x (u : State), Follows s₀ u → Follows s₀ (g x u)) (h : Follows s₀ s) : Follows s₀ (onRc p t g s) := by
  unfold onRc
  split
  · split
    · exact hg _ _ h
    · exact h
  · exact h

theorem doRcTimeout_follows {s : State} (p : Pid) (t : Nat) (hF : Follows s₀ s) :
    Follows s₀ (doRcTimeout p t s) := by
  unfold doRcTimeout
  with_reducible repeat' first | assumption | apply ite_follows | intro s x h | apply onRc_follows
                               | apply closeSession_follows | apply modTarget_follows

theorem doRnrNak_follows {s : State} (p : Pid) (t : Nat) (hF : Follows s₀ s) :
    Follows s₀ (doRnrNak p t s) := by
  unfold doRnrNak
  with_reducible repeat' first | assumption | apply ite_follows | intro s x h | apply onRc_follows
                               | apply closeSession_follows | apply modTarget_follows

theorem doRcAck_follows {s : State} (p : Pid) (t : Nat) (hF : Follows s₀ s) :
    Follows s₀ (doRcAck p t s) := by
  unfold doRcAck
  dsimp only
  with_reducible repeat' first | assumption | apply ite_follows | intro s x h | apply onRc_follows
                               | apply modTarget_follows | apply bdpTransient_follows

theorem doCnp_follows {s : State} (p : Pid) (t : Nat) (hF : Follows s₀ s) :
    Follows s₀ (doCnp p t s) := by
  unfold doCnp
  with_reducible repeat' first | assumption | intro s x h | apply onRc_follows | apply modTarget_follows

theorem doRateTick_follows {s : State} (p : Pid) (t : Nat) (hF : Follows s₀ s) :
    Follows s₀ (doRateTick p t s) := by
  unfold doRateTick
  with_reducible repeat' first | assumption | intro s x h | apply onRc_follows | apply modTarget_follows

theorem doRemoteAccess_follows {s : State} (p : Pid) (t : Nat) (hF : Follows s₀ s) :
    Follows s₀ (doRemoteAccess p t s) := by
  unfold doRemoteAccess
  with_reducible repeat' first | assumption | intro s x h | apply onRc_follows | apply closeSession_follows
                               | apply trainerViolation_follows

theorem doRdmaToDevice_follows {s : State} (p : Pid) (t : Nat) (hF : Follows s₀ s) :
    Follows s₀ (doRdmaToDevice p t s) := by
  unfold doRdmaToDevice
  with_reducible repeat' first | assumption | intro s x h | apply onRc_follows | apply closeSession_follows
                               | apply emit_follows | apply trainerViolation_follows

theorem p2pFailed_follows {s : State} (p : Pid) (x : Target) (hF : Follows s₀ s) :
    Follows s₀ (p2pFailed p x s) := by
  unfold p2pFailed
  with_reducible repeat' first | assumption | apply closeSession_follows | apply lastingFault_follows

theorem applyStatus_follows {s : State} (p : Pid) (x : Target) (b : List Byte) (hF : Follows s₀ s) :
    Follows s₀ (applyStatus p x b s) := by
  unfold applyStatus
  dsimp only
  with_reducible repeat' first | assumption | split | apply applySeqs_follows | apply applyNak_follows
                               | apply modTarget_follows | apply pump_follows

theorem doP2pPoll_follows {s : State} (p : Pid) (t : Nat) (r : DmaResult) (hF : Follows s₀ s) :
    Follows s₀ (doP2pPoll p t r s) := by
  unfold doP2pPoll
  dsimp only
  with_reducible repeat' first | assumption | apply ite_follows | split | apply p2pFailed_follows
                               | apply modTarget_follows | apply bdpTransient_follows | apply applyStatus_follows

theorem openTarget_follows {s : State} (p : Pid) (b : List Byte) (hF : Follows s₀ s) :
    Follows s₀ (openTarget p b s).1 := by
  unfold openTarget
  dsimp only
  with_reducible repeat' first | assumption | split | apply fresh_follows | apply modPart_follows | apply pump_follows

theorem deliveryOpenBody_follows {s : State} (r : Req) (hF : Follows s₀ s) :
    Follows s₀ (deliveryOpenBody r s).1 := by
  unfold deliveryOpenBody
  dsimp only
  with_reducible repeat' first | assumption | apply ite_pair_follows | apply violation_follows
                               | apply openTarget_follows

theorem deliveryCloseBody_follows {s : State} (r : Req) (hF : Follows s₀ s) :
    Follows s₀ (deliveryCloseBody r s).1 := by
  unfold deliveryCloseBody
  dsimp only
  with_reducible repeat' first | assumption | apply closeSession_follows

/-! ### Ethernet -/

theorem stopStream_follows {s : State} (p : Pid) (i : Nat) (hF : Follows s₀ s) :
    Follows s₀ (stopStream p i s) := by
  unfold stopStream
  dsimp only
  with_reducible repeat' first | assumption | apply ite_follows | intro s x h | split | apply dropBuffer_follows
                               | apply logGap_follows | apply modStream_follows | apply foldl_follows

theorem fenceEthPort_follows {s : State} (n code : Nat) (hF : Follows s₀ s) :
    Follows s₀ (fenceEthPort n code s) := by
  unfold fenceEthPort
  dsimp only
  with_reducible repeat' first | assumption | intro s x h | split | apply lastingFence_follows | apply modPort_follows
                               | apply logEvent_follows | apply stopStream_follows | apply foldl_follows

theorem askCameras_follows {s : State} (n : Nat) (hF : Follows s₀ s) :
    Follows s₀ (askCameras n s) := by
  unfold askCameras
  with_reducible repeat' first | assumption | intro s x h | apply emit_follows | apply foldl_follows

theorem doEthUp_follows {s : State} (n : Nat) (hF : Follows s₀ s) :
    Follows s₀ (doEthUp n s) := by
  unfold doEthUp
  dsimp only
  with_reducible repeat' first | assumption | apply ite_follows | split | apply modPort_follows
                               | apply logEvent_follows | apply transientFault_follows | apply askCameras_follows
                               | apply pumpAll_follows

theorem ethDown_follows {s : State} (n : Nat) (hF : Follows s₀ s) :
    Follows s₀ (ethDown n s) := by
  unfold ethDown
  with_reducible repeat' first | assumption | apply ite_follows | apply logEvent_follows | apply modPort_follows

theorem doEthDown_follows {s : State} (n : Nat) (hF : Follows s₀ s) :
    Follows s₀ (doEthDown n s) := by
  unfold doEthDown
  with_reducible repeat' first | assumption | apply ethDown_follows

theorem doRetrainTick_follows {s : State} (n : Nat) (hF : Follows s₀ s) :
    Follows s₀ (doRetrainTick n s) := by
  unfold doRetrainTick
  dsimp only
  with_reducible repeat' first | assumption | apply ite_follows | apply modPort_follows

theorem doTrainingFail_follows {s : State} (n : Nat) (hF : Follows s₀ s) :
    Follows s₀ (doTrainingFail n s) := by
  unfold doTrainingFail
  dsimp only
  with_reducible repeat' first | assumption | apply ite_follows | apply fenceEthPort_follows | apply modPort_follows

theorem dropFrame_follows {s : State} (n : Nat) (hF : Follows s₀ s) :
    Follows s₀ (dropFrame n s) := by
  unfold dropFrame
  with_reducible repeat' first | assumption | apply modPort_follows

theorem deliveryPortViolation_follows {s : State} (n row : Nat) (hF : Follows s₀ s) :
    Follows s₀ (deliveryPortViolation n row s) := by
  unfold deliveryPortViolation
  dsimp only
  with_reducible repeat' first | assumption | apply modPort_follows | apply partnerViolation_follows

theorem deliveryFrame_follows {s : State} (n : Nat) (f : EthFrame) (hF : Follows s₀ s) :
    Follows s₀ (deliveryFrame n f s) := by
  unfold deliveryFrame
  dsimp only
  with_reducible repeat' first | assumption | apply ite_follows | apply dropFrame_follows
                               | apply deliveryPortViolation_follows

theorem ingestFrame_follows {s : State} (n : Nat) (f : EthFrame) (hF : Follows s₀ s) :
    Follows s₀ (ingestFrame n f s) := by
  unfold ingestFrame
  with_reducible repeat' first | assumption | split | apply cameraViolation_follows | apply portViolation_follows

theorem doEthFrame_follows {s : State} (n : Nat) (f : EthFrame) (hF : Follows s₀ s) :
    Follows s₀ (doEthFrame n f s) := by
  unfold doEthFrame
  dsimp only
  with_reducible repeat' first | assumption | apply ite_follows | apply countFrame_follows | apply dropFrame_follows
                               | apply portViolation_follows | apply deliveryPortViolation_follows
                               | apply ingestFrame_follows | apply deliveryFrame_follows

theorem doGvcp_follows {s : State} (n : Nat) (hF : Follows s₀ s) :
    Follows s₀ (doGvcp n s) := by
  unfold doGvcp
  with_reducible repeat' first | assumption | apply ite_follows | apply portViolation_follows
                               | apply countFrame_follows

theorem doArp_follows {s : State} (n target sender : Nat) (hF : Follows s₀ s) :
    Follows s₀ (doArp n target sender s) := by
  unfold doArp
  dsimp only
  with_reducible repeat' first | assumption | apply ite_follows | apply countFrame_follows | apply emit_follows

theorem doIcmp_follows {s : State} (n sender : Nat) (body : List Byte) (hF : Follows s₀ s) :
    Follows s₀ (doIcmp n sender body s) := by
  unfold doIcmp
  with_reducible repeat' first | assumption | apply ite_follows | apply emit_follows | apply countFrame_follows

theorem doPauseFrame_follows {s : State} (n : Nat) (hF : Follows s₀ s) :
    Follows s₀ (doPauseFrame n s) := by
  unfold doPauseFrame
  with_reducible repeat' first | assumption | apply ite_follows | apply modPort_follows | apply countFrame_follows

/-! ### Random -/

theorem setSeed_follows {s : State} (p : Pid) (v : BitVec 128) (hF : Follows s₀ s) :
    Follows s₀ (setSeed p v s) := by
  unfold setSeed
  with_reducible repeat' first | assumption | apply mirrorGrantOf_follows | apply modLd_follows

theorem entropyAnswer_follows {s : State} (r : Req) (bs : List Byte) (hF : Follows s₀ s) :
    Follows s₀ (entropyAnswer r bs s) := by
  unfold entropyAnswer
  with_reducible repeat' first | assumption | apply ite_follows | apply finish_follows | apply setSeed_follows

theorem serveEntropy_follows  (y0 : Nat) :
    ∀ {s : State}, Follows s₀ s → Follows s₀ (serveEntropy y0 s) := by
  induction y0 with
  | zero => intros; simpa only [serveEntropy]
  | succ n ih =>
    intro s h
    simp only [serveEntropy]
    with_reducible repeat' first | assumption | split | apply modEnt_follows | apply entropyAnswer_follows
                                 | apply modReq_follows | apply ih

theorem doEntropyBlock_follows {s : State} (b : BitVec 384) (hF : Follows s₀ s) :
    Follows s₀ (doEntropyBlock b s) := by
  unfold doEntropyBlock
  with_reducible repeat' first | assumption | apply ite_follows | apply serveEntropy_follows | apply modEnt_follows

theorem entropyFence_follows {s : State} (test : Nat) (hF : Follows s₀ s) :
    Follows s₀ (entropyFence test s) := by
  unfold entropyFence
  dsimp only
  with_reducible repeat' first | assumption | intro s x h | apply logDev_follows | apply lastingFence_follows
                               | apply modEnt_follows | apply finish_follows | apply foldl_follows

theorem doEntropyFail_follows {s : State} (test : Nat) (hF : Follows s₀ s) :
    Follows s₀ (doEntropyFail test s) := by
  unfold doEntropyFail
  dsimp only
  with_reducible repeat' first | assumption | apply ite_follows | split | apply modEnt_follows
                               | apply entropyFence_follows

theorem doEntropyRestart_follows {s : State} (pass : Bool) (hF : Follows s₀ s) :
    Follows s₀ (doEntropyRestart pass s) := by
  unfold doEntropyRestart
  dsimp only
  with_reducible repeat' first | assumption | apply ite_follows | split | apply modEnt_follows
                               | apply transientFault_follows | apply logDev_follows | apply entropyFence_follows

theorem askEntropy_follows {s : State} (r : Req) (hF : Follows s₀ s) :
    Follows s₀ (askEntropy r s).1 := by
  unfold askEntropy
  with_reducible repeat' first | assumption | apply ite_pair_follows | apply serveEntropy_follows
                               | apply modReq_follows

theorem seedBody_follows {s : State} (r : Req) (hF : Follows s₀ s) :
    Follows s₀ (seedBody r s).1 := by
  unfold seedBody
  dsimp only
  with_reducible repeat' first | assumption | apply ite_pair_follows | apply askEntropy_follows
                               | apply setSeed_follows

theorem entropyReadBody_follows {s : State} (r : Req) (hF : Follows s₀ s) :
    Follows s₀ (entropyReadBody r s).1 := by
  unfold entropyReadBody
  dsimp only
  with_reducible repeat' first | assumption | apply ite_pair_follows | apply violation_follows
                               | apply askEntropy_follows

theorem evalFinish_follows {s : State} (r : Req) (hF : Follows s₀ s) :
    Follows s₀ (evalFinish r s) := by
  unfold evalFinish
  dsimp only
  with_reducible repeat' first | assumption | apply ite_follows | apply issueDma_follows | apply modReq_follows
                               | apply finish_follows

theorem doLaneExhausted_follows {s : State} (tile lane : Nat) (hF : Follows s₀ s) :
    Follows s₀ (doLaneExhausted tile lane s) := by
  unfold doLaneExhausted
  dsimp only
  with_reducible repeat' first | assumption | apply ite_follows | apply fresh_follows | apply modTile_follows

/-! ### Churn -/

theorem packDone_follows {s : State} (p : Pid) (slot : Nat) (hF : Follows s₀ s) :
    Follows s₀ (packDone p slot s) := by
  unfold packDone
  dsimp only
  with_reducible repeat' first | assumption | apply entriesDone_follows

theorem packAnnealed_follows {s : State} (p : Pid) (slot : Nat) (c : ChainSt) (assign : List Nat) (hF : Follows s₀ s) :
    Follows s₀ (packAnnealed p slot c assign s) := by
  unfold packAnnealed
  dsimp only
  with_reducible repeat' first | assumption | apply modStep_follows | apply packDone_follows | apply modPCnt_follows

theorem logOverflow_follows {s : State} (p : Pid) (st : OpenStep) (assign : List Nat) (hF : Follows s₀ s) :
    Follows s₀ (logOverflow p st assign s) := by
  unfold logOverflow
  dsimp only
  with_reducible repeat' first | assumption | intro s x h | apply logEvent_follows | apply modPCnt_follows
                               | apply foldl_follows

theorem packGreedy_follows {s : State} (p : Pid) (slot cause : Nat) (hF : Follows s₀ s) :
    Follows s₀ (packGreedy p slot cause s) := by
  unfold packGreedy
  dsimp only
  with_reducible repeat' first | assumption | intro s x h | split | apply modStep_follows | apply packDone_follows
                               | apply modPCnt_follows | apply limited_follows | apply logEvent_follows
                               | apply logOverflow_follows

theorem packOutcome_follows {s : State} (p : Pid) (r : Run) (k : Nat) (hF : Follows s₀ s) :
    Follows s₀ (packOutcome p r k s) := by
  unfold packOutcome
  dsimp only
  with_reducible repeat' first | assumption | apply ite_follows | split | apply packAnnealed_follows
                               | apply packGreedy_follows

theorem modRun_follows {s : State} (p : Pid) (r : Run) (g : Run → Run) (hF : Follows s₀ s) :
    Follows s₀ (modRun p r g s) := by
  unfold modRun
  with_reducible repeat' first | assumption | apply modPart_follows

theorem dropRun_follows {s : State} (p : Pid) (r : Run) (hF : Follows s₀ s) :
    Follows s₀ (dropRun p r s) := by
  unfold dropRun
  with_reducible repeat' first | assumption | apply modPart_follows

theorem saveOthers_follows {s : State} (p : Option Pid) (k : Option Run) (h : Follows s₀ s) :
    Follows s₀ (saveOthers p k s) := h.of_eq rfl rfl rfl rfl rfl rfl

theorem seat_follows {s : State} (h : Option Pid) (hF : Follows s₀ s) :
    Follows s₀ (seat h s) := by
  unfold seat
  dsimp only
  with_reducible repeat' first | assumption | apply ite_follows | split | apply modChurn_follows
                               | apply saveOthers_follows

theorem passOn_follows {s : State} (hF : Follows s₀ s) :
    Follows s₀ (passOn s) := by
  unfold passOn
  with_reducible repeat' first | assumption | apply ite_follows | apply seat_follows

theorem wakeChurn_follows {s : State} (p : Pid) (hF : Follows s₀ s) :
    Follows s₀ (wakeChurn p s) := by
  unfold wakeChurn
  with_reducible repeat' first | assumption | apply ite_follows | split | apply seat_follows

theorem addRun_follows {s : State} (r : Run) (hF : Follows s₀ s) :
    Follows s₀ (addRun r s) := by
  unfold addRun
  with_reducible repeat' first | assumption | apply wakeChurn_follows | apply modPart_follows

theorem doSliceStart_follows {s : State} (hF : Follows s₀ s) :
    Follows s₀ (doSliceStart s) := by
  unfold doSliceStart
  dsimp only
  with_reducible repeat' first | assumption | apply ite_follows | split | apply modChurn_follows | apply seat_follows

theorem abandonRun_follows {s : State} (p : Pid) (r : Run) (hF : Follows s₀ s) :
    Follows s₀ (abandonRun p r s) := by
  unfold abandonRun
  dsimp only
  with_reducible repeat' first | assumption | apply ite_follows | split | apply dropRun_follows
                               | apply logEvent_follows | apply modEx_follows | apply completeOpt_follows
                               | apply finish_follows

theorem doSaveLoad_follows {s : State} (ok : Bool) (hF : Follows s₀ s) :
    Follows s₀ (doSaveLoad ok s) := by
  unfold doSaveLoad
  dsimp only
  with_reducible repeat' first | assumption | apply ite_follows | split | apply modChurn_follows
                               | apply transientFault_follows | apply modRun_follows | apply lastingFault_follows
                               | apply abandonRun_follows | apply passOn_follows | apply fencePart_follows

theorem sendProblem_follows {s : State} (p : Pid) (rev epoch : Nat) (bs : List Byte) (hF : Follows s₀ s) :
    Follows s₀ (sendProblem p rev epoch bs s) := by
  unfold sendProblem
  with_reducible repeat' first | assumption | intro s x h | apply darradSend_follows | apply foldl_follows

theorem startRevision_follows {s : State} (p : Pid) (epoch : Nat) (hF : Follows s₀ s) :
    Follows s₀ (startRevision p epoch s) := by
  unfold startRevision
  dsimp only
  with_reducible repeat' first | assumption | apply ite_follows | split | apply modEx_follows | apply logEvent_follows
                               | apply sendProblem_follows | apply addRun_follows

theorem placeOutcome_follows {s : State} (p : Pid) (r : Run) (best : List Bool) (hF : Follows s₀ s) :
    Follows s₀ (placeOutcome p r best s) := by
  unfold placeOutcome
  dsimp only
  with_reducible repeat' first | assumption | apply ite_follows | apply modEx_follows | apply logEvent_follows

theorem sendStage_follows {s : State} (r : Run) (c : ChainSt) (hF : Follows s₀ s) :
    Follows s₀ (sendStage r c s) := by
  unfold sendStage
  with_reducible repeat' first | assumption | apply darradSend_follows

theorem hostOutcome_follows {s : State} (p : Pid) (r : Run) (hF : Follows s₀ s) :
    Follows s₀ (hostOutcome p r s) := by
  unfold hostOutcome
  dsimp only
  with_reducible repeat' first | assumption | split | apply winWrite_follows | apply completeOpt_follows

theorem runEnds_follows {s : State} (p : Pid) (r : Run) (hF : Follows s₀ s) :
    Follows s₀ (runEnds p r s) := by
  unfold runEnds
  dsimp only
  with_reducible repeat' first | assumption | apply ite_follows | split | apply dropRun_follows
                               | apply transientFault_follows | apply packOutcome_follows | apply sendStage_follows
                               | apply modRun_follows | apply placeOutcome_follows | apply hostOutcome_follows
                               | apply evalFinish_follows

theorem chain1Ends_follows {s : State} (x : Chain1) (r : Run) (hF : Follows s₀ s) :
    Follows s₀ (chain1Ends x r s) := by
  unfold chain1Ends
  dsimp only
  with_reducible repeat' first | assumption | apply modChurn_follows | apply sendStage_follows

theorem doRunEnd_follows {s : State} (hF : Follows s₀ s) :
    Follows s₀ (doRunEnd s) := by
  unfold doRunEnd
  dsimp only
  with_reducible repeat' first | assumption | apply ite_follows | split | apply passOn_follows | apply runEnds_follows
                               | apply chain1Ends_follows

theorem doPackBudget_follows {s : State} (p : Pid) (sweeps : Nat) (hF : Follows s₀ s) :
    Follows s₀ (doPackBudget p sweeps s) := by
  unfold doPackBudget
  dsimp only
  with_reducible repeat' first | assumption | apply ite_follows | split | apply dropRun_follows
                               | apply packGreedy_follows | apply packOutcome_follows | apply passOn_follows
                               | apply modChurn_follows

theorem doPlaceBudget_follows {s : State} (p : Pid) (hF : Follows s₀ s) :
    Follows s₀ (doPlaceBudget p s) := by
  unfold doPlaceBudget
  dsimp only
  with_reducible repeat' first | assumption | apply ite_follows | split | apply abandonRun_follows
                               | apply passOn_follows | apply modChurn_follows

theorem churnFence_follows {s : State} (part tag : Nat) (hF : Follows s₀ s) :
    Follows s₀ (churnFence part tag s) := by
  unfold churnFence
  dsimp only
  with_reducible repeat' first | assumption | apply ite_follows | intro s x h | apply lastingFence_follows
                               | apply logEvent_follows | apply modChurn_follows | apply abandonRun_follows
                               | apply fencePart_follows | apply foldl_follows

theorem doChurnSram_follows {s : State} (hF : Follows s₀ s) :
    Follows s₀ (doChurnSram s) := by
  unfold doChurnSram
  dsimp only
  with_reducible repeat' first | assumption | apply ite_follows | split | apply churnFence_follows
                               | apply modRun_follows | apply modChurn_follows

theorem churnRunBody_follows {s : State} (r : Req) (hF : Follows s₀ s) :
    Follows s₀ (churnRunBody r s).1 := by
  unfold churnRunBody
  dsimp only
  with_reducible repeat' first | assumption | apply ite_pair_follows | split | apply addRun_follows

theorem evaluateBody_follows {s : State} (r : Req) (hF : Follows s₀ s) :
    Follows s₀ (evaluateBody r s).1 := by
  unfold evaluateBody
  dsimp only
  with_reducible repeat' first | assumption | apply ite_pair_follows | apply evalFinish_follows | apply addRun_follows
                               | apply modReq_follows

theorem reviseBody_follows {s : State} (r : Req) (hF : Follows s₀ s) :
    Follows s₀ (reviseBody r s).1 := by
  unfold reviseBody
  dsimp only
  with_reducible repeat' first | assumption | apply ite_pair_follows | apply violation_follows
                               | apply startRevision_follows

theorem setBody_follows {s : State} (r : Req) (hF : Follows s₀ s) :
    Follows s₀ (setBody r s).1 := by
  unfold setBody
  dsimp only
  with_reducible repeat' first | assumption | apply ite_pair_follows | split | apply violation_follows
                               | apply logEvent_follows | apply dropRun_follows | apply modEx_follows

/-! ### Scheduler -/

theorem permWrite_follows {s : State} (p : Pid) (e pos : Nat) (ids : List Nat) (hF : Follows s₀ s) :
    Follows s₀ (permWrite p e pos ids s) := by
  unfold permWrite
  with_reducible repeat' first | assumption | split | apply winWrite_follows

theorem producePerm_follows {s : State} (p : Pid) (e : Nat) (hF : Follows s₀ s) :
    Follows s₀ (producePerm p e s) := by
  unfold producePerm
  dsimp only
  with_reducible repeat' first | assumption | apply modSched_follows | apply permWrite_follows

theorem openStep_follows {s : State} (p : Pid) (hF : Follows s₀ s) :
    Follows s₀ (openStep p s) := by
  unfold openStep
  dsimp only
  with_reducible repeat' first | assumption | apply modPart_follows

theorem noteLive_follows {s : State} (p : Pid) (q : Part) (x : Sample) (hF : Follows s₀ s) :
    Follows s₀ (noteLive p q x s) := by
  unfold noteLive
  dsimp only
  with_reducible repeat' first | assumption | apply ite_follows | split | apply permWrite_follows
                               | apply modSched_follows

theorem admitSample_follows {s : State} (p : Pid) (hF : Follows s₀ s) :
    Follows s₀ (admitSample p s) := by
  unfold admitSample
  dsimp only
  with_reducible repeat' first | assumption | apply ite_follows | split | apply openStep_follows
                               | apply noteLive_follows | apply modStep_follows | apply modSched_follows
                               | apply refreshBoard_follows

theorem openPrep_follows {s : State} (p : Pid) (hF : Follows s₀ s) :
    Follows s₀ (openPrep p s) := by
  unfold openPrep
  dsimp only
  with_reducible repeat' first | assumption | apply modSched_follows | apply refreshBoard_follows

theorem waitFor_follows {s : State} (p : Pid) (w : AdmitWait) (hF : Follows s₀ s) :
    Follows s₀ (waitFor p w s) := by
  unfold waitFor
  with_reducible repeat' first | assumption | apply modSched_follows

theorem tryAdmit_follows {s : State} (p : Pid) (hF : Follows s₀ s) :
    Follows s₀ (tryAdmit p s) := by
  unfold tryAdmit
  dsimp only
  with_reducible repeat' first | assumption | apply ite_follows | apply openPrep_follows | apply waitFor_follows
                               | apply admitSample_follows | apply modSched_follows | apply modPool_follows
                               | apply answerNoBuf_follows

theorem stopExhausted_follows {s : State} (p : Pid) (hF : Follows s₀ s) :
    Follows s₀ (stopExhausted p s) := by
  unfold stopExhausted
  dsimp only
  with_reducible repeat' first | assumption | apply ite_follows | apply beginPause_follows

theorem doAdmission_follows {s : State} (p : Pid) (hF : Follows s₀ s) :
    Follows s₀ (doAdmission p s) := by
  unfold doAdmission
  dsimp only
  with_reducible repeat' first | assumption | apply ite_follows | apply modSched_follows | apply stopExhausted_follows
                               | apply tryAdmit_follows

theorem doPoolDecide_follows {s : State} (hF : Follows s₀ s) :
    Follows s₀ (doPoolDecide s) := by
  unfold doPoolDecide
  with_reducible repeat' first | assumption | apply ite_follows | split | apply decideHead_follows
                               | apply emit_follows | apply admitSample_follows | apply unreserveAll_follows
                               | refine pair_follows ‹_ = (_, _)› ?_

theorem assemble_follows {s : State} (p : Pid) (slot : Nat) (hF : Follows s₀ s) :
    Follows s₀ (assemble p slot s) := by
  unfold assemble
  dsimp only
  with_reducible repeat' first | assumption | apply ite_follows | split | apply returnOutputs_follows
                               | apply modStep_follows

theorem issuePack_follows {s : State} (p : Pid) (st : OpenStep) (hF : Follows s₀ s) :
    Follows s₀ (issuePack p st s) := by
  unfold issuePack
  dsimp only
  with_reducible repeat' first | assumption | apply ite_follows | split | apply packGreedy_follows
                               | apply addRun_follows

theorem startEntry_follows {s : State} (p : Pid) (e : Entry) (hF : Follows s₀ s) :
    Follows s₀ (startEntry p e s) := by
  unfold startEntry
  dsimp only
  with_reducible repeat' first | assumption | apply ite_follows | rfl | split | apply startStills_follows
                               | apply modUnits_follows | apply damagedFetch_follows | apply startFetch_follows
                               | apply damageSample_follows | apply startDecode_follows | apply issuePack_follows
                               | apply pumpAll_follows | apply assemble_follows

theorem doIssue_follows {s : State} (p : Pid) (rel : Nat) (hF : Follows s₀ s) :
    Follows s₀ (doIssue p rel s) := by
  unfold doIssue
  dsimp only
  with_reducible repeat' first | assumption | apply ite_follows | split | apply startEntry_follows
                               | apply modSched_follows

theorem augmentStage_follows {s : State} (p : Pid) (e : Entry) (d : StageDecl) (hF : Follows s₀ s) :
    Follows s₀ (augmentStage p e d s) := by
  unfold augmentStage
  with_reducible repeat' first | assumption | split | apply setPlanes_follows

theorem tokeniseStage_follows {s : State} (p : Pid) (e : Entry) (d : StageDecl) (hF : Follows s₀ s) :
    Follows s₀ (tokeniseStage p e d s) := by
  unfold tokeniseStage
  dsimp only
  with_reducible repeat' first | assumption | split | apply modSample_follows | apply modPCnt_follows

theorem permuteStage_follows {s : State} (p : Pid) (e : Entry) (hF : Follows s₀ s) :
    Follows s₀ (permuteStage p e s) := by
  unfold permuteStage
  dsimp only
  with_reducible repeat' first | assumption | apply ite_follows | split | apply producePerm_follows

theorem tileResult_follows {s : State} (p : Pid) (e : Entry) (res : StageResult) (hF : Follows s₀ s) :
    Follows s₀ (tileResult p e res s) := by
  unfold tileResult
  with_reducible repeat' first | assumption | apply ite_follows | split | apply setPlanes_follows
                               | apply setEmbeddings_follows | apply modSample_follows | apply setOutputs_follows

theorem stageEffect_follows {s : State} (p : Pid) (e : Entry) (res : StageResult) (hF : Follows s₀ s) :
    Follows s₀ (stageEffect p e res s) := by
  unfold stageEffect
  dsimp only
  with_reducible repeat' first | assumption | apply ite_follows | apply augmentStage_follows
                               | apply tokeniseStage_follows | apply returnOutputs_follows | apply assemble_follows
                               | apply permuteStage_follows | apply tileResult_follows

theorem doStageComplete_follows {s : State} (p : Pid) (rel no : Nat) (res : StageResult) (hF : Follows s₀ s) :
    Follows s₀ (doStageComplete p rel no res s) := by
  unfold doStageComplete
  dsimp only
  with_reducible repeat' first | assumption | apply ite_follows | split | apply skipFrom_follows
                               | apply entryDone_follows | apply stageEffect_follows

theorem writeRecord_follows {s : State} (p : Pid) (first : Cursor) (r : List Byte) (hF : Follows s₀ s) :
    Follows s₀ (writeRecord p first r s) := by
  unfold writeRecord
  dsimp only
  with_reducible repeat' first | assumption | split | apply winWrite_follows | apply modSched_follows

theorem maybeRevise_follows {s : State} (p : Pid) (c : Cursor) (hF : Follows s₀ s) :
    Follows s₀ (maybeRevise p c s) := by
  unfold maybeRevise
  dsimp only
  with_reducible repeat' first | assumption | apply ite_follows | apply startRevision_follows

theorem freeStep_follows {s : State} (p : Pid) (st : OpenStep) (hF : Follows s₀ s) :
    Follows s₀ (freeStep p st s) := by
  unfold freeStep
  dsimp only
  with_reducible repeat' first | assumption | apply modSched_follows | apply releaseWhere_follows
                               | apply unreserveAll_follows

theorem afterBoundary_follows {s : State} (p : Pid) (hF : Follows s₀ s) :
    Follows s₀ (afterBoundary p s) := by
  unfold afterBoundary
  dsimp only
  with_reducible repeat' first | assumption | apply ite_follows | apply fencePart_follows | apply modSched_follows
                               | apply stopExhausted_follows | apply maybePaused_follows

theorem closeStep_follows {s : State} (p : Pid) (st : OpenStep) (hF : Follows s₀ s) :
    Follows s₀ (closeStep p st s) := by
  unfold closeStep
  dsimp only
  with_reducible repeat' first | assumption | apply freeStep_follows | apply modPart_follows
                               | apply commitCounters_follows | apply maybeRevise_follows
                               | apply installPlacement_follows | apply afterBoundary_follows
                               | apply sweepWins_follows

theorem closePrep_follows {s : State} (p : Pid) (st : OpenStep) (hF : Follows s₀ s) :
    Follows s₀ (closePrep p st s) := by
  unfold closePrep
  dsimp only
  with_reducible repeat' first | assumption | apply freeStep_follows | apply modSched_follows
                               | apply maybePaused_follows

theorem recordStep_follows {s : State} (p : Pid) (st : OpenStep) (hF : Follows s₀ s) :
    Follows s₀ (recordStep p st s) := by
  unfold recordStep
  dsimp only
  with_reducible repeat' first | assumption | apply ite_follows | split | apply writeRecord_follows
                               | apply modStep_follows | apply closeStep_follows | apply sendMirror_follows

theorem doBoundary_follows {s : State} (p : Pid) (hF : Follows s₀ s) :
    Follows s₀ (doBoundary p s) := by
  unfold doBoundary
  dsimp only
  with_reducible repeat' first | assumption | apply ite_follows | split | apply closePrep_follows
                               | apply recordStep_follows

theorem doWatchdog_follows {s : State} (p : Pid) (hF : Follows s₀ s) :
    Follows s₀ (doWatchdog p s) := by
  unfold doWatchdog
  dsimp only
  with_reducible repeat' first | assumption | apply ite_follows | split | apply fencePart_follows
                               | apply logEvent_follows

end Sys2Proof.Machine
end

