-- ==== Sys2Proof/Laws/FollowsPair.lean ====
section
/-!
SUPPORT. What every operation of teardown, the pair, host DMA, the log and diagnostics leaves: a state that follows.
-/
namespace Sys2Proof.Machine

variable {s₀ : State}

/-! ### Teardown -/

theorem noteTeardown_follows {s : State} (r : Req) (hF : Follows s₀ s) :
    Follows s₀ (noteTeardown r s) := by
  unfold noteTeardown
  with_reducible repeat' first | assumption | apply modPart_follows

theorem boundaryBody_follows {s : State} (r : Req) (hF : Follows s₀ s) :
    Follows s₀ (boundaryBody r s).1 := by
  unfold boundaryBody
  dsimp only
  with_reducible repeat' first | assumption | apply ite_pair_follows | apply noteTeardown_follows
                               | apply beginTeardown_follows | apply modSched_follows | apply beginPause_follows

theorem immediateBody_follows {s : State} (r : Req) (hF : Follows s₀ s) :
    Follows s₀ (immediateBody r s).1 := by
  unfold immediateBody
  dsimp only
  with_reducible repeat' first | assumption | apply beginTeardown_follows | apply noteTeardown_follows

theorem fenceOne_follows {s : State} (r : Req) (hF : Follows s₀ s) :
    Follows s₀ (fenceOne s r) := by
  unfold fenceOne
  dsimp only
  with_reducible repeat' first | assumption | apply ite_follows | apply dropRuns_follows | apply killDma_follows
                               | apply complete_follows | apply finish_follows

theorem tdFenceOps_follows {s : State} (p : Pid) (hF : Follows s₀ s) :
    Follows s₀ (tdFenceOps p s) := by
  unfold tdFenceOps
  dsimp only
  with_reducible repeat' first | assumption | intro s x h | apply killWork_follows | apply fenceOne_follows
                               | apply killDma_follows | apply dropRequests_follows | apply modPair_follows
                               | apply modPart_follows | apply foldl_follows

theorem tdCloseSessions_follows {s : State} (p : Pid) (hF : Follows s₀ s) :
    Follows s₀ (tdCloseSessions p s) := by
  unfold tdCloseSessions
  dsimp only
  with_reducible repeat' first | assumption | apply ite_follows | intro s x h | apply closeSession_follows
                               | apply closeStream_follows | apply foldl_follows

theorem tdFlush_follows {s : State} (p : Pid) (hF : Follows s₀ s) :
    Follows s₀ (tdFlush p s) := by
  unfold tdFlush
  dsimp only
  with_reducible repeat' first | assumption | apply ite_follows | rfl | apply killJobs_follows
                               | apply modUnits_follows | apply modPart_follows | apply passOn_follows
                               | apply modChurn_follows

theorem tdRelease_follows {s : State} (p : Pid) (hF : Follows s₀ s) :
    Follows s₀ (tdRelease p s) := by
  unfold tdRelease
  dsimp only
  with_reducible repeat' first | assumption | apply releaseWhere_follows | apply unreserveAll_follows

theorem tdWindow_follows {s : State} (p : Pid) (hF : Follows s₀ s) :
    Follows s₀ (tdWindow p s) := by
  unfold tdWindow
  dsimp only
  with_reducible repeat' first | assumption | apply ite_follows | intro s x h | apply releasePort_follows
                               | apply deleteQueue_follows | apply clearSync_follows | apply modPart_follows
                               | apply sendMirGrant_follows | apply foldl_follows

theorem tdDo_follows {s : State} (p : Pid) (y0 : TdPhase) (hF : Follows s₀ s) :
    Follows s₀ (tdDo p y0 s) := by
  unfold tdDo
  with_reducible repeat' first | assumption | split | apply tdFenceOps_follows | apply tdCloseSessions_follows
                               | apply tdFlush_follows | apply tdRelease_follows | apply resetClusters_follows
                               | apply tdWindow_follows

theorem doTeardownPhase_follows {s : State} (p : Pid) (ph : TdPhase) (hF : Follows s₀ s) :
    Follows s₀ (doTeardownPhase p ph s) := by
  unfold doTeardownPhase
  dsimp only
  with_reducible repeat' first | assumption | apply ite_follows | apply modPart_follows | apply tdDo_follows

theorem doTeardownComplete_follows {s : State} (p : Pid) (hF : Follows s₀ s) :
    Follows s₀ (doTeardownComplete p s) := by
  unfold doTeardownComplete
  dsimp only
  with_reducible repeat' first | assumption | apply ite_follows | apply holdChanged_follows | apply modPart_follows
                               | apply completeOpt_follows

/-! ### Pair -/

theorem pairViolation_follows {s : State} (row detail : Nat) (hF : Follows s₀ s) :
    Follows s₀ (pairViolation row detail s) := by
  unfold pairViolation
  with_reducible repeat' first | assumption | apply partnerViolation_follows

theorem setPairSt_follows {s : State} (n : Nat) (hF : Follows s₀ s) :
    Follows s₀ (setPairSt n s) := by
  unfold setPairSt
  with_reducible repeat' first | assumption | apply ite_follows | apply logDev_follows | apply modPair_follows

theorem takeFrame_follows {s : State} (h : DarradHdr) (isHello : Bool) (hF : Follows s₀ s) :
    Follows s₀ (takeFrame h isHello s).1 := by
  unfold takeFrame
  dsimp only
  with_reducible repeat' first | assumption | apply ite_pair_follows | apply modPair_follows
                               | apply pairViolation_follows

theorem onFrame_follows {s : State} (h : DarradHdr) {g : State → State}
    (hg : ∀ (t : State), Follows s₀ t → Follows s₀ (g t)) (hF : Follows s₀ s) : Follows s₀ (onFrame h g s) := by
  unfold onFrame
  split
  · exact hg _ (pair_follows ‹_ = (_, _)› (takeFrame_follows _ _ hF))
  · exact pair_follows ‹_ = (_, _)› (takeFrame_follows _ _ hF)

theorem onPartFrame_follows {s : State} (h : DarradHdr) {g : Pid → State → State}
    (hg : ∀ p (t : State), Follows s₀ t → Follows s₀ (g p t)) (hF : Follows s₀ s) :
    Follows s₀ (onPartFrame h g s) := by
  unfold onPartFrame
  refine onFrame_follows _ (fun t k => ?_) hF
  split
  · exact hg _ _ k
  · exact pairViolation_follows _ _ k

theorem dropMirror_follows {s : State} (hF : Follows s₀ s) :
    Follows s₀ (dropMirror s) := by
  unfold dropMirror
  dsimp only
  with_reducible repeat' first | assumption | apply ite_follows | intro s x h | split | apply modPart_follows
                               | apply closeStep_follows | apply foldl_follows

theorem dropChains_follows {s : State} (hF : Follows s₀ s) :
    Follows s₀ (dropChains s) := by
  unfold dropChains
  with_reducible repeat' first | assumption | apply modChurn_follows

theorem interruptPair_follows {s : State} (hF : Follows s₀ s) :
    Follows s₀ (interruptPair s) := by
  unfold interruptPair
  dsimp only
  with_reducible repeat' first | assumption | intro s x h | split | apply modPair_follows
                               | apply guaranteeLapse_follows | apply setPairSt_follows | apply dropChains_follows
                               | apply dropMirror_follows | apply foldl_follows

theorem sendHello_follows {s : State} (hF : Follows s₀ s) :
    Follows s₀ (sendHello s) := by
  unfold sendHello
  dsimp only
  with_reducible repeat' first | assumption | apply modPair_follows | apply darradPut_follows

theorem linkTrained_follows {s : State} (hF : Follows s₀ s) :
    Follows s₀ (linkTrained s) := by
  unfold linkTrained
  dsimp only
  with_reducible repeat' first | assumption | apply modPair_follows | apply sendHello_follows | apply logDev_follows

theorem doLinkTrained_follows {s : State} (hF : Follows s₀ s) :
    Follows s₀ (doLinkTrained s) := by
  unfold doLinkTrained
  dsimp only
  with_reducible repeat' first | assumption | apply ite_follows | apply linkTrained_follows

theorem retrain_follows {s : State} (hF : Follows s₀ s) :
    Follows s₀ (retrain s) := by
  unfold retrain
  dsimp only
  with_reducible repeat' first | assumption | apply modPair_follows | apply interruptPair_follows
                               | apply logDev_follows

theorem fenceLink_follows {s : State} (fault : Nat) (hF : Follows s₀ s) :
    Follows s₀ (fenceLink fault s) := by
  unfold fenceLink
  dsimp only
  with_reducible repeat' first | assumption | apply modPair_follows | apply interruptPair_follows
                               | apply logDev_follows | apply lastingFence_follows

theorem doFrameError_follows {s : State} (again : Bool) (hF : Follows s₀ s) :
    Follows s₀ (doFrameError again s) := by
  unfold doFrameError
  with_reducible repeat' first | assumption | apply ite_follows | apply retrain_follows | apply transientFault_follows

theorem doRetrainDone_follows {s : State} (ok : Bool) (hF : Follows s₀ s) :
    Follows s₀ (doRetrainDone ok s) := by
  unfold doRetrainDone
  dsimp only
  with_reducible repeat' first | assumption | apply ite_follows | split | apply linkTrained_follows
                               | apply transientFault_follows | apply fenceLink_follows | apply modPair_follows

theorem doTxFailure_follows {s : State} (hF : Follows s₀ s) :
    Follows s₀ (doTxFailure s) := by
  unfold doTxFailure
  dsimp only
  with_reducible repeat' first | assumption | apply ite_follows | apply fenceParts_follows | apply modPair_follows
                               | apply logDev_follows

theorem doUnknownFrame_follows {s : State} (h : DarradHdr) (hF : Follows s₀ s) :
    Follows s₀ (doUnknownFrame h s) := by
  unfold doUnknownFrame
  with_reducible repeat' first | assumption | apply ite_follows | apply pairViolation_follows | apply modPair_follows

theorem roleFor_follows {s : State} (serial : Nat) (hF : Follows s₀ s) :
    Follows s₀ (roleFor serial s).2 := by
  unfold roleFor
  dsimp only
  with_reducible repeat' first | assumption | split | apply fresh_follows

theorem joinPair_follows {s : State} (h : DarradHdr) (serial policy : Nat) (hF : Follows s₀ s) :
    Follows s₀ (joinPair h serial policy s) := by
  unfold joinPair
  dsimp only
  with_reducible repeat' first | assumption | split | apply interruptPair_follows | apply roleFor_follows
                               | apply modPair_follows | apply sendHello_follows | apply sendHold_follows
                               | apply setPairSt_follows

theorem doHello_follows {s : State} (h : DarradHdr) (serial numerics verMin verMax policy : Nat) (hF : Follows s₀ s) :
    Follows s₀ (doHello h serial numerics verMin verMax policy s) := by
  unfold doHello
  dsimp only
  with_reducible repeat' first | assumption | apply ite_follows | split | apply takeFrame_follows
                               | apply pairViolation_follows | apply joinPair_follows | apply interruptPair_follows
                               | apply modPair_follows | apply logDev_follows | apply setPairSt_follows
                               | refine pair_follows ‹_ = (_, _)› ?_

theorem doHelloRetry_follows {s : State} (hF : Follows s₀ s) :
    Follows s₀ (doHelloRetry s) := by
  unfold doHelloRetry
  with_reducible repeat' first | assumption | apply ite_follows | apply sendHello_follows

theorem resolveHold_follows {s : State} (x : Nat × Nat) (hF : Follows s₀ s) :
    Follows s₀ (resolveHold s x) := by
  unfold resolveHold
  dsimp only
  with_reducible repeat' first | assumption | apply ite_follows | split | apply modPart_follows
                               | apply logEvent_follows | apply fencePart_follows

theorem sendGrowing_follows {s : State} (p : Pid) (hF : Follows s₀ s) :
    Follows s₀ (sendGrowing p s) := by
  unfold sendGrowing
  with_reducible repeat' first | assumption | intro s x h | apply seedFrames_follows | apply foldl_follows

theorem resyncPart_follows {s : State} (p : Pid) (hF : Follows s₀ s) :
    Follows s₀ (resyncPart s p) := by
  unfold resyncPart
  with_reducible repeat' first | assumption | apply sendGrowing_follows | apply sendMirror_follows
                               | apply sendMirGrant_follows

theorem beginResync_follows {s : State} (hF : Follows s₀ s) :
    Follows s₀ (beginResync s) := by
  unfold beginResync
  dsimp only
  with_reducible repeat' first | assumption | apply ite_follows | intro s x h | apply setPairSt_follows
                               | apply resyncPart_follows | apply modPair_follows | apply foldl_follows

theorem doHold_follows {s : State} (h : DarradHdr) (ids : List (Nat × Nat)) (hF : Follows s₀ s) :
    Follows s₀ (doHold h ids s) := by
  unfold doHold
  dsimp only
  with_reducible repeat' first | assumption | intro s x h | intro s h | split | apply onFrame_follows
                               | apply pairViolation_follows | apply modPair_follows | apply resolveHold_follows
                               | apply foldl_follows

theorem doBeat_follows {s : State} (hF : Follows s₀ s) :
    Follows s₀ (doBeat s) := by
  unfold doBeat
  with_reducible repeat' first | assumption | apply darradPut_follows

theorem startCopies_follows {s : State} (hF : Follows s₀ s) :
    Follows s₀ (startCopies s) := by
  unfold startCopies
  with_reducible repeat' first | assumption | apply ite_follows | intro s x h | apply startSeeding_follows
                               | apply sendMirGrant_follows | apply foldl_follows

theorem doHeartbeat_follows {s : State} (h : DarradHdr) (state policy : Nat) (next : List (Nat × Nat × Nat))
    (plans : List PlanState) (hF : Follows s₀ s) :
    Follows s₀ (doHeartbeat h state policy next plans s) := by
  unfold doHeartbeat
  dsimp only
  with_reducible repeat' first | assumption | apply ite_follows | intro s h | split | apply onFrame_follows
                               | apply pairViolation_follows | apply modPair_follows | apply beginResync_follows
                               | apply startCopies_follows

theorem resynced_follows {s : State} (p : Pid) (hF : Follows s₀ s) :
    Follows s₀ (resynced p s) := by
  unfold resynced
  dsimp only
  with_reducible repeat' first | assumption | apply ite_follows | apply modPair_follows | apply setPairSt_follows

theorem stepAcked_follows {s : State} (p : Pid) (m : MirMsg) (hF : Follows s₀ s) :
    Follows s₀ (stepAcked p m s) := by
  unfold stepAcked
  dsimp only
  with_reducible repeat' first | assumption | apply ite_follows | split | apply closeStep_follows

theorem doMirrorAck_follows {s : State} (h : DarradHdr) (hF : Follows s₀ s) :
    Follows s₀ (doMirrorAck h s) := by
  unfold doMirrorAck
  dsimp only
  with_reducible repeat' first | assumption | intro s x h | split | apply onPartFrame_follows
                               | apply lateDiscard_follows | apply modPart_follows | apply transientFault_follows
                               | apply resynced_follows | apply stepAcked_follows

theorem doMirrorTimeout_follows {s : State} (p : Pid) (hF : Follows s₀ s) :
    Follows s₀ (doMirrorTimeout p s) := by
  unfold doMirrorTimeout
  dsimp only
  with_reducible repeat' first | assumption | apply ite_follows | split | apply interruptPair_follows
                               | apply putMirror_follows | apply modPart_follows

theorem modMirror_follows {s : State} (p : Nat) (g : Mirror → Mirror) (hF : Follows s₀ s) :
    Follows s₀ (modMirror p g s) := by
  unfold modMirror
  with_reducible repeat' first | assumption | apply modPair_follows

theorem modPlan_follows {s : State} (p : Nat) (g : Plan → Plan) (hF : Follows s₀ s) :
    Follows s₀ (modPlan p g s) := by
  unfold modPlan
  with_reducible repeat' first | assumption | apply modPair_follows

theorem sendAck_follows {s : State} (h : DarradHdr) (hF : Follows s₀ s) :
    Follows s₀ (sendAck h s) := by
  unfold sendAck
  with_reducible repeat' first | assumption | apply darradSend_follows

theorem doMirrorGrant_follows {s : State} (h : DarradHdr) (m : MirGrant) (hF : Follows s₀ s) :
    Follows s₀ (doMirrorGrant h m s) := by
  unfold doMirrorGrant
  dsimp only
  with_reducible repeat' first | assumption | apply ite_follows | intro s x h | split | apply onPartFrame_follows
                               | apply pairViolation_follows | apply modMirror_follows | apply modPair_follows
                               | apply modPlan_follows | apply sendAck_follows

theorem standbyWrite_follows {s : State} (x : Plan) (addr : Nat) (bs : List Byte) (hF : Follows s₀ s) :
    Follows s₀ (standbyWrite x addr bs s) := by
  unfold standbyWrite
  with_reducible repeat' first | assumption | exact winWriteAt_wf _ _ _ _ | apply modMem_follows

theorem growStandby_follows {s : State} (x : Plan) (m : MirStep) (hF : Follows s₀ s) :
    Follows s₀ (growStandby x m s) := by
  unfold growStandby
  dsimp only
  with_reducible repeat' first | assumption | apply ite_follows | intro s x h | split | apply standbyWrite_follows
                               | apply foldl_follows

theorem doMirrorStep_follows {s : State} (h : DarradHdr) (m : MirStep) (hF : Follows s₀ s) :
    Follows s₀ (doMirrorStep h m s) := by
  unfold doMirrorStep
  dsimp only
  with_reducible repeat' first | assumption | apply ite_follows | intro s x h | split | apply onPartFrame_follows
                               | apply pairViolation_follows | apply sendAck_follows | apply growStandby_follows
                               | apply modMirror_follows

theorem addSegment_follows {s : State} (p : Pid) (b : List Byte) (hF : Follows s₀ s) :
    Follows s₀ (addSegment p b s) := by
  unfold addSegment
  dsimp only
  with_reducible repeat' first | assumption | split | apply modChurn_follows

theorem doChurnProblem_follows {s : State} (h : DarradHdr) (b : List Byte) (hF : Follows s₀ s) :
    Follows s₀ (doChurnProblem h b s) := by
  unfold doChurnProblem
  with_reducible repeat' first | assumption | apply ite_follows | intro s x h | split | apply onPartFrame_follows
                               | apply pairViolation_follows | apply addSegment_follows

theorem doChurnStage_follows {s : State} (h : DarradHdr) (b : List Byte) (hF : Follows s₀ s) :
    Follows s₀ (doChurnStage h b s) := by
  unfold doChurnStage
  dsimp only
  with_reducible repeat' first | assumption | intro s x h | split | apply onPartFrame_follows
                               | apply pairViolation_follows | apply modPart_follows | apply modChurn_follows

theorem pairConfigBody_follows {s : State} (r : Req) (hF : Follows s₀ s) :
    Follows s₀ (pairConfigBody r s).1 := by
  unfold pairConfigBody
  dsimp only
  with_reducible repeat' first | assumption | apply modPair_follows

/-! ### PairPlan -/

theorem dropPlan_follows {s : State} (p : Nat) (hF : Follows s₀ s) :
    Follows s₀ (dropPlan p s) := by
  unfold dropPlan
  dsimp only
  with_reducible repeat' first | assumption | split | apply modPair_follows | apply completeOpt_follows

theorem setPlan_follows {s : State} (r : Req) (g : GrantReq) (win : Window) (h : Follows s₀ s) :
    Follows s₀ (setPlan r g win s).1 := by
  unfold setPlan
  extract_lets b dirty x s'
  have h' : Follows s₀ s' := modPair_follows _ (unclean_follows _ h)
  clear_value dirty s'
  split
  · exact h'
  · exact modReq_follows _ _ h'

theorem planBody_follows {s : State} (r : Req) (hF : Follows s₀ s) :
    Follows s₀ (planBody r s).1 := by
  unfold planBody
  dsimp only
  with_reducible repeat' first | assumption | apply ite_pair_follows | split | apply violation_follows
                               | apply dropPlan_follows | apply setPlan_follows

theorem sendSeedDone_follows {s : State} (h : DarradHdr) (copy outcome bytes : Nat) (hF : Follows s₀ s) :
    Follows s₀ (sendSeedDone h copy outcome bytes s) := by
  unfold sendSeedDone
  with_reducible repeat' first | assumption | apply darradSend_follows

theorem endCopy_follows {s : State} (h : DarradHdr) (p : Pid) (x : Plan) (hF : Follows s₀ s) :
    Follows s₀ (endCopy h p x s) := by
  unfold endCopy
  dsimp only
  with_reducible repeat' first | assumption | apply ite_follows | split | apply sendSeedDone_follows
                               | apply modPlan_follows

theorem seedFrame_follows {s : State} (h : DarradHdr) (p : Pid) (x : Plan) (addr copy : Nat) (last : Bool)
    (bs : List Byte) (hF : Follows s₀ s) :
    Follows s₀ (seedFrame h p x addr copy last bs s) := by
  unfold seedFrame
  dsimp only
  with_reducible repeat' first | assumption | apply ite_follows | split | apply standbyWrite_follows
                               | apply modPlan_follows | apply endCopy_follows

theorem doSeed_follows {s : State} (h : DarradHdr) (b : List Byte) (hF : Follows s₀ s) :
    Follows s₀ (doSeed h b s) := by
  unfold doSeed
  with_reducible repeat' first | assumption | apply ite_follows | intro s x h | split | apply onPartFrame_follows
                               | apply pairViolation_follows | apply modPlan_follows | apply seedFrame_follows

theorem doSeedDone_follows {s : State} (h : DarradHdr) (b : List Byte) (hF : Follows s₀ s) :
    Follows s₀ (doSeedDone h b s) := by
  unfold doSeedDone
  dsimp only
  with_reducible repeat' first | assumption | apply ite_follows | intro s x h | split | apply onPartFrame_follows
                               | apply pairViolation_follows | apply modPair_follows | apply transientFault_follows
                               | apply lastingFault_follows | apply startSeeding_follows

/-! ### Takeover -/

theorem stopAtOnce_follows {s : State} (p : Pid) (hF : Follows s₀ s) :
    Follows s₀ (stopAtOnce p s) := by
  unfold stopAtOnce
  dsimp only
  with_reducible repeat' first | assumption | intro s x h | apply dropRequests_follows | apply withdrawStep_follows
                               | apply fenceOpen_follows | apply killWork_follows | apply stopStream_follows
                               | apply releaseWhere_follows | apply unreserveAll_follows | apply modPart_follows
                               | apply completeOpt_follows | apply foldl_follows

theorem suspendFor_follows {s : State} (v : Pid × Grants) (hF : Follows s₀ s) :
    Follows s₀ (suspendFor s v) := by
  unfold suspendFor
  dsimp only
  with_reducible repeat' first | assumption | apply ite_follows | intro s x h | apply stopAtOnce_follows
                               | apply releasePort_follows | apply closeSession_follows | apply deleteQueue_follows
                               | apply resetClusters_follows | apply modPart_follows | apply foldl_follows

theorem giveBack_follows {s : State} (p : Pid) (l : Grants) (hF : Follows s₀ s) :
    Follows s₀ (giveBack p l s) := by
  unfold giveBack
  dsimp only
  with_reducible repeat' first | assumption | intro s x h | apply modPart_follows | apply clearSync_follows
                               | apply resetClusters_follows | apply createQueue_follows | apply foldl_follows

theorem doResourcesFree_follows {s : State} (p : Pid) (hF : Follows s₀ s) :
    Follows s₀ (doResourcesFree p s) := by
  unfold doResourcesFree
  with_reducible repeat' first | assumption | apply ite_follows | split | apply giveBack_follows

theorem putRecords_follows {s : State} (p : Pid) (l : List (Cursor × List Byte)) (hF : Follows s₀ s) :
    Follows s₀ (putRecords p l s) := by
  unfold putRecords
  with_reducible repeat' first | assumption | intro s x h | apply writeRecord_follows | apply foldl_follows

theorem installMirror_follows {s : State} (p : Pid) (i : Image) (m : Mirror) (g : MirGrant) (ahead : Bool)
    (hF : Follows s₀ s) :
    Follows s₀ (installMirror p i m g ahead s) := by
  unfold installMirror
  dsimp only
  with_reducible repeat' first | assumption | split | apply modPart_follows | apply putRecords_follows

theorem commitPlan_follows {s : State} (p : Pid) (x : Plan) (g : Grants) (hF : Follows s₀ s) :
    Follows s₀ (commitPlan p x g s) := by
  unfold commitPlan
  dsimp only
  with_reducible repeat' first | assumption | intro s x h | apply modPair_follows | apply resetClusters_follows
                               | apply modPart_follows | apply setPort_follows | apply createQueue_follows
                               | apply completeOpt_follows | apply foldl_follows

theorem takeId_follows {s : State} (p : Pid) (hF : Follows s₀ s) :
    Follows s₀ (takeId p s) := by
  unfold takeId
  with_reducible repeat' first | assumption | apply modPair_follows

theorem leaveSuspended_follows {s : State} (p : Pid) (hF : Follows s₀ s) :
    Follows s₀ (leaveSuspended p s) := by
  unfold leaveSuspended
  with_reducible repeat' first | assumption | apply modPart_follows

theorem takeoverGaps_follows {s : State} (p : Pid) (m : Mirror) (hF : Follows s₀ s) :
    Follows s₀ (takeoverGaps p m s) := by
  unfold takeoverGaps
  with_reducible repeat' first | assumption | intro s x h | apply logGap_follows | apply foldl_follows

theorem enableTaken_follows {s : State} (p : Pid) (x : Plan) (i : Image) (m : Mirror) (g : MirGrant)
    (hF : Follows s₀ s) :
    Follows s₀ (enableTaken p x i m g s).1 := by
  unfold enableTaken
  dsimp only
  with_reducible repeat' first | assumption | apply ite_follows | intro s x h | split | apply installMirror_follows
                               | apply leaveSuspended_follows | apply goOn_follows | apply takeoverGaps_follows
                               | apply askCameras_follows | apply foldl_follows
                               | refine reserveNow_follows ‹_ = some _› ?_

theorem takePart_follows {s : State} (p : Pid) (m : Mirror) (taken : List Nat) (hF : Follows s₀ s) :
    Follows s₀ (takePart p m taken s).1 := by
  unfold takePart
  dsimp only
  with_reducible repeat' first | assumption | apply ite_pair_follows | intro s x h | split
                               | apply leaveSuspended_follows | apply takeId_follows | apply dropPlan_follows
                               | apply suspendFor_follows | apply enableTaken_follows | apply commitPlan_follows
                               | apply foldl_follows

theorem postTaken_follows {s : State} (req : Option ReqId) (id : Nat) (t : Taken) (last : Bool) (hF : Follows s₀ s) :
    Follows s₀ (postTaken req id t last s) := by
  unfold postTaken
  with_reducible repeat' first | assumption | split | apply complete_follows

theorem takeAll_follows (req : Option ReqId) (y0 : List Nat) :
    ∀ (y1 : List Nat) {s : State}, Follows s₀ s → Follows s₀ (takeAll req y0 y1 s) := by
  induction y0 generalizing req with
  | nil => intros; simpa only [takeAll]
  | cons b bs ih =>
    intro y1 s h
    simp only [takeAll]
    with_reducible repeat' first | assumption | apply ite_follows | split | apply fresh_follows
                                 | apply postTaken_follows | apply takePart_follows | apply logEvent_follows
                                 | apply ih

theorem takeover_follows {s : State} (req : Option ReqId) (hF : Follows s₀ s) :
    Follows s₀ (takeover req s) := by
  unfold takeover
  dsimp only
  with_reducible repeat' first | assumption | apply modPair_follows | apply takeAll_follows | apply dropChains_follows

theorem failMoves_follows {s : State} (hF : Follows s₀ s) :
    Follows s₀ (failMoves s) := by
  unfold failMoves
  dsimp only
  with_reducible repeat' first | assumption | intro s x h | apply complete_follows | apply modPair_follows
                               | apply foldl_follows

theorem partnerLost_follows {s : State} (k : Nat) (hF : Follows s₀ s) :
    Follows s₀ (partnerLost k s) := by
  unfold partnerLost
  dsimp only
  with_reducible repeat' first | assumption | apply ite_follows | split | apply modPair_follows | apply logDev_follows
                               | apply setPairSt_follows | apply failMoves_follows | apply dropChains_follows
                               | apply dropMirror_follows | apply takeover_follows

theorem doMiss_follows {s : State} (los : Bool) (hF : Follows s₀ s) :
    Follows s₀ (doMiss los s) := by
  unfold doMiss
  dsimp only
  with_reducible repeat' first | assumption | apply ite_follows | split | apply modPair_follows
                               | apply partnerLost_follows

theorem doDeparture_follows {s : State} (h : DarradHdr) (hF : Follows s₀ s) :
    Follows s₀ (doDeparture h s) := by
  unfold doDeparture
  with_reducible repeat' first | assumption | apply ite_follows | intro s h | apply onFrame_follows
                               | apply partnerLost_follows

theorem takeoverBody_follows {s : State} (r : Req) (hF : Follows s₀ s) :
    Follows s₀ (takeoverBody r s).1 := by
  unfold takeoverBody
  dsimp only
  with_reducible repeat' first | assumption | apply ite_pair_follows

theorem releaseIdsBody_follows {s : State} (r : Req) (hF : Follows s₀ s) :
    Follows s₀ (releaseIdsBody r s).1 := by
  unfold releaseIdsBody
  dsimp only
  with_reducible repeat' first | assumption | apply ite_pair_follows | apply modPair_follows

theorem moveBody_follows {s : State} (r : Req) (hF : Follows s₀ s) :
    Follows s₀ (moveBody r s).1 := by
  unfold moveBody
  dsimp only
  with_reducible repeat' first | assumption | apply ite_pair_follows | apply modPair_follows
                               | apply darradSend_follows

theorem sendMoveAck_follows {s : State} (h : DarradHdr) (reason : Nat) (hF : Follows s₀ s) :
    Follows s₀ (sendMoveAck h reason s) := by
  unfold sendMoveAck
  with_reducible repeat' first | assumption | apply darradSend_follows

theorem acceptMove_follows {s : State} (h : DarradHdr) (p : Pid) (x : Plan) (i : Image) (m : Mirror) (g : MirGrant)
    (hF : Follows s₀ s) :
    Follows s₀ (acceptMove h p x i m g s) := by
  unfold acceptMove
  dsimp only
  with_reducible repeat' first | assumption | apply modPair_follows | apply dropChains_follows | apply takeId_follows
                               | apply installMirror_follows | apply commitPlan_follows | apply modPart_follows
                               | apply mirrorGrantOf_follows | apply sendHold_follows | apply sendMoveAck_follows

theorem doMove_follows {s : State} (h : DarradHdr) (hF : Follows s₀ s) :
    Follows s₀ (doMove h s) := by
  unfold doMove
  dsimp only
  with_reducible repeat' first | assumption | apply ite_follows | intro s x h | split | apply onPartFrame_follows
                               | apply pairViolation_follows | apply sendMoveAck_follows | apply acceptMove_follows

theorem doMoveAck_follows {s : State} (h : DarradHdr) (reason : Nat) (hF : Follows s₀ s) :
    Follows s₀ (doMoveAck h reason s) := by
  unfold doMoveAck
  dsimp only
  with_reducible repeat' first | assumption | intro s x h | split | apply onPartFrame_follows | apply modPair_follows
                               | apply complete_follows | apply beginTeardown_follows

/-! ### HostDma -/

theorem reissueDma_follows {s : State} (d : DmaOp) (hF : Follows s₀ s) :
    Follows s₀ (reissueDma d s) := by
  unfold reissueDma
  dsimp only
  with_reducible repeat' first | assumption | rfl | apply modCnt_follows | apply issueDma_follows
                               | apply modHost_follows

theorem dmaLasting_follows {s : State} (d : DmaOp) (hF : Follows s₀ s) :
    Follows s₀ (dmaLasting d s) := by
  unfold dmaLasting
  with_reducible repeat' first | assumption | apply lastingFault_follows

theorem dmaRefuse_follows {s : State} (i : ReqId) (hF : Follows s₀ s) :
    Follows s₀ (dmaRefuse i s) := by
  unfold dmaRefuse
  with_reducible repeat' first | assumption | split | apply finish_follows

theorem dmaFailed_follows {s : State} (d : DmaOp) (hF : Follows s₀ s) :
    Follows s₀ (dmaFailed d s) := by
  unfold dmaFailed
  with_reducible repeat' first | assumption | split | apply dmaRefuse_follows | apply dmaLasting_follows
                               | apply disableCq_follows | apply postCqe_follows | apply p2pFailed_follows

theorem dmaError_follows {s : State} (d : DmaOp) (hF : Follows s₀ s) :
    Follows s₀ (dmaError d s) := by
  unfold dmaError
  with_reducible repeat' first | assumption | apply ite_follows | apply dmaFailed_follows | apply reissueDma_follows

theorem dataHere_follows {s : State} (i : ReqId) (g : Req → Req) (hF : Follows s₀ s) :
    Follows s₀ (dataHere i g s) := by
  unfold dataHere
  dsimp only
  with_reducible repeat' first | assumption | apply modReq_follows

theorem bulkHere_follows {s : State} (i : ReqId) (bs : List Byte) (hF : Follows s₀ s) :
    Follows s₀ (bulkHere i bs s) := by
  unfold bulkHere
  with_reducible repeat' first | assumption | apply ite_follows | split | apply serviceTransfers_follows
                               | apply modReq_follows | apply dataHere_follows

theorem bulkGone_follows {s : State} (i : ReqId) (n : Nat) (hF : Follows s₀ s) :
    Follows s₀ (bulkGone i n s) := by
  unfold bulkGone
  with_reducible repeat' first | assumption | apply ite_follows | split | apply finishMove_follows
                               | apply finish_follows

theorem dmaOk_follows {s : State} (d : DmaOp) (bs : List Byte) (hF : Follows s₀ s) :
    Follows s₀ (dmaOk d bs s) := by
  unfold dmaOk
  with_reducible repeat' first | assumption | apply ite_follows | split | apply dataHere_follows
                               | apply cqPosted_follows | apply modCnt_follows | apply postCqe_follows
                               | apply bulkHere_follows | apply bulkGone_follows

theorem dmaTransient_follows {s : State} (d : DmaOp) (hF : Follows s₀ s) :
    Follows s₀ (dmaTransient d s) := by
  unfold dmaTransient
  with_reducible repeat' first | assumption | apply ite_follows | split | apply bdpTransient_follows
                               | apply transientFault_follows

theorem doDmaComplete_follows {s : State} (tag : Nat) (res : DmaResult) (hF : Follows s₀ s) :
    Follows s₀ (doDmaComplete tag res s) := by
  unfold doDmaComplete
  dsimp only
  with_reducible repeat' first | assumption | apply ite_follows | rfl | split | apply modHost_follows
                               | apply lateDiscard_follows | apply modCnt_follows | apply dmaOk_follows
                               | apply dmaTransient_follows | apply dmaError_follows

theorem doCompletionTimeout_follows {s : State} (tag : Nat) (hF : Follows s₀ s) :
    Follows s₀ (doCompletionTimeout tag s) := by
  unfold doCompletionTimeout
  with_reducible repeat' first | assumption | apply ite_follows | split | apply dmaError_follows
                               | apply killDma_follows

/-! ### LogDiag -/

theorem doRateSecond_follows {s : State} (hF : Follows s₀ s) :
    Follows s₀ (doRateSecond s) := by
  unfold doRateSecond
  dsimp only
  with_reducible repeat' first | assumption | apply ite_follows | exact fun a b => ⟨a, b⟩ | apply modLog_follows
                               | apply logDev_follows

theorem fifoRetrain_follows {s : State} (c : Nat) (hF : Follows s₀ s) :
    Follows s₀ (fifoRetrain c s) := by
  unfold fifoRetrain
  with_reducible repeat' first | assumption | apply ite_follows | apply modPort_follows | apply ethDown_follows
                               | apply retrain_follows

theorem fifoFence_follows {s : State} (c : Nat) (hF : Follows s₀ s) :
    Follows s₀ (fifoFence c s) := by
  unfold fifoFence
  dsimp only
  with_reducible repeat' first | assumption | apply ite_follows | rfl | apply fenceEthPort_follows
                               | apply driveLasting_follows | apply fenceLink_follows | apply lastingFence_follows
                               | apply hostReset_follows | apply linkDown_follows | apply modHost_follows

theorem doFifoFault_follows {s : State} (stop client : Nat) (overflow : Bool) (hF : Follows s₀ s) :
    Follows s₀ (doFifoFault stop client overflow s) := by
  unfold doFifoFault
  dsimp only
  with_reducible repeat' first | assumption | apply ite_follows | split | apply logDev_follows
                               | apply fifoFence_follows | apply fifoRetrain_follows | apply modMesh_follows

theorem doPairBMismatch_follows {s : State} (hF : Follows s₀ s) :
    Follows s₀ (doPairBMismatch s) := by
  unfold doPairBMismatch
  dsimp only
  with_reducible repeat' first | assumption | apply ite_follows | split | apply logDev_follows
                               | apply warmTrigger_follows | apply lastingFault_follows | apply modStep_follows

end Sys2Proof.Machine
end

