-- ==== Sys2Proof/Laws/Logged.lean ====
section
/-!
SUPPORT. Logging changes nothing but what `LoggedTo` names: one lemma for each operation that writes records, raises
interrupt status or sends messages, and what `LoggedTo` says of each part that provers read.
-/
namespace Sys2Proof.Machine
open State (LoggedTo)
variable {r s t : State}

theorem State.LoggedTo.refl (s : State) : LoggedTo s s :=
  ⟨rfl, rfl, rfl, rfl, rfl, fun _ => rfl, rfl, rfl, rfl, rfl, fun _ => rfl, List.suffix_refl _⟩

theorem State.LoggedTo.trans (h : LoggedTo r s) (k : LoggedTo s t) : LoggedTo r t :=
  ⟨k.units.trans h.units, k.time.trans h.time, k.freeCtr.trans h.freeCtr, k.pending.trans h.pending,
    k.ao.trans h.ao, fun p => (k.parts p).trans (h.parts p), k.reqs.trans h.reqs, k.dma.trans h.dma,
    k.nextTag.trans h.nextTag, k.link.trans h.link, fun f => (k.fns f).trans (h.fns f), h.out.trans k.out⟩

/-! ## What it keeps -/

theorem State.LoggedTo.part (h : LoggedTo s t) (p : Pid) : (partOf t p).sansFaults = (partOf s p).sansFaults := h.parts p
theorem State.LoggedTo.fn (h : LoggedTo s t) (f : Fn) : (fnOf t f).sansIrq = (fnOf s f).sansIrq := h.fns f
theorem State.LoggedTo.mbx (h : LoggedTo s t) (f : Fn) : (fnOf t f).mbx = (fnOf s f).mbx := by
  have k := congrArg FnState.mbx (h.fn f); exact k
theorem State.LoggedTo.ring (h : LoggedTo s t) (f : Fn) : (fnOf t f).ring = (fnOf s f).ring := by
  have k := congrArg FnState.ring (h.fn f); exact k
theorem State.LoggedTo.fcnt (h : LoggedTo s t) (f : Fn) : (fnOf t f).cnt = (fnOf s f).cnt := by
  have k := congrArg FnState.cnt (h.fn f); exact k
theorem State.LoggedTo.d3 (h : LoggedTo s t) (f : Fn) : (fnOf t f).d3 = (fnOf s f).d3 := by
  have k := congrArg FnState.d3 (h.fn f); exact k
theorem State.LoggedTo.st (h : LoggedTo s t) (p : Pid) : (partOf t p).st = (partOf s p).st := by
  have k := congrArg Part.st (h.part p); exact k
theorem State.LoggedTo.g (h : LoggedTo s t) (p : Pid) : (partOf t p).g = (partOf s p).g := by
  have k := congrArg Part.g (h.part p); exact k
theorem State.LoggedTo.ld (h : LoggedTo s t) (p : Pid) : (partOf t p).ld = (partOf s p).ld := by
  have k := congrArg Part.ld (h.part p); exact k
theorem State.LoggedTo.sc (h : LoggedTo s t) (p : Pid) : (partOf t p).sc = (partOf s p).sc := by
  have k := congrArg Part.sc (h.part p); exact k
theorem State.LoggedTo.ex (h : LoggedTo s t) (p : Pid) : (partOf t p).ex = (partOf s p).ex := by
  have k := congrArg Part.ex (h.part p); exact k
theorem State.LoggedTo.streams (h : LoggedTo s t) (p : Pid) : (partOf t p).streams = (partOf s p).streams := by
  have k := congrArg Part.streams (h.part p); exact k
theorem State.LoggedTo.targets (h : LoggedTo s t) (p : Pid) : (partOf t p).targets = (partOf s p).targets := by
  have k := congrArg Part.targets (h.part p); exact k
theorem State.LoggedTo.runs (h : LoggedTo s t) (p : Pid) : (partOf t p).runs = (partOf s p).runs := by
  have k := congrArg Part.runs (h.part p); exact k
theorem State.LoggedTo.held (h : LoggedTo s t) (p : Pid) : (partOf t p).held = (partOf s p).held := by
  have k := congrArg Part.held (h.part p); exact k
theorem State.LoggedTo.drawn (h : LoggedTo s t) (p : Pid) : (partOf t p).drawn = (partOf s p).drawn := by
  have k := congrArg Part.drawn (h.part p); exact k
theorem State.LoggedTo.boot (h : LoggedTo s t) : t.ao.boot = s.ao.boot := by
  have k := congrArg AoSt.boot h.ao; exact k
theorem State.LoggedTo.pwr (h : LoggedTo s t) : t.ao.pwr = s.ao.pwr := by
  have k := congrArg AoSt.pwr h.ao; exact k
theorem State.LoggedTo.clk (h : LoggedTo s t) : t.ao.clk = s.ao.clk := by
  have k := congrArg AoSt.clk h.ao; exact k
theorem State.LoggedTo.mod_ (h : LoggedTo s t) : t.ao.mod_ = s.ao.mod_ := by
  have k := congrArg AoSt.mod_ h.ao; exact k
theorem State.LoggedTo.fuse (h : LoggedTo s t) : t.ao.fuse = s.ao.fuse := by
  have k := congrArg AoSt.fuse h.ao; exact k
theorem State.LoggedTo.fw (h : LoggedTo s t) : t.ao.fw = s.ao.fw := by
  have k := congrArg AoSt.fw h.ao; exact k
theorem State.LoggedTo.ent (h : LoggedTo s t) : t.ao.ent = s.ao.ent := by
  have k := congrArg AoSt.ent h.ao; exact k
theorem State.LoggedTo.therm (h : LoggedTo s t) : t.ao.therm = s.ao.therm := by
  have k := congrArg AoSt.therm h.ao; exact k
theorem State.LoggedTo.ctrl (h : LoggedTo s t) : t.ao.ctrl = s.ao.ctrl := by
  have k := congrArg AoSt.ctrl h.ao; exact k
theorem State.LoggedTo.service (h : LoggedTo s t) : t.ao.service = s.ao.service := by
  have k := congrArg AoSt.service h.ao; exact k
theorem State.LoggedTo.dom (h : LoggedTo s t) (n : Nat) : domOf t n = domOf s n := by unfold domOf; rw [h.pwr]

/-! ## Updates after logging -/

/-- A change of a function that leaves its interrupt registers alone and looks at nothing of them commutes with
logging. -/
theorem State.LoggedTo.modFn (h : LoggedTo s t) (f : Fn) {g : FnState → FnState}
    (hg : ∀ a b : FnState, a.sansIrq = b.sansIrq → (g a).sansIrq = (g b).sansIrq) :
    LoggedTo (modFn f g s) (modFn f g t) := by
  refine ⟨h.units, h.time, h.freeCtr, h.pending, h.ao, h.parts, h.reqs, h.dma, h.nextTag, h.link, fun k => ?_, h.out⟩
  show (fnOf (Machine.modFn f g t) k).sansIrq = (fnOf (Machine.modFn f g s) k).sansIrq
  by_cases e : k = f
  · subst e; rw [fnOf_modFn, fnOf_modFn]; exact hg _ _ (h.fn k)
  · rw [fnOf_modFn_ne _ e, fnOf_modFn_ne _ e]; exact h.fn k

theorem State.LoggedTo.modMbx (h : LoggedTo s t) (f : Fn) (g : MbxBlock → MbxBlock) :
    LoggedTo (modMbx f g s) (modMbx f g t) :=
  h.modFn f fun a b e => by cases a; cases b; simp_all [FnState.sansIrq]

theorem State.LoggedTo.modRing (h : LoggedTo s t) (f : Fn) (g : RingBlock → RingBlock) :
    LoggedTo (modRing f g s) (modRing f g t) :=
  h.modFn f fun a b e => by cases a; cases b; simp_all [FnState.sansIrq]

theorem State.LoggedTo.modCnt (h : LoggedTo s t) (f : Fn) (g : CntBlock → CntBlock) :
    LoggedTo (modCnt f g s) (modCnt f g t) :=
  h.modFn f fun a b e => by cases a; cases b; simp_all [FnState.sansIrq]

theorem State.LoggedTo.modUnits (h : LoggedTo s t) (g : UnitSt → UnitSt) : LoggedTo (modUnits g s) (modUnits g t) :=
  ⟨congrArg g h.units, h.time, h.freeCtr, h.pending, h.ao, h.parts, h.reqs, h.dma, h.nextTag, h.link, h.fns, h.out⟩

theorem State.LoggedTo.emit (h : LoggedTo s t) (o : Output) : LoggedTo s (emit o t) :=
  ⟨h.units, h.time, h.freeCtr, h.pending, h.ao, h.parts, h.reqs, h.dma, h.nextTag, h.link, h.fns,
    h.out.trans (List.suffix_cons _ _)⟩

/-- A change of a partition that leaves its fault counters alone and looks at nothing of them commutes with logging. -/
theorem State.LoggedTo.modPart (h : LoggedTo s t) (p : Pid) {g : Part → Part}
    (hg : ∀ a b : Part, a.sansFaults = b.sansFaults → (g a).sansFaults = (g b).sansFaults) :
    LoggedTo (modPart p g s) (modPart p g t) := by
  refine ⟨h.units, h.time, h.freeCtr, h.pending, h.ao, fun k => ?_, h.reqs, h.dma, h.nextTag, h.link, h.fns, h.out⟩
  show (partOf (Machine.modPart p g t) k).sansFaults = (partOf (Machine.modPart p g s) k).sansFaults
  by_cases e : k = p
  · subst e; rw [partOf_modPart, partOf_modPart]; exact hg _ _ (h.part k)
  · rw [partOf_modPart_ne _ e, partOf_modPart_ne _ e]; exact h.part k

/-- A change of the always-on side that leaves the fault counters alone commutes with logging. -/
theorem State.LoggedTo.modAo (h : LoggedTo s t) {g : AoSt → AoSt}
    (hg : ∀ a b : AoSt, a.sansFaults = b.sansFaults → (g a).sansFaults = (g b).sansFaults) :
    LoggedTo (modAo g s) (modAo g t) :=
  ⟨h.units, h.time, h.freeCtr, h.pending, hg _ _ h.ao, h.parts, h.reqs, h.dma, h.nextTag, h.link, h.fns, h.out⟩

/-! ## What logs -/

theorem modLog_logged (g) (h : LoggedTo r s) : LoggedTo r (modLog g s) :=
  ⟨h.units, h.time, h.freeCtr, h.pending, h.ao, h.parts, h.reqs, h.dma, h.nextTag, h.link, h.fns, h.out⟩

theorem modIrq_logged (f g) (h : LoggedTo r s) : LoggedTo r (modIrq f g s) := by
  refine h.trans ⟨rfl, rfl, rfl, rfl, rfl, fun _ => rfl, rfl, rfl, rfl, rfl, fun k => ?_, List.suffix_refl _⟩
  by_cases e : k = f
  · subst e
    show (fnOf (modIrq k g s) k).sansIrq = (fnOf s k).sansIrq
    rw [fnOf_modIrq]; rfl
  · show (fnOf (modIrq f g s) k).sansIrq = (fnOf s k).sansIrq
    rw [fnOf_modIrq_ne _ e]

theorem emit_logged (o) (h : LoggedTo r s) : LoggedTo r (emit o s) :=
  ⟨h.units, h.time, h.freeCtr, h.pending, h.ao, h.parts, h.reqs, h.dma, h.nextTag, h.link, h.fns,
    h.out.trans (List.suffix_cons _ _)⟩

theorem cntFaults_logged (n g) (h : LoggedTo r s) : LoggedTo r (cntFaults n g s) := by
  have k : LoggedTo s (modAo (fun a => { a with faults := g a.faults }) s) :=
    ⟨rfl, rfl, rfl, rfl, rfl, fun _ => rfl, rfl, rfl, rfl, rfl, fun _ => rfl, List.suffix_refl _⟩
  unfold cntFaults
  dsimp only
  split
  · exact h.trans k
  · refine (h.trans k).trans ⟨rfl, rfl, rfl, rfl, rfl, fun p => ?_, rfl, rfl, rfl, rfl, fun _ => rfl,
      List.suffix_refl _⟩
    show (partOf (modPartN _ _ _) p).sansFaults = (partOf _ p).sansFaults
    rw [partOf_modPartN]
    split <;> rfl

theorem sendMsix_logged (f v) (h : LoggedTo r s) : LoggedTo r (sendMsix f v s) := by
  unfold sendMsix
  dsimp only
  split
  · exact h
  · split
    · exact modIrq_logged _ _ h
    · exact emit_logged _ h

theorem raiseIrq_logged (f b) (h : LoggedTo r s) : LoggedTo r (raiseIrq f b s) := by
  unfold raiseIrq
  dsimp only
  split
  · exact h
  · split
    · exact modIrq_logged _ _ h
    · exact sendMsix_logged _ _ (modIrq_logged _ _ h)

theorem logEvent_logged (n c a0 a1 a2 a3) (h : LoggedTo r s) : LoggedTo r (logEvent n c a0 a1 a2 a3 s) := by
  unfold logEvent
  dsimp only
  split
  · exact cntFaults_logged _ _ (modLog_logged _ h)
  · split
    · exact modLog_logged _ h
    · split
      · exact raiseIrq_logged _ _ (raiseIrq_logged _ _ (modLog_logged _ h))
      · exact raiseIrq_logged _ _ (modLog_logged _ h)

theorem logDev_logged (c a0 a1 a2 a3) (h : LoggedTo r s) : LoggedTo r (logDev c a0 a1 a2 a3 s) :=
  logEvent_logged _ _ _ _ _ _ h

theorem transientFault_logged (n u f k) (h : LoggedTo r s) : LoggedTo r (transientFault n u f k s) := by
  unfold transientFault; exact cntFaults_logged _ _ (logEvent_logged _ _ _ _ _ _ h)

theorem lastingFault_logged (n u f c k) (h : LoggedTo r s) : LoggedTo r (lastingFault n u f c k s) := by
  unfold lastingFault; exact cntFaults_logged _ _ (logEvent_logged _ _ _ _ _ _ h)

theorem lateDiscard_logged (n u f k) (h : LoggedTo r s) : LoggedTo r (lateDiscard n u f k s) := by
  unfold lateDiscard; exact cntFaults_logged _ _ (logEvent_logged _ _ _ _ _ _ h)

theorem guaranteeLapse_logged (n c) (h : LoggedTo r s) : LoggedTo r (guaranteeLapse n c s) := by
  unfold guaranteeLapse; exact cntFaults_logged _ _ (logEvent_logged _ _ _ _ _ _ h)

theorem limited_logged (key d w n) (hw : ∀ k {x : State}, LoggedTo r x → LoggedTo r (w k x)) (h : LoggedTo r s) :
    LoggedTo r (limited key d w n s) := by
  unfold limited
  split
  · split
    · exact cntFaults_logged _ _ (modLog_logged _ h)
    · exact hw _ (modLog_logged _ h)
  · exact hw _ (modLog_logged _ h)

theorem partnerViolation_logged (key n u k w d) (h : LoggedTo r s) : LoggedTo r (partnerViolation key n u k w d s) := by
  unfold partnerViolation
  exact limited_logged _ _ _ _ (fun _ _ hx => logEvent_logged _ _ _ _ _ _ hx) (cntFaults_logged _ _ h)

/-- A violation by a host function also counts in its mailbox block. -/
theorem violation_logged (f c o) :
    LoggedTo (modMbx f (fun m => { m with violations := satAdd 32 m.violations 1 }) s) (violation f c o s) :=
  partnerViolation_logged _ _ _ _ _ _ (State.LoggedTo.refl _)

theorem countFence_logged (l) (h : LoggedTo r s) : LoggedTo r (countFence l s) := by
  unfold countFence
  dsimp only
  have k : LoggedTo r (modAo (fun a => { a with faults := { a.faults with fences := satAdd 64 a.faults.fences 1 } }) s) :=
    h.trans ⟨rfl, rfl, rfl, rfl, rfl, fun _ => rfl, rfl, rfl, rfl, rfl, fun _ => rfl, List.suffix_refl _⟩
  generalize modAo _ s = x at k
  induction l generalizing x with
  | nil => exact k
  | cons p l ih =>
    apply ih
    dsimp only
    split
    · exact k
    · refine k.trans ⟨rfl, rfl, rfl, rfl, rfl, fun q => ?_, rfl, rfl, rfl, rfl, fun _ => rfl, List.suffix_refl _⟩
      show (partOf _ q).sansFaults = (partOf x q).sansFaults
      by_cases e : q = p
      · subst e; rw [partOf_modPCnt]; rfl
      · unfold modPCnt; rw [partOf_modPart_ne _ e]

end Sys2Proof.Machine
end

