-- ==== Sys2Proof/WellFormed.lean ====
section
/-!
DEFINITION. Which commands the outside can send: every number that names a unit lies in the range the spec gives it
(Table SCP-5, Table ERR-9, R419, R535).
-/
namespace Sys2Proof

/-- The range checks of a command's operands. -/
def Instr.wf : Instr → Bool
  | .deviceIdentify _ => true
  | .devicePowerSet _ => true
  | .devicePowerStatus _ => true
  | .deviceResetWarm _ => true
  | .deviceResetCold _ => true
  | .firmwareUpdate _ => true
  | .deviceTileMapReadClusters _ => true
  | .deviceTileMapReadHidden _ => true
  | .deviceMemoryStatus _ => true
  | .devicePoolConfig _ => true
  | .partitionGrant _ => true
  | .partitionRelease _ => true
  | .partitionEnable _ => true
  | .partitionTeardownAtBoundary _ => true
  | .partitionTeardownImmediate _ => true
  | .partitionStatus _ => true
  | .regionLoad _ => true
  | .regionRead _ => true
  | .pipelineLoad _ => true
  | .pipelinePause _ => true
  | .pipelineResume _ => true
  | .pipelineStepDigest _ => true
  | .streamOpen _ => true
  | .streamClose _ => true
  | .streamStatus _ => true
  | .randomSeedSet _ => true
  | .randomEntropyRead _ => true
  | .randomStatus _ => true
  | .randomEvaluate _ => true
  | .routingPlaceReviseNow _ => true
  | .routingPlaceSet _ => true
  | .routingCountersRead _ => true
  | .churnRun _ => true
  | .ingestPortConfig _ => true
  | .ingestStatus _ => true
  | .deliveryOpen _ => true
  | .deliveryClose _ => true
  | .deliveryStatus _ => true
  | .storageAttach _ => true
  | .storageDetach _ => true
  | .storageStatus _ => true
  | .pairStatus _ => true
  | .pairConfig _ => true
  | .pairPlanSet _ => true
  | .pairTakeoverTakeOver _ => true
  | .pairTakeoverReleaseIds _ => true
  | .pairMove _ => true
  | .logRead _ => true
  | .diagRunSelfTest _ _ => true
  | .diagRunScoreboardDump _ => true
  | .diagRunLockstepCheck _ _ => true
  | .diagRunLoopback _ _ => true
  | .mbxSubmit _ => true
  | .mbxRelease _ => true
  | .sqDoorbell _ _ => true
  | .descriptorConsume _ _ => true
  | .deferredCommandStart _ => true
  | .cqHeadAdvance _ head => decide (head.toNat < 4096)
  | .sqEnable _ => true
  | .sqDisable _ => true
  | .cqEnable _ => true
  | .cqDisable _ => true
  | .msixVectorUnmask _ _ => true
  | .registerWrite _ offset bytes => decide (offset + bytes.length ≤ 65536)
  | .bar0MisalignedAccess _ offset _ _ => decide (offset < 65536)
  | .mailboxTimeout _ => true
  | .cqFullTimeout _ => true
  | .irqCoalesceTimeout _ => true
  | .hostDmaComplete _ _ => true
  | .hostCompletionTimeout _ => true
  | .tlpReplay => true
  | .pcieConfigRequest _ => true
  | .vfFlr _ => true
  | .pfFlr => true
  | .pcieHotReset => true
  | .hostLinkDown => true
  | .hostLinkUp rate width => decide (1 ≤ rate) && decide (rate ≤ 6) && decide (1 ≤ width) && decide (width ≤ 16)
  | .vfEnableSet numVfs => decide (numVfs ≤ 64)
  | .d3hotEntry _ => true
  | .d0Return _ => true
  | .powerInputsGood => true
  | .railOutOfRange rail => decide (rail < 8)
  | .mainInputLoss => true
  | .auxInputRemoved => true
  | .perstAssert => true
  | .perstDeassert => true
  | .imageVerifyDone => true
  | .resetDelayExpiry => true
  | .warmResetBegin => true
  | .refclkLost => true
  | .rootPllLockLost => true
  | .refclkReturn => true
  | .asyncFifoFault stop client _ => decide (stop < 32) && decide (client < 14)
  | .pairALockstepMismatch => true
  | .pairAFirmwareWatchdog => true
  | .pairBLockstepMismatch => true
  | .domainPowerUpDone _ badTiles => badTiles.all (fun t => decide (t < 8192))
  | .domainPowerUpFail _ => true
  | .domainPowerDownDone _ => true
  | .powerGoodLoss _ => true
  | .poolEntersService => true
  | .granuleZeroed _ mode _ => decide (mode < 3)
  | .windowZeroed _ _ => true
  | .teardownPhase _ _ => true
  | .teardownComplete _ => true
  | .tileResetDone tile => decide (tile < 8192)
  | .tileSramUncorrectable tile offset _ => decide (tile < 8192) && decide (offset < 49152)
  | .tilePatrolScrub tile line _ _ => decide (tile < 8192) && decide (line < 768)
  | .correctedErrorsSecond => true
  | .tileImageFault tile _ _ => decide (tile < 8192)
  | .flitCrcFail x y => decide (x < 132) && decide (y < 64)
  | .flitReplayDone x y _ _ => decide (x < 132) && decide (y < 64)
  | .syncLaneMismatch x y _ => decide (x < 132) && decide (y < 64)
  | .meshPacketArrival tile _ => decide (tile < 8192)
  | .reservedSlotStart => true
  | .barrierArrival _ _ _ tile _ => decide (tile < 8192)
  | .flagContributionChange _ _ _ tile _ => decide (tile < 8192)
  | .nearMemoryAccess _ => true
  | .nearMemoryUncorrectable dpa _ => decide (dpa < 2 ^ 40)
  | .nearMemoryRereadDone dpa _ => decide (dpa < 2 ^ 40)
  | .memoryPatrolScrub ch _ _ => decide (ch < 32)
  | .bufferReserve q => decide (q.counts.length = 5)
  | .poolSetDecide => true
  | .bufferDraw _ _ _ _ _ => true
  | .bufferUnreserve _ _ _ _ => true
  | .bufferHandOff _ _ _ _ => true
  | .handOffApply _ _ => true
  | .bufferRelease _ _ _ => true
  | .bufferAccess _ _ _ _ _ _ => true
  | .noBufferWakeTimeout q => decide (q.counts.length = 5)
  | .freeStoreFetchDone _ => true
  | .descriptorCacheFill _ _ _ => true
  | .admissionAttempt _ => true
  | .schedulerIssue _ _ => true
  | .stageComplete _ _ _ _ => true
  | .routeCountsReport _ _ _ => true
  | .listBuildDone => true
  | .stepBoundary _ => true
  | .stepWatchdogExpiry _ => true
  | .stillJobComplete jpeg engine _ => decide (engine < (if jpeg then 8 else 16))
  | .stillJobTimeout jpeg engine => decide (engine < (if jpeg then 8 else 16))
  | .warpJobComplete cluster => decide (cluster < 128)
  | .warpParityError cluster => decide (cluster < 128)
  | .segmentReady _ _ _ => true
  | .segmentComplete core _ _ => decide (core < 24)
  | .segmentTimeout core => decide (core < 24)
  | .entropyBlockReady _ => true
  | .entropyHealthFail test => decide (test = 1) || decide (test = 2)
  | .entropyRestartDone _ => true
  | .laneKeyExhausted tile lane => decide (tile < 8192) && decide (lane < 16)
  | .churnSliceStart => true
  | .churnSaveLoadDone _ => true
  | .churnRunEnd => true
  | .packingBudgetExpiry _ _ => true
  | .placementBudgetExpiry _ => true
  | .churnSramUncorrectable => true
  | .ethernetLinkUp port => decide (port < 8)
  | .ethernetLinkDown port => decide (port < 8)
  | .linkRetrainTick port => decide (port < 8)
  | .linkTrainingFail port => decide (port < 8)
  | .ethernetFrameReceived port _ => decide (port < 8)
  | .gvspLeader _ _ _ => true
  | .gvspPayload _ _ _ => true
  | .gvspTrailer _ _ _ => true
  | .gvcpMessageReceived port => decide (port < 8)
  | .arpRequestReceived port _ _ => decide (port < 8)
  | .icmpEchoRequest port _ _ => decide (port < 8)
  | .pauseFrameReceived port _ => decide (port < 8)
  | .ptpSync _ _ _ _ => true
  | .ptpFollowUp _ _ => true
  | .ptpDelayResp _ _ _ => true
  | .ptpAnnounce _ _ _ => true
  | .ptpSyncTimeout => true
  | .blockTimeout _ _ => true
  | .streamTimeout _ _ => true
  | .resendDelayExpiry _ _ _ => true
  | .resendTimeout _ _ _ => true
  | .bdpUpdate _ _ _ => true
  | .bdpNakBatch _ _ _ => true
  | .bdpCloseReceived _ _ _ => true
  | .bdpAckTimerExpiry _ _ _ => true
  | .creditTimerExpiry _ _ => true
  | .rcAckTimeout _ _ => true
  | .rnrNakReceived _ _ => true
  | .cnpReceived _ _ => true
  | .rateIncreaseTick _ _ => true
  | .p2pStatusPoll _ _ _ => true
  | .remoteAccessErrorNak _ _ => true
  | .rdmaRequestToDevice _ _ => true
  | .nvmeCompletion port _ => decide (port < 4)
  | .nvmeIoTimeout port _ => decide (port < 4)
  | .nvmeAdminTimeout port _ => decide (port < 4)
  | .nvmeControllerFatal port => decide (port < 4)
  | .driveLinkDown port _ => decide (port < 4)
  | .driveDma port _ _ _ => decide (port < 4)
  | .driveMsixWrite port _ => decide (port < 4)
  | .detachShutdownTimeout port => decide (port < 4)
  | .darradLinkTrained => true
  | .darradFrameError _ => true
  | .darradRetrainDone _ => true
  | .darradTxFailure => true
  | .heartbeat _ _ _ _ _ => true
  | .heartbeatSendTick => true
  | .heartbeatMiss _ => true
  | .departure _ => true
  | .darradHello _ _ _ _ _ _ => true
  | .helloRetryTick => true
  | .hold _ _ => true
  | .mirrorGrant _ _ => true
  | .mirrorStep _ _ => true
  | .mirrorAck _ => true
  | .mirrorAckTimeout _ => true
  | .move _ => true
  | .moveAck _ _ => true
  | .churnProblem _ _ => true
  | .churnStage _ _ => true
  | .seed _ _ => true
  | .seedDone _ _ => true
  | .suspendedResourcesFree _ => true
  | .logRateSecond => true
  | .thermalSample temps => decide (temps.length = 16)
  | .powerWindowEnd _ => true
  | .mctpControlMessage _ _ => true
  | .getThermalPower => true
  | .setPowerLimit _ => true
  | .getSensors => true
  | .fruLatchWrite _ => true
  | .jtagInstruction _ => true
  | .inrushDelayExpiry => true
  | .backgroundZeroingDone _ row => decide (row < 1024)
  | .rootPllLockDone _ => true
  | .pwrGoodHoldExpiry => true
  | .restartLatchRelease => true
  | .rootPortLinkUp port _ => decide (port < 4)
  | .controllerStatusChange port _ => decide (port < 4)
  | .controllerReadyTimeout port => decide (port < 4)
  | .rcTransportAck _ _ => true
  | .darradUnknownFrame _ => true

end Sys2Proof
end

