-- ==== Sys2Proof/Tests/Slice0.lean ====
section
/-!
SUPPORT. The model's own tests: an ill-formed term for each check of `Instr.wf`, worked examples of the spec, and for
every statement that has hypotheses a theorem `witness_<statement>`, which gives for each of its clauses a concrete state
and operands that meet the clause's hypotheses together.
-/
namespace Sys2Proof.Tests
open Sys2Proof.Machine Sys2Proof.Claims

set_option Elab.async false

/-! ## Concrete states -/

/-- A device that runs: link up, VFs enabled, every domain on, the pool in service, the PF's rings enabled. -/
def live : State :=
  { State.reset with
    ao := { State.reset.ao with
      boot := { phase := .running, slot := 0 }
      clk := { onInternal := false, pllLocked := true, stopped := false }
      pwr := { dom := Vector.replicate 8 .on } }
    host := { State.reset.host with
      fns := State.reset.host.fns.set 0 { ring := { sqEn := true, cqEn := true, phase := true } }
      link := { up := true, rate := 5, width := 16, vfEnable := true, numVfs := 64, rrs := false } }
    units := { State.reset.units with pool := { inService := true } } }

/-- A request of the PF's mailbox, and one of its ring, that may commit. -/
def req (op part : Nat) (payload : List Byte) : Req := { fn := 0, ring := false, seq := 0, opcode := op, part := part, payload := payload }

def ringReq (op part : Nat) (payload : List Byte) : Req := { req op part payload with ring := true }

/-- The state with one open request. -/
def asked (r : Req) (s : State) : State := modHost (fun h => { h with reqs := [r] }) s

/-- The state with partition p replaced. -/
def withPart (p : Pid) (q : Part) (s : State) : State := modPart p (fun _ => q) s

/-- Turn, as a computation. -/
def turnB (s : State) (i : ReqId) (op : Nat) (r : Req) : Bool :=
  decide (headReq s = some r) && decide (r.id = i) && r.opcode == op && r.phase == .ready && stateOk s r
    && !(partAt s r.part).conflict && !(fnOf s r.fn).ring.stall

theorem turn_of {s : State} {i : ReqId} {op : Nat} {r : Req} (h : turnB s i op r = true) : Turn s i op r := by
  simp only [turnB, Bool.and_eq_true, decide_eq_true_eq, beq_iff_eq, Bool.not_eq_true'] at h
  obtain ⟨⟨⟨⟨⟨⟨a, b⟩, c⟩, d⟩, e⟩, f⟩, g⟩ := h
  exact ⟨a, b, c, d, e, f, g⟩

/-- The PF's mailbox, ring and interrupt blocks replaced. -/
def withMbx (m : MbxBlock) (s : State) : State := modMbx 0 (fun _ => m) s

def withRing (r : RingBlock) (s : State) : State := modRing 0 (fun _ => r) s

def withIrq (q : IrqBlock) (s : State) : State := modIrq 0 (fun _ => q) s

/-- The request header of Table MBX-5 for interface version 1. -/
def header (op flags tag len part seq : Nat) : List Byte :=
  toLe 2 op ++ toLe 2 flags ++ toLe 4 tag ++ toLe 4 len ++ toLe 1 part ++ toLe 1 1 ++ zeros 2 ++ toLe 4 seq ++ zeros 12

/-- A mailbox that holds the header. -/
def boxed (b : List Byte) (m : MbxBlock) : MbxBlock := { m with reqWin := memWriteN [] 0 b }

/-- The descriptor of Table MBX-9 for a device-level command without command data. -/
def descriptor (op : Nat) : List Byte :=
  toLe 2 op ++ zeros 18 ++ toLe 1 0xFF ++ toLe 1 1 ++ zeros 18 ++ toLe 4 4064 ++ zeros 20

/-- A ring that runs. -/
def liveRing : RingBlock := { sqEn := true, cqEn := true, phase := true }

/-- A completion, and a host DMA that serves it. -/
def cqe : Cqe := ⟨0, 0, 0, 0, 0x0101, 0, 0, false, false, true, 0, []⟩

def dmaOf (k : DmaKind) : DmaOp := ⟨7, 0, k, 64, [], 32, false, false⟩

def withDma (d : DmaOp) (s : State) : State := modHost (fun h => { h with dma := [d], nextTag := 8 }) s

def modLink (g : LinkBlock → LinkBlock) (s : State) : State := modHost (fun h => { h with link := g h.link }) s

/-- A claim about every domain number, from the eight domains and what an absent one reads as. -/
theorem dom_all {s : State} {P : DomSt → Prop} (h : ∀ d : Fin 8, P (s.ao.pwr.dom.get d)) (h0 : P .off) (d : Nat) :
    P (domOf s d) := by
  by_cases e : d < 8
  · exact cast (congrArg P (vget_of_lt s.ao.pwr.dom .off e).symm) (h ⟨d, e⟩)
  · exact cast (congrArg P (vget_of_ge s.ao.pwr.dom .off (Nat.le_of_not_lt e)).symm) h0

/-- One domain in another state. -/
def dom (n : Nat) (d : DomSt) (s : State) : State := setDom n d s

/-- A boot image of the least length, signed under the key of `bootFuse` (all-zero payload). -/
def bootKey : List Byte := 4 ::
  toBe 48 0xc787d37c05c2c199a12c7e85baa2354aaad83260c08a156dce611b3cdfce17076f28fc663c8a5f74b82e910595e2d6b5
  ++ toBe 48 0xc8cc2cd81f71dc13134d55f1ae20a8d70ee52add3b9ab0387e96efb2ccfae6da6b81128990b1a142c2bfc26119801766
def bootImage : List Byte := toLe 4 0x57464854 ++ toLe 4 1 ++ toLe 4 5 ++ toLe 4 4096 ++ zeros 16 ++ bootKey ++ zeros 127
  ++ toBe 48 0xf627deefd9038257143dc6e0dad366aabbd01c832d056df486f456d2af456e53af496f0695a5750bf84d31d945975e7f
  ++ toBe 48 0x73e6f26b6880d564522169cfd2af69373aa7a400e2bfd33625a4ae4651d7660ee8ce11c2f8f6a2b02fbe21ac6103995c
def bootFuse : FuseSt := { keyHash := sha384 bootKey, rollback := 5 }

/-- The boot ROM verifying a slot. -/
def verifying (img : List Byte) (tried : List Nat) : State :=
  modAo (fun a => { a with boot := { phase := .verifying, slot := 0, tried := tried }, fuse := bootFuse, fw := { slotA := img } }) live

/-- A claim about the domains of a range, by number. -/
theorem dom_range {s : State} (h : ∀ d : Fin 8, 2 ≤ d.val → domOf s d.val = .on) (d : Nat) (l : 2 ≤ d) (u : d < 8) :
    domOf s d = .on := h ⟨d, u⟩ l

/-- The 120 bytes of Table CMD-6 for a mask of clusters and one of cores. -/
def grantFor (clusters cores : Nat) : List Byte := toLe 16 clusters ++ zeros 12 ++ toLe 3 cores ++ zeros 89

/-- A granule of mode ALL, and a window that holds it. -/
def granule : Granule := ⟨⟨true, 8⟩, ⟨false, 8⟩⟩

def window : Window := { all := [granule] }

/-- An image whose copy lies at window address 0, hashed over no bytes, with one placement of one cluster. -/
def image : Image :=
  { hdr := { hash := imageHash [], numerics := State.reset.ao.fw.numerics, interfaceVersion := 1, maxInFlight := 4, stepsInFlight := 1, samplesPerStep := 2, batchesPerStep := 1 }
    body := { placements := [{ sampleEntries := [1], stepEntries := [1] }]
              regions := [{ role := .stepRecords, addr := 4096, size := 4096, entries := 32 }] } }

/-- A partition that holds cluster 0 and a window, with the image loaded. -/
def loaded : Part :=
  { st := .granted, g := { clusters := [0], win := window }, ld := { image := some image, placement := 0 } }
theorem exclusive_loaded : Exclusive (withPart 0 loaded live) := by
  have e : ∀ k : Pid, (partOf (withPart 0 loaded live) k).g = if k = 0 then loaded.g else {} := by decide +kernel
  intro p q h
  rw [e p, e q]
  by_cases h0 : p = 0
  · rw [if_neg (c := q = 0) (fun h1 => h (h0.trans h1.symm))]; simp
  · simp [h0]

/-- A partition that runs an image of the given body. -/
def running (b : ImgBody) : Part :=
  { loaded with
    st := .enabled
    ld := { loaded.ld with image := some { image with body := { b with placements := image.body.placements } } } }

/-- A camera stream of 4 by 4 pixels in two payload packets of 8 bytes, and the stream when it is open. -/
def camera : StreamDecl := { index := 3, port := 7, width := 4, blockH := 4, winH := 4, payloadBytes := 8 }

def openStream : Stream := { index := 3, everOpened := true, codec := { st := 1 } }

/-- Partition 0 holds port 7 and receives the camera's blocks there. -/
def receiving (x : Stream) : State :=
  modPort 7 (fun _ => { link := .up, role := 1, binds := [(3, 1024, 1024, 9)] })
    (withPart 0 { running { streams := [camera] } with streams := [x], g := { loaded.g with ports := [7], cores := [23] } } live)

def block : Block := { uid := 0, win := 0, j := 0, blockId := 7 }

/-- An open step of two samples, of which one is admitted. -/
def openStep : OpenStep := { slot := 0, first := {}, count := 2, samples := [{ off := 0, id := 5 }] }

/-- A problem of one variable and one stage, and the run it becomes. -/
def problem : List Byte :=
  toLe 2 1 ++ zeros 6 ++ [0, 1] ++ zeros 14 ++ toLe 4 0x3F800000 ++ toLe 4 1 ++ zeros 160
def prob : Prob := { n := 1, c := 0, h := [0], js := [], groups := [], start := [], k := 0 }

def run : Run :=
  { kind := 2, part := 0, tag := 3, prob := prob, sched := [{ beta := 0x3F800000, sweeps := 1 }], seed := 0, epoch := 0, sample := 0,
    op := 0, started := true }

/-- Partition 0 with a Churn slice and one run, which holds the unit. -/
def churning (r : Run) : State :=
  modChurn (fun c => { c with holder := some 0 }) (withPart 0 { running {} with g := { loaded.g with churn := [0] }, runs := [r] } live)

/-- A claim about every drive number, from the four drives and what an absent one reads as. -/
theorem drive_all {s : State} {P : Drive → Prop} (h : ∀ d : Fin 4, P (s.units.drives.get d)) (h0 : P {}) (d : Nat) :
    P (driveOf s d) := by
  by_cases e : d < 4
  · exact cast (congrArg P (vget_of_lt s.units.drives {} e).symm) (h ⟨d, e⟩)
  · exact cast (congrArg P (vget_of_ge s.units.drives {} (Nat.le_of_not_lt e)).symm) h0
theorem problem_of {x : ProbRead} {a : Prob} {b : List SchedStage} {c : Bool}
    (h : (match x with
      | .ok a' b' c' => decide (a' = a ∧ b' = b ∧ c' = c)
      | _ => false) = true) : x = .ok a b c := by
  cases x with
  | ok a' b' c' => obtain ⟨rfl, rfl, rfl⟩ := of_decide_eq_true h; rfl
  | malformed => cases h
  | tooLarge => cases h

/-- A Darrad header of the current link sequence, and a paired chip whose link runs. -/
def dh (flags part tag : Nat) : DarradHdr := ⟨flags, 0, 0, 9, part, tag⟩

def linked (s : State) : State :=
  modPair (fun x => { x with link := .up, trained := true, helloSeen := true, st := 3, role := 0 }) s

/-- Partition 0 with a delivery session over port 7, or peer-to-peer, to target 63. -/
def target : Target := { id := 63, st := 2, helloSent := true, par := { port := 7, slots := 256 }, nextSeq := 3, acked := 1, released := 1 }

def sentOne : Sent := ⟨2, 0, 0, {}, [1, 2], [3, 4], [], false, false, true⟩

def delivering (x : Target) : State :=
  modPort 7 (fun _ => { link := .up, role := 2, prefix_ := 24, addr := 0x0A000001 })
    (withPart 0 { running {} with targets := [x], g := { loaded.g with ports := [7] } } live)

/-- A trainer message of Table DLV-3 about target 63, of a type, with the fields after its first eight bytes. -/
def trainer (type : Nat) (b : List Byte) : List Byte := toLe 1 type ++ [1, 63] ++ zeros 5 ++ b ++ zeros (56 - b.length)

/-- Drive 3 replaced. -/
def withDrive (d : Drive) (s : State) : State := modDrive 3 (fun _ => d) s

def nvmeRead : NvmeCmd := { cid := 9, admin := false, op := 0, part := 0, ns := 1, sample := some (0, 0), aperture := 4096, apLen := 512 }

def drive (c : List NvmeCmd) : Drive := { st := 2, cmds := c, queues := [1], mqes := 255 }

/-- What the partner mirrors of partition 0, and the plan to take it over. -/
def mirGrant : MirGrant := { grants := zeros 0x29 ++ [2] ++ zeros 78, seed := some 5, imageHash := [], cursor := 0, records := [] }

def mirStep : MirStep :=
  { boundary := 1, cursor := 0, record := zeros 128, placement := [], version := 0, counters := [], targets := [], streams := []
    perm := [], index := [] }

def mirror : Mirror := { part := 0, grant := some mirGrant }

def plan : Plan := { part := 0, grants := zeros 120, ports := [], win := window }

/-- An image whose copy region takes all of its 4,096 bytes at window address 0. -/
def loadable : Image :=
  { hdr := { image.hdr with length := 4096 }, body := { image.body with regions := [{ role := .imageCopy, size := 4096 }] } }
def loadReq (b : List Byte) : Req :=
  { ringReq 0x0301 0 (zeros 8 ++ toLe 8 4096 ++ toLe 8 0 ++ zeros 8) with bulk := b }

/-- Partition 0 granted and loaded, nothing asked. -/
def idle0 : State := withPart 0 loaded live


/-! ## Ill-formed commands -/

theorem test_wf_numbers : [Instr.cqHeadAdvance 0 4096, .registerWrite 0 65535 [0, 0], .bar0MisalignedAccess 0 65536 4 false,
    .hostLinkUp 0 16, .hostLinkUp 7 16, .hostLinkUp 6 0, .hostLinkUp 6 17, .vfEnableSet 65, .railOutOfRange 8,
    .asyncFifoFault 32 0 false, .asyncFifoFault 0 14 false, .domainPowerUpDone 3 [8192], .granuleZeroed 0 3 0,
    .tileResetDone 8192].all (fun i => !i.wf) = true := by decide

theorem test_wf_tiles : [Instr.tileSramUncorrectable 8192 0 true, .tileSramUncorrectable 0 49152 true,
    .tilePatrolScrub 8192 0 true none, .tilePatrolScrub 0 768 true none, .tileImageFault 8192 .region 0, .flitCrcFail 132 0,
    .flitCrcFail 0 64, .flitReplayDone 132 0 0 true, .flitReplayDone 0 64 0 true, .syncLaneMismatch 132 0 true,
    .syncLaneMismatch 0 64 true, .meshPacketArrival 8192 none, .barrierArrival 0 none 0 8192 true,
    .flagContributionChange 0 none 0 8192 true, .laneKeyExhausted 8192 0, .laneKeyExhausted 0 16].all (fun i => !i.wf) = true := by
  decide

theorem test_wf_memory : [Instr.nearMemoryUncorrectable (2 ^ 40) none, .nearMemoryRereadDone (2 ^ 40) true,
    .memoryPatrolScrub 32 true none, .bufferReserve ⟨0, [0, 0, 0, 0], ⟨0, 0⟩, false⟩,
    .noBufferWakeTimeout ⟨0, [0, 0, 0, 0, 0, 0], ⟨0, 0⟩, false⟩, .backgroundZeroingDone true 1024,
    .thermalSample (List.replicate 15 0)].all (fun i => !i.wf) = true := by decide

theorem test_wf_units : [Instr.stillJobComplete true 8 (.error 1 0), .stillJobComplete false 16 (.error 1 0), .stillJobTimeout true 8,
    .stillJobTimeout false 16, .warpJobComplete 128, .warpParityError 128, .segmentComplete 24 0 .engineFault, .segmentTimeout 24,
    .entropyHealthFail 0, .entropyHealthFail 3].all (fun i => !i.wf) = true := by decide

theorem test_wf_ports : [Instr.ethernetLinkUp 8, .ethernetLinkDown 8, .linkRetrainTick 8, .linkTrainingFail 8,
    .ethernetFrameReceived 8 ⟨true, 64, true, none, 0, false, 17, 0, 0, 0, true, 0⟩, .gvcpMessageReceived 8,
    .arpRequestReceived 8 0 0, .icmpEchoRequest 8 0 [], .pauseFrameReceived 8 none, .nvmeCompletion 4 ⟨0, 0, 0, 0, 0, false, false⟩,
    .nvmeIoTimeout 4 0, .nvmeAdminTimeout 4 0, .nvmeControllerFatal 4, .driveLinkDown 4 true, .driveDma 4 0 0 none,
    .driveMsixWrite 4 0, .detachShutdownTimeout 4, .rootPortLinkUp 4 .failed, .controllerStatusChange 4 .failed,
    .controllerReadyTimeout 4].all (fun i => !i.wf) = true := by decide

theorem test_wf_commands_pass : [Instr.cqHeadAdvance 0 4095, .registerWrite 0 65532 [0, 0, 0, 0], .hostLinkUp 6 16,
    .vfEnableSet 64, .asyncFifoFault 31 13 true, .tileResetDone 8191, .tileSramUncorrectable 8191 49151 true,
    .tilePatrolScrub 8191 767 true none, .flitCrcFail 131 63, .memoryPatrolScrub 31 true none,
    .bufferReserve ⟨0, [0, 0, 0, 0, 0], ⟨0, 0⟩, false⟩, .stillJobTimeout false 15, .segmentTimeout 23, .entropyHealthFail 1,
    .laneKeyExhausted 8191 15, .gvcpMessageReceived 7, .controllerReadyTimeout 3, .backgroundZeroingDone false 1023,
    .powerInputsGood].all (fun i => i.wf) = true := by decide

/-! ## Worked examples of the spec -/

/-- Table RNG-4: round 5 and the output of Dill at seed 0, index 0. -/
theorem test_dill_table : dill 0 0 = 0x99B0083031439AC12192702C283A5CF5#128
    ∧ dillRound (dillInject (dillKey 0) 1 ⟨0, 0, 0, 0⟩) = ⟨0x23A5DC7B, 0xD3AFC3DB, 0xDF986141, 0x17E626E4⟩ := by
  decide +kernel

/-- Random Numbers, Case: the logical index of candidate 3, and the noise of an output whose low word is 0. -/
theorem test_crop_draw : dillIndex 7 0x1388A2 0x0401 (2 ^ 55 + 259) = 0x000700001388A204_0180000000000103#128
    ∧ log2q (33 * 2 ^ 24) = 487284074 := by decide +kernel

/-- Tokenizer and Experts, Case: a token's key, and the 640 ranks of three and of two replicas. -/
theorem test_token_key : routeKey 0x3F400000 (5 * 2 ^ 24 + 1234) = 0x3F400000FFFAFFFB2D
    ∧ ranksPer 640 3 = 214 ∧ ranksPer 640 2 = 320 := by decide +kernel

/-- Near-Memory, Case: window address 0x0A43_2D00 of a granule of rows 8. -/
theorem test_translation : translate window 0x0A432D00 = some 0x0040_1052_1900 := by decide +kernel

/-- Tile Array: a bad core at (12, 44) and a bad router at (70, 9). -/
theorem test_tile_map : physOf [(1, 44, 12), (2, 9, 70)] 5283 = (20, 44)
    ∧ (hiddenCols [(1, 44, 12), (2, 9, 70)] 9 1).contains 66 = true
    ∧ (visibleCols [(1, 44, 12), (2, 9, 70)] 9 1).take 4 = [67, 68, 69, 71] := by decide +kernel

/-- On-Die Networks, Case: the Reserved slots of partitions 3 and 7, the gap, and the bounds. -/
theorem test_reserved_bound : assignSlots 64 8 [] = [0, 8, 16, 24, 32, 40, 48, 56]
    ∧ assignSlots 64 4 [0, 8, 16, 24, 32, 40, 48, 56] = [1, 17, 33, 49] ∧ largestGap 64 [1, 17, 33, 49] = 16
    ∧ tBound 8 110 128 = 16846 ∧ tBound 4 110 128 = 8654 := by decide +kernel

/-- Image Transforms, Case: output pixel (0, 1) of a bilinear downscale by 2. -/
theorem test_warp_pixel : warpPixel { outFmt := 1, boxW := 4, boxH := 2, a00 := 0x20000, a11 := 0x20000, kernel := 1, edge := 1 }
    ⟨4, 2, 1, [0, 0, 1000, 1002, 0, 0, 1001, 1003]⟩ 0 1 = 1002 := by decide +kernel

/-- Video Codec, Case: row 10 of picture 81, and the hint of 800 counts. -/
theorem test_rate_control : rowQp
      { rateMode := 1, picH := 2176, tP := 2000000, tI := 8000000, bucket := 16000000, qpInit := 30, qpMax := 51 }
      { n := 81, f := 9400000, fHist := [9400000] } false 480000 10 31 = 32
    ∧ biasRows { rho := 13107 } (some 1800) (some 1000) = -160 := by decide +kernel

/-- Camera Ingest, Case: packets of a block. -/
theorem test_packets : packetsOf { width := 4096, blockH := 256, pixFmt := 1, payloadBytes := 8192, chunkBytes := 64 } = 193 := by
  decide +kernel

/-- Churn Annealer, Case: the static and dynamic bytes of the problem, and the budget the check needs. -/
theorem test_churn_check : probStatic 128 1984 32 = 48384 ∧ probDynamic 128 = 6208 ∧ packNeedUs 128 32 1984 31 4 = some 500 := by
  decide +kernel

/-- Errors and Recovery, Case: the tag of segment 99 of window 920,480. -/
theorem test_segment_tag : segTag { part := 3, stream := 5, win := 920480, seg := 99 } = 0x0000000E0BA000C6 := by decide +kernel

/-- Module, Case: 95 °C raises the thermal step, and ten samples at 91.9375 °C bring it back. -/
theorem test_thermal_step : (thermalNext 1520 {}).tStep = 1
    ∧ (thermalNext 1471 { tStep := 1, coolMs := 9 }).tStep = 0 ∧ (thermalNext 1473 { tStep := 1, coolMs := 9 }).tStep = 1 := by
  decide +kernel

/-- Buffer Pool, Case: partitions 7 and 3 in rank order from pointer 4, and in the other order from pointer 8. -/
theorem test_pool_rank :
    (rankSet (modPool (fun p => { p with pointer := 4 }) State.reset)
      [⟨3, [0, 0, 0, 0, 1], ⟨0, 20⟩, true⟩, ⟨7, [0, 0, 0, 0, 1], ⟨0, 90⟩, true⟩]).map (fun q => q.part) = [7, 3]
    ∧ (rankSet (modPool (fun p => { p with pointer := 8 }) State.reset)
      [⟨7, [0, 0, 0, 0, 1], ⟨0, 90⟩, true⟩, ⟨3, [0, 0, 0, 0, 1], ⟨0, 20⟩, true⟩]).map (fun q => q.part) = [3, 7] := by
  decide +kernel

/-- FIPS 180-4: SHA-384 of "abc". -/
theorem test_sha384 : sha384 [0x61, 0x62, 0x63]
    = toBe 48 0xcb00753f45a35e8bb5a03d699ac65007272c32ab0eded1631a8b605a43ff5bed8086072ba1e7cc2358baeca134c825a7 := by
  decide +kernel

/-! ## Witnesses of the statements -/

theorem witness_EveryStepGoesOn : ∃ (s : State), s.pending = [] :=
  ⟨live, by decide +kernel⟩

theorem witness_ResetStateMeetsInvariant : ∃ (d : Nat), 1 ≤ d ∧ d < 8 :=
  ⟨7, by decide +kernel, by decide +kernel⟩

theorem witness_StepKeepsInvariant : ∃ (s : State) (t : State), s.Inv ∧ step s = Host.Outcome.next t :=
  ⟨{ live with pending := [.tlpReplay] }, _, ⟨by decide +kernel, by decide +kernel, by decide +kernel, by decide +kernel⟩, rfl⟩

theorem witness_CommandsKeepQueueFusesAndMessages : ∃ (c : Instr) (s : State) (t : State), exec c s = Host.Outcome.next t :=
  ⟨.mbxRelease 0, live, _, rfl⟩

theorem witness_CursorWindowAndRecordLayouts : (∃ (c : Cursor), c.epoch < 2 ^ 16 ∧ c.step < 2 ^ 32 ∧ c.off < 2 ^ 16) ∧ (∃ (a :
  Ans) (tag : Nat) (seq : Nat) (op : Nat) (flags : Nat) (n : Nat), 32 + a.payload.length ≤ n) :=
  ⟨⟨⟨65535, 4294967295, 65535⟩, by decide +kernel, by decide +kernel, by decide +kernel⟩,
   ⟨ansOk (zeros 4), 1, 2, 3, 0, 36, by decide +kernel⟩⟩

theorem witness_FunctionsServePartitions : (∃ (f : Fn) (part : Nat), ↑f ≠ 0) ∧ (∃ (f : Fn) (part : Nat), ↑f = 0) :=
  ⟨⟨64, 63, by decide +kernel⟩,
   ⟨0, 63, by decide +kernel⟩⟩

theorem witness_MailboxRequests : (∃ (f : Fn) (s : State) (h : List Byte), h = reqHeader (mbx s f) ∧ reachable s f = true ∧ (mbx
  s f).state = MbxSt.idle ∧ s.ao.fw.verMin ≤ field h 13 1 ∧ field h 13 1 ≤ s.ao.fw.verMax ∧ field h 2 2 ≤ 3 ∧ zeroAt h 14 2 =
  true ∧ zeroAt h 20 12 = true ∧ field h 16 4 = (mbx s f).nextSeq ∧ headerChecks s f false (field h 0 2) (field h 8 4) (field h
  12 1) 0 = none) ∧ (∃ (f : Fn) (s : State), reachable s f = true ∧ (mbx s f).state ≠ MbxSt.idle) ∧ (∃ (f : Fn) (s : State) (h :
  List Byte) (st : StoredRsp), h = reqHeader (mbx s f) ∧ reachable s f = true ∧ (mbx s f).state = MbxSt.idle ∧ s.ao.fw.verMin ≤
  field h 13 1 ∧ field h 13 1 ≤ s.ao.fw.verMax ∧ field h 2 2 ≤ 3 ∧ zeroAt h 14 2 = true ∧ zeroAt h 20 12 = true ∧ (field h 16 4
  + 1) % 2 ^ 32 = (mbx s f).nextSeq ∧ field h 16 4 ≠ (mbx s f).nextSeq ∧ (mbx s f).stored = some st ∧ st.opcode = field h 0 2 ∧
  st.tag = field h 4 4) ∧ (∃ (f : Fn) (s : State) (h : List Byte) (k : Nat) (a : Ans), h = reqHeader (mbx s f) ∧ reachable s f =
  true ∧ (mbx s f).state = MbxSt.idle ∧ s.ao.fw.verMin ≤ field h 13 1 ∧ field h 13 1 ≤ s.ao.fw.verMax ∧ field h 2 2 ≤ 3 ∧ zeroAt
  h 14 2 = true ∧ zeroAt h 20 12 = true ∧ field h 16 4 = (mbx s f).nextSeq ∧ headerChecks s f false (field h 0 2) (field h 8 4)
  (field h 12 1) 0 = some (k, a)) ∧ (∃ (f : Fn) (s : State), reachable s f = true ∧ (mbx s f).state = MbxSt.response) ∧ (∃ (f :
  Fn) (s : State), reachable s f = true ∧ (mbx s f).state ≠ MbxSt.response) ∧ (∃ (f : Fn) (s : State) (r : Req), (mbx s f).state
  = MbxSt.busy ∧ (List.find? (fun (q : Req) => decide (q.fn = f) && !q.ring && q.phase != ReqPhase.pending) s.host.reqs = some
  r)) ∧ (∃ (i : ReqId) (s : State) (r : Req), findReq s i = some r ∧ r.phase = ReqPhase.deferred ∧ r.dataLen = 0 ∧ (mustWait
  r.ring r.fn (List.takeWhile (fun (q : Req) => !reqMatches i q) s.host.reqs) = false)) ∧ (∃ (i : ReqId) (s : State) (r : Req),
  headReq s = some r ∧ r.id = i ∧ r.opcode = 257 ∧ r.phase = ReqPhase.ready ∧ (fnOf s r.fn).ring.stall = true ∧ (partAt s
  r.part).conflict = false) :=
  ⟨⟨0, withMbx (boxed (header 0x0101 3 9 0 0xFF 0) {}) live, header 0x0101 3 9 0 0xFF 0, by decide +kernel, by decide +kernel,
  by decide +kernel, by decide +kernel, by decide +kernel, by decide +kernel, by decide +kernel, by decide +kernel,
  by decide +kernel, by decide +kernel⟩,
   ⟨0, withMbx { state := .busy } live, by decide +kernel, by decide +kernel⟩,
   ⟨0, withMbx (boxed (header 0x0101 0 9 0 0xFF 4) { nextSeq := 5, stored := some ⟨0x0101, 9, zeros 72⟩ }) live, header 0x0101 0
  9 0 0xFF 4, ⟨0x0101, 9, zeros 72⟩, by decide +kernel, by decide +kernel, by decide +kernel, by decide +kernel,
  by decide +kernel, by decide +kernel, by decide +kernel, by decide +kernel, by decide +kernel, by decide +kernel,
  by decide +kernel, by decide +kernel, by decide +kernel⟩,
   ⟨0, withMbx (boxed (header 0x0101 0 9 4 0xFF 0) {}) live, header 0x0101 0 9 4 0xFF 0, 5, ansBadLength, by decide +kernel,
  by decide +kernel, by decide +kernel, by decide +kernel, by decide +kernel, by decide +kernel, by decide +kernel,
  by decide +kernel, by decide +kernel, by decide +kernel⟩,
   ⟨0, withMbx { state := .response } live, by decide +kernel, by decide +kernel⟩,
   ⟨0, live, by decide +kernel, by decide +kernel⟩,
   ⟨0, asked (req 0x0101 0xFF []) (withMbx { state := .busy } live), req 0x0101 0xFF [], by decide +kernel, by decide +kernel⟩,
   ⟨⟨0, false, 0⟩, asked { req 0x0101 0xFF [] with phase := .deferred } live, { req 0x0101 0xFF [] with phase := .deferred },
  by decide +kernel, by decide +kernel, by decide +kernel, by decide +kernel⟩,
   ⟨⟨0, false, 0⟩, asked (req 0x0101 0xFF []) (withRing { liveRing with stall := true } live), req 0x0101 0xFF [],
  by decide +kernel, by decide +kernel, by decide +kernel, by decide +kernel, by decide +kernel, by decide +kernel⟩⟩

theorem witness_AnswersReachMailboxOrRing : (∃ (r : Req) (a : Ans) (s : State), r.ring = false ∧ a.pend = false ∧ bit r.flags 0
  = false) ∧ (∃ (a : Ans) (tag : Nat) (seq : Nat) (op : Nat) (flags : Nat) (n : Nat), a.payload.length ≤ 4064 ∧ n < 32 +
  a.payload.length) ∧ (∃ (r : Req) (a : Ans) (s : State), r.ring = true ∧ a.pend = false ∧ s.ao.boot.resetKind = 0 ∧ r.rspAddr =
  0 ∧ (ring s r.fn).cqEn = true ∧ (ring s r.fn).hold = [] ∧ cqFull (ring s r.fn) = false ∧ canDma s r.fn = true) ∧ (∃ (r : Req)
  (a : Ans) (s : State), r.ring = true ∧ a.pend = false ∧ s.ao.boot.resetKind = 0 ∧ r.rspAddr = 0 ∧ (ring s r.fn).cqEn = true ∧
  cqFull (ring s r.fn) = true ∧ (ring s r.fn).hold.length < 256) :=
  ⟨⟨req 0x0101 0xFF [], ansOk, live, by decide +kernel, by decide +kernel, by decide +kernel⟩,
   ⟨ansOk (zeros 4064), 1, 2, 3, 0, 4095, by decide +kernel, by decide +kernel⟩,
   ⟨ringReq 0x0101 0xFF [], ansOk, live, by decide +kernel, by decide +kernel, by decide +kernel, by decide +kernel,
  by decide +kernel, by decide +kernel, by decide +kernel, by decide +kernel⟩,
   ⟨ringReq 0x0101 0xFF [], ansOk, withRing { liveRing with cqHead := 1, hold := List.replicate 255 cqe } live,
  by decide +kernel, by decide +kernel, by decide +kernel, by decide +kernel, by decide +kernel, by decide +kernel,
  by decide +kernel⟩⟩

theorem witness_RingRegistersAndStalls : (∃ (f : Fn) (v : Word32) (s : State), reachable s f = true ∧ BitVec.toNat v % 4096 <
  ringEntries (ring s f).sqSize) ∧ (∃ (f : Fn) (v : Word32) (s : State), reachable s f = true ∧ ringEntries (ring s f).sqSize ≤
  BitVec.toNat v % 4096) ∧ (∃ (f : Fn) (v : Word32) (s : State), reachable s f = true ∧ (ring s f).cqEn = true ∧ (ring s f).hold
  = []) ∧ (∃ (f : Fn) (s : State), reachable s f = true ∧ (ring s f).sqEn = false ∧ (ring s f).sqSize ≤ 8) ∧ (∃ (f : Fn) (s :
  State), reachable s f = true ∧ (ring s f).cqEn = false ∧ (ring s f).cqSize ≤ 8) ∧ (∃ (f : Fn) (s : State), reachable s f =
  true ∧ (ring s f).sqEn = false ∧ 8 < (ring s f).sqSize) ∧ (∃ (f : Fn) (s : State), reachable s f = true ∧ (ring s f).cqEn =
  false ∧ 8 < (ring s f).cqSize) ∧ (∃ (f : Fn) (s : State), reachable s f = true ∧ (ring s f).sqEn = true) ∧ (∃ (f : Fn) (s :
  State), reachable s f = true ∧ (ring s f).cqEn = true) ∧ (∃ (f : Fn) (s : State), (ring s f).cqEn = true ∧ (ring s f).stall =
  false ∧ cqFull (ring s f) = true) :=
  ⟨⟨0, 15, live, by decide +kernel, by decide +kernel⟩,
   ⟨0, 16, live, by decide +kernel, by decide +kernel⟩,
   ⟨0, 4095, live, by decide +kernel, by decide +kernel, by decide +kernel⟩,
   ⟨0, withRing { sqSize := 8 } live, by decide +kernel, by decide +kernel, by decide +kernel⟩,
   ⟨0, withRing { cqSize := 8 } live, by decide +kernel, by decide +kernel, by decide +kernel⟩,
   ⟨0, withRing { sqSize := 9 } live, by decide +kernel, by decide +kernel, by decide +kernel⟩,
   ⟨0, withRing { cqSize := 9 } live, by decide +kernel, by decide +kernel, by decide +kernel⟩,
   ⟨0, asked (ringReq 0x0101 0xFF []) live, by decide +kernel, by decide +kernel⟩,
   ⟨0, withRing { liveRing with hold := [cqe], stall := true } live, by decide +kernel, by decide +kernel⟩,
   ⟨0, withRing { liveRing with cqHead := 1 } live, by decide +kernel, by decide +kernel, by decide +kernel⟩⟩

theorem witness_DescriptorConsumption : (∃ (f : Fn) (s : State) (b : List Byte), canDma s f = true ∧ (ring s f).sqEn = true ∧
  (ring s f).sqHead ≠ (ring s f).sqTail ∧ openSubs s f < 64 ∧ s.ao.fw.verMin ≤ field b 21 1 ∧ field b 21 1 ≤ s.ao.fw.verMax ∧
  field b 2 2 ≤ 1 ∧ zeroAt b 22 2 = true ∧ zeroAt b 28 4 = true ∧ zeroAt b 44 20 = true ∧ field b 24 4 = (ring s f).consumed ∧
  field b 16 4 = 0 ∧ field b 8 8 = 0 ∧ field b 32 8 % 64 = 0 ∧ headerChecks s f true (field b 0 2) 0 (field b 20 1) (field b 40
  4) = none) ∧ (∃ (f : Fn) (s : State) (x : FetchResult), 64 ≤ openSubs s f) :=
  ⟨⟨0, modHost (fun h => { h with reqs := List.replicate 63 (ringReq 0x0101 0xFF []) }) (withRing { liveRing with sqTail := 1 }
  live), descriptor 0x0101, by decide +kernel, by decide +kernel, by decide +kernel, by decide +kernel, by decide +kernel,
  by decide +kernel, by decide +kernel, by decide +kernel, by decide +kernel, by decide +kernel, by decide +kernel,
  by decide +kernel, by decide +kernel, by decide +kernel, by decide +kernel⟩,
   ⟨0, modHost (fun h => { h with reqs := List.replicate 64 (ringReq 0x0101 0xFF []) }) live, .failed, by decide +kernel⟩⟩

theorem witness_RegistersAndInterrupts : (∃ (f : Fn) (off : Nat) (bs : List Byte) (s : State), reachable s f = true ∧ accessOk
  off bs.length = true ∧ 4096 ≤ off ∧ off + bs.length ≤ 8192) ∧ (∃ (f : Fn) (v : Nat) (s : State), v < 2 ^ 32 ∧ reachable s f =
  true) ∧ (∃ (f : Fn) (v : Nat) (s : State), v < 2 ^ 32 ∧ reachable s f = true ∧ (ring s f).sqEn = false) ∧ (∃ (f : Fn) (v :
  Nat) (s : State), v < 2 ^ 32 ∧ reachable s f = true ∧ (ring s f).sqEn = true) ∧ (∃ (f : Fn) (v : Word32) (s : State),
  reachable s f = true) ∧ (∃ (f : Fn) (off : Nat) (w : Nat) (s : State), reachable s f = true ∧ accessOk off w = false) ∧ (∃ (f
  : Fn) (v : Fin 3) (s : State), reachable s f = true ∧ (irq s f).fnMask = false ∧ ((irq s f).table.get v).pending = true ∧ (∀
  (w : Fin 3), w ≠ v → ((irq s f).table.get w).pending = false)) ∧ (∃ (f : Fn) (s : State), (irq s f).unsignalled ≠ 0 ∧ (irq s
  f).mask.getLsbD 1 = false ∧ (irq s f).fnMask = false ∧ ((irq s f).table.get 1).masked = false ∧ canDma s f = true) :=
  ⟨⟨64, 4096, zeros 64, live, by decide +kernel, by decide +kernel, by decide +kernel, by decide +kernel⟩,
   ⟨0, 4294967295, live, by decide +kernel, by decide +kernel⟩,
   ⟨64, 4294967295, live, by decide +kernel, by decide +kernel, by decide +kernel⟩,
   ⟨0, 4294967295, live, by decide +kernel, by decide +kernel, by decide +kernel⟩,
   ⟨0, 3, live, by decide +kernel⟩,
   ⟨0, 0x104, 2, live, by decide +kernel, by decide +kernel⟩,
   ⟨0, 2, withIrq { table := (Vector.replicate 3 {}).set 2 { pending := true } } live, by decide +kernel, by decide +kernel,
  by decide +kernel, by intro w h; revert h; revert w; decide +kernel⟩,
   ⟨0, withIrq { unsignalled := 1, mask := 0, table := Vector.replicate 3 { masked := false } } live, by decide +kernel,
  by decide +kernel, by decide +kernel, by decide +kernel, by decide +kernel⟩⟩

theorem witness_HostDmaCompletions : (∃ (tag : Nat) (s : State) (d : DmaOp) (i : ReqId) (q : Req) (bs : List Byte), (List.find?
  (fun (x : DmaOp) => x.tag == tag) s.host.dma = some d) ∧ d.dead = false ∧ d.retried = false ∧ d.kind = DmaKind.cmdData i ∧
  findReq s i = some q ∧ q.phase = ReqPhase.fetching) ∧ (∃ (tag : Nat) (s : State) (d : DmaOp) (c : Cqe), (List.find? (fun (x :
  DmaOp) => x.tag == tag) s.host.dma = some d) ∧ d.dead = false ∧ d.retried = false ∧ d.kind = DmaKind.completion c ∧ c.irq =
  true) ∧ (∃ (tag : Nat) (s : State) (d : DmaOp), (List.find? (fun (x : DmaOp) => x.tag == tag) s.host.dma = some d) ∧ d.dead =
  false ∧ d.retried = false ∧ ((s.host.dma.all fun (x : DmaOp) => decide (x.tag < s.host.nextTag)) = true)) ∧ (∃ (tag : Nat) (s
  : State) (d : DmaOp) (res : DmaResult), (List.find? (fun (x : DmaOp) => x.tag == tag) s.host.dma = some d) ∧ d.dead = true) ∧
  (∃ (tag : Nat) (s : State) (d : DmaOp), (List.find? (fun (x : DmaOp) => x.tag == tag) s.host.dma = some d) ∧ d.dead = false ∧
  d.retried = false ∧ isRead d.kind = true ∧ ((s.host.dma.all fun (x : DmaOp) => decide (x.tag < s.host.nextTag)) = true)) :=
  ⟨⟨7, withDma (dmaOf (.cmdData ⟨0, false, 0⟩)) (asked { req 0x0101 0xFF [] with phase := .fetching } live), dmaOf (.cmdData ⟨0,
  false, 0⟩), ⟨0, false, 0⟩, { req 0x0101 0xFF [] with phase := .fetching }, [], by decide +kernel, by decide +kernel,
  by decide +kernel, by decide +kernel, by decide +kernel, by decide +kernel⟩,
   ⟨7, withDma (dmaOf (.completion cqe)) live, dmaOf (.completion cqe), cqe, by decide +kernel, by decide +kernel,
  by decide +kernel, by decide +kernel, by decide +kernel⟩,
   ⟨7, withDma (dmaOf (.completion cqe)) live, dmaOf (.completion cqe), by decide +kernel, by decide +kernel, by decide +kernel,
  by decide +kernel⟩,
   ⟨7, withDma { dmaOf (.completion cqe) with dead := true } live, { dmaOf (.completion cqe) with dead := true }, .error,
  by decide +kernel, by decide +kernel⟩,
   ⟨7, withDma (dmaOf (.bulkIn ⟨0, false, 0⟩)) live, dmaOf (.bulkIn ⟨0, false, 0⟩), by decide +kernel, by decide +kernel,
  by decide +kernel, by decide +kernel, by decide +kernel⟩⟩

theorem witness_HostLinkAndFunctions : (∃ (f : Fn) (s : State), s.host.link.up = true ∧ fnExists s f = true) ∧ (∃ (rate : Nat)
  (width : Nat) (s : State), domOn s 1 = true ∧ s.ao.clk.refclk = true ∧ s.host.link.fenced = false) ∧ (∃ (f : Fn) (s : State),
  fnExists s f = true) ∧ (∃ (f : Fn) (s : State), (fnOf s f).d3 = true ∧ (ring s f).hold = []) ∧ (∃ (f : Fn) (c : Cqe) (s :
  State), (fnOf s f).d3 = true ∧ s.ao.boot.resetKind = 0 ∧ (ring s f).cqEn = true ∧ (ring s f).hold.length < 256) ∧ (∃ (f : Fn)
  (v : Fin 3) (s : State), (fnOf s f).d3 = true) ∧ (∃ (n : Nat) (s : State), s.host.link.up = true ∧ s.host.link.rrs = false ∧ n
  ≤ 64 ∧ s.host.link.numVfs ≤ n) ∧ (∃ (n : Nat) (s : State) (t : State) (f : Fn), s.host.link.up = true ∧ s.host.link.rrs =
  false ∧ ↑f ≠ 0 ∧ exec (Instr.vfEnableSet n) s = Host.Outcome.next t ∧ min n 64 < ↑f) :=
  ⟨⟨64, live, by decide +kernel, by decide +kernel⟩,
   ⟨6, 16, modLink (fun _ => {}) live, by decide +kernel, by decide +kernel, by decide +kernel⟩,
   ⟨0, live, by decide +kernel⟩,
   ⟨0, modFn 0 (fun x => { x with d3 := true }) live, by decide +kernel, by decide +kernel⟩,
   ⟨0, cqe, modFn 0 (fun x => { x with d3 := true, ring := { liveRing with hold := List.replicate 255 cqe } }) live,
  by decide +kernel, by decide +kernel, by decide +kernel, by decide +kernel⟩,
   ⟨0, 1, modFn 0 (fun x => { x with d3 := true }) live, by decide +kernel⟩,
   ⟨64, live, by decide +kernel, by decide +kernel, by decide +kernel, by decide +kernel⟩,
   ⟨63, live, _, 64, by decide +kernel, by decide +kernel, by decide +kernel, rfl, by decide +kernel⟩⟩

theorem witness_FunctionAndHostResets : (∃ (v : Pid) (s : State), fnExists s (fnOfPart v) = true ∧ s.host.link.up = true ∧
  (partOf s v).st ≠ PSt.enabled) ∧ (∃ (v : Pid) (s : State), fnExists s (fnOfPart v) = true ∧ s.host.link.up = true ∧ (partOf s
  v).sc.steps = [] ∧ (partOf s v).st = PSt.enabled ∧ (partOf s v).sc.pausing = false ∧ (partOf s v).sc.teardownAtBoundary =
  false) ∧ (∃ (c : Instr) (s : State), (c = Instr.pfFlr ∨ c = Instr.pcieHotReset ∨ c = Instr.hostLinkDown) ∧ s.host.link.up =
  true) :=
  ⟨⟨63, withPart 63 { st := .paused } live, by decide +kernel, by decide +kernel, by decide +kernel⟩,
   ⟨63, withPart 63 { st := .enabled } live, by decide +kernel, by decide +kernel, by decide +kernel, by decide +kernel,
  by decide +kernel, by decide +kernel⟩,
   ⟨.hostLinkDown, live, by decide +kernel, by decide +kernel⟩⟩

theorem witness_DeviceReadsAndIdentity : (∃ (i : ReqId) (s : State) (r : Req), Turn s i 257 r) ∧ (∃ (i : ReqId) (s : State) (r :
  Req), Turn s i 259 r) ∧ (∃ (i : ReqId) (s : State) (r : Req), Turn s i 263 r) ∧ (∃ (s : State), s.ao.boot.phase ≠
  BootPhase.rom ∧ s.ao.fuse.rollback ≤ 64 ∧ s.ao.fw.version < 2 ^ 32 ∧ s.ao.fw.numerics < 2 ^ 32 ∧ s.ao.boot.slot < 256) ∧ (∃ (s
  : State) (d : Nat), s.ao.boot.phase ≠ BootPhase.rom ∧ s.ao.fuse.rollback ≤ 64 ∧ s.ao.fw.version < 2 ^ 32 ∧ s.ao.fw.numerics <
  2 ^ 32 ∧ s.ao.boot.slot < 256 ∧ d < 8) ∧ (∃ (i : ReqId) (s : State) (r : Req), Turn s i 262 r ∧ field r.payload 0 1 = 0 ∧
  zeroAt r.payload 3 1 = true ∧ 0 < field r.payload 2 1 ∧ field r.payload 2 1 ≤ 28 ∧ field r.payload 1 1 + field r.payload 2 1 ≤
  128 ∧ (↑r.fn = 0 ∨ ∀ k < field r.payload 2 1, field r.payload 1 1 + k ∈ (partAt s r.part).g.clusters)) ∧ (∃ (i : ReqId) (s :
  State) (r : Req), Turn s i 262 r ∧ field r.payload 0 1 = 1 ∧ zeroAt r.payload 1 3 = true ∧ ↑r.fn = 0) ∧ (∃ (bad : List (Nat ×
  Nat × Nat)) (y : Nat) (h : Nat), h < 2 ∧ ((List.filter (fun (x : Nat) => badAt bad x y != 0) (List.map (fun (i : Nat) => 66 *
  h + i) (List.range 66))).length ≤ 2)) :=
  ⟨⟨⟨0, false, 0⟩, asked (req 0x0101 0xFF ([])) live, req 0x0101 0xFF ([]), turn_of (by decide +kernel)⟩,
   ⟨⟨0, false, 0⟩, asked (req 0x0103 0xFF ([])) live, req 0x0103 0xFF ([]), turn_of (by decide +kernel)⟩,
   ⟨⟨0, false, 0⟩, asked (req 0x0107 0xFF ([])) live, req 0x0107 0xFF ([]), turn_of (by decide +kernel)⟩,
   ⟨live, by decide +kernel, by decide +kernel, by decide +kernel, by decide +kernel, by decide +kernel⟩,
   ⟨live, 7, by decide +kernel, by decide +kernel, by decide +kernel, by decide +kernel, by decide +kernel, by decide +kernel⟩,
   ⟨⟨0, false, 0⟩, asked (req 0x0106 0xFF ([0, 100, 28, 0])) live, req 0x0106 0xFF ([0, 100, 28, 0]), turn_of
  (by decide +kernel), by decide +kernel, by decide +kernel, by decide +kernel, by decide +kernel, by decide +kernel, Or.inl
  rfl⟩,
   ⟨⟨0, false, 0⟩, asked (req 0x0106 0xFF ([1, 0, 0, 0])) live, req 0x0106 0xFF ([1, 0, 0, 0]), turn_of (by decide +kernel),
  by decide +kernel, by decide +kernel, by decide +kernel⟩,
   ⟨[(1, 63, 70), (2, 63, 131)], 63, 1, by decide +kernel, by decide +kernel⟩⟩

theorem witness_DevicePowerSet : (∃ (i : ReqId) (s : State) (r : Req), Turn s i 258 r ∧ r.ring = true ∧ field r.payload 0 1 = 4
  ∧ field r.payload 1 1 = 0 ∧ zeroAt r.payload 2 2 = true ∧ s.ao.pwr.op = none ∧ domOf s 2 = DomSt.off ∧ (∀ (d : Nat), domOf s d
  ≠ DomSt.powering ∧ domOf s d ≠ DomSt.poweringDown)) ∧ (∃ (i : ReqId) (s : State) (r : Req), Turn s i 258 r ∧ powerFields r =
  true ∧ s.ao.pwr.op.isSome = true) :=
  ⟨⟨⟨0, true, 0⟩, asked (ringReq 0x0102 0xFF ([4, 0, 0, 0])) (dom 2 .off live), ringReq 0x0102 0xFF ([4, 0, 0, 0]), turn_of
  (by decide +kernel), by decide +kernel, by decide +kernel, by decide +kernel, by decide +kernel, by decide +kernel,
  by decide +kernel, dom_all (P := fun d => d ≠ .powering ∧ d ≠ .poweringDown) (by decide +kernel) (by decide)⟩,
   ⟨⟨0, false, 0⟩, asked (req 0x0102 0xFF ([4, 0, 0, 0])) (modPwr (fun p => { p with op := some ⟨none, 0, [3], [], some 3⟩ })
  live), req 0x0102 0xFF ([4, 0, 0, 0]), turn_of (by decide +kernel), by decide +kernel, by decide +kernel⟩⟩

theorem witness_DeviceResetKindsAndSilence : (∃ (i : ReqId) (s : State) (r : Req), Turn s i 260 r ∧ field r.payload 0 1 = 1 ∧
  zeroAt r.payload 1 3 = true) ∧ (∃ (i : ReqId) (s : State) (r : Req), Turn s i 260 r ∧ field r.payload 0 1 = 2 ∧ zeroAt
  r.payload 1 3 = true) ∧ (∃ (i : ReqId) (s : State) (r : Req), Turn s i 260 r ∧ field r.payload 0 1 ≠ 1 ∧ field r.payload 0 1 ≠
  2) ∧ (∃ (i : ReqId) (s : State) (r : Req), Turn s i 260 r ∧ field r.payload 0 1 = 1 ∧ zeroAt r.payload 1 3 = false) ∧ (∃ (i :
  ReqId) (s : State) (r : Req), Turn s i 260 r ∧ field r.payload 0 1 = 2 ∧ zeroAt r.payload 1 3 = false) ∧ (∃ (f : Fn) (c : Cqe)
  (s : State), s.ao.boot.resetKind ≠ 0) ∧ (∃ (s : State), s.ao.boot.resetKind ≠ 0) ∧ (∃ (s : State) (i : ReqId) (op : Nat) (sel
  : List Byte → Bool) (fields : State → Req → Bool) (body : Req → State → State × Option Ans), s.ao.boot.resetKind ≠ 0) :=
  ⟨⟨⟨0, false, 0⟩, asked (req 0x0104 0xFF ([1, 0, 0, 0])) live, req 0x0104 0xFF ([1, 0, 0, 0]), turn_of (by decide +kernel),
  by decide +kernel, by decide +kernel⟩,
   ⟨⟨0, false, 0⟩, asked (req 0x0104 0xFF ([2, 0, 0, 0])) live, req 0x0104 0xFF ([2, 0, 0, 0]), turn_of (by decide +kernel),
  by decide +kernel, by decide +kernel⟩,
   ⟨⟨0, false, 0⟩, asked (req 0x0104 0xFF ([3, 0, 0, 0])) live, req 0x0104 0xFF ([3, 0, 0, 0]), turn_of (by decide +kernel),
  by decide +kernel, by decide +kernel⟩,
   ⟨⟨0, false, 0⟩, asked (req 0x0104 0xFF ([1, 0, 0, 1])) live, req 0x0104 0xFF ([1, 0, 0, 1]), turn_of (by decide +kernel),
  by decide +kernel, by decide +kernel⟩,
   ⟨⟨0, false, 0⟩, asked (req 0x0104 0xFF ([2, 1, 0, 0])) live, req 0x0104 0xFF ([2, 1, 0, 0]), turn_of (by decide +kernel),
  by decide +kernel, by decide +kernel⟩,
   ⟨0, cqe, modBoot (fun b => { b with resetKind := 1 }) live, by decide +kernel⟩,
   ⟨modBoot (fun b => { b with resetKind := 2 }) live, by decide +kernel⟩,
   ⟨modBoot (fun b => { b with resetKind := 2 }) live, ⟨0, false, 0⟩, 0x0101, (fun _ => true), (fun _ _ => true), (fun _ s =>
  (s, none)), by decide +kernel⟩⟩

theorem witness_FirmwareAndPoolConfig : (∃ (i : ReqId) (s : State) (r : Req), Turn s i 261 r ∧ fwFields r = true ∧ otherRuns s r
  261 = false ∧ r.bulk = [] ∧ field r.payload 12 1 = 6 ∧ s.ao.fw.rollbackVersion ≤ 64) ∧ (∃ (i : ReqId) (s : State) (r : Req),
  Turn s i 261 r ∧ fwFields r = true ∧ otherRuns s r 261 = false ∧ r.bulk ≠ [] ∧ field r.payload 12 1 = 1) ∧ (∃ (i : ReqId) (s :
  State) (r : Req), Turn s i 264 r ∧ zeroAt r.payload 10 6 = true ∧ nth (cfgRows r.payload) 0 ≤ 4 ∧ metaRowsOf (cfgRows
  r.payload) + sumL (cfgRows r.payload) ≤ 512 ∧ (∀ (p : Pid), (partOf s p).st = PSt.free) ∧ (((heldHalfRows s).any fun (h : HR)
  => (areaRows s.units.mem.retired (metaRowsOf (cfgRows r.payload) + sumL (cfgRows r.payload))).contains h.row) = false)) ∧ (∃
  (s : State), domOn s 2 = true ∧ domOn s 3 = true ∧ domOn s 4 = true ∧ s.units.pool.inService = false) :=
  ⟨⟨⟨0, true, 0⟩, asked (ringReq 0x0105 0xFF (toLe 8 0 ++ toLe 4 25165824 ++ [6, 0, 0, 0])) live, ringReq 0x0105 0xFF (toLe 8 0
  ++ toLe 4 25165824 ++ [6, 0, 0, 0]), turn_of (by decide +kernel), by decide +kernel, by decide +kernel, by decide +kernel,
  by decide +kernel, by decide +kernel⟩,
   ⟨⟨0, true, 0⟩, asked { ringReq 0x0105 0xFF (toLe 8 0 ++ toLe 4 25165824 ++ [1, 0, 0, 0]) with bulk := zeros 64 } live,
  { ringReq 0x0105 0xFF (toLe 8 0 ++ toLe 4 25165824 ++ [1, 0, 0, 0]) with bulk := zeros 64 }, turn_of (by decide +kernel),
  by decide +kernel, by decide +kernel, by decide +kernel, by decide +kernel⟩,
   ⟨⟨0, false, 0⟩, asked (req 0x0108 0xFF (toLe 2 4 ++ toLe 2 100 ++ toLe 2 100 ++ toLe 2 100 ++ toLe 2 200 ++ zeros 6)) live,
  req 0x0108 0xFF (toLe 2 4 ++ toLe 2 100 ++ toLe 2 100 ++ toLe 2 100 ++ toLe 2 200 ++ zeros 6), turn_of (by decide +kernel),
  by decide +kernel, by decide +kernel, by decide +kernel, by decide +kernel, by decide +kernel⟩,
   ⟨modPool (fun _ => {}) live, by decide +kernel, by decide +kernel, by decide +kernel, by decide +kernel⟩⟩

theorem witness_ModuleInputsAndRails : (∃ (s : State), s.ao.mod_.restartLatch = false ∧ s.ao.mod_.thermtrip = false ∧
  s.ao.mod_.rails = false) ∧ (∃ (s : State), (s.ao.mod_.restartLatch = true ∨ s.ao.mod_.thermtrip = true) ∧ s.ao.mod_.rails =
  false) ∧ (∃ (c : Instr) (s : State), s.ao.mod_.rails = true ∧ s.ao.mod_.thermtrip = false ∧ (c = Instr.mainInputLoss ∨ c =
  Instr.auxInputRemoved ∨ ∃ n < 4, c = Instr.railOutOfRange n)) ∧ (∃ (s : State), s.ao.mod_.main = false) ∧ (∃ (s : State),
  s.ao.mod_.pwrGood = true ∧ s.ao.mod_.holdOver = false) :=
  ⟨⟨modModule (fun m => { m with rails := false }) live, by decide +kernel, by decide +kernel, by decide +kernel⟩,
   ⟨modModule (fun m => { m with rails := false, restartLatch := true }) live, by decide +kernel, by decide +kernel⟩,
   ⟨.railOutOfRange 3, live, by decide +kernel, by decide +kernel, Or.inr (Or.inr ⟨3, by decide, rfl⟩)⟩,
   ⟨modModule (fun m => { m with main := false, restartLatch := true }) live, by decide +kernel⟩,
   ⟨modModule (fun m => { m with holdOver := false }) live, by decide +kernel, by decide +kernel⟩⟩

theorem witness_BootSequence : (∃ (s : State), s.ao.mod_.pwrGood = true) ∧ (∃ (s : State), s.ao.mod_.perst = true ∧
  s.ao.mod_.pwrGood = true ∧ s.ao.mod_.holdOver = true) ∧ (∃ (s : State), s.ao.boot.phase = BootPhase.locking) ∧ (∃ (s : State),
  s.ao.boot.phase = BootPhase.locking ∧ s.ao.clk.lockTries = 0) ∧ (∃ (s : State), s.ao.boot.phase = BootPhase.locking ∧
  s.ao.clk.lockTries ≠ 0) ∧ (∃ (d : Domain) (s : State), ↑d = 1 ∧ domOf s 1 = DomSt.powering ∧ s.ao.boot.phase =
  BootPhase.hostUp ∧ s.ao.pwr.op = none) ∧ (∃ (s : State), s.ao.boot.phase = BootPhase.verifying ∧ imageFail s.ao.fuse
  (slotBytes s s.ao.boot.slot) = 0) ∧ (∃ (s : State), s.ao.boot.phase = BootPhase.verifying ∧ imageFail s.ao.fuse (slotBytes s
  s.ao.boot.slot) ≠ 0 ∧ s.ao.boot.tried.length < 2) ∧ (∃ (s : State), s.ao.boot.phase = BootPhase.verifying ∧ imageFail
  s.ao.fuse (slotBytes s s.ao.boot.slot) ≠ 0 ∧ 2 ≤ s.ao.boot.tried.length) :=
  ⟨⟨live, by decide +kernel⟩,
   ⟨State.reset, by decide +kernel, by decide +kernel, by decide +kernel⟩,
   ⟨modBoot (fun b => { b with phase := .locking }) live, by decide +kernel⟩,
   ⟨modBoot (fun b => { b with phase := .locking }) live, by decide +kernel, by decide +kernel⟩,
   ⟨modClk (fun c => { c with lockTries := 1 }) (modBoot (fun b => { b with phase := .locking }) live), by decide +kernel,
  by decide +kernel⟩,
   ⟨1, dom 1 .powering (modBoot (fun b => { b with phase := .hostUp }) live), by decide +kernel, by decide +kernel,
  by decide +kernel, by decide +kernel⟩,
   ⟨verifying bootImage [], by decide +kernel, by decide +kernel⟩,
   ⟨verifying [] [0], by decide +kernel, by decide +kernel, by decide +kernel⟩,
   ⟨verifying [] [0, 1], by decide +kernel, by decide +kernel, by decide +kernel⟩⟩

theorem witness_WarmResetAndLockstep : (∃ (s : State), s.ao.boot.resetKind = 2) ∧ (∃ (s : State), s.ao.boot.resetKind = 1 ∧
  s.ao.boot.warmDue = false) ∧ (∃ (s : State), s.ao.boot.warmDue = true) ∧ (∃ (s : State), s.ao.boot.warmDue = false ∧ domOn s 5
  = true ∧ s.units.pair.trained = true) ∧ (∃ (s : State), s.ao.boot.warmDue = false ∧ (domOn s 5 && s.units.pair.trained) =
  false) ∧
  (∃ (c : Instr) (s : State), (c = Instr.pairALockstepMismatch ∨ c = Instr.pairAFirmwareWatchdog) ∧ s.ao.boot.phase = BootPhase.running ∧ s.ao.boot.warmDue = false)
  ∧ (∃ (s : State), s.ao.boot.phase = BootPhase.running ∧ s.ao.boot.warmDue = false ∧ buildMissed s = true) ∧ (∃ (s : State),
  s.ao.boot.phase = BootPhase.running ∧ s.ao.boot.warmDue = false ∧ buildMissed s = false ∧ s.ao.ctrl.lists ≠ []) :=
  ⟨⟨modBoot (fun b => { b with resetKind := 2 }) live, by decide +kernel⟩,
   ⟨modBoot (fun b => { b with resetKind := 1 }) live, by decide +kernel, by decide +kernel⟩,
   ⟨modBoot (fun b => { b with warmDue := true }) live, by decide +kernel⟩,
   ⟨modPair (fun p => { p with trained := true }) live, by decide +kernel, by decide +kernel, by decide +kernel⟩,
   ⟨live, by decide +kernel, by decide +kernel⟩,
   ⟨.pairAFirmwareWatchdog, live, by decide +kernel, by decide +kernel, by decide +kernel⟩,
   ⟨modCtrl (fun c => { c with lists := [(0, 1)] }) (withPart 0
  { sc := { steps := [{ slot := 1, first := {}, count := 1, pairBMiss := true }] } } live), by decide +kernel,
  by decide +kernel, by decide +kernel⟩,
   ⟨modCtrl (fun c => { c with lists := [(0, 1)] }) (withPart 0
  { sc := { steps := [{ slot := 1, first := {}, count := 1, pairBMiss := false }] } } live), by decide +kernel,
  by decide +kernel, by decide +kernel, by decide +kernel⟩⟩

theorem witness_ClockLossAndRelock : (∃ (c : Instr) (s : State), s.ao.clk.refclk = true ∧ s.ao.clk.lost = 0 ∧ s.ao.clk.pllLocked
  = true ∧ (c = Instr.refclkLost ∨ c = Instr.rootPllLockLost)) ∧ (∃ (s : State), s.ao.clk.refclk = false) ∧ (∃ (s : State),
  s.ao.boot.phase ≠ BootPhase.locking ∧ s.ao.clk.relocking = true) :=
  ⟨⟨.refclkLost, live, by decide +kernel, by decide +kernel, by decide +kernel, by decide +kernel⟩,
   ⟨modClk (fun c => { c with refclk := false }) live, by decide +kernel⟩,
   ⟨modClk (fun c => { c with relocking := true }) live, by decide +kernel, by decide +kernel⟩⟩

theorem witness_PowerDomains : (∃ (d : Domain) (bad : List Nat) (s : State), 2 ≤ ↑d ∧ domOf s ↑d = DomSt.powering ∧ (∀ (o :
  PowerOp), s.ao.pwr.op = some o → o.toOff = [])) ∧ (∃ (d : Domain) (s : State), 2 ≤ ↑d ∧ domOf s ↑d = DomSt.powering ∧ vget
  s.ao.pwr.attempt (↑d) 0 < 2) ∧ (∃ (d : Domain) (s : State), 2 ≤ ↑d ∧ domOf s ↑d = DomSt.powering ∧ 2 ≤ vget s.ao.pwr.attempt
  (↑d) 0 ∧ s.ao.pwr.op = none) ∧ (∃ (d : Domain) (s : State), 2 ≤ ↑d ∧ domOf s ↑d = DomSt.poweringDown ∧ s.ao.pwr.op = none) ∧
  (∃ (d : Domain) (s : State), ↑d = 7 ∧ domOf s 7 = DomSt.on ∧ domOf s 5 = DomSt.on ∧ s.ao.pwr.op = none) ∧ (∃ (d : Domain) (s :
  State), ↑d = 2 ∧ domOf s 2 = DomSt.on ∧ s.ao.pwr.op = none) ∧ (∃ (s : State), s.ao.pwr.inrush = true ∧ s.ao.pwr.op = none) ∧
  (∃ (s : State) (o : PowerOp), s.ao.pwr.inrush = true ∧ s.ao.pwr.op = some o ∧ o.toOn = [4] ∧ o.toOff = [] ∧ domOf s 4 =
  DomSt.off ∧ domOf s 2 = DomSt.on) :=
  ⟨⟨3, [0, 8191], dom 3 .powering live, by decide +kernel, by decide +kernel, by intro o h; cases h⟩,
   ⟨7, dom 7 .powering (modPwr (fun p => { p with attempt := Vector.replicate 8 1 }) live), by decide +kernel,
  by decide +kernel, by decide +kernel⟩,
   ⟨2, dom 2 .powering (modPwr (fun p => { p with attempt := Vector.replicate 8 2 }) live), by decide +kernel,
  by decide +kernel, by decide +kernel, by decide +kernel⟩,
   ⟨2, dom 2 .poweringDown live, by decide +kernel, by decide +kernel, by decide +kernel⟩,
   ⟨7, live, by decide +kernel, by decide +kernel, by decide +kernel, by decide +kernel⟩,
   ⟨2, live, by decide +kernel, by decide +kernel, by decide +kernel⟩,
   ⟨modPwr (fun p => { p with inrush := true }) live, by decide +kernel, by decide +kernel⟩,
   ⟨dom 4 .off (modPwr (fun p => { p with inrush := true, op := some ⟨none, 0, [4], [], none⟩ }) live), ⟨none, 0, [4], [],
  none⟩, by decide +kernel, by decide +kernel, by decide +kernel, by decide +kernel, by decide +kernel, by decide +kernel⟩⟩

theorem witness_FifoAndEthernetLinkFaults : (∃ (stop : Nat) (c : Nat) (ov : Bool) (s : State), c < 8 ∧ fifoLive s c = true ∧
  s.units.mesh.fifoOnce.contains c = false) ∧ (∃ (stop : Nat) (c : Nat) (ov : Bool) (s : State), c < 8 ∧ fifoLive s c = true ∧
  s.units.mesh.fifoOnce.contains c = true) ∧ (∃ (n : Nat) (s : State), n < 8 ∧ domOn s 5 = true ∧ (portOf s n).link =
  LinkSt.down ∧ (portOf s n).role ≠ 0) ∧ (∃ (n : Nat) (s : State), n < 8 ∧ domOn s 5 = true ∧ (portOf s n).link = LinkSt.up) ∧
  (∃ (n : Nat) (s : State), n < 8 ∧ domOn s 5 = true ∧ (portOf s n).link = LinkSt.down ∧ (portOf s n).role ≠ 0 ∧ (portOf s
  n).trainTried = false) ∧ (∃ (n : Nat) (s : State), n < 8 ∧ domOn s 5 = true ∧ (portOf s n).link = LinkSt.down ∧ (portOf s
  n).role ≠ 0 ∧ (portOf s n).trainTried = true) :=
  ⟨⟨31, 7, true, modPort 7 (fun x => { x with link := .up }) live, by decide +kernel, by decide +kernel, by decide +kernel⟩,
   ⟨31, 7, false, modMesh (fun m => { m with fifoOnce := [7] }) (modPort 7 (fun x => { x with link := .up }) live),
  by decide +kernel, by decide +kernel, by decide +kernel⟩,
   ⟨7, modPort 7 (fun x => { x with role := 1 }) live, by decide +kernel, by decide +kernel, by decide +kernel,
  by decide +kernel⟩,
   ⟨7, modPort 7 (fun x => { x with link := .up }) live, by decide +kernel, by decide +kernel, by decide +kernel⟩,
   ⟨0, modPort 0 (fun x => { x with role := 2 }) live, by decide +kernel, by decide +kernel, by decide +kernel,
  by decide +kernel, by decide +kernel⟩,
   ⟨0, modPort 0 (fun x => { x with role := 2, trainTried := true }) live, by decide +kernel, by decide +kernel,
  by decide +kernel, by decide +kernel, by decide +kernel⟩⟩

theorem witness_ThermalPowerAndSideband : (∃ (temps : List Int) (s : State), s.ao.mod_.pwrGood = true ∧ junction
  { s.ao.therm with temps := temps } < 1760) ∧ (∃ (temps : List Int) (s : State), s.ao.mod_.pwrGood = true ∧ s.ao.mod_.rails =
  true ∧ 1760 ≤ junction { s.ao.therm with temps := temps }) ∧ (∃ (mw : Nat) (s : State), s.ao.mod_.pwrGood = true) ∧ (∃ (w :
  Nat) (s : State), s.ao.mod_.pwrGood = true ∧ (550 ≤ w ∧ w ≤ 700)) ∧ (∃ (w : Nat) (s : State), s.ao.mod_.pwrGood = true ∧ (w <
  550 ∨ 700 < w)) ∧ (∃ (s : State), s.ao.mod_.pwrGood = true) ∧ (∃ (s : State) (eid : Nat), s.ao.mod_.pwrGood = true ∧ 0 < eid ∧
  eid < 255) ∧ (∃ (s : State) (cmd : Nat) (arg : Nat), s.ao.mod_.pwrGood = true ∧ cmd ≠ 1 ∧ cmd ≠ 2 ∧ cmd ≠ 4 ∧ cmd ≠ 5 ∧ cmd ≠
  6) ∧ (∃ (s : State), s.ao.therm.tStep ≤ 3 ∧ s.ao.therm.pStep ≤ 3 ∧ s.ao.therm.powerMw < 2 ^ 32 ∧ s.ao.therm.limit < 2 ^ 16) ∧
  (∃ (v : Byte) (s : State), s.ao.mod_.aux = true) ∧ (∃ (v : Byte) (s : State), s.ao.mod_.aux = true ∧ v ≠ 0) ∧ (∃ (s : State),
  s.ao.mod_.pwrGood = true) :=
  ⟨⟨1759 :: List.replicate 15 0, live, by decide +kernel, by decide +kernel⟩,
   ⟨1760 :: List.replicate 15 0, live, by decide +kernel, by decide +kernel, by decide +kernel⟩,
   ⟨700000, live, by decide +kernel⟩,
   ⟨700, live, by decide +kernel, by decide +kernel⟩,
   ⟨701, live, by decide +kernel, by decide +kernel⟩,
   ⟨live, by decide +kernel⟩,
   ⟨live, 254, by decide +kernel, by decide +kernel, by decide +kernel⟩,
   ⟨live, 3, 0, by decide +kernel, by decide +kernel, by decide +kernel, by decide +kernel, by decide +kernel,
  by decide +kernel⟩,
   ⟨modTherm (fun t => { t with tStep := 3, pStep := 3 }) live, by decide +kernel, by decide +kernel, by decide +kernel,
  by decide +kernel⟩,
   ⟨0, live, by decide +kernel⟩,
   ⟨255, live, by decide +kernel, by decide +kernel⟩,
   ⟨live, by decide +kernel⟩⟩

theorem witness_GrantAndReleaseOfUnits : (∃ (i : ReqId) (s : State) (r : Req), Turn s i 513 r ∧ r.part < 64 ∧ grantFields s r =
  true ∧ coresOnly r.payload ∧ (partnerHolds s ↑r.pid = false ∨ (partOf s r.pid).st ≠ PSt.free) ∧ s.ao.pwr.op = none ∧ (∀ (d :
  Nat), 2 ≤ d → d < 8 → domOf s d = DomSt.on) ∧ (∀ c ∈ (parseGrant r.payload).clusters, s.units.unavailable.contains c = false ∧
  (othersHold s r.pid fun (x : Grants) => x.clusters.contains c) = false) ∧ (∀ c ∈ (parseGrant r.payload).cores, (vget
  s.units.cores c { }).fenced = false ∧ (othersHold s r.pid fun (x : Grants) => x.cores.contains c) = false)) ∧ (∃ (i : ReqId)
  (s : State) (r : Req) (c : Nat), Turn s i 513 r ∧ r.part < 64 ∧ grantFields s r = true ∧ coresOnly r.payload ∧ (partnerHolds s
  ↑r.pid = false ∨ (partOf s r.pid).st ≠ PSt.free) ∧ s.ao.pwr.op = none ∧ (∀ (d : Nat), 2 ≤ d → d < 8 → domOf s d = DomSt.on) ∧
  (∀ c ∈ (parseGrant r.payload).clusters, s.units.unavailable.contains c = false) ∧ (∀ c ∈ (parseGrant r.payload).cores, (vget
  s.units.cores c { }).fenced = false) ∧ c ∈ (parseGrant r.payload).clusters ∧ c ∉ (partOf s r.pid).g.clusters ∧ ((othersHold s
  r.pid fun (x : Grants) => x.clusters.contains c) = true)) ∧ (∃ (i : ReqId) (s : State) (r : Req), Turn s i 514 r ∧ r.part < 64
  ∧ releaseFields s r = true ∧ transferOpen s r.pid = false) ∧ (∃ (i : ReqId) (s : State) (r : Req), Turn s i 514 r ∧
  releaseFields s r = true ∧ transferOpen s r.pid = true) :=
  ⟨⟨⟨0, false, 0⟩, asked (req 0x0201 0 (grantFor 3 5)) (withPart 0 { st := .paused, g := { clusters := [0] } } live), req 0x0201
  0 (grantFor 3 5), turn_of (by decide +kernel), by decide +kernel, by decide +kernel, by unfold coresOnly; decide +kernel,
  Or.inl (by decide +kernel), by decide +kernel, dom_range (by decide +kernel), by decide +kernel, by decide +kernel⟩,
   ⟨⟨0, false, 0⟩, asked (req 0x0201 63 (grantFor (2 ^ 127) 0)) (withPart 0 { st := .granted, g := { clusters := [127] } }
  live), req 0x0201 63 (grantFor (2 ^ 127) 0), 127, turn_of (by decide +kernel), by decide +kernel, by decide +kernel,
  by unfold coresOnly; decide +kernel, Or.inl (by decide +kernel), by decide +kernel, dom_range (by decide +kernel),
  by decide +kernel, by decide +kernel, by decide +kernel, by decide +kernel, by decide +kernel⟩,
   ⟨⟨0, false, 0⟩, asked (req 0x0202 0 (grantFor 1 0)) (withPart 0 loaded live), req 0x0202 0 (grantFor 1 0), turn_of
  (by decide +kernel), by decide +kernel, by decide +kernel, by decide +kernel⟩,
   ⟨⟨0, false, 0⟩, modHost (fun h =>
  { h with reqs := [{ ringReq 0x0206 0 [] with phase := .moving }, req 0x0202 0 (grantFor 1 0)] }) (withPart 0 loaded live), req
  0x0202 0 (grantFor 1 0), turn_of (by decide +kernel), by decide +kernel, by decide +kernel⟩⟩

theorem witness_GrantsStayExclusive : ∃ (i : ReqId) (s : State) (t : State), Exclusive s ∧ exec (Instr.partitionGrant i) s =
  Host.Outcome.next t :=
  ⟨⟨0, false, 0⟩, withPart 0 loaded live, _, exclusive_loaded, rfl⟩

theorem witness_EnableResumeAndPause : (∃ (i : ReqId) (s : State) (s' : State) (r : Req), Turn s i 515 r ∧ r.part < 64 ∧
  enableGate r s = none ∧ reserveNow r.pid (standingOf (partOf s r.pid)) s = some s' ∧ (runCheck s' r.pid).shorts = []) ∧ (∃ (i
  : ReqId) (s : State) (s' : State) (r : Req), Turn s i 515 r ∧ r.part < 64 ∧ enableGate r s = none ∧ reserveNow r.pid
  (standingOf (partOf s r.pid)) s = some s' ∧ (runCheck s' r.pid).shorts ≠ []) ∧ (∃ (i : ReqId) (s : State) (r : Req),
  transferOpen s r.pid = false ∧ (partOf s r.pid).g.win.unzero ≠ [] ∧ Turn s i 515 r) ∧ (∃ (i : ReqId) (s : State) (r : Req),
  transferOpen s r.pid = false ∧ (partOf s r.pid).g.win.unzero ≠ [] ∧ Turn s i 771 r) ∧ (∃ (i : ReqId) (s : State) (s' : State)
  (r : Req), Turn s i 771 r ∧ r.part < 64 ∧ enableGate r s = none ∧ reserveNow r.pid (standingOf (partOf s r.pid)) s = some s' ∧
  mustCheck (partOf s r.pid) = false) ∧ (∃ (i : ReqId) (s : State) (r : Req), Turn s i 770 r ∧ r.part < 64 ∧ findReq s i = some
  r ∧ CanPend s r ∧ (partOf s r.pid).sc.pausing = false ∧ (partOf s r.pid).sc.teardownAtBoundary = false ∧ (partOf s
  r.pid).sc.steps = []) ∧ (∃ (i : ReqId) (s : State) (r : Req), Turn s i 770 r ∧ r.part < 64 ∧ findReq s i = some r ∧ CanPend s
  r ∧ (partOf s r.pid).sc.pausing = false ∧ (partOf s r.pid).sc.teardownAtBoundary = false) :=
  ⟨⟨⟨0, false, 0⟩, asked (req 0x0203 0 []) (withPart 0 loaded live), asked (req 0x0203 0 []) (withPart 0 loaded live), req
  0x0203 0 [], turn_of (by decide +kernel), by decide +kernel, by decide +kernel, by decide +kernel, by decide +kernel⟩,
   ⟨⟨0, false, 0⟩, asked (req 0x0203 0 []) (withPart 0 { loaded with ld := {} } live), asked (req 0x0203 0 []) (withPart 0
  { loaded with ld := {} } live), req 0x0203 0 [], turn_of (by decide +kernel), by decide +kernel, by decide +kernel,
  by decide +kernel, by decide +kernel⟩,
   ⟨⟨0, false, 0⟩, asked (req 0x0203 0 ([])) (withPart 0
  { loaded with st := .granted, g := { clusters := [0], win := { window with unzero := [⟨true, 8⟩] } } } live), req 0x0203 0
  ([]), by decide +kernel, by decide +kernel, turn_of (by decide +kernel)⟩,
   ⟨⟨0, false, 0⟩, asked (req 0x0303 0 ([])) (withPart 0
  { loaded with st := .paused, g := { clusters := [0], win := { window with unzero := [⟨true, 8⟩] } } } live), req 0x0303 0
  ([]), by decide +kernel, by decide +kernel, turn_of (by decide +kernel)⟩,
   ⟨⟨0, false, 0⟩, asked (req 0x0303 0 []) (withPart 0
  { loaded with st := .paused, ld := { loaded.ld with lastCheck := zeros 12 } } live), asked (req 0x0303 0 []) (withPart 0
  { loaded with st := .paused, ld := { loaded.ld with lastCheck := zeros 12 } } live), req 0x0303 0 [], turn_of
  (by decide +kernel), by decide +kernel, by decide +kernel, by decide +kernel, by decide +kernel⟩,
   ⟨⟨0, false, 0⟩, asked (req 0x0302 0 ([])) (withPart 0 { loaded with st := .enabled } live), req 0x0302 0 ([]), turn_of
  (by decide +kernel), by decide +kernel, by decide +kernel, by unfold CanPend; decide +kernel, by decide +kernel,
  by decide +kernel, by decide +kernel⟩,
   ⟨⟨0, false, 0⟩, asked (req 0x0302 0 ([])) (withPart 0
  { loaded with st := .enabled, sc := { steps := [{ slot := 0, first := {}, count := 2 }] } } live), req 0x0302 0 ([]), turn_of
  (by decide +kernel), by decide +kernel, by decide +kernel, by unfold CanPend; decide +kernel, by decide +kernel,
  by decide +kernel⟩⟩

theorem witness_TeardownPhases : (∃ (i : ReqId) (s : State) (r : Req), Turn s i 516 r ∧ r.part < 64 ∧ CanPend s r ∧ zeroAt
  r.payload 1 3 = true ∧ field r.payload 0 1 = 1) ∧ (∃ (i : ReqId) (s : State) (r : Req), Turn s i 516 r ∧ r.part < 64 ∧ CanPend
  s r ∧ zeroAt r.payload 1 3 = true ∧ field r.payload 0 1 = 0 ∧ (partOf s r.pid).st ≠ PSt.enabled) ∧ (∃ (i : ReqId) (s : State)
  (r : Req), Turn s i 516 r ∧ r.part < 64 ∧ CanPend s r ∧ zeroAt r.payload 1 3 = true ∧ field r.payload 0 1 = 0 ∧ (partOf s
  r.pid).st = PSt.enabled ∧ (partOf s r.pid).sc.pausing = true) ∧ (∃ (s : State) (r : Req) (c : CmdInfo) (l : List PSt), cmdInfo
  r.opcode = some c ∧ c.states = some l ∧ r.opcode ≠ 517 ∧ r.part ≠ 255 ∧ (partAt s r.part).sc.teardownAtBoundary = true) ∧ (∃
  (p : Pid) (s : State), (partOf s p).st = PSt.tearingDown ∧ (partOf s p).td = 0) ∧ (∃ (p : Pid) (s : State), (partOf s p).st =
  PSt.tearingDown ∧ (partOf s p).td = 2) ∧ (∃ (p : Pid) (s : State), (partOf s p).st = PSt.tearingDown ∧ (partOf s p).td = 4) ∧
  (∃ (p : Pid) (s : State), (partOf s p).st = PSt.tearingDown ∧ (partOf s p).td = 5) ∧ (∃ (p : Pid) (s : State), (partOf s p).st
  = PSt.tearingDown ∧ (partOf s p).td ≠ 0) ∧ (∃ (p : Pid) (s : State), (partOf s p).st = PSt.tearingDown ∧ (partOf s p).td = 3 ∧
  (List.Pairwise (fun (a b : Desc) => (a.cls, a.index) ≠ (b.cls, b.index)) s.units.pool.descs)) ∧ (∃ (p : Pid) (s : State),
  (partOf s p).st = PSt.tearingDown ∧ (partOf s p).td = 6) :=
  ⟨⟨⟨0, false, 0⟩, asked (req 0x0204 0 ([1, 0, 0, 0])) (withPart 0 { loaded with st := .enabled } live), req 0x0204 0 ([1, 0, 0,
  0]), turn_of (by decide +kernel), by decide +kernel, by unfold CanPend; decide +kernel, by decide +kernel, by decide +kernel⟩,
   ⟨⟨0, false, 0⟩, asked (req 0x0204 0 ([0, 0, 0, 0])) (withPart 0 { loaded with st := .fenced } live), req 0x0204 0 ([0, 0, 0,
  0]), turn_of (by decide +kernel), by decide +kernel, by unfold CanPend; decide +kernel, by decide +kernel, by decide +kernel,
  by decide +kernel⟩,
   ⟨⟨0, false, 0⟩, asked (req 0x0204 0 ([0, 0, 0, 0])) (withPart 0 { loaded with st := .enabled, sc := { pausing := true } }
  live), req 0x0204 0 ([0, 0, 0, 0]), turn_of (by decide +kernel), by decide +kernel, by unfold CanPend; decide +kernel,
  by decide +kernel, by decide +kernel, by decide +kernel, by decide +kernel⟩,
   ⟨withPart 0 { loaded with st := .enabled, sc := { teardownAtBoundary := true } } live, req 0x0302 0 [], ⟨true, true, .own,
  some [.enabled], fun k => k == 0, 0, false, false⟩, [.enabled], rfl, rfl, by decide +kernel, by decide +kernel,
  by decide +kernel⟩,
   ⟨0, withPart 0 { loaded with st := .tearingDown, td := 0 } live, by decide +kernel, by decide +kernel⟩,
   ⟨0, withPart 0 { loaded with st := .tearingDown, td := 2 } live, by decide +kernel, by decide +kernel⟩,
   ⟨0, withPart 0 { loaded with st := .tearingDown, td := 4 } live, by decide +kernel, by decide +kernel⟩,
   ⟨0, withPart 0 { loaded with st := .tearingDown, td := 5 } live, by decide +kernel, by decide +kernel⟩,
   ⟨0, withPart 0 { loaded with st := .tearingDown, td := 1 } live, by decide +kernel, by decide +kernel⟩,
   ⟨0, modPool (fun p => { p with descs := [{ cls := 0, index := 0, st := 1 }, { cls := 0, index := 1, st := 2 }] }) (withPart 0
  { loaded with st := .tearingDown, td := 3 } live), by decide +kernel, by decide +kernel, by decide +kernel⟩,
   ⟨0, withPart 0 { loaded with st := .tearingDown, td := 6 } live, by decide +kernel, by decide +kernel⟩⟩

theorem witness_StatusRegionsAndLoad : (∃ (i : ReqId) (s : State) (r : Req), r.part < 64 ∧ Turn s i 517 r ∧ zeroAt r.payload 1 3
  = true ∧ field r.payload 0 1 = 0) ∧ (∃ (i : ReqId) (s : State) (r : Req), r.part < 64 ∧ Turn s i 517 r ∧ zeroAt r.payload 1 3
  = true ∧ field r.payload 0 1 = 1) ∧ (∃ (i : ReqId) (s : State) (r : Req), r.part < 64 ∧ Turn s i 517 r ∧ zeroAt r.payload 1 3
  = true ∧ field r.payload 0 1 = 2) ∧ (∃ (i : ReqId) (s : State) (r : Req), r.part < 64 ∧ Turn s i 517 r ∧ zeroAt r.payload 1 3
  = true ∧ field r.payload 0 1 = 3) ∧ (∃ (i : ReqId) (s : State) (r : Req) (x : Region) (k : Nat), r.part < 64 ∧ Turn s i 772 r
  ∧ regionOf (bodyOf (partOf s r.pid)) Role.stepRecords = some x ∧ (k = List.findIdx (fun (e : Cursor × List Byte) => packCursor
  e.1 == field r.payload 0 8) (partOf s r.pid).sc.recRing) ∧ k < (partOf s r.pid).sc.recRing.length ∧ 0 < x.entries) ∧ (∃ (i :
  ReqId) (s : State) (r : Req), r.part < 64 ∧ Turn s i 772 r ∧ (((partOf s r.pid).sc.recRing.any fun (e : Cursor × List Byte) =>
  packCursor e.1 == field r.payload 0 8) = false)) ∧ (∃ (i : ReqId) (s : State) (r : Req), Turn s i 518 r ∧ regionFields s r =
  true) ∧ (∃ (i : ReqId) (s : State) (r : Req), Turn s i 519 r ∧ r.part < 64 ∧ regionFields s r = true ∧ findReq s i = some r ∧
  (List.filter (fun (q : Req) => q.part == r.part) s.host.reqs = [r]) ∧ rangeZero (partOf s r.pid).g.win (field r.payload 0 8)
  (field r.payload 16 8) = true) ∧ (∃ (i : ReqId) (s : State) (r : Req), regionFields s r = false ∧ Turn s i 518 r) ∧ (∃ (i :
  ReqId) (s : State) (r : Req), regionFields s r = false ∧ Turn s i 519 r) ∧ (∃ (i : ReqId) (s : State) (r : Req), Turn s i 769
  r ∧ loadFields s r = true ∧ transferOpen s r.pid = false ∧ within 4096 1073741824 (field r.payload 8 8) = true ∧ r.bulk = [])
  ∧ (∀ b, readImage b 4096 = some loadable → ∃ (i : ReqId) (s : State) (r : Req) (m : Image) (x : Region), Turn s i 769 r ∧
  r.part < 64 ∧ loadFields s r = true ∧ transferOpen s r.pid = false ∧ within 4096 1073741824 (field r.payload 8 8) = true ∧
  r.bulk ≠ [] ∧ readImage r.bulk (field r.payload 8 8) = some m ∧ versionShort s m.hdr = false ∧ (m.hdr.uniform = true → ∀ c <
  5, c ≠ m.hdr.uniformClass → nth (partOf s r.pid).g.min c = 0) ∧ regionOf m.body Role.imageCopy = some x ∧ regionExcess (partOf
  s r.pid).g.win x = 0 ∧ rangeZero (partOf s r.pid).g.win m.hdr.copyAddress (field r.payload 8 8) = true) ∧ (∃ (i : ReqId) (s :
  State) (r : Req), Turn s i 769 r ∧ loadFields s r = true ∧ transferOpen s r.pid = false ∧ within 4096 1073741824 (field
  r.payload 8 8) = true ∧ r.bulk ≠ [] ∧ readImage r.bulk (field r.payload 8 8) = none) :=
  ⟨⟨⟨0, false, 0⟩, asked (req 0x0205 0 [0, 0, 0, 0]) (withPart 0 loaded live), req 0x0205 0 [0, 0, 0, 0], by decide +kernel,
  turn_of (by decide +kernel), by decide +kernel, by decide +kernel⟩,
   ⟨⟨0, false, 0⟩, asked (req 0x0205 0 [1, 0, 0, 0]) (withPart 0 loaded live), req 0x0205 0 [1, 0, 0, 0], by decide +kernel,
  turn_of (by decide +kernel), by decide +kernel, by decide +kernel⟩,
   ⟨⟨0, false, 0⟩, asked (req 0x0205 0 [2, 0, 0, 0]) (withPart 0 loaded live), req 0x0205 0 [2, 0, 0, 0], by decide +kernel,
  turn_of (by decide +kernel), by decide +kernel, by decide +kernel⟩,
   ⟨⟨0, false, 0⟩, asked (req 0x0205 0 [3, 0, 0, 0]) (withPart 0 loaded live), req 0x0205 0 [3, 0, 0, 0], by decide +kernel,
  turn_of (by decide +kernel), by decide +kernel, by decide +kernel⟩,
   ⟨⟨0, false, 0⟩, asked (req 0x0304 0 (toLe 8 0)) (withPart 0 { loaded with sc := { recRing := [({}, [])], recTotal := 1 } }
  live), req 0x0304 0 (toLe 8 0), image.body.regions.headD {}, 0, by decide +kernel, turn_of (by decide +kernel),
  by decide +kernel, by decide +kernel, by decide +kernel, by decide +kernel⟩,
   ⟨⟨0, false, 0⟩, asked (req 0x0304 0 (toLe 8 0)) (withPart 0 loaded live), req 0x0304 0 (toLe 8 0), by decide +kernel, turn_of
  (by decide +kernel), by decide +kernel⟩,
   ⟨⟨0, true, 0⟩, asked (ringReq 0x0206 0 (toLe 8 (2 ^ 30 - 64) ++ toLe 8 64 ++ toLe 8 64 ++ zeros 8)) (withPart 0 loaded live),
  ringReq 0x0206 0 (toLe 8 (2 ^ 30 - 64) ++ toLe 8 64 ++ toLe 8 64 ++ zeros 8), turn_of (by decide +kernel), by decide +kernel⟩,
   ⟨⟨0, true, 0⟩, asked (ringReq 0x0207 0 (toLe 8 (2 ^ 30 - 64) ++ toLe 8 64 ++ toLe 8 64 ++ zeros 8)) (withPart 0 loaded live),
  ringReq 0x0207 0 (toLe 8 (2 ^ 30 - 64) ++ toLe 8 64 ++ toLe 8 64 ++ zeros 8), turn_of (by decide +kernel), by decide +kernel,
  by decide +kernel, by decide +kernel, by decide +kernel, by decide +kernel⟩,
   ⟨⟨0, true, 0⟩, asked (ringReq 0x0206 0 (toLe 8 (2 ^ 30) ++ toLe 8 64 ++ toLe 8 64 ++ zeros 8)) (withPart 0 loaded live),
  ringReq 0x0206 0 (toLe 8 (2 ^ 30) ++ toLe 8 64 ++ toLe 8 64 ++ zeros 8), by decide +kernel, turn_of (by decide +kernel)⟩,
   ⟨⟨0, true, 0⟩, asked (ringReq 0x0207 0 (toLe 8 (2 ^ 30) ++ toLe 8 64 ++ toLe 8 64 ++ zeros 8)) (withPart 0 loaded live),
  ringReq 0x0207 0 (toLe 8 (2 ^ 30) ++ toLe 8 64 ++ toLe 8 64 ++ zeros 8), by decide +kernel, turn_of (by decide +kernel)⟩,
   ⟨⟨0, true, 0⟩, asked (ringReq 0x0301 0 (zeros 8 ++ toLe 8 4096 ++ toLe 8 0 ++ zeros 8)) (withPart 0 loaded live), ringReq
  0x0301 0 (zeros 8 ++ toLe 8 4096 ++ toLe 8 0 ++ zeros 8), turn_of (by decide +kernel), by decide +kernel, by decide +kernel,
  by decide +kernel, by decide +kernel⟩,
   fun b h => ⟨⟨0, true, 0⟩, asked (loadReq b) idle0, loadReq b, loadable, { role := .imageCopy, size := 4096 }, ⟨rfl, rfl, rfl,
  rfl, (show _ = stateOk idle0 (ringReq 0x0301 0 []) from rfl).trans (by decide +kernel), (show _ = (partAt idle0 0).conflict
  from rfl).trans (by decide +kernel), (show _ = (fnOf idle0 0).ring.stall from rfl).trans (by decide +kernel)⟩, (by decide : 0
  < 64), (show _ = loadFields idle0 (ringReq 0x0301 0 (zeros 8 ++ toLe 8 4096 ++ toLe 8 0 ++ zeros 8)) from rfl).trans
  (by decide +kernel), rfl, (show _ = within 4096 1073741824 (field (zeros 8 ++ toLe 8 4096 ++ toLe 8 0 ++ zeros 8) 8 8) from
  rfl).trans (by decide +kernel), by rintro rfl; exact absurd h (by decide +kernel), (congrArg (readImage b) (show field (zeros
  8 ++ toLe 8 4096 ++ toLe 8 0 ++ zeros 8) 8 8 = 4096 by decide +kernel)).trans h, (show _ = versionShort idle0 loadable.hdr
  from rfl).trans (by decide +kernel), fun e => (by cases e), by decide +kernel, (show _ = regionExcess (partOf idle0 0).g.win
  { role := .imageCopy, size := 4096 } from rfl).trans (by decide +kernel), (show _ = rangeZero (partOf idle0 0).g.win 0 (field
  (zeros 8 ++ toLe 8 4096 ++ toLe 8 0 ++ zeros 8) 8 8) from rfl).trans (by decide +kernel)⟩,
   ⟨⟨0, true, 0⟩, asked { ringReq 0x0301 0 (zeros 8 ++ toLe 8 4096 ++ toLe 8 0 ++ zeros 8) with bulk := [0] } (withPart 0 loaded
  live), { ringReq 0x0301 0 (zeros 8 ++ toLe 8 4096 ++ toLe 8 0 ++ zeros 8) with bulk := [0] }, turn_of (by decide +kernel),
  by decide +kernel, by decide +kernel, by decide +kernel, by decide +kernel, by decide +kernel⟩⟩

theorem witness_WindowTranslation : (∃ (w : Window) (wa : Nat) (d : Nat), translate w wa = some d ∧ (∀ g ∈ w.all ++ w.west ++
  w.east, g.a.row < 1024 ∧ g.b.row < 1024)) ∧ (∃ (g : Granule) (q : Nat) (k : Nat), q < 2 ^ 30 ∧ k < 2 ^ 30 ∧ g.a.row < 1024 ∧
  g.b.row < 1024 ∧ g.a ≠ g.b ∧ granuleDpa g q = granuleDpa g k) :=
  ⟨⟨window, 0x3FFFFFFF, granuleDpa granule 0x3FFFFFFF, by decide +kernel, by decide +kernel⟩,
   ⟨granule, 0x3FFFFFFF, 0x3FFFFFFF, by decide +kernel, by decide +kernel, by decide +kernel, by decide +kernel,
  by decide +kernel, by decide +kernel⟩⟩

theorem witness_WindowZeroing : (∃ (p : Pid) (mode : Nat) (g : Nat) (s : State) (x : Granule), (winMode (partOf s p).g.win
  mode)[g]? = some x ∧ domOn s 2 = true ∧ x.a ∈ (partOf s p).g.win.unzero ∧ x.b ∈ (partOf s p).g.win.unzero ∧ (∀ q ∈
  s.host.reqs, q.part ≠ ↑p)) ∧ (∃ (p : Pid) (s : State), domOn s 2 = true) ∧ (∃ (p : Pid) (s : State) (x : Plan), domOn s 2 =
  true ∧ (List.find? (fun (x : Plan) => x.part == ↑p) s.units.pair.plans = some x)) ∧ (∃ (west : Bool) (row : Nat) (s : State),
  domOn s 2 = true ∧ row < 1024 ∧ halfRowFree s (heldHalfRows s) { west := west, row := row } = true ∧
  s.units.mem.clean.contains { west := west, row := row } = false) :=
  ⟨⟨0, 0, 0, withPart 0 { loaded with g := { win := { window with unzero := [⟨true, 8⟩, ⟨false, 8⟩] } } } live, granule,
  by decide +kernel, by decide +kernel, by decide +kernel, by decide +kernel, by decide +kernel⟩,
   ⟨0, withPart 0 { loaded with g := { win := { window with unzero := [⟨true, 8⟩, ⟨false, 8⟩] } } } live, by decide +kernel⟩,
   ⟨0, modPair (fun p => { p with plans := [{ part := 0, grants := [], ports := [], win := window }] }) live,
  { part := 0, grants := [], ports := [], win := window }, by decide +kernel, by decide +kernel⟩,
   ⟨true, 8, live, by decide +kernel, by decide +kernel, by decide +kernel, by decide +kernel⟩⟩

theorem witness_TileEvents : (∃ (n : Nat) (s : State), (tileOf s n).resetting = true) ∧ (∃ (n : Nat) (off : Nat) (s : State),
  domOn s (clusterDom (n / 64)) = true ∧ (tileOf s n).fenced = false ∧ (tileOf s n).retry = none) ∧ (∃ (n : Nat) (off : Nat) (s
  : State), domOn s (clusterDom (n / 64)) = true ∧ (tileOf s n).fenced = false ∧ (tileOf s n).retry.isSome = true ∧ tileOwner s
  n = none) ∧ (∃ (n : Nat) (line : Nat) (s : State), domOn s (clusterDom (n / 64)) = true ∧ (tileOf s n).fenced = false) ∧ (∃ (n
  : Nat) (line : Nat) (s : State), domOn s (clusterDom (n / 64)) = true ∧ (tileOf s n).fenced = false ∧ lineCovered (tileOf s n)
  line = false) ∧ (∃ (n : Nat) (k : ImgFault) (a : Nat) (p : Pid) (s : State), tileOwner s n = some p ∧ (partOf s p).st =
  PSt.enabled ∧ (partOf s p).sc.teardownAtBoundary = false ∧ (partOf s p).sc.pauseReq = none ∧ (∀ r ∈ s.host.reqs, r.part ≠ ↑p))
  ∧ (∃ (s : State), (domOn s 3 = true ∨ domOn s 4 = true) ∧ s.units.mesh.slotRunning = false) ∧ (∃ (s : State), (domOn s 3 =
  true ∨ domOn s 4 = true) ∧ s.units.mesh.slotRunning = true) :=
  ⟨⟨8191, modUnits (fun u => { u with tiles := [{ id := 8191, resetting := true }] }) live, by decide +kernel⟩,
   ⟨0, 64, live, by decide +kernel, by decide +kernel, by decide +kernel⟩,
   ⟨0, 64, modUnits (fun u => { u with tiles := [{ id := 0, retry := some 64 }] }) live, by decide +kernel, by decide +kernel,
  by decide +kernel, by decide +kernel⟩,
   ⟨8191, 767, live, by decide +kernel, by decide +kernel⟩,
   ⟨8191, 767, live, by decide +kernel, by decide +kernel, by decide +kernel⟩,
   ⟨63, .address, 7, 0, withPart 0 { loaded with st := .enabled } live, by decide +kernel, by decide +kernel, by decide +kernel,
  by decide +kernel, by decide +kernel⟩,
   ⟨live, by decide +kernel, by decide +kernel⟩,
   ⟨modMesh (fun m => { m with slotRunning := true }) live, by decide +kernel, by decide +kernel⟩⟩

theorem witness_MeshEvents : (∃ (x : Nat) (y : Nat) (tag : Nat) (s : State), (domOn s (if x < 66 then 3 else 4) = true)) ∧ (∃ (x
  : Nat) (y : Nat) (tag : Nat) (s : State), (x, y) ∈ s.units.mesh.replays) ∧ (∃ (x : Nat) (y : Nat) (tag : Nat) (s : State) (ok
  : Bool), (x, y) ∉ s.units.mesh.replays) ∧ (∃ (x : Nat) (y : Nat) (tag : Nat) (s : State), (domOn s (if x < 66 then 3 else 4) =
  true)) ∧ (∃ (x : Nat) (y : Nat) (tag : Nat) (s : State), (domOn s (if x < 66 then 3 else 4) = true) ∧ (x, y) ∈
  s.units.mesh.replays) ∧ (∃ (n : Nat) (s : State) (p : Pid), tileOwner s n = some p) ∧ (∃ (p : Pid) (cl : Option Nat) (ctx :
  Nat) (n : Nat) (s : State), inScope (partOf s p) cl n = true ∧ (barrierMask (bodyOf (partOf s p)) cl ctx).contains (relOf
  (partOf s p) (n / 64), n % 64) = true ∧ s.units.mesh.barriers = []) ∧ (∃ (mask : List (Nat × Nat)) (x : Barrier), mask ≠ [] ∧
  (∀ u ∈ mask, u ∈ x.arrived)) ∧ (∃ (mask : List (Nat × Nat)) (x : Barrier), mask ≠ [] ∧ (∃ u ∈ mask, u ∉ x.arrived)) ∧ (∃ (p :
  Pid) (cl : Option Nat) (no : Nat) (n : Nat) (s : State), inScope (partOf s p) cl n = true ∧
  (no < match cl with | some val => (bodyOf (partOf s p)).clusterFlags | none => (bodyOf (partOf s p)).partFlags)) ∧ (∃ (p :
  Pid) (cl : Option Nat) (no : Nat) (n : Nat) (s : State), inScope (partOf s p) cl n = true ∧
  (no < match cl with | some val => (bodyOf (partOf s p)).clusterFlags | none => (bodyOf (partOf s p)).partFlags) ∧
  s.units.mesh.flags = [{ part := p, cluster := cl, no := no, tiles := [n] }]) :=
  ⟨⟨65, 0, 7, live, by decide +kernel⟩,
   ⟨131, 63, 7, modMesh (fun m => { m with replays := [(131, 63)] }) live, by decide +kernel⟩,
   ⟨130, 63, 7, modMesh (fun m => { m with replays := [(131, 63)] }) live, true, by decide +kernel⟩,
   ⟨66, 63, 7, live, by decide +kernel⟩,
   ⟨131, 63, 7, modMesh (fun m => { m with replays := [(131, 63)] }) live, by decide +kernel, by decide +kernel⟩,
   ⟨63, withPart 0 loaded live, 0, by decide +kernel⟩,
   ⟨0, none, 3, 2, withPart 0
  { loaded with ld := { image := some { body := { barriers := [(none, 3, [(0, 5)])], partFlags := 2, clusterFlags := 2 } } } }
  live, by decide +kernel, by decide +kernel, by decide +kernel⟩,
   ⟨[(0, 0), (0, 2)], { part := 0, cluster := none, ctx := 3, arrived := [(0, 2), (0, 0)] }, by decide +kernel,
  by decide +kernel⟩,
   ⟨[(0, 0), (0, 2)], { part := 0, cluster := none, ctx := 3, arrived := [(0, 2)] }, by decide +kernel, ⟨(0, 0),
  by decide +kernel, by decide +kernel⟩⟩,
   ⟨0, none, 1, 63, withPart 0
  { loaded with ld := { image := some { body := { barriers := [(none, 3, [(0, 5)])], partFlags := 2, clusterFlags := 2 } } } }
  live, by decide +kernel, by decide +kernel⟩,
   ⟨0, some 0, 1, 63, modMesh (fun m => { m with flags := [⟨0, some 0, 1, [63]⟩] }) (withPart 0
  { loaded with ld := { image := some { body := { barriers := [(none, 3, [(0, 5)])], partFlags := 2, clusterFlags := 2 } } } }
  live), by decide +kernel, by decide +kernel, by decide +kernel⟩⟩

theorem witness_NearMemoryAccessAndErrors : (∃ (a : MemAccess) (s : State), domOn s 2 = true ∧ plainAccess a ∧ a.write = none ∧
  inWindow (partOf s a.part).g.win a.addr a.len = true) ∧ (∃ (a : MemAccess) (s : State) (bs : List Byte), domOn s 2 = true ∧
  plainAccess a ∧ a.write = some bs ∧ inWindow (partOf s a.part).g.win a.addr bs.length = true ∧ writesRo (partOf s a.part)
  a.addr bs.length = false) ∧ (∃ (a : MemAccess) (b : Byte) (d : Nat) (s : State), domOn s 2 = true ∧ plainAccess a ∧ a.write =
  some [b] ∧ inWindow (partOf s a.part).g.win a.addr 1 = true ∧ writesRo (partOf s a.part) a.addr 1 = false ∧ translate (partOf
  s a.part).g.win a.addr = some d ∧ memWf s.units.mem.cells = true) ∧ (∃ (a : MemAccess) (s : State), domOn s 2 = true ∧
  plainAccess a ∧ a.write = none ∧ inWindow (partOf s a.part).g.win a.addr a.len = false ∧ (partOf s a.part).st = PSt.enabled ∧
  (partOf s a.part).sc.teardownAtBoundary = false ∧ (partOf s a.part).sc.pauseReq = none ∧ (∀ r ∈ s.host.reqs, r.part ≠
  ↑a.part)) ∧ (∃ (dpa : Nat) (p : Option Pid) (s : State), domOn s 2 = true ∧ ((s.units.mem.reread.any fun (x : Nat × Option Pid
  × Bool) => x.1 == unitOf dpa) = false)) ∧ (∃ (dpa : Nat) (p : Option Pid) (s : State), domOn s 2 = true ∧
  ((s.units.mem.reread.any fun (x : Nat × Option Pid × Bool) => x.1 == unitOf dpa) = true)) ∧ (∃ (dpa : Nat) (p : Option Pid) (s
  : State), s.units.mem.reread = [(unitOf dpa, p, false)]) ∧ (∃ (dpa : Nat) (p : Option Pid) (s : State), s.units.mem.reread =
  [(unitOf dpa, p, false)] ∧ rowReserved s (dpaHalfRow (unitOf dpa)).row = false ∧ halfRowOwner s (dpaHalfRow (unitOf dpa)) =
  none ∧ s.units.mem.retired.contains (dpaHalfRow (unitOf dpa)) = false ∧ s.units.mem.retiredCount < 32) ∧ (∃ (s : State) (h :
  HR) (l : List HR), h ∈ s.units.mem.retired) ∧ (∃ (ch : Nat) (c : Bool) (s : State), domOn s 2 = true ∧ ch < 32) :=
  ⟨⟨{ part := 0, unit := ⟨0, 0⟩, tile := some 0, addr := 2 ^ 30 - 64, len := 64, write := none, mx := none, mono := false, mxFp32 := false, mxVals := [] },
  withPart 0 loaded live, by decide +kernel, ⟨rfl, rfl⟩, by decide +kernel, by decide +kernel⟩,
   ⟨{ part := 0, unit := ⟨0, 0⟩, tile := some 0, addr := 2 ^ 30 - 4, len := 4, write := some [1, 2, 3, 4], mx := none, mono := false, mxFp32 := false, mxVals := [] },
  withPart 0 loaded live, [1, 2, 3, 4], by decide +kernel, ⟨rfl, rfl⟩, by decide +kernel, by decide +kernel, by decide +kernel⟩,
   ⟨{ part := 0, unit := ⟨0, 0⟩, tile := some 0, addr := 2 ^ 30 - 1, len := 1, write := some [255], mx := none, mono := false, mxFp32 := false, mxVals := [] },
  255, granuleDpa granule (2 ^ 30 - 1), withPart 0 loaded live, by decide +kernel, ⟨rfl, rfl⟩, by decide +kernel,
  by decide +kernel, by decide +kernel, by decide +kernel, by decide +kernel⟩,
   ⟨{ part := 0, unit := ⟨0, 0⟩, tile := some 0, addr := 2 ^ 30, len := 1, write := none, mx := none, mono := false, mxFp32 := false, mxVals := [] },
  withPart 0 { loaded with st := .enabled } live, by decide +kernel, ⟨rfl, rfl⟩, by decide +kernel, by decide +kernel,
  by decide +kernel, by decide +kernel, by decide +kernel, by decide +kernel⟩,
   ⟨256, none, live, by decide +kernel, by decide +kernel⟩,
   ⟨511, none, modMem (fun m => { m with reread := [(256, none, false)] }) live, by decide +kernel, by decide +kernel⟩,
   ⟨511, none, modMem (fun m => { m with reread := [(256, none, false)] }) live, by decide +kernel⟩,
   ⟨granuleDpa granule 0, none, modMem (fun m => { m with reread := [(unitOf (granuleDpa granule 0), none, false)] }) live,
  by decide +kernel, by decide +kernel, by decide +kernel, by decide +kernel, by decide +kernel⟩,
   ⟨modMem (fun m => { m with retired := [⟨true, 8⟩] }) live, ⟨true, 8⟩, [], by decide +kernel⟩,
   ⟨31, true, live, by decide +kernel, by decide +kernel⟩⟩

theorem witness_WindowsAreIsolated : ∃ (a : MemAccess) (bs : List Byte) (q : Pid) (s : State), domOn s 2 = true ∧ plainAccess a
  ∧ a.write = some bs ∧ inWindow (partOf s a.part).g.win a.addr bs.length = true ∧ writesRo (partOf s a.part) a.addr bs.length =
  false ∧ (∀ x ∈ winHalfRows (partOf s a.part).g.win, x ∉ winHalfRows (partOf s q).g.win) ∧ (∀ w ∈ [(partOf s a.part).g.win,
  (partOf s q).g.win], ∀ x ∈ winHalfRows w, x.row < 1024) ∧ memWf s.units.mem.cells = true :=
  ⟨{ part := 0, unit := ⟨0, 0⟩, tile := some 0, addr := 0, len := 4, write := some [1, 2, 3, 4], mx := none, mono := false, mxFp32 := false, mxVals := [] },
  [1, 2, 3, 4], 1, withPart 1 { g := { win := { all := [⟨⟨true, 9⟩, ⟨false, 1023⟩⟩] } } } (withPart 0 loaded live),
  by decide +kernel, ⟨rfl, rfl⟩, by decide +kernel, by decide +kernel, by decide +kernel, by decide +kernel, by decide +kernel,
  by decide +kernel⟩

theorem witness_ReservationsWholeOrNot : (∃ (q : ReserveReq) (s : State), s.units.pool.inService = true ∧ s.units.pool.cur = []
  ∧ s.units.pool.set = [q] ∧ q.admission = false ∧ shortOf s q = []) ∧ (∃ (q : ReserveReq) (s : State) (c : Nat) (cause : Nat)
  (rest : List (Nat × Nat)), s.units.pool.inService = true ∧ s.units.pool.cur = [] ∧ s.units.pool.set = [q] ∧ q.admission =
  false ∧ shortOf s q = (c, cause) :: rest) :=
  ⟨⟨{ part := 0, counts := [1, 0, 0, 0, 0], by_ := ⟨0, 0⟩, admission := false }, modPool (fun p =>
  { p with set := [{ part := 0, counts := [1, 0, 0, 0, 0], by_ := ⟨0, 0⟩, admission := false }] }) live, by decide +kernel,
  by decide +kernel, by decide +kernel, by decide +kernel, by decide +kernel⟩,
   ⟨{ part := 0, counts := [8388609, 0, 0, 0, 0], by_ := ⟨0, 0⟩, admission := false }, modPool (fun p =>
  { p with set := [{ part := 0, counts := [8388609, 0, 0, 0, 0], by_ := ⟨0, 0⟩, admission := false }] }) live, 0, 2, [],
  by decide +kernel, by decide +kernel, by decide +kernel, by decide +kernel, by decide +kernel⟩⟩

theorem witness_PoolAccountsAndOwnership : (∃ (q : ReserveReq) (s : State), s.units.pool.inService = true) ∧ (∃ (q : ReserveReq)
  (s : State), s.units.pool.inService = false ∧ nth q.counts 0 ≠ 0) ∧ (∃ (s : State) (p : Pid) (c : Nat) (k : Nat) (u : Owner),
  c < 5 ∧ 0 < k) ∧ (∃ (p : Pid) (c : Cls) (u : Owner) (i : Nat) (s : State), s.units.pool.inService = true ∧ nth (partOf s
  p).drawn ↑c < nth (partOf s p).held ↑c ∧ i < capacity s ↑c ∧ ((s.units.pool.descs.any fun (d : Desc) => d.cls == ↑c && d.index
  == i && d.st != 0) = false) ∧ (partOf s p).drawn.length = 5) ∧ (∃ (p : Pid) (c : Cls) (n : Nat) (u : Owner) (s : State),
  s.units.pool.inService = true ∧ (partOf s p).held.length = 5 ∧ n ≤ nth (partOf s p).held ↑c - nth (partOf s p).drawn ↑c) ∧ (∃
  (p : Pid) (u : Owner) (v : Owner) (h : Word64) (d : Desc) (s : State), s.units.pool.inService = true ∧ ownedBy s p u
  (BitVec.toNat h) = some d ∧ unitOk s p v = true) ∧ (∃ (p : Pid) (u : Owner) (v : Owner) (h : Word64) (d : Desc) (s : State) (c
  : Cls) (i : Nat), s.units.pool.inService = true ∧ ownedBy s p u (BitVec.toNat h) = some d ∧ unitOk s p v = true ∧ (descOf s
  (↑c) i).st = 2) ∧ (∃ (p : Pid) (u : Owner) (v : Owner) (h : Word64) (d : Desc) (s : State) (c : Cls) (i : Nat),
  s.units.pool.inService = true ∧ ownedBy s p u (BitVec.toNat h) = some d ∧ unitOk s p v = true ∧ (descOf s (↑c) i).st ≠ 2) ∧ (∃
  (p : Pid) (u : Owner) (h : Word64) (d : Desc) (s : State), s.units.pool.inService = true ∧ ownedBy s p u (BitVec.toNat h) =
  some d ∧ (partOf s p).held.length = 5 ∧ (partOf s p).drawn.length = 5) ∧ (∃ (s : State) (h : Nat) (d : Desc), lookup s h =
  some d) ∧ (∃ (q : ReserveReq) (c : Nat) (s : State), s.units.pool.inService = true ∧ s.units.pool.waiters =
  [{ req := q, short := [(c, 1)] }]) ∧ (∃ (c : Cls) (s : State), s.units.pool.inService = true ∧ s.units.pool.cache.length = 5 ∧
  nth s.units.pool.cache ↑c ≤ 64) ∧ (∃ (c : Cls) (s : State), s.units.pool.inService = true ∧ s.units.pool.cache.length = 5 ∧ 64
  < nth s.units.pool.cache ↑c) ∧ (∃ (u : Owner) (c : Cls) (i : Nat) (s : State), s.units.pool.inService = true ∧ i < capacity s
  ↑c ∧ ((List.filter (fun (x : Owner × Nat × Nat) => decide (x.1 = u)) s.units.pool.dcache).length ≤ 64)) :=
  ⟨⟨{ part := 0, counts := [1, 0, 0, 0, 0], by_ := ⟨0, 0⟩, admission := false }, live, by decide +kernel⟩,
   ⟨{ part := 0, counts := [1, 0, 0, 0, 0], by_ := ⟨0, 0⟩, admission := false }, modPool (fun p =>
  { p with inService := false }) live, by decide +kernel, by decide +kernel⟩,
   ⟨live, 63, 4, 1, ⟨0, 0⟩, by decide +kernel, by decide +kernel⟩,
   ⟨0, 0, ⟨0, 0⟩, 8388607, withPart 0 { loaded with held := [1, 0, 0, 0, 0], drawn := [0, 0, 0, 0, 0] } live, by decide +kernel,
  by decide +kernel, by decide +kernel, by decide +kernel, by decide +kernel⟩,
   ⟨0, 0, 1, ⟨0, 0⟩, withPart 0 { loaded with held := [1, 0, 0, 0, 0], drawn := [0, 0, 0, 0, 0] } live, by decide +kernel,
  by decide +kernel, by decide +kernel⟩,
   ⟨0, ⟨0, 0⟩, ⟨6, 0⟩, BitVec.ofNat 64 (0 + 5 * 2 ^ 9 + 7 * 2 ^ 24),
  { cls := 0, index := 7, st := 1, part := 0, gen := 5, owner := ⟨0, 0⟩, written := [0] }, modPool (fun p =>
  { p with descs := [{ cls := 0, index := 7, st := 1, part := 0, gen := 5, owner := ⟨0, 0⟩, written := [0] }] }) (withPart 0
  { loaded with st := .enabled, held := [1, 0, 0, 0, 0], drawn := [1, 0, 0, 0, 0] } live), by decide +kernel, by decide +kernel,
  by decide +kernel⟩,
   ⟨0, ⟨0, 0⟩, ⟨6, 0⟩, BitVec.ofNat 64 (0 + 5 * 2 ^ 9 + 7 * 2 ^ 24),
  { cls := 0, index := 7, st := 1, part := 0, gen := 5, owner := ⟨0, 0⟩, written := [0] }, modPool (fun p =>
  { p with descs := [{ cls := 0, index := 7, st := 1, part := 0, gen := 5, owner := ⟨0, 0⟩, written := [0] }, { cls := 1, index := 3, st := 2 }] })
  (withPart 0 loaded live), 1, 3, by decide +kernel, by decide +kernel, by decide +kernel, by decide +kernel⟩,
   ⟨0, ⟨0, 0⟩, ⟨6, 0⟩, BitVec.ofNat 64 (0 + 5 * 2 ^ 9 + 7 * 2 ^ 24),
  { cls := 0, index := 7, st := 1, part := 0, gen := 5, owner := ⟨0, 0⟩, written := [0] }, modPool (fun p =>
  { p with descs := [{ cls := 0, index := 7, st := 1, part := 0, gen := 5, owner := ⟨0, 0⟩, written := [0] }, { cls := 1, index := 3, st := 2 }] })
  (withPart 0 loaded live), 1, 4, by decide +kernel, by decide +kernel, by decide +kernel, by decide +kernel⟩,
   ⟨0, ⟨0, 0⟩, BitVec.ofNat 64 (0 + 5 * 2 ^ 9 + 7 * 2 ^ 24),
  { cls := 0, index := 7, st := 1, part := 0, gen := 5, owner := ⟨0, 0⟩, written := [0] }, modPool (fun p =>
  { p with descs := [{ cls := 0, index := 7, st := 1, part := 0, gen := 5, owner := ⟨0, 0⟩, written := [0] }] }) (withPart 0
  { loaded with st := .enabled, held := [1, 0, 0, 0, 0], drawn := [1, 0, 0, 0, 0] } live), by decide +kernel, by decide +kernel,
  by decide +kernel, by decide +kernel⟩,
   ⟨modPool (fun p =>
  { p with descs := [{ cls := 0, index := 7, st := 1, part := 0, gen := 5, owner := ⟨0, 0⟩, written := [0] }] }) (withPart 0
  { loaded with st := .enabled, held := [1, 0, 0, 0, 0], drawn := [1, 0, 0, 0, 0] } live), (BitVec.toNat (BitVec.ofNat 64 (0 + 5
  * 2 ^ 9 + 7 * 2 ^ 24))), { cls := 0, index := 7, st := 1, part := 0, gen := 5, owner := ⟨0, 0⟩, written := [0] },
  by decide +kernel⟩,
   ⟨{ part := 0, counts := [1, 0, 0, 0, 0], by_ := ⟨0, 0⟩, admission := false }, 0, modPool (fun p =>
  { p with waiters := [⟨{ part := 0, counts := [1, 0, 0, 0, 0], by_ := ⟨0, 0⟩, admission := false }, [(0, 1)]⟩] }) live,
  by decide +kernel, by decide +kernel⟩,
   ⟨4, modPool (fun p => { p with cache := [0, 0, 0, 0, 64] }) live, by decide +kernel, by decide +kernel, by decide +kernel⟩,
   ⟨4, modPool (fun p => { p with cache := [0, 0, 0, 0, 65] }) live, by decide +kernel, by decide +kernel, by decide +kernel⟩,
   ⟨⟨4, 7⟩, 0, 8388607, modPool (fun p => { p with dcache := List.replicate 64 (⟨4, 7⟩, 0, 0) }) live, by decide +kernel,
  by decide +kernel, by decide +kernel⟩⟩

theorem witness_BufferAccessAndHandles : (∃ (p : Pid) (u : Owner) (h : Word64) (off : Nat) (len : Nat) (d : Desc) (s : State),
  s.units.pool.inService = true ∧ ownedBy s p u (BitVec.toNat h) = some d ∧ off + len ≤ classSize d.cls) ∧ (∃ (p : Pid) (u :
  Owner) (h : Word64) (off : Nat) (len : Nat) (d : Desc) (s : State) (k : Nat), s.units.pool.inService = true ∧ ownedBy s p u
  (BitVec.toNat h) = some d ∧ off + len ≤ classSize d.cls ∧ k < len ∧ d.written.contains (sectorOf (off + k)) = false) ∧ (∃ (p :
  Pid) (u : Owner) (h : Word64) (off : Nat) (bs : List Byte) (d : Desc) (s : State), s.units.pool.inService = true ∧ ownedBy s p
  u (BitVec.toNat h) = some d ∧ off + bs.length ≤ classSize d.cls) ∧ (∃ (p : Pid) (u : Owner) (h : Word64) (off : Nat) (len :
  Nat) (s : State), s.units.pool.inService = true ∧ ownedBy s p u (BitVec.toNat h) = none ∧ (partOf s p).st = PSt.enabled ∧
  (partOf s p).sc.teardownAtBoundary = false ∧ (partOf s p).sc.pauseReq = none ∧ (∀ r ∈ s.host.reqs, r.part ≠ ↑p)) ∧ (∃ (d :
  Desc), d.cls < 8 ∧ d.part < 64 ∧ d.gen < 2 ^ 15 ∧ d.index < 2 ^ 24) :=
  ⟨⟨0, ⟨0, 0⟩, BitVec.ofNat 64 (0 + 5 * 2 ^ 9 + 7 * 2 ^ 24), 255, 1,
  { cls := 0, index := 7, st := 1, part := 0, gen := 5, owner := ⟨0, 0⟩, written := [0] }, modPool (fun p =>
  { p with descs := [{ cls := 0, index := 7, st := 1, part := 0, gen := 5, owner := ⟨0, 0⟩, written := [0] }] }) (withPart 0
  { loaded with st := .enabled, held := [1, 0, 0, 0, 0], drawn := [1, 0, 0, 0, 0] } live), by decide +kernel, by decide +kernel,
  by decide +kernel⟩,
   ⟨0, ⟨0, 0⟩, BitVec.ofNat 64 (0 + 5 * 2 ^ 9 + 7 * 2 ^ 24), 0, 256,
  { cls := 0, index := 7, st := 1, part := 0, gen := 5, owner := ⟨0, 0⟩, written := [] }, modPool (fun p =>
  { p with descs := [{ cls := 0, index := 7, st := 1, part := 0, gen := 5, owner := ⟨0, 0⟩, written := [] }] }) (withPart 0
  { loaded with st := .enabled, held := [1, 0, 0, 0, 0], drawn := [1, 0, 0, 0, 0] } live), 255, by decide +kernel,
  by decide +kernel, by decide +kernel, by decide +kernel, by decide +kernel⟩,
   ⟨0, ⟨0, 0⟩, BitVec.ofNat 64 (0 + 5 * 2 ^ 9 + 7 * 2 ^ 24), 252, [1, 2, 3, 4],
  { cls := 0, index := 7, st := 1, part := 0, gen := 5, owner := ⟨0, 0⟩, written := [0] }, modPool (fun p =>
  { p with descs := [{ cls := 0, index := 7, st := 1, part := 0, gen := 5, owner := ⟨0, 0⟩, written := [0] }] }) (withPart 0
  { loaded with st := .enabled, held := [1, 0, 0, 0, 0], drawn := [1, 0, 0, 0, 0] } live), by decide +kernel, by decide +kernel,
  by decide +kernel⟩,
   ⟨0, ⟨1, 0⟩, BitVec.ofNat 64 (0 + 5 * 2 ^ 9 + 7 * 2 ^ 24), 0, 1, modPool (fun p =>
  { p with descs := [{ cls := 0, index := 7, st := 1, part := 0, gen := 5, owner := ⟨0, 0⟩, written := [0] }] }) (withPart 0
  { loaded with st := .enabled, held := [1, 0, 0, 0, 0], drawn := [1, 0, 0, 0, 0] } live), by decide +kernel, by decide +kernel,
  by decide +kernel, by decide +kernel, by decide +kernel, by decide +kernel⟩,
   ⟨{ cls := 4, index := 16777215, part := 63, gen := 32767 }, by decide +kernel, by decide +kernel, by decide +kernel,
  by decide +kernel⟩⟩

theorem witness_BufferReadsBackWrites : ∃ (p : Pid) (u : Owner) (h : Word64) (off : Nat) (bs : List Byte) (d : Desc) (s :
  State), s.units.pool.inService = true ∧ ownedBy s p u (BitVec.toNat h) = some d ∧ off + bs.length ≤ classSize d.cls ∧ (∀ r ∈
  s.units.pool.area, r < 1024) ∧ memWf s.units.mem.cells = true :=
  ⟨0, ⟨0, 0⟩, BitVec.ofNat 64 (0 + 5 * 2 ^ 9 + 7 * 2 ^ 24), 252, [1, 2, 3, 4],
  { cls := 0, index := 7, st := 1, part := 0, gen := 5, owner := ⟨0, 0⟩, written := [0] }, modPool (fun p =>
  { p with descs := [{ cls := 0, index := 7, st := 1, part := 0, gen := 5, owner := ⟨0, 0⟩, written := [0] }] }) (withPart 0
  { loaded with st := .enabled, held := [1, 0, 0, 0, 0], drawn := [1, 0, 0, 0, 0] } live), by decide +kernel, by decide +kernel,
  by decide +kernel, by decide +kernel, by decide +kernel⟩

theorem witness_SeedsEntropyAndDraws : (∃ (i : ReqId) (s : State) (r : Req), Turn s i 1281 r ∧ r.part < 64 ∧ seedFields s r =
  true ∧ ((partOf s r.pid).st ≠ PSt.paused ∨ (partOf s r.pid).ld.loadedInPause = true) ∧ field r.payload 16 1 = 0) ∧ (∃ (i :
  ReqId) (s : State) (r : Req), Turn s i 1281 r ∧ seedFields s r = true ∧ (partOf s r.pid).st = PSt.paused ∧ (partOf s
  r.pid).ld.loadedInPause = false) ∧ (∃ (i : ReqId) (s : State) (r : Req) (b : BitVec 384) (rest : List (BitVec 384)), Turn s i
  1281 r ∧ r.part < 64 ∧ findReq s i = some r ∧ seedFields s r = true ∧ field r.payload 16 1 = 1 ∧ r.bulk = [] ∧ ((partOf s
  r.pid).st ≠ PSt.paused ∨ (partOf s r.pid).ld.loadedInPause = true) ∧ (∀ q ∈ s.host.reqs, waitsEntropy q = false) ∧ s.ao.ent.st
  ≠ 3 ∧ s.ao.ent.blocks = b :: rest) ∧ (∃ (i : ReqId) (s : State) (r : Req), Turn s i 1282 r ∧ zeroAt r.payload 2 2 = true ∧
  within 16 4064 (field r.payload 0 2) = true ∧ field r.payload 0 2 % 16 = 0 ∧ s.ao.ent.st = 3) ∧ (∃ (i : ReqId) (s : State) (r
  : Req), Turn s i 1282 r ∧ zeroAt r.payload 2 2 = true ∧ within 16 4064 (field r.payload 0 2) = true ∧ field r.payload 0 2 % 16
  = 0 ∧ s.ao.ent.st ≠ 3 ∧ s.ao.ent.blocks = []) ∧ (∃ (i : ReqId) (s : State) (r : Req), Turn s i 1282 r ∧ zeroAt r.payload 2 2 =
  true ∧ (within 16 4064 (field r.payload 0 2) = false ∨ field r.payload 0 2 % 16 ≠ 0)) ∧ (∃ (b : BitVec 384) (s : State) (r :
  Req), s.ao.ent.st = 1 ∧ s.ao.ent.blocks = [] ∧ s.host.reqs = [r] ∧ waitsEntropy r = true ∧ r.opcode = 1282 ∧ r.ring = false ∧
  field r.payload 0 2 ≤ r.bulk.length + 48) ∧ (∃ (b : BitVec 384) (s : State), s.ao.ent.st = 1 ∧ (∀ q ∈ s.host.reqs,
  waitsEntropy q = false) ∧ s.ao.ent.blocks.length < 16) ∧ (∃ (b : BitVec 384) (s : State), s.ao.ent.st = 1 ∧ (∀ q ∈
  s.host.reqs, waitsEntropy q = false) ∧ 16 ≤ s.ao.ent.blocks.length) ∧ (∃ (k : Nat) (s : State), (k = 1 ∨ k = 2) ∧ s.ao.ent.st
  = 1) ∧ (∃ (k : Nat) (s : State), (k = 1 ∨ k = 2) ∧ s.ao.ent.st = 2 ∧ (∀ q ∈ s.host.reqs, waitsEntropy q = false)) ∧ (∃ (b :
  Bool) (s : State), s.ao.ent.st = 0) ∧ (∃ (b : Bool) (s : State), s.ao.ent.st = 2) ∧ (∃ (b : Bool) (s : State), s.ao.ent.st =
  1) ∧ (∃ (i : ReqId) (s : State) (r : Req), Turn s i 1283 r) ∧ (∃ (i : ReqId) (s : State) (r : Req), Turn s i 1284 r ∧
  evalFields s r = true ∧ field r.payload 16 1 = 0 ∧ bit (field r.payload 18 1) 0 = false ∧ (partOf s r.pid).g.clusters.contains
  (field r.payload 17 1) = true ∧ domOn s (clusterDom (field r.payload 17 1)) = true) ∧ (∃ (n : Nat) (lane : Nat) (s : State),
  (tileOf s n).laneKey.isSome = true ∧ lane < 16 ∧ s.ao.ent.st ≠ 3) ∧ (∃ (e : Nat) (i : Nat) (o : Nat) (x : Nat), e < 2 ^ 16 ∧ i
  < 2 ^ 40 ∧ o < 2 ^ 16 ∧ x < 2 ^ 56) ∧ (∃ (e : Nat) (i : Nat) (o : Nat) (x : Nat) (step : Nat), e < 2 ^ 16 ∧ i < 2 ^ 40 ∧ o < 2
  ^ 16 ∧ x < 2 ^ 56 ∧ step < 2 ^ 38) :=
  ⟨⟨⟨0, false, 0⟩, asked (req 0x0501 0 (toLe 16 9 ++ zeros 4)) (withPart 0 loaded live), req 0x0501 0 (toLe 16 9 ++ zeros 4),
  turn_of (by decide +kernel), by decide +kernel, by decide +kernel, by decide +kernel, by decide +kernel⟩,
   ⟨⟨0, false, 0⟩, asked (req 0x0501 0 (toLe 16 9 ++ zeros 4)) (withPart 0 { loaded with st := .paused } live), req 0x0501 0
  (toLe 16 9 ++ zeros 4), turn_of (by decide +kernel), by decide +kernel, by decide +kernel, by decide +kernel⟩,
   ⟨⟨0, false, 0⟩, asked (req 0x0501 0 (zeros 16 ++ [1, 0, 0, 0])) (modEnt (fun e => { e with st := 1, blocks := [3, 4] })
  (withPart 0 { loaded with st := .paused, ld := { loaded.ld with loadedInPause := true } } live)), req 0x0501 0 (zeros 16 ++
  [1, 0, 0, 0]), 3, [4], turn_of (by decide +kernel), by decide +kernel, by decide +kernel, by decide +kernel,
  by decide +kernel, by decide +kernel, by decide +kernel, by decide +kernel, by decide +kernel, by decide +kernel⟩,
   ⟨⟨0, false, 0⟩, asked (req 0x0502 0xFF ([16, 0, 0, 0])) (modEnt (fun e => { e with st := 3 }) live), req 0x0502 0xFF ([16, 0,
  0, 0]), turn_of (by decide +kernel), by decide +kernel, by decide +kernel, by decide +kernel, by decide +kernel⟩,
   ⟨⟨0, false, 0⟩, asked (req 0x0502 0xFF (toLe 4 4064)) (modEnt (fun e => { e with st := 1 }) live), req 0x0502 0xFF (toLe 4
  4064), turn_of (by decide +kernel), by decide +kernel, by decide +kernel, by decide +kernel, by decide +kernel,
  by decide +kernel⟩,
   ⟨⟨0, false, 0⟩, asked (req 0x0502 0xFF (toLe 4 17)) (live), req 0x0502 0xFF (toLe 4 17), turn_of (by decide +kernel),
  by decide +kernel, by decide +kernel⟩,
   ⟨7, asked { req 0x0502 0xFF (toLe 4 48) with phase := .moving } (modEnt (fun e => { e with st := 1 }) live),
  { req 0x0502 0xFF (toLe 4 48) with phase := .moving }, by decide +kernel, by decide +kernel, by decide +kernel,
  by decide +kernel, by decide +kernel, by decide +kernel, by decide +kernel⟩,
   ⟨7, modEnt (fun e => { e with st := 1 }) live, by decide +kernel, by decide +kernel, by decide +kernel⟩,
   ⟨7, modEnt (fun e => { e with st := 1, blocks := List.replicate 16 0 }) live, by decide +kernel, by decide +kernel,
  by decide +kernel⟩,
   ⟨1, modEnt (fun e => { e with st := 1 }) live, by decide +kernel, by decide +kernel⟩,
   ⟨2, modEnt (fun e => { e with st := 2 }) live, by decide +kernel, by decide +kernel, by decide +kernel⟩,
   ⟨true, live, by decide +kernel⟩,
   ⟨true, modEnt (fun e => { e with st := 2 }) live, by decide +kernel⟩,
   ⟨true, modEnt (fun e => { e with st := 1 }) live, by decide +kernel⟩,
   ⟨⟨0, false, 0⟩, asked (req 0x0503 0xFF ([])) (live), req 0x0503 0xFF ([]), turn_of (by decide +kernel)⟩,
   ⟨⟨0, false, 0⟩, asked (req 0x0504 0 (zeros 20 ++ toLe 2 0 ++ toLe 2 3)) (withPart 0 (running {}) live), req 0x0504 0 (zeros
  20 ++ toLe 2 0 ++ toLe 2 3), turn_of (by decide +kernel), by decide +kernel, by decide +kernel, by decide +kernel,
  by decide +kernel, by decide +kernel⟩,
   ⟨8191, 15, modUnits (fun u => { u with tiles := [{ id := 8191, laneKey := some 5 }] }) live, by decide +kernel,
  by decide +kernel, by decide +kernel⟩,
   ⟨2 ^ 16 - 1, 2 ^ 40 - 1, 2 ^ 16 - 1, 2 ^ 56 - 1, by decide +kernel, by decide +kernel, by decide +kernel, by decide +kernel⟩,
   ⟨2 ^ 16 - 1, 2 ^ 40 - 1, 2 ^ 16 - 1, 2 ^ 56 - 1, 2 ^ 38 - 1, by decide +kernel, by decide +kernel, by decide +kernel,
  by decide +kernel, by decide +kernel⟩⟩

theorem witness_ExpertRouting : (∃ (i : ReqId) (s : State) (r : Req), Turn s i 1537 r ∧ r.part < 64 ∧ r.payload.length = 4 ∧
  field r.payload 0 1 = 0 ∧ zeroAt r.payload 1 3 = true ∧ (partOf s r.pid).ex.running = false ∧ (partOf s r.pid).g.churn ≠ []) ∧
  (∃ (i : ReqId) (s : State) (r : Req), Turn s i 1537 r ∧ r.payload.length = 4 ∧ field r.payload 0 1 = 0 ∧ zeroAt r.payload 1 3
  = true ∧ (partOf s r.pid).ex.running = true) ∧ (∃ (i : ReqId) (s : State) (r : Req), Turn s i 1537 r ∧ r.payload.length = 4 ∧
  field r.payload 0 1 = 0 ∧ zeroAt r.payload 1 3 = true ∧ (partOf s r.pid).ex.running = false ∧ (partOf s r.pid).g.churn = []) ∧
  (∃ (i : ReqId) (s : State) (r : Req) (pl : List (Nat × List Nat)), Turn s i 1537 r ∧ r.part < 64 ∧ r.payload.length = 324 ∧
  field r.payload 0 1 = 1 ∧ zeroAt r.payload 1 3 = true ∧ setFieldsOk r.payload = true ∧ (∀ x ∈ setEntries r.payload, x.2.1 ≤ 4
  ∧ (x.2.1 ≠ 0 → ((bodyOf (partOf s r.pid)).experts.any fun (e : ExpertDecl) => e.id == x.1) = true)) ∧ (pl = List.map (fun (x :
  Nat × Nat × List Nat) => (x.1, List.take x.2.1 x.2.2)) (List.filter (fun (x : Nat × Nat × List Nat) => (bodyOf (partOf s
  r.pid)).experts.any fun (e : ExpertDecl) => e.id == x.1) (setEntries r.payload))) ∧ placementFail (bodyOf (partOf s r.pid)) pl
  = 0 ∧ (∀ x ∈ pl, (bodyOf (partOf s r.pid)).wheyGroup ∉ x.2) ∧ (∀ x ∈ (partOf s r.pid).runs, x.kind ≠ 1)) ∧ (∃ (i : ReqId) (s :
  State) (r : Req), Turn s i 1538 r) ∧ (∃ (p : Pid) (slot : Nat) (rel : Nat) (s : State) (st : OpenStep), stepIn (partOf s p)
  slot = some st ∧ (partOf s p).st = PSt.enabled ∧ (homeRels (partOf s p)).contains rel = true ∧ st.reported.contains rel =
  false ∧ hasKind (partOf s p) 10 = true ∧ st.prep = false ∧ st.count ≤ st.samples.length ∧ onBoard (partOf s p) slot 10 (some
  rel) = false ∧ ((st.samples.any fun (x : Sample) => homeOf (partOf s p) x.off == rel && !x.done) = false)) ∧ (∃ (s : State),
  s.ao.ctrl.lists = []) ∧ (∃ (s : State) (p : Pid) (slot : Nat) (rest : List (Pid × Nat)) (st : OpenStep), s.ao.ctrl.lists = (p,
  slot) :: rest ∧ stepIn (partOf s p) slot = some st) ∧ (∃ (v : Word32) (w : Word32) (i : Nat) (j : Nat), i < 2 ^ 40 ∧ j < 2 ^
  40 ∧ BitVec.toNat v < 2 ^ 31 ∧ BitVec.toNat w < 2 ^ 31 ∧ BitVec.toNat w < BitVec.toNat v) ∧ (∃ (v : Word32) (w : Word32) (i :
  Nat) (j : Nat), i < 2 ^ 40 ∧ j < 2 ^ 40 ∧ BitVec.toNat v < 2 ^ 31 ∧ BitVec.toNat w < 2 ^ 31 ∧ i < j) ∧ (∃ (v : Word32) (w :
  Word32) (i : Nat) (j : Nat), i < 2 ^ 40 ∧ j < 2 ^ 40 ∧ BitVec.toNat v < 2 ^ 31 ∧ BitVec.toNat w < 2 ^ 31 ∧ routeKey v i =
  routeKey w j) ∧ (∃ (v : Word32) (w : Word32) (i : Nat) (j : Nat), i < 2 ^ 40 ∧ j < 2 ^ 40 ∧ BitVec.toNat v < 2 ^ 31 ∧
  BitVec.toNat w < 2 ^ 31) :=
  ⟨⟨⟨0, false, 0⟩, asked (req 0x0601 0 ([0, 0, 0, 0])) (withPart 0 { running {} with g := { loaded.g with churn := [0] } }
  live), req 0x0601 0 ([0, 0, 0, 0]), turn_of (by decide +kernel), by decide +kernel, by decide +kernel, by decide +kernel,
  by decide +kernel, by decide +kernel, by decide +kernel⟩,
   ⟨⟨0, false, 0⟩, asked (req 0x0601 0 ([0, 0, 0, 0])) (withPart 0 { running {} with ex := { running := true } } live), req
  0x0601 0 ([0, 0, 0, 0]), turn_of (by decide +kernel), by decide +kernel, by decide +kernel, by decide +kernel,
  by decide +kernel⟩,
   ⟨⟨0, false, 0⟩, asked (req 0x0601 0 ([0, 0, 0, 0])) (withPart 0 (running {}) live), req 0x0601 0 ([0, 0, 0, 0]), turn_of
  (by decide +kernel), by decide +kernel, by decide +kernel, by decide +kernel, by decide +kernel, by decide +kernel⟩,
   ⟨⟨0, false, 0⟩, asked (req 0x0601 0 ([1, 0, 0, 0, 1, 1, 255, 255, 255] ++ (List.replicate 63 [0, 255, 255, 255,
  255]).flatten)) (withPart 0 (running { experts := [{ id := 0 }], groupsE := [{ id := 1 }] }) live), req 0x0601 0 ([1, 0, 0, 0,
  1, 1, 255, 255, 255] ++ (List.replicate 63 [0, 255, 255, 255, 255]).flatten), [(0, [1])], turn_of (by decide +kernel),
  by decide +kernel, by decide +kernel, by decide +kernel, by decide +kernel, by decide +kernel, by decide +kernel,
  by decide +kernel, by decide +kernel, by decide +kernel, by decide +kernel⟩,
   ⟨⟨0, false, 0⟩, asked (req 0x0602 0 ([])) (withPart 0 (running {}) live), req 0x0602 0 ([]), turn_of (by decide +kernel)⟩,
   ⟨0, 0, 0, withPart 0
  { running { stages := [{ kind := 10 }] } with sc := { steps := [{ openStep with samples := [{ off := 0, id := 5, done := true }, { off := 1, id := 6, done := true }] }] } }
  live, { openStep with samples := [{ off := 0, id := 5, done := true }, { off := 1, id := 6, done := true }] },
  by decide +kernel, by decide +kernel, by decide +kernel, by decide +kernel, by decide +kernel, by decide +kernel,
  by decide +kernel, by decide +kernel, by decide +kernel⟩,
   ⟨live, by decide +kernel⟩,
   ⟨modCtrl (fun c => { c with lists := [(0, 0)] }) (withPart 0 { running {} with sc := { steps := [openStep] } } live), 0, 0,
  [], openStep, by decide +kernel, by decide +kernel⟩,
   ⟨2, 1, 2 ^ 40 - 1, 0, by decide +kernel, by decide +kernel, by decide +kernel, by decide +kernel, by decide +kernel⟩,
   ⟨0, 0, 0, 2 ^ 40 - 1, by decide +kernel, by decide +kernel, by decide +kernel, by decide +kernel, by decide +kernel⟩,
   ⟨2 ^ 31 - 1, 2 ^ 31 - 1, 7, 7, by decide +kernel, by decide +kernel, by decide +kernel, by decide +kernel,
  by decide +kernel⟩,
   ⟨2 ^ 31 - 1, 0, 2 ^ 40 - 1, 0, by decide +kernel, by decide +kernel, by decide +kernel, by decide +kernel⟩⟩

theorem witness_StagesAndBoundaries : (∃ (p : Pid) (s : State) (st : OpenStep), (partOf s p).st = PSt.enabled ∧ (partOf s
  p).ld.image.isSome = true ∧ (partOf s p).sc.pausing = false ∧ (partOf s p).sc.asking = false ∧ (partOf s p).sc.next.off ≠ 0 ∧
  (hdrOf (partOf s p)).live = false ∧ entriesFree (partOf s p) false = true ∧ inFlight (partOf s p) < (hdrOf (partOf s
  p)).maxInFlight ∧ sumL (needOf (partOf s p)) = 0 ∧ (partOf s p).sc.steps = [st]) ∧ (∃ (p : Pid) (s : State), (partOf s p).st =
  PSt.enabled ∧ (partOf s p).ld.image.isSome = true ∧ (partOf s p).sc.pausing = false ∧ (partOf s p).sc.asking = false ∧ (partOf
  s p).sc.next.off ≠ 0 ∧ (hdrOf (partOf s p)).live = false ∧ entriesFree (partOf s p) false = true ∧ inFlight (partOf s p) <
  (hdrOf (partOf s p)).maxInFlight ∧ sumL (needOf (partOf s p)) ≠ 0 ∧ s.units.pool.inService = true) ∧ (∃ (p : Pid) (rel : Nat)
  (s : State), (partOf s p).st = PSt.enabled ∧ pickEntry s (partOf s p) rel = none) ∧ (∃ (p : Pid) (rel : Nat) (s : State) (e :
  Entry), (partOf s p).st = PSt.enabled ∧ pickEntry s (partOf s p) rel = some e ∧ elsewhere (stageAt (partOf s p) e.stage).kind
  = false) ∧ (∃ (p : Pid) (rel : Nat) (no : Nat) (res : StageResult) (s : State) (e : Entry), (List.find? (fun (x : Entry) =>
  x.rel == rel && x.no == no) (partOf s p).sc.entries = some e) ∧ (partOf s p).st = PSt.enabled ∧ e.st = EntSt.issued ∧
  elsewhere (stageAt (partOf s p) e.stage).kind = false ∧ res ≠ StageResult.skip) ∧ (∃ (p : Pid) (s : State) (st : OpenStep)
  (rest : List OpenStep), (partOf s p).st = PSt.enabled ∧ (partOf s p).sc.steps = st :: rest ∧ st.mirroring = false ∧ st.prep =
  false ∧ stepReady (partOf s p) st = true ∧ (partOf s p).g.mirrored = false ∧ (partOf s p).sc.fenceAtBoundary = 0) ∧ (∃ (p :
  Pid) (s : State) (st : OpenStep) (rest : List OpenStep), (partOf s p).st = PSt.enabled ∧ (partOf s p).sc.steps = st :: rest ∧
  watchdogStopped s p (partOf s p) st = false ∧ (partOf s p).sc.teardownAtBoundary = false ∧ (partOf s p).sc.pauseReq = none ∧
  (∀ r ∈ s.host.reqs, r.part ≠ ↑p)) :=
  ⟨⟨0, withPart 0 { running {} with sc := { steps := [openStep], next := { epoch := 0, step := 0, off := 1 } } } live, openStep,
  by decide +kernel, by decide +kernel, by decide +kernel, by decide +kernel, by decide +kernel, by decide +kernel,
  by decide +kernel, by decide +kernel, by decide +kernel, by decide +kernel⟩,
   ⟨0, withPart 0
  { running { perSample := [1, 0, 0, 0, 0] } with sc := { steps := [openStep], next := { epoch := 0, step := 0, off := 1 } } }
  live, by decide +kernel, by decide +kernel, by decide +kernel, by decide +kernel, by decide +kernel, by decide +kernel,
  by decide +kernel, by decide +kernel, by decide +kernel, by decide +kernel⟩,
   ⟨0, 0, withPart 0 (running {}) live, by decide +kernel, by decide +kernel⟩,
   ⟨0, 0, withPart 0
  { running { stages := [{ kind := 1 }] } with sc := { steps := [openStep], entries := [{ rel := 0, no := 1, st := .ready, stage := 0, stepScope := false, off := 0, slot := 0, pend := 0, group := 0 }] } }
  live, { rel := 0, no := 1, st := .ready, stage := 0, stepScope := false, off := 0, slot := 0, pend := 0, group := 0 },
  by decide +kernel, by decide +kernel, by decide +kernel⟩,
   ⟨0, 0, 1, .done, withPart 0
  { running { stages := [{ kind := 1 }] } with sc := { steps := [openStep], entries := [{ rel := 0, no := 1, st := .issued, stage := 0, stepScope := false, off := 0, slot := 0, pend := 0, group := 0 }] } }
  live, { rel := 0, no := 1, st := .issued, stage := 0, stepScope := false, off := 0, slot := 0, pend := 0, group := 0 },
  by decide +kernel, by decide +kernel, by decide +kernel, by decide +kernel, by decide +kernel⟩,
   ⟨0, withPart 0
  { running {} with sc := { steps := [{ openStep with count := 1, samples := [{ off := 0, id := 5, done := true }], batches := [{ idx := 0, target := 0, acked := true }] }] } }
  live,
  { openStep with count := 1, samples := [{ off := 0, id := 5, done := true }], batches := [{ idx := 0, target := 0, acked := true }] },
  [], by decide +kernel, by decide +kernel, by decide +kernel, by decide +kernel, by decide +kernel, by decide +kernel,
  by decide +kernel⟩,
   ⟨0, withPart 0 { running {} with sc := { steps := [openStep] } } live, openStep, [], by decide +kernel, by decide +kernel,
  by decide +kernel, by decide +kernel, by decide +kernel, by decide +kernel⟩⟩

theorem witness_StillAndWarpEngines : (∃ (jpeg : Bool) (n : Nat) (s : State) (j : StillJob) (code : Nat) (off : Nat), n <
  engineCount jpeg ∧ (engineOf s jpeg n).job = some j ∧ j.prev = none ∧ code ≠ 0) ∧ (∃ (jpeg : Bool) (n : Nat) (s : State) (j :
  StillJob), n < engineCount jpeg ∧ (engineOf s jpeg n).job = some j ∧ j.prev = none) ∧ (∃ (jpeg : Bool) (n : Nat) (res :
  StillResult) (ps : List Plane) (s : State) (j : StillJob) (x : Sample), n < engineCount jpeg ∧ (engineOf s jpeg n).job = some
  j ∧ s.units.stillQ = [] ∧ stillOut res = Except.ok ps ∧ sampleAt s j.part j.slot j.off = some x) ∧ (∃ (c : Nat) (s : State) (w
  : WarpTask) (x : Sample), warpHead s c = some w ∧ warpTaskOk s w = true ∧ sampleAt s w.part w.slot w.off = some x) ∧ (∃ (c :
  Nat) (s : State) (w : WarpTask), warpHead s c = some w ∧ w.retried = false) ∧ (∃ (c : Nat) (s : State) (w : WarpTask),
  warpHead s c = some w ∧ w.retried = true) :=
  ⟨⟨true, 7, modUnits (fun u =>
  { u with jpeg := u.jpeg.set 7 { job := some { part := 0, slot := 0, off := 0, stage := 0, jpeg := true } } }) (withPart 0
  { running {} with sc := { steps := [openStep] } } live), { part := 0, slot := 0, off := 0, stage := 0, jpeg := true }, 5, 100,
  by decide +kernel, by decide +kernel, by decide +kernel, by decide +kernel⟩,
   ⟨false, 15, modUnits (fun u =>
  { u with inflate := u.inflate.set 15 { job := some { part := 0, slot := 0, off := 0, stage := 0, jpeg := false } } })
  (withPart 0 { running {} with sc := { steps := [openStep] } } live),
  { part := 0, slot := 0, off := 0, stage := 0, jpeg := false }, by decide +kernel, by decide +kernel, by decide +kernel⟩,
   ⟨false, 15, .png 1 1 1 8 [(0, [7])], [⟨1, 1, 0, [7]⟩], modUnits (fun u =>
  { u with inflate := u.inflate.set 15 { job := some { part := 0, slot := 0, off := 0, stage := 0, jpeg := false } } })
  (withPart 0 { running {} with sc := { steps := [openStep] } } live),
  { part := 0, slot := 0, off := 0, stage := 0, jpeg := false }, { off := 0, id := 5 }, by decide +kernel, by decide +kernel,
  by decide +kernel, rfl, by decide +kernel⟩,
   ⟨127, modUnits (fun u => { u with warpQ := [(127, { part := 0, slot := 0, off := 0, stage := 0 })] }) (withPart 0
  { running { stages := [{ kind := 7, warps := [{}] }] } with sc := { steps := [{ openStep with samples := [{ off := 0, id := 5, planes := [⟨1, 1, 0, [7]⟩] }] }] } }
  live), { part := 0, slot := 0, off := 0, stage := 0 }, { off := 0, id := 5, planes := [⟨1, 1, 0, [7]⟩] }, by decide +kernel,
  by decide +kernel, by decide +kernel⟩,
   ⟨127, modUnits (fun u => { u with warpQ := [(127, { part := 0, slot := 0, off := 0, stage := 0 })] }) (withPart 0
  { running { stages := [{ kind := 7, warps := [{}] }] } with sc := { steps := [{ openStep with samples := [{ off := 0, id := 5, planes := [⟨1, 1, 0, [7]⟩] }] }] } }
  live), { part := 0, slot := 0, off := 0, stage := 0 }, by decide +kernel, by decide +kernel⟩,
   ⟨127, modUnits (fun u => { u with warpQ := [(127, { part := 0, slot := 0, off := 0, stage := 0, retried := true })] })
  (withPart 0
  { running { stages := [{ kind := 7, warps := [{}] }] } with sc := { steps := [{ openStep with samples := [{ off := 0, id := 5, planes := [⟨1, 1, 0, [7]⟩] }] }] } }
  live), { part := 0, slot := 0, off := 0, stage := 0, retried := true }, by decide +kernel, by decide +kernel⟩⟩

theorem witness_CodecSegments : (∃ (p : Pid) (n : Nat) (seg : Nat) (c : Nat) (s : State) (x : Stream) (d : StreamDecl) (w :
  Win), streamOf (partOf s p) n = some x ∧ declOf (partOf s p) n = some d ∧ codingWin x = some w ∧ domOn s 6 = true ∧
  (x.codec.st = 1 ∨ x.codec.st = 4) ∧ d.encode = true ∧ segReady s p x d w seg = true ∧ s.units.segQ = [] ∧ c < 24 ∧ freeCore s
  { part := p, stream := n, win := w.seq, seg := seg } = some c) ∧ (∃ (c : Nat) (tag : Nat) (ps : List Plane) (sl : Nat) (bits :
  Nat) (s : State) (j : SegJob) (k : Nat × Nat) (x : Stream), c < 24 ∧ (coreOf s c).job = some j ∧ segTag j = tag ∧ j.prev =
  none ∧ j.sample = some k ∧ s.units.segQ = [] ∧ streamOf (partOf s j.part) j.stream = some x) ∧ (∃ (c : Nat) (tag : Nat) (res :
  SegResult) (s : State), c < 24 ∧ (coreOf s c).job = none ∧ tag ∈ (coreOf s c).dead) ∧ (∃ (c : Nat) (s : State) (j : SegJob), c
  < 24 ∧ (coreOf s c).job = some j ∧ j.prev = none ∧ (∀ (p : Pid), ∀ k ∈ (partOf s p).g.cores, k < 24)) :=
  ⟨⟨0, 3, 0, 23, receiving { openStream with wins := [{ seq := 0, groupsReady := 1 }] },
  { openStream with wins := [{ seq := 0, groupsReady := 1 }] }, camera, { seq := 0, groupsReady := 1 }, by decide +kernel,
  by decide +kernel, by decide +kernel, by decide +kernel, by decide +kernel, by decide +kernel, by decide +kernel,
  by decide +kernel, by decide +kernel, by decide +kernel⟩,
   ⟨23, 0, [], 1, 8, modUnits (fun u =>
  { u with cores := u.cores.set 23 { job := some { part := 0, stream := 3, win := 0, seg := 0, sample := some (0, 0) } } })
  (withPart 0
  { running { streams := [camera] } with streams := [openStream], g := { loaded.g with cores := [23] }, sc := { steps := [openStep] } }
  live), { part := 0, stream := 3, win := 0, seg := 0, sample := some (0, 0) }, (0, 0), openStream, by decide +kernel,
  by decide +kernel, by decide +kernel, by decide +kernel, by decide +kernel, by decide +kernel, by decide +kernel⟩,
   ⟨23, 6, .engineFault, modUnits (fun u => { u with cores := u.cores.set 23 { dead := [6] } }) live, by decide +kernel,
  by decide +kernel, by decide +kernel⟩,
   ⟨23, modUnits (fun u =>
  { u with cores := u.cores.set 23 { job := some { part := 0, stream := 3, win := 0, seg := 0, sample := some (0, 0) } } })
  (withPart 0
  { running { streams := [camera] } with streams := [openStream], g := { loaded.g with cores := [23] }, sc := { steps := [openStep] } }
  live), { part := 0, stream := 3, win := 0, seg := 0, sample := some (0, 0) }, by decide +kernel, by decide +kernel,
  by decide +kernel, by decide +kernel⟩⟩

theorem witness_ChurnRuns : (∃ (i : ReqId) (s : State) (r : Req) (pr : Prob) (sched : List SchedStage) (tr : Bool), Turn s i
  1793 r ∧ r.part < 64 ∧ CanPend s r ∧ churnRunFields s r = true ∧ (partOf s r.pid).g.churn ≠ [] ∧ domOn s 7 = true ∧
  s.units.churn.fenced = false ∧ windowReady (partOf s r.pid) (field r.payload 0 8) 160 = true ∧ windowReady (partOf s r.pid)
  (field r.payload 8 8) 4160 = true ∧ headerTooLarge (winRead s r.pid (field r.payload 0 8) 160) = false ∧ inWindow (partOf s
  r.pid).g.win (field r.payload 0 8) (probLength (winRead s r.pid (field r.payload 0 8) 160)) = true ∧ readProblem (winRead s
  r.pid (field r.payload 0 8) (probLength (winRead s r.pid (field r.payload 0 8) 160))) = ProbRead.ok pr sched tr) ∧ (∃ (i :
  ReqId) (s : State) (r : Req), Turn s i 1793 r ∧ churnRunFields s r = true ∧ ((partOf s r.pid).g.churn = [] ∨ domOn s 7 =
  false)) ∧ (∃ (i : ReqId) (s : State) (r : Req), Turn s i 1793 r ∧ churnRunFields s r = true ∧ (partOf s r.pid).g.churn ≠ [] ∧
  domOn s 7 = true ∧ s.units.churn.fenced = true) ∧ (∃ (s : State), domOn s 7 = true) ∧ (∃ (s : State) (p : Pid) (r : Run),
  s.units.churn.holder = some p ∧ s.units.churn.moving = true ∧ churnUp s = true ∧ topRun (partOf s p) = some r ∧
  s.units.churn.moveRetried = false) ∧ (∃ (s : State) (p : Pid) (r : Run), s.units.churn.holder = some p ∧ s.units.churn.moving
  = false ∧ churnUp s = true ∧ topRun (partOf s p) = some r ∧ r.started = true ∧ r.saved = false ∧ r.kind = 2 ∧ r.slot = 0) ∧ (∃
  (p : Pid) (k : Nat) (s : State) (r : Run), (List.findSome? (fun (st : OpenStep) => List.find? (fun (r : Run) => r.kind == 0 &&
  r.slot == st.slot && r.exact.isNone) (partOf s p).runs) (partOf s p).sc.steps = some r)) ∧ (∃ (p : Pid) (s : State) (r : Run),
  (List.find? (fun (r : Run) => r.kind == 1) (partOf s p).runs = some r)) ∧ (∃ (s : State) (p : Pid) (r : Run),
  s.units.churn.holder = some p ∧ churnUp s = true ∧ topRun (partOf s p) = some r ∧ r.started = true ∧ r.saved = false ∧
  r.retried = false) :=
  ⟨⟨⟨0, true, 0⟩, asked (ringReq 0x0701 0 (toLe 8 0 ++ toLe 8 4096 ++ zeros 16)) (winWrite 0 0 problem (withPart 0
  { running {} with g := { loaded.g with churn := [0] } } live)), ringReq 0x0701 0 (toLe 8 0 ++ toLe 8 4096 ++ zeros 16), prob,
  [{ beta := 0x3F800000, sweeps := 1 }], false, turn_of (by decide +kernel), by decide +kernel,
  by unfold CanPend; decide +kernel, by decide +kernel, by decide +kernel, by decide +kernel, by decide +kernel,
  by decide +kernel, by decide +kernel, by decide +kernel, by decide +kernel, problem_of (by decide +kernel)⟩,
   ⟨⟨0, true, 0⟩, asked (ringReq 0x0701 0 (toLe 8 0 ++ toLe 8 4096 ++ zeros 16)) (withPart 0 (running {}) live), ringReq 0x0701
  0 (toLe 8 0 ++ toLe 8 4096 ++ zeros 16), turn_of (by decide +kernel), by decide +kernel, by decide +kernel⟩,
   ⟨⟨0, true, 0⟩, asked (ringReq 0x0701 0 (toLe 8 0 ++ toLe 8 4096 ++ zeros 16)) (modChurn (fun c => { c with fenced := true })
  (withPart 0 { running {} with g := { loaded.g with churn := [0] } } live)), ringReq 0x0701 0 (toLe 8 0 ++ toLe 8 4096 ++ zeros
  16), turn_of (by decide +kernel), by decide +kernel, by decide +kernel, by decide +kernel, by decide +kernel⟩,
   ⟨live, by decide +kernel⟩,
   ⟨modChurn (fun c => { c with moving := true }) (churning run), 0, run, by decide +kernel, by decide +kernel,
  by decide +kernel, by decide +kernel, by decide +kernel⟩,
   ⟨churning run, 0, run, by decide +kernel, by decide +kernel, by decide +kernel, by decide +kernel, by decide +kernel,
  by decide +kernel, by decide +kernel, by decide +kernel⟩,
   ⟨0, 1, withPart 0 { running {} with sc := { steps := [openStep] }, runs := [{ run with kind := 0 }] } live,
  { run with kind := 0 }, by decide +kernel⟩,
   ⟨0, withPart 0 { running {} with runs := [{ run with kind := 1 }] } live, { run with kind := 1 }, by decide +kernel⟩,
   ⟨churning run, 0, run, by decide +kernel, by decide +kernel, by decide +kernel, by decide +kernel, by decide +kernel,
  by decide +kernel⟩⟩

theorem witness_CameraPackets : (∃ (p : Pid) (n : Nat) (l : Leader) (s : State) (d : StreamDecl) (x : Stream) (b : Block), Takes
  s p n d x b l.blockId 0 ∧ l.extId = d.extId ∧ l.wellFormed = true ∧ l.unavailable = false ∧ l.allIn = false ∧ (l.payloadType =
  1 ∨ l.payloadType = 16385) ∧ l.pixelFormat ≤ 2 ∧ l.payloadType = d.payloadType ∧ l.pixelFormat = d.pixFmt ∧ l.sizeX = d.width
  ∧ l.sizeY = d.blockH ∧ l.offPad = 0) ∧ (∃ (p : Pid) (n : Nat) (l : Leader) (s : State) (d : StreamDecl) (x : Stream) (b :
  Block), Takes s p n d x b l.blockId 0 ∧ l.extId = d.extId ∧ l.wellFormed = true ∧ l.unavailable = false ∧ l.sizeX ≠ d.width) ∧
  (∃ (p : Pid) (n : Nat) (k : Payload) (s : State) (d : StreamDecl) (x : Stream) (b : Block), Takes s p n d x b k.blockId
  k.packetId ∧ k.extId = d.extId ∧ k.wellFormed = true ∧ 1 ≤ k.packetId ∧ k.packetId ≤ packetsOf d ∧ k.bytes.length = packetLen
  d k.packetId) ∧ (∃ (p : Pid) (n : Nat) (k : Payload) (s : State) (d : StreamDecl) (x : Stream) (b : Block), Takes s p n d x b
  k.blockId k.packetId ∧ k.extId = d.extId ∧ k.wellFormed = true ∧ k.bytes.length ≠ packetLen d k.packetId) ∧ (∃ (p : Pid) (n :
  Nat) (k : Trailer) (s : State) (d : StreamDecl) (x : Stream) (b : Block), Takes s p n d x b k.blockId k.packetId ∧ k.extId =
  d.extId ∧ k.unavailable = false ∧ k.packetId = packetsOf d + 1) ∧ (∃ (p : Pid) (n : Nat) (s : State) (d : StreamDecl) (x :
  Stream) (b : Block), declOf (partOf s p) n = some d ∧ streamOf (partOf s p) n = some x ∧ (List.find? (fun (b : Block) => b.st
  == 0 && !b.tail) x.blocks = some b) ∧ blockAt s p n b.uid = some b ∧ x.ranges.length < 256 ∧ (List.filter (fun (n : Nat) =>
  !b.got.contains n) (List.drop b.nxt (List.range (packetsOf d + 2))) ≠ [])) ∧ (∃ (p : Pid) (n : Nat) (s : State) (d :
  StreamDecl) (x : Stream), declOf (partOf s p) n = some d ∧ streamOf (partOf s p) n = some x ∧ x.codec.st = 1 ∧ d.camera =
  true) ∧ (∃ (p : Pid) (n : Nat) (k : Nat) (s : State) (d : StreamDecl) (x : Stream) (r : Range) (b : Block), declOf (partOf s
  p) n = some d ∧ streamOf (partOf s p) n = some x ∧ (List.find? (fun (r : Range) => r.id == k) x.ranges = some r) ∧ blockAt s p
  n r.block = some b ∧ r.tries = 0) ∧ (∃ (p : Pid) (n : Nat) (k : Nat) (s : State) (d : StreamDecl) (x : Stream) (r : Range) (b
  : Block), declOf (partOf s p) n = some d ∧ streamOf (partOf s p) n = some x ∧ (List.find? (fun (r : Range) => r.id == k)
  x.ranges = some r) ∧ blockAt s p n r.block = some b ∧ r.tries = 1) ∧ (∃ (p : Pid) (n : Nat) (k : Nat) (s : State) (d :
  StreamDecl) (x : Stream) (r : Range), declOf (partOf s p) n = some d ∧ streamOf (partOf s p) n = some x ∧ (List.find? (fun (r
  : Range) => r.id == k) x.ranges = some r) ∧ 2 ≤ r.tries) :=
  ⟨⟨0, 3,
  { blockId := 7, extId := false, wellFormed := true, allIn := false, payloadType := 1, pixelFormat := 0, sizeX := 4, sizeY := 4, offPad := 0, timestamp := 9, unavailable := false },
  receiving { openStream with blocks := [block], wins := [{ seq := 0 }], nextBlk := 1 }, camera,
  { openStream with blocks := [block], wins := [{ seq := 0 }], nextBlk := 1 }, block, ⟨by decide +kernel, by decide +kernel,
  by decide +kernel, by decide +kernel, by decide +kernel, by decide +kernel, by decide +kernel, by decide +kernel,
  by decide +kernel, by decide +kernel, by decide +kernel⟩, by decide +kernel, by decide +kernel, by decide +kernel,
  by decide +kernel, by decide +kernel, by decide +kernel, by decide +kernel, by decide +kernel, by decide +kernel,
  by decide +kernel, by decide +kernel⟩,
   ⟨0, 3,
  { blockId := 7, extId := false, wellFormed := true, allIn := false, payloadType := 1, pixelFormat := 0, sizeX := 5, sizeY := 4, offPad := 0, timestamp := 9, unavailable := false },
  receiving { openStream with blocks := [block], wins := [{ seq := 0 }], nextBlk := 1 }, camera,
  { openStream with blocks := [block], wins := [{ seq := 0 }], nextBlk := 1 }, block, ⟨by decide +kernel, by decide +kernel,
  by decide +kernel, by decide +kernel, by decide +kernel, by decide +kernel, by decide +kernel, by decide +kernel,
  by decide +kernel, by decide +kernel, by decide +kernel⟩, by decide +kernel, by decide +kernel, by decide +kernel,
  by decide +kernel⟩,
   ⟨0, 3, { blockId := 7, extId := false, wellFormed := true, packetId := 2, bytes := [1, 2, 3, 4, 5, 6, 7, 8] }, receiving
  { openStream with blocks := [block], wins := [{ seq := 0 }], nextBlk := 1 }, camera,
  { openStream with blocks := [block], wins := [{ seq := 0 }], nextBlk := 1 }, block, ⟨by decide +kernel, by decide +kernel,
  by decide +kernel, by decide +kernel, by decide +kernel, by decide +kernel, by decide +kernel, by decide +kernel,
  by decide +kernel, by decide +kernel, by decide +kernel⟩, by decide +kernel, by decide +kernel, by decide +kernel,
  by decide +kernel, by decide +kernel⟩,
   ⟨0, 3, { blockId := 7, extId := false, wellFormed := true, packetId := 2, bytes := [] }, receiving
  { openStream with blocks := [block], wins := [{ seq := 0 }], nextBlk := 1 }, camera,
  { openStream with blocks := [block], wins := [{ seq := 0 }], nextBlk := 1 }, block, ⟨by decide +kernel, by decide +kernel,
  by decide +kernel, by decide +kernel, by decide +kernel, by decide +kernel, by decide +kernel, by decide +kernel,
  by decide +kernel, by decide +kernel, by decide +kernel⟩, by decide +kernel, by decide +kernel, by decide +kernel⟩,
   ⟨0, 3, ⟨7, false, 3, false⟩, receiving { openStream with blocks := [block], wins := [{ seq := 0 }], nextBlk := 1 }, camera,
  { openStream with blocks := [block], wins := [{ seq := 0 }], nextBlk := 1 }, block, ⟨by decide +kernel, by decide +kernel,
  by decide +kernel, by decide +kernel, by decide +kernel, by decide +kernel, by decide +kernel, by decide +kernel,
  by decide +kernel, by decide +kernel, by decide +kernel⟩, by decide +kernel, by decide +kernel, by decide +kernel⟩,
   ⟨0, 3, receiving { openStream with blocks := [block], wins := [{ seq := 0 }], nextBlk := 1 }, camera,
  { openStream with blocks := [block], wins := [{ seq := 0 }], nextBlk := 1 }, block, by decide +kernel, by decide +kernel,
  by decide +kernel, by decide +kernel, by decide +kernel, by decide +kernel⟩,
   ⟨0, 3, receiving openStream, camera, openStream, by decide +kernel, by decide +kernel, by decide +kernel, by decide +kernel⟩,
   ⟨0, 3, 4, receiving
  { openStream with blocks := [block], nextBlk := 1, ranges := [{ id := 4, block := 0, ids := [1], tries := 0 }] }, camera,
  { openStream with blocks := [block], nextBlk := 1, ranges := [{ id := 4, block := 0, ids := [1], tries := 0 }] },
  { id := 4, block := 0, ids := [1], tries := 0 }, block, by decide +kernel, by decide +kernel, by decide +kernel,
  by decide +kernel, by decide +kernel⟩,
   ⟨0, 3, 4, receiving
  { openStream with blocks := [block], nextBlk := 1, ranges := [{ id := 4, block := 0, ids := [1], tries := 1 }] }, camera,
  { openStream with blocks := [block], nextBlk := 1, ranges := [{ id := 4, block := 0, ids := [1], tries := 1 }] },
  { id := 4, block := 0, ids := [1], tries := 1 }, block, by decide +kernel, by decide +kernel, by decide +kernel,
  by decide +kernel, by decide +kernel⟩,
   ⟨0, 3, 4, receiving
  { openStream with blocks := [block], nextBlk := 1, ranges := [{ id := 4, block := 0, ids := [1], tries := 2 }] }, camera,
  { openStream with blocks := [block], nextBlk := 1, ranges := [{ id := 4, block := 0, ids := [1], tries := 2 }] },
  { id := 4, block := 0, ids := [1], tries := 2 }, by decide +kernel, by decide +kernel, by decide +kernel, by decide +kernel⟩⟩

theorem witness_StreamAndPortCommands : (∃ (i : ReqId) (s : State) (s' : State) (r : Req) (d : StreamDecl) (x : Stream), Turn s
  i 1025 r ∧ r.part < 64 ∧ streamFields s r = true ∧ declOf (partOf s r.pid) (field r.payload 0 1) = some d ∧ streamOf (partOf s
  r.pid) (field r.payload 0 1) = some x ∧ streamOpen x = false ∧ reserveNow r.pid (standingFor (partOf s r.pid) x) s = some s')
  ∧ (∃ (i : ReqId) (s : State) (r : Req) (d : StreamDecl) (x : Stream), Turn s i 1025 r ∧ streamFields s r = true ∧ declOf
  (partOf s r.pid) (field r.payload 0 1) = some d ∧ streamOf (partOf s r.pid) (field r.payload 0 1) = some x ∧ streamOpen x =
  true) ∧ (∃ (i : ReqId) (s : State) (r : Req) (d : StreamDecl) (x : Stream), Turn s i 1025 r ∧ streamFields s r = true ∧ declOf
  (partOf s r.pid) (field r.payload 0 1) = some d ∧ streamOf (partOf s r.pid) (field r.payload 0 1) = some x ∧ streamOpen x =
  false ∧ reserveNow r.pid (standingFor (partOf s r.pid) x) s = none) ∧ (∃ (i : ReqId) (s : State) (r : Req) (x : Stream), Turn
  s i 1026 r ∧ r.part < 64 ∧ streamFields s r = true ∧ streamOf (partOf s r.pid) (field r.payload 0 1) = some x ∧ streamOpen x =
  false) ∧ (∃ (i : ReqId) (s : State) (r : Req) (x : Stream), Turn s i 1026 r ∧ r.part < 64 ∧ streamFields s r = true ∧ streamOf
  (partOf s r.pid) (field r.payload 0 1) = some x ∧ streamOpen x = true ∧ (∀ w ∈ x.wins, w.done = true ∧ (w.encoded = true ∨
  w.uncoded = true))) ∧ (∃ (i : ReqId) (s : State) (r : Req) (x : Stream), Turn s i 1026 r ∧ r.part < 64 ∧ streamFields s r =
  true ∧ streamOf (partOf s r.pid) (field r.payload 0 1) = some x ∧ streamOpen x = true ∧ (∃ w ∈ x.wins, w.done = false)) ∧ (∃
  (i : ReqId) (s : State) (r : Req) (d : StreamDecl) (x : Stream), Turn s i 1027 r ∧ streamFields s r = true ∧ declOf (partOf s
  r.pid) (field r.payload 0 1) = some d ∧ streamOf (partOf s r.pid) (field r.payload 0 1) = some x) ∧ (∃ (i : ReqId) (s : State)
  (r : Req), Turn s i 2049 r ∧ r.part < 64 ∧ r.payload.length = 16 + 12 * field r.payload 11 1 ∧ portCfgOk r.payload = true ∧
  portHolder s (field r.payload 0 1) = some r.pid ∧ bindsAssigned (bodyOf (partOf s r.pid)) (field r.payload 0 1) (bindingsOf
  r.payload) = true ∧ (bit (field r.payload 3 1) 1 = true → s.units.ptp.port = none ∨ s.units.ptp.port = some (field r.payload 0
  1))) ∧ (∃ (i : ReqId) (s : State) (r : Req), Turn s i 2049 r ∧ r.payload.length = 16 + 12 * field r.payload 11 1 ∧ portCfgOk
  r.payload = true ∧ portHolder s (field r.payload 0 1) = none) ∧ (∃ (i : ReqId) (s : State) (r : Req) (h : Pid), Turn s i 2049
  r ∧ r.payload.length = 16 + 12 * field r.payload 11 1 ∧ portCfgOk r.payload = true ∧ portHolder s (field r.payload 0 1) = some
  h ∧ h ≠ r.pid) ∧ (∃ (i : ReqId) (s : State) (r : Req), Turn s i 2050 r ∧ field r.payload 0 1 < 8 ∧ zeroAt r.payload 1 3 = true
  ∧ portHolder s (field r.payload 0 1) = some r.pid) :=
  ⟨⟨⟨0, false, 0⟩, asked (req 0x0401 0 ([3, 0, 0, 0])) (withPart 0
  { running { streams := [camera] } with streams := [{ index := 3 }] } live), asked (req 0x0401 0 ([3, 0, 0, 0])) (withPart 0
  { running { streams := [camera] } with streams := [{ index := 3 }] } live), req 0x0401 0 ([3, 0, 0, 0]), camera,
  { index := 3 }, turn_of (by decide +kernel), by decide +kernel, by decide +kernel, by decide +kernel, by decide +kernel,
  by decide +kernel, rfl⟩,
   ⟨⟨0, false, 0⟩, asked (req 0x0401 0 ([3, 0, 0, 0])) (withPart 0
  { running { streams := [camera] } with streams := [openStream] } live), req 0x0401 0 ([3, 0, 0, 0]), camera, openStream,
  turn_of (by decide +kernel), by decide +kernel, by decide +kernel, by decide +kernel, by decide +kernel⟩,
   ⟨⟨0, false, 0⟩, asked (req 0x0401 0 ([3, 0, 0, 0])) (modPool (fun p => { p with inService := false }) (withPart 0
  { running { streams := [{ camera with standing := [1, 0, 0, 0, 0] }] } with streams := [{ index := 3 }] } live)), req 0x0401 0
  ([3, 0, 0, 0]), { camera with standing := [1, 0, 0, 0, 0] }, { index := 3 }, turn_of (by decide +kernel), by decide +kernel,
  by decide +kernel, by decide +kernel, by decide +kernel, by decide +kernel⟩,
   ⟨⟨0, false, 0⟩, asked (req 0x0402 0 ([3, 0, 0, 0])) (withPart 0
  { running { streams := [camera] } with streams := [{ index := 3 }] } live), req 0x0402 0 ([3, 0, 0, 0]), { index := 3 },
  turn_of (by decide +kernel), by decide +kernel, by decide +kernel, by decide +kernel, by decide +kernel⟩,
   ⟨⟨0, false, 0⟩, asked (req 0x0402 0 ([3, 0, 0, 0])) (withPart 0
  { running { streams := [camera] } with streams := [{ openStream with wins := [{ seq := 0, done := true, encoded := true }] }] }
  live), req 0x0402 0 ([3, 0, 0, 0]), { openStream with wins := [{ seq := 0, done := true, encoded := true }] }, turn_of
  (by decide +kernel), by decide +kernel, by decide +kernel, by decide +kernel, by decide +kernel, by decide +kernel⟩,
   ⟨⟨0, false, 0⟩, asked (req 0x0402 0 ([3, 0, 0, 0])) (withPart 0
  { running { streams := [camera] } with streams := [{ openStream with wins := [{ seq := 0 }] }] } live), req 0x0402 0 ([3, 0,
  0, 0]), { openStream with wins := [{ seq := 0 }] }, turn_of (by decide +kernel), by decide +kernel, by decide +kernel,
  by decide +kernel, by decide +kernel, by decide +kernel⟩,
   ⟨⟨0, false, 0⟩, asked (req 0x0403 0 ([3, 0, 0, 0])) (withPart 0
  { running { streams := [camera] } with streams := [openStream] } live), req 0x0403 0 ([3, 0, 0, 0]), camera, openStream,
  turn_of (by decide +kernel), by decide +kernel, by decide +kernel, by decide +kernel⟩,
   ⟨⟨0, false, 0⟩, asked (req 0x0801 0 ([7, 1, 24, 2] ++ toLe 4 0x0A000001 ++ [0, 0, 0, 1, 0, 0, 0, 0, 3, 0] ++ toLe 2 1024 ++
  toLe 2 2000 ++ [0, 0] ++ toLe 4 0x0A000002)) (withPart 0
  { running { streams := [camera] } with st := .paused, g := { loaded.g with ports := [7] } } live), req 0x0801 0 ([7, 1, 24, 2]
  ++ toLe 4 0x0A000001 ++ [0, 0, 0, 1, 0, 0, 0, 0, 3, 0] ++ toLe 2 1024 ++ toLe 2 2000 ++ [0, 0] ++ toLe 4 0x0A000002), turn_of
  (by decide +kernel), by decide +kernel, by decide +kernel, by decide +kernel, by decide +kernel, by decide +kernel,
  by decide +kernel⟩,
   ⟨⟨0, false, 0⟩, asked (req 0x0801 0 ([7, 1, 24, 2] ++ toLe 4 0x0A000001 ++ [0, 0, 0, 1, 0, 0, 0, 0, 3, 0] ++ toLe 2 1024 ++
  toLe 2 2000 ++ [0, 0] ++ toLe 4 0x0A000002)) (withPart 0 loaded live), req 0x0801 0 ([7, 1, 24, 2] ++ toLe 4 0x0A000001 ++ [0,
  0, 0, 1, 0, 0, 0, 0, 3, 0] ++ toLe 2 1024 ++ toLe 2 2000 ++ [0, 0] ++ toLe 4 0x0A000002), turn_of (by decide +kernel),
  by decide +kernel, by decide +kernel, by decide +kernel⟩,
   ⟨⟨0, false, 0⟩, asked (req 0x0801 0 ([7, 1, 24, 2] ++ toLe 4 0x0A000001 ++ [0, 0, 0, 1, 0, 0, 0, 0, 3, 0] ++ toLe 2 1024 ++
  toLe 2 2000 ++ [0, 0] ++ toLe 4 0x0A000002)) (withPart 1 { g := { ports := [7] } } (withPart 0 loaded live)), req 0x0801 0
  ([7, 1, 24, 2] ++ toLe 4 0x0A000001 ++ [0, 0, 0, 1, 0, 0, 0, 0, 3, 0] ++ toLe 2 1024 ++ toLe 2 2000 ++ [0, 0] ++ toLe 4
  0x0A000002), 1, turn_of (by decide +kernel), by decide +kernel, by decide +kernel, by decide +kernel, by decide +kernel⟩,
   ⟨⟨0, false, 0⟩, asked (req 0x0802 0 ([7, 0, 0, 0])) (receiving openStream), req 0x0802 0 ([7, 0, 0, 0]), turn_of
  (by decide +kernel), by decide +kernel, by decide +kernel, by decide +kernel⟩⟩

theorem witness_PtpAndEthernetFrames : (∃ (n : Nat) (origin : Int) (rx : Int) (s : State), ptpHere s n = true) ∧ (∃ (n : Nat)
  (origin : Int) (rx : Int) (s : State), ptpHere s n = true ∧ s.units.ptp.waiting = some rx) ∧ (∃ (n : Nat) (rx : Int) (tx :
  Int) (s : State), ptpHere s n = true) ∧ (∃ (n : Nat) (m : Nat) (q : Nat) (s : State), ptpHere s n = true ∧ s.units.ptp.master
  = none) ∧ (∃ (n : Nat) (m : Nat) (q : Nat) (s : State) (m' : Nat) (q' : Nat), ptpHere s n = true ∧ s.units.ptp.master = some
  (m', q') ∧ q' < q) ∧ (∃ (n : Nat) (f : EthFrame) (s : State), portTakes s n = true ∧ (f.fcsOk = false ∨ f.toUs = false)) ∧ (∃
  (n : Nat) (f : EthFrame) (s : State), portTakes s n = true ∧ f.fcsOk = true ∧ f.toUs = true ∧ f.size ≤ 9216 ∧ f.vlan = none ∧
  f.ether ≠ 0) ∧ (∃ (n : Nat) (f : EthFrame) (s : State), n < 8 ∧ portTakes s n = true ∧ f.fcsOk = true ∧ f.toUs = true ∧ 9216 <
  f.size) ∧ (∃ (n : Nat) (f : EthFrame) (s : State), n < 8 ∧ portTakes s n = true ∧ (portOf s n).role = 1) ∧ (∃ (n : Nat)
  (sender : Nat) (body : List Byte) (m : Option Nat) (s : State), portTakes s n = true) ∧ (∃ (n : Nat) (sender : Nat) (body :
  List Byte) (m : Option Nat) (s : State) (a : Nat), portTakes s n = true ∧ a ≠ (portOf s n).addr) ∧ (∃ (n : Nat) (a : Nat) (b :
  Nat) (body : List Byte) (f : EthFrame) (m : Option Nat) (s : State), portTakes s n = false) :=
  ⟨⟨7, 5, 9, modUnits (fun u => { u with ptp := { port := some 7 } }) (modPort 7 (fun x => { x with link := .up }) live),
  by decide +kernel⟩,
   ⟨7, 5, 9, modUnits (fun u => { u with ptp := { port := some 7, waiting := some 9 } }) (modPort 7 (fun x =>
  { x with link := .up }) live), by decide +kernel, by decide +kernel⟩,
   ⟨7, 100, 90, modUnits (fun u => { u with ptp := { port := some 7 } }) (modPort 7 (fun x => { x with link := .up }) live),
  by decide +kernel⟩,
   ⟨7, 3, 4, modUnits (fun u => { u with ptp := { port := some 7 } }) (modPort 7 (fun x => { x with link := .up }) live),
  by decide +kernel, by decide +kernel⟩,
   ⟨7, 3, 9, modUnits (fun u => { u with ptp := { port := some 7, master := some (1, 8) } }) (modPort 7 (fun x =>
  { x with link := .up }) live), 1, 8, by decide +kernel, by decide +kernel, by decide +kernel⟩,
   ⟨7,
  { fcsOk := false, size := 64, toUs := true, vlan := none, ether := 0, ipFragment := false, proto := 17, srcAddr := 1, srcPort := 1, dstPort := 1, icrcOk := true, qpn := 0 },
  modPort 7 (fun x => { x with link := .up, role := 1 }) live, by decide +kernel, by decide +kernel⟩,
   ⟨7,
  { fcsOk := true, size := 9216, toUs := true, vlan := none, ether := 3, ipFragment := false, proto := 17, srcAddr := 1, srcPort := 1, dstPort := 1, icrcOk := true, qpn := 0 },
  modPort 7 (fun x => { x with link := .up, role := 2 }) live, by decide +kernel, by decide +kernel, by decide +kernel,
  by decide +kernel, by decide +kernel, by decide +kernel⟩,
   ⟨7,
  { fcsOk := true, size := 9217, toUs := true, vlan := none, ether := 0, ipFragment := false, proto := 17, srcAddr := 1, srcPort := 1, dstPort := 1, icrcOk := true, qpn := 0 },
  modPort 7 (fun x => { x with link := .up, role := 1 }) live, by decide +kernel, by decide +kernel, by decide +kernel,
  by decide +kernel, by decide +kernel⟩,
   ⟨7,
  { fcsOk := true, size := 64, toUs := true, vlan := none, ether := 0, ipFragment := false, proto := 17, srcAddr := 1, srcPort := 1, dstPort := 1, icrcOk := true, qpn := 0 },
  modPort 7 (fun x => { x with link := .up, role := 1 }) live, by decide +kernel, by decide +kernel, by decide +kernel⟩,
   ⟨7, 9, [1], none, modPort 7 (fun x => { x with link := .up, role := 1 }) live, by decide +kernel⟩,
   ⟨7, 9, [1], none, modPort 7 (fun x => { x with link := .up, role := 1 }) live, 5, by decide +kernel, by decide +kernel⟩,
   ⟨7, 1, 2, [],
  { fcsOk := true, size := 64, toUs := true, vlan := none, ether := 0, ipFragment := false, proto := 17, srcAddr := 1, srcPort := 1, dstPort := 1, icrcOk := true, qpn := 0 },
  none, live, by decide +kernel⟩⟩

theorem witness_DeliverySessions : (∃ (i : ReqId) (s : State) (r : Req), Turn s i 2305 r ∧ r.part < 64 ∧ openFieldsOk r.payload
  = true ∧ (parOf r.payload).p2p = false ∧ portHolder s (parOf r.payload).port = some r.pid ∧ (portOf s (parOf
  r.payload).port).role = 2 ∧ targetOf (partOf s r.pid) (field r.payload 0 1) = none ∧ onSubnet (portOf s (parOf
  r.payload).port) (parOf r.payload).addr = true ∧ slotsFit (partOf s r.pid) (field r.payload 0 1) (parOf r.payload) = true) ∧
  (∃ (i : ReqId) (s : State) (r : Req) (x : Target), Turn s i 2305 r ∧ r.part < 64 ∧ openFieldsOk r.payload = true ∧ (parOf
  r.payload).p2p = false ∧ portHolder s (parOf r.payload).port = some r.pid ∧ (portOf s (parOf r.payload).port).role = 2 ∧
  targetOf (partOf s r.pid) (field r.payload 0 1) = some x ∧ x.live = false ∧ onSubnet (portOf s (parOf r.payload).port) (parOf
  r.payload).addr = true ∧ slotsFit (partOf s r.pid) (field r.payload 0 1) (parOf r.payload) = true) ∧ (∃ (i : ReqId) (s :
  State) (r : Req) (h : Pid), Turn s i 2305 r ∧ openFieldsOk r.payload = true ∧ (parOf r.payload).p2p = false ∧ portHolder s
  (parOf r.payload).port = some h ∧ h ≠ r.pid) ∧ (∃ (i : ReqId) (s : State) (r : Req), Turn s i 2305 r ∧ openFieldsOk r.payload
  = true ∧ (parOf r.payload).p2p = false ∧ portHolder s (parOf r.payload).port = none) ∧ (∃ (i : ReqId) (s : State) (r : Req),
  Turn s i 2305 r ∧ openFieldsOk r.payload = true ∧ (parOf r.payload).p2p = false ∧ portHolder s (parOf r.payload).port = some
  r.pid ∧ (portOf s (parOf r.payload).port).role ≠ 2) ∧ (∃ (i : ReqId) (s : State) (r : Req) (x : Target), Turn s i 2305 r ∧
  openFieldsOk r.payload = true ∧ (parOf r.payload).p2p = false ∧ portHolder s (parOf r.payload).port = some r.pid ∧ (portOf s
  (parOf r.payload).port).role = 2 ∧ targetOf (partOf s r.pid) (field r.payload 0 1) = some x ∧ x.live = true) ∧ (∃ (i : ReqId)
  (s : State) (r : Req) (x : Target), Turn s i 2306 r ∧ r.part < 64 ∧ zeroAt r.payload 1 3 = true ∧ targetOf (partOf s r.pid)
  (field r.payload 0 1) = some x ∧ x.live = true) ∧ (∃ (i : ReqId) (s : State) (r : Req), Turn s i 2306 r ∧ r.part < 64 ∧ zeroAt
  r.payload 1 3 = true ∧ targetOf (partOf s r.pid) (field r.payload 0 1) = none) ∧ (∃ (i : ReqId) (s : State) (r : Req), Turn s
  i 2307 r ∧ within 1 32 (field r.payload 1 1) = true ∧ field r.payload 0 1 + field r.payload 1 1 ≤ 64 ∧ zeroAt r.payload 2 2 =
  true) :=
  ⟨⟨⟨0, true, 0⟩, asked (ringReq 0x0901 0 ([63, 0, 7, 1, 0, 0] ++ toLe 2 256 ++ toLe 4 0x0A0000FE ++ toLe 4 0xFFFFFF ++ toLe 4
  0xFFFFFF ++ toLe 4 64 ++ toLe 4 64 ++ toLe 4 600000 ++ zeros 56)) (modPort 7 (fun _ =>
  { link := .up, role := 2, prefix_ := 24, addr := 0x0A000001 }) (withPart 0
  { running {} with g := { loaded.g with ports := [7] } } live)), ringReq 0x0901 0 ([63, 0, 7, 1, 0, 0] ++ toLe 2 256 ++ toLe 4
  0x0A0000FE ++ toLe 4 0xFFFFFF ++ toLe 4 0xFFFFFF ++ toLe 4 64 ++ toLe 4 64 ++ toLe 4 600000 ++ zeros 56), turn_of
  (by decide +kernel), by decide +kernel, by decide +kernel, by decide +kernel, by decide +kernel, by decide +kernel,
  by decide +kernel, by decide +kernel, by decide +kernel⟩,
   ⟨⟨0, true, 0⟩, asked (ringReq 0x0901 0 ([63, 0, 7, 1, 0, 0] ++ toLe 2 256 ++ toLe 4 0x0A0000FE ++ toLe 4 0xFFFFFF ++ toLe 4
  0xFFFFFF ++ toLe 4 64 ++ toLe 4 64 ++ toLe 4 600000 ++ zeros 56)) (delivering { target with st := 3 }), ringReq 0x0901 0 ([63,
  0, 7, 1, 0, 0] ++ toLe 2 256 ++ toLe 4 0x0A0000FE ++ toLe 4 0xFFFFFF ++ toLe 4 0xFFFFFF ++ toLe 4 64 ++ toLe 4 64 ++ toLe 4
  600000 ++ zeros 56), { target with st := 3 }, turn_of (by decide +kernel), by decide +kernel, by decide +kernel,
  by decide +kernel, by decide +kernel, by decide +kernel, by decide +kernel, by decide +kernel, by decide +kernel,
  by decide +kernel⟩,
   ⟨⟨0, true, 0⟩, asked (ringReq 0x0901 1 ([63, 0, 7, 1, 0, 0] ++ toLe 2 256 ++ toLe 4 0x0A0000FE ++ toLe 4 0xFFFFFF ++ toLe 4
  0xFFFFFF ++ toLe 4 64 ++ toLe 4 64 ++ toLe 4 600000 ++ zeros 56)) (withPart 1 (running {}) (delivering target)), ringReq
  0x0901 1 ([63, 0, 7, 1, 0, 0] ++ toLe 2 256 ++ toLe 4 0x0A0000FE ++ toLe 4 0xFFFFFF ++ toLe 4 0xFFFFFF ++ toLe 4 64 ++ toLe 4
  64 ++ toLe 4 600000 ++ zeros 56), 0, turn_of (by decide +kernel), by decide +kernel, by decide +kernel, by decide +kernel,
  by decide +kernel⟩,
   ⟨⟨0, true, 0⟩, asked (ringReq 0x0901 0 ([63, 0, 7, 1, 0, 0] ++ toLe 2 256 ++ toLe 4 0x0A0000FE ++ toLe 4 0xFFFFFF ++ toLe 4
  0xFFFFFF ++ toLe 4 64 ++ toLe 4 64 ++ toLe 4 600000 ++ zeros 56)) (withPart 0 (running {}) live), ringReq 0x0901 0 ([63, 0, 7,
  1, 0, 0] ++ toLe 2 256 ++ toLe 4 0x0A0000FE ++ toLe 4 0xFFFFFF ++ toLe 4 0xFFFFFF ++ toLe 4 64 ++ toLe 4 64 ++ toLe 4 600000
  ++ zeros 56), turn_of (by decide +kernel), by decide +kernel, by decide +kernel, by decide +kernel⟩,
   ⟨⟨0, true, 0⟩, asked (ringReq 0x0901 0 ([63, 0, 7, 1, 0, 0] ++ toLe 2 256 ++ toLe 4 0x0A0000FE ++ toLe 4 0xFFFFFF ++ toLe 4
  0xFFFFFF ++ toLe 4 64 ++ toLe 4 64 ++ toLe 4 600000 ++ zeros 56)) (withPart 0
  { running {} with g := { loaded.g with ports := [7] } } live), ringReq 0x0901 0 ([63, 0, 7, 1, 0, 0] ++ toLe 2 256 ++ toLe 4
  0x0A0000FE ++ toLe 4 0xFFFFFF ++ toLe 4 0xFFFFFF ++ toLe 4 64 ++ toLe 4 64 ++ toLe 4 600000 ++ zeros 56), turn_of
  (by decide +kernel), by decide +kernel, by decide +kernel, by decide +kernel, by decide +kernel⟩,
   ⟨⟨0, true, 0⟩, asked (ringReq 0x0901 0 ([63, 0, 7, 1, 0, 0] ++ toLe 2 256 ++ toLe 4 0x0A0000FE ++ toLe 4 0xFFFFFF ++ toLe 4
  0xFFFFFF ++ toLe 4 64 ++ toLe 4 64 ++ toLe 4 600000 ++ zeros 56)) (delivering target), ringReq 0x0901 0 ([63, 0, 7, 1, 0, 0]
  ++ toLe 2 256 ++ toLe 4 0x0A0000FE ++ toLe 4 0xFFFFFF ++ toLe 4 0xFFFFFF ++ toLe 4 64 ++ toLe 4 64 ++ toLe 4 600000 ++ zeros
  56), target, turn_of (by decide +kernel), by decide +kernel, by decide +kernel, by decide +kernel, by decide +kernel,
  by decide +kernel, by decide +kernel⟩,
   ⟨⟨0, false, 0⟩, asked (req 0x0902 0 ([63, 0, 0, 0])) (delivering target), req 0x0902 0 ([63, 0, 0, 0]), target, turn_of
  (by decide +kernel), by decide +kernel, by decide +kernel, by decide +kernel, by decide +kernel⟩,
   ⟨⟨0, false, 0⟩, asked (req 0x0902 0 ([62, 0, 0, 0])) (delivering target), req 0x0902 0 ([62, 0, 0, 0]), turn_of
  (by decide +kernel), by decide +kernel, by decide +kernel, by decide +kernel⟩,
   ⟨⟨0, false, 0⟩, asked (req 0x0903 0 ([32, 32, 0, 0])) (delivering target), req 0x0903 0 ([32, 32, 0, 0]), turn_of
  (by decide +kernel), by decide +kernel, by decide +kernel, by decide +kernel⟩⟩

theorem witness_DeliveryMessages : (∃ (p : Pid) (n : Nat) (m : List Byte) (s : State) (x : Target), Heard s p n m x ∧ field m 0
  1 = 129 ∧ (field m 8 8 = x.acked ∨ seqAhead (field m 8 8) x.acked = true ∧ seqAhead (field m 8 8) (lastSent x) = false) ∧
  (field m 16 8 = x.released ∨ seqAhead (field m 16 8) x.released = true) ∧ seqAhead (field m 16 8) (field m 8 8) = false) ∧ (∃
  (p : Pid) (n : Nat) (m : List Byte) (s : State) (x : Target), Heard s p n m x ∧ field m 0 1 = 129 ∧ x.st = 2 ∧ field m 8 8 ≠
  x.acked ∧ seqAhead (field m 8 8) (lastSent x) = true ∧ field m 16 8 = x.released ∧ seqAhead x.released x.acked = false) ∧ (∃
  (p : Pid) (n : Nat) (m : List Byte) (s : State) (x : Target) (b : Sent), Heard s p n m x ∧ field m 0 1 = 130 ∧ (List.find?
  (fun (b : Sent) => b.seq == field m 8 8 && b.timer) x.sent = some b) ∧ b.naked = false ∧ (List.find? (fun (b : Sent) => b.seq
  == field m 8 8) x.sent = some b)) ∧ (∃ (p : Pid) (n : Nat) (m : List Byte) (s : State) (x : Target) (b : Sent), Heard s p n m
  x ∧ field m 0 1 = 130 ∧ (List.find? (fun (b : Sent) => b.seq == field m 8 8 && b.timer) x.sent = some b) ∧ b.naked = true) ∧
  (∃ (p : Pid) (n : Nat) (m : List Byte) (s : State) (x : Target), Heard s p n m x ∧ field m 0 1 = 130 ∧ (List.find? (fun (b :
  Sent) => b.seq == field m 8 8 && b.timer) x.sent = none)) ∧ (∃ (p : Pid) (n : Nat) (m : List Byte) (s : State) (x : Target),
  Heard s p n m x ∧ field m 0 1 = 3 ∧ within 1 7 (field m 16 2) = true) ∧ (∃ (p : Pid) (n : Nat) (m : List Byte) (s : State) (x
  : Target), targetOf (partOf s p) n = some x ∧ x.live = true ∧ x.par.p2p = false ∧ domOn s 5 = true ∧ x.rqTime = s.time ∧
  x.rqLeft = 0) ∧ (∃ (p : Pid) (n : Nat) (k : Nat) (s : State) (x : Target), targetOf (partOf s p) n = some x ∧ timersRun
  (partOf s p) x = true ∧ x.st = 1 ∧ x.helloSent = true ∧ x.helloResent = false) ∧ (∃ (p : Pid) (n : Nat) (k : Nat) (s : State)
  (x : Target), targetOf (partOf s p) n = some x ∧ timersRun (partOf s p) x = true ∧ x.st = 1 ∧ x.helloSent = true ∧
  x.helloResent = true) ∧ (∃ (p : Pid) (n : Nat) (k : Nat) (s : State) (x : Target) (b : Sent), targetOf (partOf s p) n = some x
  ∧ timersRun (partOf s p) x = true ∧ (List.find? (fun (b : Sent) => b.seq == k && b.timer) x.sent = some b) ∧ b.resent = true)
  ∧ (∃ (p : Pid) (n : Nat) (k : Nat) (s : State) (x : Target) (b : Sent), targetOf (partOf s p) n = some x ∧ timersRun (partOf s
  p) x = true ∧ (List.find? (fun (b : Sent) => b.seq == k && b.timer) x.sent = some b) ∧ (List.find? (fun (b : Sent) => b.seq ==
  k) x.sent = some b) ∧ b.resent = false) ∧ (∃ (p : Pid) (n : Nat) (s : State) (x : Target), targetOf (partOf s p) n = some x ∧
  timersRun (partOf s p) x = true ∧ x.par.creditMs ≠ 0 ∧ awaited (partOf s p) x = true) ∧ (∃ (p : Pid) (n : Nat) (s : State) (x
  : Target), targetOf (partOf s p) n = some x ∧ x.live = true ∧ x.par.p2p = false ∧ domOn s 5 = true ∧ x.rcTried = false) ∧ (∃
  (p : Pid) (n : Nat) (s : State) (x : Target), targetOf (partOf s p) n = some x ∧ x.live = true ∧ x.par.p2p = false ∧ domOn s 5
  = true ∧ x.rcTried = true) ∧ (∃ (p : Pid) (n : Nat) (s : State) (x : Target), targetOf (partOf s p) n = some x ∧ x.live = true
  ∧ x.par.p2p = false ∧ domOn s 5 = true ∧ x.rnrTried = false) ∧ (∃ (p : Pid) (n : Nat) (s : State) (x : Target), targetOf
  (partOf s p) n = some x ∧ x.live = true ∧ x.par.p2p = false ∧ domOn s 5 = true ∧ x.rnrTried = true) ∧ (∃ (p : Pid) (n : Nat)
  (s : State) (x : Target), targetOf (partOf s p) n = some x ∧ x.live = true ∧ x.par.p2p = false ∧ domOn s 5 = true) ∧ (∃ (p :
  Pid) (n : Nat) (s : State) (x : Target), targetOf (partOf s p) n = some x ∧ x.live = true ∧ x.par.p2p = false ∧ domOn s 5 =
  true) ∧ (∃ (p : Pid) (n : Nat) (s : State) (x : Target) (b : List Byte), targetOf (partOf s p) n = some x ∧ timersRun (partOf
  s p) x = true ∧ x.par.p2p = true ∧ canSend s x = true ∧ x.pollTried = false) ∧ (∃ (p : Pid) (n : Nat) (s : State) (x : Target)
  (b : List Byte), targetOf (partOf s p) n = some x ∧ timersRun (partOf s p) x = true ∧ x.par.p2p = true ∧ canSend s x = true ∧
  x.pollTried = true) ∧ (∃ (p : Pid) (n : Nat) (s : State) (x : Target) (b : List Byte), targetOf (partOf s p) n = some x ∧
  timersRun (partOf s p) x = true ∧ x.par.p2p = true ∧ canSend s x = true ∧ field b 0 8 = x.acked ∧ field b 8 8 = x.released ∧
  seqAhead x.released x.acked = false ∧ field b 28 4 = x.nakCount) ∧ (∃ (x : Target), x.st ≠ 2) :=
  ⟨⟨0, 63, trainer 0x81 (toLe 8 2 ++ toLe 8 2), delivering target, target, ⟨by decide +kernel, by decide +kernel,
  by decide +kernel, by decide +kernel, by decide +kernel, by decide +kernel, by decide +kernel⟩, by decide +kernel,
  by decide +kernel, by decide +kernel, by decide +kernel⟩,
   ⟨0, 63, trainer 0x81 (toLe 8 3 ++ toLe 8 1), delivering target, target, ⟨by decide +kernel, by decide +kernel,
  by decide +kernel, by decide +kernel, by decide +kernel, by decide +kernel, by decide +kernel⟩, by decide +kernel,
  by decide +kernel, by decide +kernel, by decide +kernel, by decide +kernel, by decide +kernel⟩,
   ⟨0, 63, trainer 0x82 (toLe 8 2), delivering { target with sent := [sentOne] }, { target with sent := [sentOne] }, sentOne,
  ⟨by decide +kernel, by decide +kernel, by decide +kernel, by decide +kernel, by decide +kernel, by decide +kernel,
  by decide +kernel⟩, by decide +kernel, by decide +kernel, by decide +kernel, by decide +kernel⟩,
   ⟨0, 63, trainer 0x82 (toLe 8 2), delivering { target with sent := [{ sentOne with naked := true }] },
  { target with sent := [{ sentOne with naked := true }] }, { sentOne with naked := true }, ⟨by decide +kernel,
  by decide +kernel, by decide +kernel, by decide +kernel, by decide +kernel, by decide +kernel, by decide +kernel⟩,
  by decide +kernel, by decide +kernel, by decide +kernel⟩,
   ⟨0, 63, trainer 0x82 (toLe 8 5), delivering target, target, ⟨by decide +kernel, by decide +kernel, by decide +kernel,
  by decide +kernel, by decide +kernel, by decide +kernel, by decide +kernel⟩, by decide +kernel, by decide +kernel⟩,
   ⟨0, 63, trainer 3 (zeros 8 ++ toLe 2 7), delivering target, target, ⟨by decide +kernel, by decide +kernel, by decide +kernel,
  by decide +kernel, by decide +kernel, by decide +kernel, by decide +kernel⟩, by decide +kernel, by decide +kernel⟩,
   ⟨0, 63, [], delivering { target with rqLeft := 0 }, { target with rqLeft := 0 }, by decide +kernel, by decide +kernel,
  by decide +kernel, by decide +kernel, by decide +kernel, by decide +kernel⟩,
   ⟨0, 63, 0, delivering { target with st := 1, nextSeq := 0 }, { target with st := 1, nextSeq := 0 }, by decide +kernel,
  by decide +kernel, by decide +kernel, by decide +kernel, by decide +kernel⟩,
   ⟨0, 63, 0, delivering { target with st := 1, nextSeq := 0, helloResent := true },
  { target with st := 1, nextSeq := 0, helloResent := true }, by decide +kernel, by decide +kernel, by decide +kernel,
  by decide +kernel, by decide +kernel⟩,
   ⟨0, 63, 2, delivering { target with sent := [{ sentOne with resent := true }] },
  { target with sent := [{ sentOne with resent := true }] }, { sentOne with resent := true }, by decide +kernel,
  by decide +kernel, by decide +kernel, by decide +kernel⟩,
   ⟨0, 63, 2, delivering { target with sent := [sentOne] }, { target with sent := [sentOne] }, sentOne, by decide +kernel,
  by decide +kernel, by decide +kernel, by decide +kernel, by decide +kernel⟩,
   ⟨0, 63, withPart 0
  { running { stages := [{ kind := 16, targets := [63] }] } with targets := [{ target with par := { port := 7, slots := 0, creditMs := 10 } }], sc := { wait := .credit } }
  live, { target with par := { port := 7, slots := 0, creditMs := 10 } }, by decide +kernel, by decide +kernel,
  by decide +kernel, by decide +kernel⟩,
   ⟨0, 63, delivering { target with st := 2 }, { target with st := 2 }, by decide +kernel, by decide +kernel, by decide +kernel,
  by decide +kernel, by decide +kernel⟩,
   ⟨0, 63, delivering { target with st := 2, rcTried := true }, { target with st := 2, rcTried := true }, by decide +kernel,
  by decide +kernel, by decide +kernel, by decide +kernel, by decide +kernel⟩,
   ⟨0, 63, delivering { target with st := 2 }, { target with st := 2 }, by decide +kernel, by decide +kernel, by decide +kernel,
  by decide +kernel, by decide +kernel⟩,
   ⟨0, 63, delivering { target with st := 2, rnrTried := true }, { target with st := 2, rnrTried := true }, by decide +kernel,
  by decide +kernel, by decide +kernel, by decide +kernel, by decide +kernel⟩,
   ⟨0, 63, delivering { target with st := 2 }, { target with st := 2 }, by decide +kernel, by decide +kernel, by decide +kernel,
  by decide +kernel⟩,
   ⟨0, 63, delivering target, target, by decide +kernel, by decide +kernel, by decide +kernel, by decide +kernel⟩,
   ⟨0, 63, withPart 0 { running {} with targets := [{ target with par := { p2p := true, slots := 256 } }] } (live),
  { target with par := { p2p := true, slots := 256 } }, [], by decide +kernel, by decide +kernel, by decide +kernel,
  by decide +kernel, by decide +kernel⟩,
   ⟨0, 63, withPart 0 { running {} with targets := [{ target with par := { p2p := true, slots := 256 }, pollTried := true }] }
  (live), { target with par := { p2p := true, slots := 256 }, pollTried := true }, [], by decide +kernel, by decide +kernel,
  by decide +kernel, by decide +kernel, by decide +kernel⟩,
   ⟨0, 63, withPart 0 { running {} with targets := [{ target with par := { p2p := true, slots := 256 }, pollTried := true }] }
  (live), { target with par := { p2p := true, slots := 256 }, pollTried := true }, toLe 8 1 ++ toLe 8 1 ++ zeros 16,
  by decide +kernel, by decide +kernel, by decide +kernel, by decide +kernel, by decide +kernel, by decide +kernel,
  by decide +kernel, by decide +kernel⟩,
   ⟨{ target with st := 3 }, by decide +kernel⟩⟩

theorem witness_StorageAttachAndDetach : (∃ (i : ReqId) (s : State) (r : Req), Turn s i 2561 r ∧ CanPend s r ∧ field r.payload 0
  1 < 4 ∧ zeroAt r.payload 1 3 = true ∧ domOn s 5 = true ∧ ((driveOf s (field r.payload 0 1)).st = 0 ∨ (driveOf s (field
  r.payload 0 1)).st = 4)) ∧ (∃ (i : ReqId) (s : State) (r : Req), Turn s i 2561 r ∧ field r.payload 0 1 < 4 ∧ zeroAt r.payload
  1 3 = true ∧ (domOn s 5 = false ∨ (driveOf s (field r.payload 0 1)).st = 2 ∨ (driveOf s (field r.payload 0 1)).st = 1)) ∧ (∃
  (n : Nat) (s : State) (rate : Nat) (width : Nat), n < 4 ∧ (driveOf s n).st = 1 ∧ (driveOf s n).phase = 0 ∧ (driveOf s n).tried
  = false) ∧ (∃ (n : Nat) (s : State), n < 4 ∧ (driveOf s n).st = 1 ∧ (driveOf s n).phase = 0 ∧ (driveOf s n).tried = false) ∧
  (∃ (n : Nat) (s : State), n < 4 ∧ (driveOf s n).st = 1 ∧ (driveOf s n).phase = 0 ∧ (driveOf s n).tried = true) ∧ (∃ (n : Nat)
  (s : State), n < 4 ∧ (driveOf s n).st = 1 ∧ (driveOf s n).phase = 0) ∧ (∃ (n : Nat) (s : State), n < 4 ∧ (driveOf s n).st = 1
  ∧ (driveOf s n).phase = 1) ∧ (∃ (n : Nat) (s : State) (mdts : Nat) (mqes : Nat) (ns : List NsInfo), n < 4 ∧ (driveOf s n).st =
  1 ∧ (driveOf s n).phase = 2) ∧ (∃ (n : Nat) (s : State), n < 4 ∧ (driveOf s n).st = 2 ∧ (driveOf s n).phase = 3) ∧ (∃ (n :
  Nat) (s : State), n < 4 ∧ (driveOf s n).st = 1 ∧ ((driveOf s n).phase = 1 ∨ (driveOf s n).phase = 2) ∧ (driveOf s n).tried =
  false) ∧ (∃ (n : Nat) (s : State), n < 4 ∧ (driveOf s n).st = 1 ∧ ((driveOf s n).phase = 1 ∨ (driveOf s n).phase = 2) ∧
  (driveOf s n).tried = true) ∧ (∃ (n : Nat) (s : State), n < 4 ∧ (driveOf s n).st = 2 ∧ (driveOf s n).phase = 3) ∧ (∃ (i :
  ReqId) (s : State) (r : Req), Turn s i 2562 r ∧ CanPend s r ∧ field r.payload 0 1 < 4 ∧ zeroAt r.payload 1 3 = true ∧ (∀ (k :
  Nat), (driveOf s k).phase ≠ 4 ∧ (driveOf s k).phase ≠ 5) ∧ nsGranted s (field r.payload 0 1) = true) ∧ (∃ (i : ReqId) (s :
  State) (r : Req), Turn s i 2562 r ∧ CanPend s r ∧ field r.payload 0 1 < 4 ∧ zeroAt r.payload 1 3 = true ∧ (∀ (k : Nat),
  (driveOf s k).phase ≠ 4 ∧ (driveOf s k).phase ≠ 5) ∧ nsGranted s (field r.payload 0 1) = false ∧ (driveOf s (field r.payload 0
  1)).req.isSome = true) ∧ (∃ (i : ReqId) (s : State) (r : Req), Turn s i 2562 r ∧ CanPend s r ∧ field r.payload 0 1 < 4 ∧
  zeroAt r.payload 1 3 = true ∧ (∀ (k : Nat), (driveOf s k).phase ≠ 4 ∧ (driveOf s k).phase ≠ 5) ∧ nsGranted s (field r.payload
  0 1) = false ∧ (driveOf s (field r.payload 0 1)).req = none ∧ (driveOf s (field r.payload 0 1)).st = 2) ∧ (∃ (i : ReqId) (s :
  State) (r : Req), Turn s i 2563 r ∧ field r.payload 0 1 < 4 ∧ zeroAt r.payload 1 3 = true) :=
  ⟨⟨⟨0, true, 0⟩, asked (ringReq 0x0A01 0xFF ([3, 0, 0, 0])) (live), ringReq 0x0A01 0xFF ([3, 0, 0, 0]), turn_of
  (by decide +kernel), by unfold CanPend; decide +kernel, by decide +kernel, by decide +kernel, by decide +kernel,
  by decide +kernel⟩,
   ⟨⟨0, true, 0⟩, asked (ringReq 0x0A01 0xFF ([3, 0, 0, 0])) (withDrive (drive []) live), ringReq 0x0A01 0xFF ([3, 0, 0, 0]),
  turn_of (by decide +kernel), by decide +kernel, by decide +kernel, by decide +kernel⟩,
   ⟨3, withDrive { st := 1 } live, 5, 4, by decide +kernel, by decide +kernel, by decide +kernel, by decide +kernel⟩,
   ⟨3, withDrive { st := 1 } live, by decide +kernel, by decide +kernel, by decide +kernel, by decide +kernel⟩,
   ⟨3, withDrive { st := 1, tried := true } live, by decide +kernel, by decide +kernel, by decide +kernel, by decide +kernel⟩,
   ⟨3, withDrive { st := 1 } live, by decide +kernel, by decide +kernel, by decide +kernel⟩,
   ⟨3, withDrive { st := 1, phase := 1 } live, by decide +kernel, by decide +kernel, by decide +kernel⟩,
   ⟨3, withDrive { st := 1, phase := 2 } live, 131072, 255, [⟨1, true, true, 1024⟩], by decide +kernel, by decide +kernel,
  by decide +kernel⟩,
   ⟨3, withDrive { drive [] with phase := 3 } live, by decide +kernel, by decide +kernel, by decide +kernel⟩,
   ⟨3, withDrive { st := 1, phase := 1 } live, by decide +kernel, by decide +kernel, by decide +kernel, by decide +kernel⟩,
   ⟨3, withDrive { st := 1, phase := 2, tried := true } live, by decide +kernel, by decide +kernel, by decide +kernel,
  by decide +kernel⟩,
   ⟨3, withDrive { drive [] with phase := 3 } live, by decide +kernel, by decide +kernel, by decide +kernel⟩,
   ⟨⟨0, true, 0⟩, asked (ringReq 0x0A02 0xFF ([3, 0, 0, 0])) (withPart 0 { loaded with g := { ns := [(3, 1)] } } (withDrive
  (drive []) live)), ringReq 0x0A02 0xFF ([3, 0, 0, 0]), turn_of (by decide +kernel), by unfold CanPend; decide +kernel,
  by decide +kernel, by decide +kernel, drive_all (P := fun d => d.phase ≠ 4 ∧ d.phase ≠ 5) (by decide +kernel) (by decide),
  by decide +kernel⟩,
   ⟨⟨0, true, 0⟩, asked (ringReq 0x0A02 0xFF ([3, 0, 0, 0])) (withDrive { drive [] with req := some ⟨0, true, 9⟩ } live),
  ringReq 0x0A02 0xFF ([3, 0, 0, 0]), turn_of (by decide +kernel), by unfold CanPend; decide +kernel, by decide +kernel,
  by decide +kernel, drive_all (P := fun d => d.phase ≠ 4 ∧ d.phase ≠ 5) (by decide +kernel) (by decide), by decide +kernel,
  by decide +kernel⟩,
   ⟨⟨0, true, 0⟩, asked (ringReq 0x0A02 0xFF ([3, 0, 0, 0])) (withDrive (drive []) live), ringReq 0x0A02 0xFF ([3, 0, 0, 0]),
  turn_of (by decide +kernel), by unfold CanPend; decide +kernel, by decide +kernel, by decide +kernel, drive_all (P := fun d =>
  d.phase ≠ 4 ∧ d.phase ≠ 5) (by decide +kernel) (by decide), by decide +kernel, by decide +kernel, by decide +kernel⟩,
   ⟨⟨0, false, 0⟩, asked (req 0x0A03 0xFF ([3, 0, 0, 0])) (withDrive (drive []) live), req 0x0A03 0xFF ([3, 0, 0, 0]), turn_of
  (by decide +kernel), by decide +kernel, by decide +kernel⟩⟩

theorem witness_NvmeCommands : (∃ (n : Nat) (e : NvmeCqe) (s : State) (c : NvmeCmd), Completes s n e c ∧ e.sct = 0 ∧ e.sc = 0 ∧
  c.op = 0 ∧ c.retried = false) ∧ (∃ (n : Nat) (e : NvmeCqe) (s : State) (c : NvmeCmd), Completes s n e c ∧ e.sct = 0 ∧ e.sc ≠ 0
  ∧ e.dnr = false ∧ c.op = 0 ∧ c.admin = false ∧ c.retried = false) ∧ (∃ (n : Nat) (e : NvmeCqe) (s : State) (c : NvmeCmd),
  Completes s n e c ∧ e.sct = 0 ∧ e.sc ≠ 0 ∧ e.dnr = true ∧ c.op = 0) ∧ (∃ (n : Nat) (e : NvmeCqe) (s : State), n < 4 ∧ domOn s
  5 = true ∧ (driveOf s n).st = 2 ∧ (driveOf s n).dead.contains e.cid = true) ∧ (∃ (n : Nat) (s : State) (c : NvmeCmd), n < 4 ∧
  (List.find? (fun (x : NvmeCmd) => x.cid == c.cid && x.admin == false) (driveOf s n).cmds = some c) ∧ c.retried = false) ∧ (∃
  (n : Nat) (s : State) (c : NvmeCmd), n < 4 ∧ (List.find? (fun (x : NvmeCmd) => x.cid == c.cid && x.admin == false) (driveOf s
  n).cmds = some c) ∧ c.retried = true) ∧ (∃ (n : Nat) (s : State) (c : NvmeCmd), n < 4 ∧ (List.find? (fun (x : NvmeCmd) =>
  x.cid == c.cid && x.admin) (driveOf s n).cmds = some c) ∧ c.op ≠ 6 ∧ c.retried = false) ∧ (∃ (n : Nat) (s : State) (c :
  NvmeCmd), n < 4 ∧ (List.find? (fun (x : NvmeCmd) => x.cid == c.cid && x.admin) (driveOf s n).cmds = some c) ∧ c.op = 6) ∧ (∃
  (n : Nat) (s : State), n < 4 ∧ (driveOf s n).st = 2 ∧ (driveOf s n).lastReset = none) ∧ (∃ (n : Nat) (s : State) (k : Nat), n
  < 4 ∧ (driveOf s n).st = 2 ∧ (driveOf s n).lastReset = some k ∧ s.time < k + 10000000000 ∧ k ≤ s.time) ∧ (∃ (n : Nat) (s :
  State), n < 4 ∧ (driveOf s n).st = 2) ∧ (∃ (n : Nat) (addr : Nat) (len : Nat) (b : List Byte) (s : State) (c : NvmeCmd) (k :
  Nat × Nat) (d : Desc), n < 4 ∧ domOn s 5 = true ∧ (driveOf s n).st = 2 ∧ (List.find? (fun (c : NvmeCmd) => apertureTakes c
  addr b.length true) (driveOf s n).cmds = some c) ∧ c.sample = some k ∧ c.part < 64 ∧ inputBuffer s n c.part k = some d ∧ c.off
  + (addr - c.aperture) + b.length ≤ classSize d.cls) ∧ (∃ (n : Nat) (addr : Nat) (len : Nat) (b : List Byte) (s : State), n < 4
  ∧ domOn s 5 = true ∧ (driveOf s n).st = 2 ∧ (List.find? (fun (c : NvmeCmd) => apertureTakes c addr b.length true) (driveOf s
  n).cmds = none)) ∧ (∃ (n : Nat) (v : Nat) (s : State), n < 4 ∧ domOn s 5 = true ∧ (driveOf s n).st = 2 ∧ v ≤ (driveOf s
  n).queues.length) ∧ (∃ (n : Nat) (v : Nat) (s : State), n < 4 ∧ domOn s 5 = true ∧ (driveOf s n).st = 2 ∧ (driveOf s
  n).queues.length < v) :=
  ⟨⟨3, ⟨1, 9, 0, 0, 0, false, false⟩, withDrive { drive [nvmeRead] with tails := [(1, 1)] } live, nvmeRead, ⟨by decide +kernel,
  by decide +kernel, by decide +kernel, by decide +kernel, by decide +kernel, by decide +kernel, by decide +kernel,
  by decide +kernel⟩, by decide +kernel, by decide +kernel, by decide +kernel, by decide +kernel⟩,
   ⟨3, ⟨1, 9, 0, 0, 5, false, false⟩, withDrive { drive [nvmeRead] with tails := [(1, 1)] } live, nvmeRead, ⟨by decide +kernel,
  by decide +kernel, by decide +kernel, by decide +kernel, by decide +kernel, by decide +kernel, by decide +kernel,
  by decide +kernel⟩, by decide +kernel, by decide +kernel, by decide +kernel, by decide +kernel, by decide +kernel,
  by decide +kernel⟩,
   ⟨3, ⟨1, 9, 0, 0, 5, true, false⟩, withDrive { drive [nvmeRead] with tails := [(1, 1)] } live, nvmeRead, ⟨by decide +kernel,
  by decide +kernel, by decide +kernel, by decide +kernel, by decide +kernel, by decide +kernel, by decide +kernel,
  by decide +kernel⟩, by decide +kernel, by decide +kernel, by decide +kernel, by decide +kernel⟩,
   ⟨3, ⟨1, 9, 0, 0, 0, false, false⟩, withDrive { drive [] with dead := [9] } live, by decide +kernel, by decide +kernel,
  by decide +kernel, by decide +kernel⟩,
   ⟨3, withDrive (drive [nvmeRead]) live, nvmeRead, by decide +kernel, by decide +kernel, by decide +kernel⟩,
   ⟨3, withDrive (drive [{ nvmeRead with retried := true }]) live, { nvmeRead with retried := true }, by decide +kernel,
  by decide +kernel, by decide +kernel⟩,
   ⟨3, withDrive (drive [{ cid := 9, admin := true, op := 5 }]) live, { cid := 9, admin := true, op := 5 }, by decide +kernel,
  by decide +kernel, by decide +kernel, by decide +kernel⟩,
   ⟨3, withDrive (drive [{ cid := 9, admin := true, op := 6 }]) live, { cid := 9, admin := true, op := 6 }, by decide +kernel,
  by decide +kernel, by decide +kernel⟩,
   ⟨3, withDrive (drive []) live, by decide +kernel, by decide +kernel, by decide +kernel⟩,
   ⟨3, withDrive { drive [] with lastReset := some 0 } live, 0, by decide +kernel, by decide +kernel, by decide +kernel,
  by decide +kernel, by decide +kernel⟩,
   ⟨3, withDrive (drive []) live, by decide +kernel, by decide +kernel⟩,
   ⟨3, 4096, 0, [1, 2, 3, 4], modPool (fun p =>
  { p with descs := [{ cls := 1, index := 4, st := 1, part := 0, owner := ⟨5, 3⟩, for_ := some (0, some 0) }] }) (withDrive
  (drive [nvmeRead]) live), nvmeRead, (0, 0),
  { cls := 1, index := 4, st := 1, part := 0, owner := ⟨5, 3⟩, for_ := some (0, some 0) }, by decide +kernel, by decide +kernel,
  by decide +kernel, by decide +kernel, by decide +kernel, by decide +kernel, by decide +kernel, by decide +kernel⟩,
   ⟨3, 4605, 0, [1, 2, 3, 4], withDrive (drive [nvmeRead]) live, by decide +kernel, by decide +kernel, by decide +kernel,
  by decide +kernel⟩,
   ⟨3, 1, withDrive (drive []) live, by decide +kernel, by decide +kernel, by decide +kernel, by decide +kernel⟩,
   ⟨3, 2, withDrive (drive []) live, by decide +kernel, by decide +kernel, by decide +kernel, by decide +kernel⟩⟩

theorem witness_TakeoverPolicy : (∃ (s : State) (f : Fn) (q : Bool) (len : Nat) (part : Nat) (cap : Nat), ↑f ≠ 0) ∧ (∃ (i :
  ReqId) (s : State) (r : Req), Turn s i 2818 r ∧ field r.payload 0 1 ≤ 1 ∧ zeroAt r.payload 1 3 = true) ∧ (∃ (i : ReqId) (s :
  State) (r : Req), Turn s i 2818 r ∧ (1 < field r.payload 0 1 ∨ zeroAt r.payload 1 3 = false)) ∧ (∃ (s : State), darradUp s =
  true ∧ ((pair s).st = 0 ∨ (pair s).st = 4)) ∧ (∃ (s : State), darradUp s = true) :=
  ⟨⟨live, 64, true, 4, 255, 0, by decide +kernel⟩,
   ⟨⟨0, false, 0⟩, asked (req 0x0B02 0xFF ([1, 0, 0, 0])) (live), req 0x0B02 0xFF ([1, 0, 0, 0]), turn_of (by decide +kernel),
  by decide +kernel, by decide +kernel⟩,
   ⟨⟨0, false, 0⟩, asked (req 0x0B02 0xFF ([2, 0, 0, 0])) (live), req 0x0B02 0xFF ([2, 0, 0, 0]), turn_of (by decide +kernel),
  by decide +kernel⟩,
   ⟨modPair (fun x => { x with st := 4 }) (linked live), by decide +kernel, by decide +kernel⟩,
   ⟨linked live, by decide +kernel⟩⟩

theorem witness_PairCommandsAndLink : (∃ (i : ReqId) (s : State) (r : Req), Turn s i 2817 r) ∧ (∃ (i : ReqId) (s : State) (r :
  Req), Turn s i 2819 r ∧ planFields s r = true ∧ r.payload.length = planLength r.payload ∧ planEmpty r.payload = true) ∧ (∃ (i
  : ReqId) (s : State) (r : Req) (win : Window), Turn s i 2819 r ∧ planFields s r = true ∧ r.payload.length = planLength
  r.payload ∧ planEmpty r.payload = false ∧ (((List.range 5).any fun (c : Nat) => nth (parseGrant r.payload).ceil c != 0 &&
  decide (nth (parseGrant r.payload).ceil c < nth (parseGrant r.payload).min c)) = false) ∧ (∀ d ∈ planDomains (parseGrant
  r.payload), domSeen s d = DomSt.on) ∧ planShorts (dropPlan r.part s) (parseGrant r.payload) = [] ∧ takeGranules (dropPlan
  r.part s) (parseGrant r.payload).a (parseGrant r.payload).w (parseGrant r.payload).e = some win ∧ win.unzero = []) ∧ (∃ (i :
  ReqId) (s : State) (r : Req), Turn s i 2820 r ∧ findReq s i = some r ∧ zeroAt r.payload 1 3 = true ∧ (pair s).partner = 0 ∧
  field r.payload 0 1 = 0) ∧ (∃ (i : ReqId) (s : State) (r : Req), Turn s i 2820 r ∧ findReq s i = some r ∧ zeroAt r.payload 1 3
  = true ∧ (pair s).partner = 0 ∧ field r.payload 0 1 = 1) ∧ (∃ (i : ReqId) (s : State) (r : Req) (p : Pid) (g : Nat) (m :
  Mirror), Turn s i 2820 r ∧ findReq s i = some r ∧ CanPend s r ∧ field r.payload 0 1 = 0 ∧ zeroAt r.payload 1 3 = true ∧ (pair
  s).partner ≠ 0 ∧ (pair s).partnerIds = [(↑p, g)] ∧ mirrorOf s ↑p = some m ∧ isMirrored m = true ∧ planOf s ↑p = none ∧ (partOf
  s p).st = PSt.free ∧ mirPrio s ↑p < 256) ∧ (∃ (i : ReqId) (s : State) (r : Req), Turn s i 2820 r ∧ field r.payload 0 1 = 1 ∧
  zeroAt r.payload 1 3 = true ∧ (pair s).partner ≠ 0) ∧ (∃ (i : ReqId) (s : State) (r : Req), Turn s i 2821 r ∧ CanPend s r ∧
  transferOpen s r.pid = false ∧ (pair s).st = 3 ∧ planPasses s ↑r.pid = true ∧ (partOf s r.pid).mirWait = [] ∧ (partOf s
  r.pid).g.mirrored = true ∧ (((pair s).moving.any fun (m : Nat × ReqId) => m.1 == ↑r.pid) = false)) ∧ (∃ (i : ReqId) (s :
  State) (r : Req), Turn s i 2821 r ∧ transferOpen s r.pid = false ∧ (pair s).st ≠ 3) ∧ (∃ (i : ReqId) (s : State) (r : Req),
  Turn s i 2821 r ∧ transferOpen s r.pid = false ∧ (pair s).st = 3 ∧ planPasses s ↑r.pid = false) ∧ (∃ (s : State), domOn s 5 =
  true ∧ (pair s).link = LinkSt.down ∧ (pair s).training = false) ∧ (∃ (s : State), darradUp s = true) ∧ (∃ (s : State), domOn s
  5 = true ∧ (pair s).training = true) ∧ (∃ (s : State), domOn s 5 = true ∧ (pair s).training = true ∧ (pair s).retrainTried =
  false) ∧ (∃ (s : State), domOn s 5 = true ∧ (pair s).training = true ∧ (pair s).retrainTried = true) ∧ (∃ (s : State), domOn s
  5 = true ∧ (pair s).link = LinkSt.up) ∧ (∃ (h : DarradHdr) (s : State), darradUp s = true) ∧ (∃ (s : State), darradUp s = true
  ∧ ((pair s).st = 0 ∨ (pair s).st = 4)) ∧ (∃ (s : State), (pair s).st = 3) ∧ (∃ (s : State), darradUp s = true) ∧ (∃ (s :
  State), darradUp s = false) ∧ (∃ (los : Bool) (s : State), domOn s 5 = true ∧ (pair s).partner = 0 ∧ (pair s).st ≠ 0 ∧ (pair
  s).missed + 1 < 3) ∧ (∃ (los : Bool) (s : State), domOn s 5 = true ∧ (pair s).partner = 0 ∧ (pair s).st ≠ 0 ∧ 2 ≤ (pair
  s).missed ∧ (pair s).auto_ = false) :=
  ⟨⟨⟨0, false, 0⟩, asked (req 0x0B01 0xFF ([])) (live), req 0x0B01 0xFF ([]), turn_of (by decide +kernel)⟩,
   ⟨⟨0, false, 0⟩, asked (req 0x0B03 0 (zeros 128)) (modPair (fun x => { x with partnerIds := [(0, 1)] }) (linked live)), req
  0x0B03 0 (zeros 128), turn_of (by decide +kernel), by decide +kernel, by decide +kernel, by decide +kernel⟩,
   ⟨⟨0, false, 0⟩, asked (req 0x0B03 0 (zeros 16 ++ toLe 4 1 ++ zeros 16 ++ toLe 2 16 ++ zeros 90)) (modPool (fun q =>
  { q with area := [] }) (modMem (fun m => { m with clean := [⟨true, 8⟩, ⟨false, 8⟩] }) (modPair (fun x =>
  { x with partnerIds := [(0, 1)] }) (linked live)))), req 0x0B03 0 (zeros 16 ++ toLe 4 1 ++ zeros 16 ++ toLe 2 16 ++ zeros 90),
  window, turn_of (by decide +kernel), by decide +kernel, by decide +kernel, by decide +kernel, by decide +kernel,
  by decide +kernel, by decide +kernel, by decide +kernel, by decide +kernel⟩,
   ⟨⟨0, true, 0⟩, asked (ringReq 0x0B04 0xFF ([0, 0, 0, 0])) (linked live), ringReq 0x0B04 0xFF ([0, 0, 0, 0]), turn_of
  (by decide +kernel), by decide +kernel, by decide +kernel, by decide +kernel, by decide +kernel⟩,
   ⟨⟨0, true, 0⟩, asked (ringReq 0x0B04 0xFF ([1, 0, 0, 0])) (linked live), ringReq 0x0B04 0xFF ([1, 0, 0, 0]), turn_of
  (by decide +kernel), by decide +kernel, by decide +kernel, by decide +kernel, by decide +kernel⟩,
   ⟨⟨0, true, 0⟩, asked (ringReq 0x0B04 0xFF ([0, 0, 0, 0])) (modPair (fun x =>
  { x with partner := 2, partnerIds := [(63, 1)], mirrors := [{ mirror with part := 63 }] }) live), ringReq 0x0B04 0xFF ([0, 0,
  0, 0]), 63, 1, { mirror with part := 63 }, turn_of (by decide +kernel), by decide +kernel, by unfold CanPend; decide +kernel,
  by decide +kernel, by decide +kernel, by decide +kernel, by decide +kernel, by decide +kernel, by decide +kernel,
  by decide +kernel, by decide +kernel, by decide +kernel⟩,
   ⟨⟨0, true, 0⟩, asked (ringReq 0x0B04 0xFF ([1, 0, 0, 0])) (modPair (fun x => { x with partner := 1, partnerIds := [(0, 1)] })
  live), ringReq 0x0B04 0xFF ([1, 0, 0, 0]), turn_of (by decide +kernel), by decide +kernel, by decide +kernel,
  by decide +kernel⟩,
   ⟨⟨0, true, 0⟩, asked (ringReq 0x0B05 0 ([])) (modPair (fun x => { x with partnerPlans := [⟨0, 3, 0, true⟩] }) (linked
  (withPart 0 { loaded with st := .paused, g := { loaded.g with mirrored := true } } live))), ringReq 0x0B05 0 ([]), turn_of
  (by decide +kernel), by unfold CanPend; decide +kernel, by decide +kernel, by decide +kernel, by decide +kernel,
  by decide +kernel, by decide +kernel, by decide +kernel⟩,
   ⟨⟨0, true, 0⟩, asked (ringReq 0x0B05 0 ([])) (withPart 0
  { loaded with st := .paused, g := { loaded.g with mirrored := true } } live), ringReq 0x0B05 0 ([]), turn_of
  (by decide +kernel), by decide +kernel, by decide +kernel⟩,
   ⟨⟨0, true, 0⟩, asked (ringReq 0x0B05 0 ([])) (linked (withPart 0
  { loaded with st := .paused, g := { loaded.g with mirrored := true } } live)), ringReq 0x0B05 0 ([]), turn_of
  (by decide +kernel), by decide +kernel, by decide +kernel, by decide +kernel⟩,
   ⟨live, by decide +kernel, by decide +kernel, by decide +kernel⟩,
   ⟨linked live, by decide +kernel⟩,
   ⟨modPair (fun x => { x with training := true, retrainTried := false }) live, by decide +kernel, by decide +kernel⟩,
   ⟨modPair (fun x => { x with training := true, retrainTried := false }) live, by decide +kernel, by decide +kernel,
  by decide +kernel⟩,
   ⟨modPair (fun x => { x with training := true, retrainTried := true }) live, by decide +kernel, by decide +kernel,
  by decide +kernel⟩,
   ⟨linked live, by decide +kernel, by decide +kernel⟩,
   ⟨dh 0 0 7, linked live, by decide +kernel⟩,
   ⟨modPair (fun x => { x with st := 4 }) (linked live), by decide +kernel, by decide +kernel⟩,
   ⟨linked live, by decide +kernel⟩,
   ⟨linked live, by decide +kernel⟩,
   ⟨live, by decide +kernel⟩,
   ⟨true, modPair (fun x => { x with missed := 1 }) (linked live), by decide +kernel, by decide +kernel, by decide +kernel,
  by decide +kernel⟩,
   ⟨false, modPair (fun x => { x with missed := 2 }) (linked live), by decide +kernel, by decide +kernel, by decide +kernel,
  by decide +kernel, by decide +kernel⟩⟩

theorem witness_PairStateAndMoveMessages : (∃ (h : DarradHdr) (serial : Nat) (numerics : Nat) (lo : Nat) (hi : Nat) (policy :
  Nat) (s : State), darradUp s = true ∧ h.flags ≤ 1 ∧ policy ≤ 1 ∧ (helloMismatch s serial numerics lo hi = 0) ∧ (pair s).st = 0
  ∧ serial ≠ s.ao.fuse.serial) ∧
  (∃ (h : DarradHdr) (serial : Nat) (numerics : Nat) (lo : Nat) (hi : Nat) (policy : Nat) (s : State), darradUp s = true ∧ h.flags ≤ 1 ∧ policy ≤ 1 ∧ (helloMismatch s serial numerics lo hi ≠ 0))
  ∧ (∃ (h : DarradHdr) (s : State) (ids : List (Nat × Nat)), Frame s h ∧ (∀ x ∈ ids, x.1 < 64 ∧ ∀ (p : Pid), ↑p = x.1 → (partOf
  s p).st = PSt.free)) ∧ (∃ (h : DarradHdr) (s : State) (p : Pid) (g : Nat), Frame s h ∧ (partOf s p).st = PSt.enabled ∧ (partOf
  s p).conflict = false ∧ (partOf s p).gen < g ∧ (partOf s p).sc.teardownAtBoundary = false) ∧ (∃ (h : DarradHdr) (st : Nat)
  (policy : Nat) (next : List (Nat × Nat × Nat)) (plans : List PlanState) (s : State), Frame s h ∧ st ≤ 4 ∧ policy ≤ 1 ∧ (pair
  s).partner = 0 ∧ (pair s).st = 3 ∧ mirroredHeld s = []) ∧ (∃ (h : DarradHdr) (s : State), Frame s h ∧ (pair s).partner = 0 ∧
  (pair s).auto_ = false) ∧ (∃ (h : DarradHdr) (s : State) (p : Pid) (x : Plan) (m : Mirror) (i : Image) (g : MirGrant), Frame s
  h ∧ h.part = ↑p ∧ partnerHolds s ↑p = true ∧ planOf s ↑p = some x ∧ mirrorOf s ↑p = some m ∧ x.image = some i ∧ m.grant = some
  g ∧ x.st = 3 ∧ x.reason = 0 ∧ x.req = none ∧ ((examine (modPair (fun y => { y with rxSeq := (h.linkSeq + 1) % 2 ^ 32 }) s) p
  { planGrants x g with prio := 0 } []).reason = 0)) ∧ (∃ (h : DarradHdr) (s : State) (p : Pid), Frame s h ∧ h.part = ↑p ∧
  partnerHolds s ↑p = true ∧ planOf s ↑p = none) ∧ (∃ (h : DarradHdr) (s : State) (p : Pid) (i : ReqId) (k : Nat), Frame s h ∧
  h.part = ↑p ∧ (List.find? (fun (m : Nat × ReqId) => m.1 == ↑p) (pair s).moving = some (↑p, i)) ∧ k ≠ 0) ∧ (∃ (h : DarradHdr)
  (s : State) (p : Pid) (i : ReqId), Frame s h ∧ h.part = ↑p ∧ (List.find? (fun (m : Nat × ReqId) => m.1 == ↑p) (pair s).moving
  = some (↑p, i)) ∧ (partOf s p).sc.pauseReq = none) ∧ (∃ (p : Pid) (s : State) (l : Grants), (partOf s p).st = PSt.suspended ∧
  (partOf s p).lent = some l ∧ lostFree s p l = true) ∧ (∃ (p : Pid) (s : State) (l : Grants), (partOf s p).st = PSt.suspended ∧
  (partOf s p).lent = some l ∧ lostFree s p l = false) :=
  ⟨⟨dh 1 0xFF 7, 9, State.reset.ao.fw.numerics, 0, 5, 1, modPair (fun x => { x with link := .up, trained := true }) (modAo (fun
  a => { a with fuse := { a.fuse with serial := 4 } }) live), by decide +kernel, by decide +kernel, by decide +kernel,
  by decide +kernel, by decide +kernel, by decide +kernel⟩,
   ⟨dh 0 0 7, 0, State.reset.ao.fw.numerics, 0, 5, 1, modPair (fun x => { x with link := .up, trained := true }) (modAo (fun a
  => { a with fuse := { a.fuse with serial := 4 } }) live), by decide +kernel, by decide +kernel, by decide +kernel,
  by decide +kernel⟩,
   ⟨dh 0 0 7, linked live, [(0, 4), (63, 5)], ⟨by decide +kernel, by decide +kernel, by decide +kernel, by decide +kernel⟩,
  by decide +kernel⟩,
   ⟨dh 0 0 7, linked (withPart 0 loaded (withPart 63 { loaded with st := .enabled } live)), 63, 1, ⟨by decide +kernel,
  by decide +kernel, by decide +kernel, by decide +kernel⟩, by decide +kernel, by decide +kernel, by decide +kernel,
  by decide +kernel⟩,
   ⟨dh 1 0xFF 7, 4, 1, [], [⟨5, 3, 0, true⟩], linked live, ⟨by decide +kernel, by decide +kernel, by decide +kernel,
  by decide +kernel⟩, by decide +kernel, by decide +kernel, by decide +kernel, by decide +kernel, by decide +kernel⟩,
   ⟨dh 0 0 7, linked live, ⟨by decide +kernel, by decide +kernel, by decide +kernel, by decide +kernel⟩, by decide +kernel,
  by decide +kernel⟩,
   ⟨dh 0 0 7, modPair (fun x =>
  { x with partnerIds := [(0, 1)], plans := [{ plan with st := 3, image := some image }], mirrors := [mirror] }) (linked live),
  0, { plan with st := 3, image := some image }, mirror, image, mirGrant, ⟨by decide +kernel, by decide +kernel,
  by decide +kernel, by decide +kernel⟩, by decide +kernel, by decide +kernel, by decide +kernel, by decide +kernel,
  by decide +kernel, by decide +kernel, by decide +kernel, by decide +kernel, by decide +kernel, by decide +kernel⟩,
   ⟨dh 0 0 7, modPair (fun x => { x with partnerIds := [(0, 1)] }) (linked live), 0, ⟨by decide +kernel, by decide +kernel,
  by decide +kernel, by decide +kernel⟩, by decide +kernel, by decide +kernel, by decide +kernel⟩,
   ⟨dh 0 0 7, modPair (fun x => { x with moving := [(0, ⟨0, true, 2⟩)] }) (linked (withPart 0 { running {} with mirWait := [] }
  live)), 0, ⟨0, true, 2⟩, 1, ⟨by decide +kernel, by decide +kernel, by decide +kernel, by decide +kernel⟩, by decide +kernel,
  by decide +kernel, by decide +kernel⟩,
   ⟨dh 0 0 7, modPair (fun x => { x with moving := [(0, ⟨0, true, 2⟩)] }) (linked (withPart 0 { running {} with mirWait := [] }
  live)), 0, ⟨0, true, 2⟩, ⟨by decide +kernel, by decide +kernel, by decide +kernel, by decide +kernel⟩, by decide +kernel,
  by decide +kernel, by decide +kernel⟩,
   ⟨0, withPart 0 { loaded with st := .suspended, lent := some { clusters := [5] } } live, { clusters := [5] },
  by decide +kernel, by decide +kernel, by decide +kernel⟩,
   ⟨0, withPart 1 { g := { clusters := [5] } } (withPart 0 { loaded with st := .suspended, lent := some { clusters := [5] } }
  live), { clusters := [5] }, by decide +kernel, by decide +kernel, by decide +kernel⟩⟩

theorem witness_MirrorSplitRunAndSeedMessages : (∃ (h : DarradHdr) (m : MirGrant) (s : State) (p : Pid), Frame s h ∧ h.part = ↑p
  ∧ m.grants.length = 120 ∧ (m.imageHash.length = 48 ∨ m.imageHash.length = 0) ∧ partnerHolds s ↑p = true) ∧ (∃ (h : DarradHdr)
  (m : MirGrant) (s : State) (p : Pid), Frame s h ∧ h.part = ↑p ∧ m.grants.length = 120 ∧ m.imageHash.length = 48 ∧ partnerHolds
  s ↑p = false) ∧ (∃ (h : DarradHdr) (m : MirStep) (s : State) (p : Pid) (x : Mirror) (g : MirGrant), Frame s h ∧ h.flags = 0 ∧
  h.part = ↑p ∧ partnerHolds s ↑p = true ∧ mirrorOf s ↑p = some x ∧ x.grant = some g ∧ (x.expect = none ∨ x.expect = some
  m.boundary)) ∧ (∃ (h : DarradHdr) (s : State) (p : Pid) (m : MirMsg), Frame s h ∧ h.part = ↑p ∧ (List.find? (fun (m : MirMsg)
  => m.tag == h.tag) (partOf s p).mirWait = some m) ∧ m.step = none) ∧ (∃ (h : DarradHdr) (s : State) (p : Pid), Frame s h ∧
  h.part = ↑p ∧ (List.find? (fun (m : MirMsg) => m.tag == h.tag) (partOf s p).mirWait = none)) ∧ (∃ (h : DarradHdr) (s : State)
  (p : Pid) (m : MirMsg) (x : MirStep) (st : OpenStep), Frame s h ∧ h.part = ↑p ∧ (List.find? (fun (m : MirMsg) => m.tag ==
  h.tag) (partOf s p).mirWait = some m) ∧ m.step = some x ∧ (List.find? (fun (st : OpenStep) => st.mirroring) (partOf s
  p).sc.steps = some st) ∧ x.boundary = (partOf s p).sc.boundaries + 1) ∧ (∃ (p : Pid) (s : State), (partOf s p).mirWait = []) ∧
  (∃ (p : Pid) (s : State) (m : MirMsg) (rest : List MirMsg), (partOf s p).mirWait = m :: rest ∧ m.resent = false) ∧ (∃ (p :
  Pid) (s : State) (m : MirMsg) (rest : List MirMsg), (partOf s p).mirWait = m :: rest ∧ m.resent = true ∧ (pair s).st = 3) ∧ (∃
  (h : DarradHdr) (b : List Byte) (s : State) (p : Pid), Frame s h ∧ h.part = ↑p ∧ 17 ≤ b.length ∧ b.length ≤ 4072 ∧ zeroAt b 6
  2 = true ∧ partnerHolds s ↑p = true ∧ churnUp s = true ∧ field b 12 4 = 0) ∧ (∃ (h : DarradHdr) (b : List Byte) (s : State) (p
  : Pid), Frame s h ∧ h.part = ↑p ∧ b.length = 2072 ∧ zeroAt b 6 2 = true ∧ zeroAt b 20 4 = true ∧ field b 4 1 = 1 ∧ field b 5 1
  ≤ 15) ∧ (∃ (h : DarradHdr) (b : List Byte) (s : State) (p : Pid) (x : Plan), Frame s h ∧ h.part = ↑p ∧ 17 ≤ b.length ∧
  b.length ≤ 4072 ∧ zeroAt b 13 3 = true ∧ field b 12 1 = 0 ∧ planOf s ↑p = some x ∧ inWindow x.win (field b 0 8) (b.length -
  16) = true ∧ x.win.unzero = [] ∧ x.st = 2 ∧ x.copy = field b 8 4) ∧ (∃ (h : DarradHdr) (b : List Byte) (s : State) (p : Pid)
  (x : Plan), Frame s h ∧ h.part = ↑p ∧ 17 ≤ b.length ∧ b.length ≤ 4072 ∧ zeroAt b 13 3 = true ∧ field b 12 1 = 0 ∧ planOf s ↑p
  = some x ∧ inWindow x.win (field b 0 8) (b.length - 16) = false) ∧ (∃ (h : DarradHdr) (b : List Byte) (s : State) (p : Pid) (k
  : Nat), Frame s h ∧ h.part = ↑p ∧ b.length = 16 ∧ zeroAt b 5 3 = true ∧ field b 4 1 = 0 ∧ field b 0 4 = k ∧ (List.find? (fun
  (e : Nat × Nat × Bool) => e.1 == ↑p && e.2.1 == k) (pair s).seeding = some (↑p, k, false))) :=
  ⟨⟨dh 0 0 7, mirGrant, modPair (fun x => { x with partnerIds := [(0, 1)] }) (linked live), 0, ⟨by decide +kernel,
  by decide +kernel, by decide +kernel, by decide +kernel⟩, by decide +kernel, by decide +kernel, by decide +kernel,
  by decide +kernel⟩,
   ⟨dh 0 0 7, { mirGrant with imageHash := zeros 48 }, linked live, 0, ⟨by decide +kernel, by decide +kernel, by decide +kernel,
  by decide +kernel⟩, by decide +kernel, by decide +kernel, by decide +kernel, by decide +kernel⟩,
   ⟨dh 0 0 7, mirStep, modPair (fun x => { x with partnerIds := [(0, 1)], mirrors := [mirror] }) (linked live), 0, mirror,
  mirGrant, ⟨by decide +kernel, by decide +kernel, by decide +kernel, by decide +kernel⟩, by decide +kernel, by decide +kernel,
  by decide +kernel, by decide +kernel, by decide +kernel, by decide +kernel⟩,
   ⟨dh 0 0 7, linked (withPart 0 { running {} with mirWait := [{ tag := 7 }], sc := {} } live), 0, { tag := 7 },
  ⟨by decide +kernel, by decide +kernel, by decide +kernel, by decide +kernel⟩, by decide +kernel, by decide +kernel,
  by decide +kernel⟩,
   ⟨dh 0 0 8, linked (withPart 0 { running {} with mirWait := [{ tag := 7 }], sc := {} } live), 0, ⟨by decide +kernel,
  by decide +kernel, by decide +kernel, by decide +kernel⟩, by decide +kernel, by decide +kernel⟩,
   ⟨dh 0 0 7, linked (withPart 0
  { running {} with mirWait := [{ tag := 7, step := some mirStep }], sc := { steps := [{ openStep with mirroring := true }] } }
  live), 0, { tag := 7, step := some mirStep }, mirStep, { openStep with mirroring := true }, ⟨by decide +kernel,
  by decide +kernel, by decide +kernel, by decide +kernel⟩, by decide +kernel, by decide +kernel, by decide +kernel,
  by decide +kernel, by decide +kernel⟩,
   ⟨0, linked live, by decide +kernel⟩,
   ⟨0, linked (withPart 0 { running {} with mirWait := [{ tag := 7 }], sc := {} } live), { tag := 7 }, [], by decide +kernel,
  by decide +kernel⟩,
   ⟨0, linked (withPart 0 { running {} with mirWait := [{ tag := 7, resent := true }], sc := {} } live),
  { tag := 7, resent := true }, [], by decide +kernel, by decide +kernel, by decide +kernel⟩,
   ⟨dh 0 63 7, zeros 4072, modPair (fun x => { x with partnerIds := [(63, 1)] }) (linked live), 63, ⟨by decide +kernel,
  by decide +kernel, by decide +kernel, by decide +kernel⟩, by decide +kernel, by decide +kernel, by decide +kernel,
  by decide +kernel, by decide +kernel, by decide +kernel, by decide +kernel⟩,
   ⟨dh 0 63 7, [0, 0, 0, 0, 1, 15] ++ zeros 2066, linked live, 63, ⟨by decide +kernel, by decide +kernel, by decide +kernel,
  by decide +kernel⟩, by decide +kernel, by decide +kernel, by decide +kernel, by decide +kernel, by decide +kernel,
  by decide +kernel⟩,
   ⟨dh 0 0 7, toLe 8 (2 ^ 30 - 3) ++ toLe 4 1 ++ zeros 4 ++ [9, 8, 7], modPair (fun x =>
  { x with plans := [{ plan with st := 2, copy := 1 }] }) (linked live), 0, { plan with st := 2, copy := 1 },
  ⟨by decide +kernel, by decide +kernel, by decide +kernel, by decide +kernel⟩, by decide +kernel, by decide +kernel,
  by decide +kernel, by decide +kernel, by decide +kernel, by decide +kernel, by decide +kernel, by decide +kernel,
  by decide +kernel, by decide +kernel⟩,
   ⟨dh 0 0 7, toLe 8 (2 ^ 30 - 2) ++ toLe 4 1 ++ zeros 4 ++ [9, 8, 7], modPair (fun x =>
  { x with plans := [{ plan with st := 2, copy := 1 }] }) (linked live), 0, { plan with st := 2, copy := 1 },
  ⟨by decide +kernel, by decide +kernel, by decide +kernel, by decide +kernel⟩, by decide +kernel, by decide +kernel,
  by decide +kernel, by decide +kernel, by decide +kernel, by decide +kernel, by decide +kernel⟩,
   ⟨dh 0 0 7, toLe 4 5 ++ zeros 12, modPair (fun x => { x with seeding := [(0, 5, false)] }) (linked live), 0, 5,
  ⟨by decide +kernel, by decide +kernel, by decide +kernel, by decide +kernel⟩, by decide +kernel, by decide +kernel,
  by decide +kernel, by decide +kernel, by decide +kernel, by decide +kernel⟩⟩

theorem witness_LogAndDiagnostics : (∃ (i : ReqId) (s : State) (r : Req), Turn s i 3073 r ∧ 1 ≤ field r.payload 4 2 ∧ field
  r.payload 4 2 ≤ 112 ∧ field r.payload 6 1 ≤ 1 ∧ zeroAt r.payload 7 1 = true) ∧ (∃ (s : State), s.log.dropped = 0) ∧ (∃ (s :
  State), s.log.dropped ≠ 0) ∧ (∃ (i : ReqId) (res : DiagResult) (s : State) (r : Req) (u : Nat) (k : Nat), Turn s i 3074 r ∧
  s.ao.service = false ∧ field r.payload 0 4 = u ∧ u = unitId k (u % 2 ^ 24) ∧ unitExists u = true ∧ zeroAt r.payload 5 3 = true
  ∧ field r.payload 4 1 = 1 ∧ unitGranted s u = false ∧ k ≠ 11 ∧ k ≠ 12 ∧ k ≠ 20) ∧ (∃ (i : ReqId) (res : DiagResult) (s :
  State) (r : Req) (u : Nat) (k : Nat), Turn s i 3074 r ∧ s.ao.service = false ∧ field r.payload 0 4 = u ∧ u = unitId k (u % 2 ^
  24) ∧ unitExists u = true ∧ zeroAt r.payload 5 3 = true ∧ field r.payload 4 1 = 2 ∧ k = 8) ∧ (∃ (i : ReqId) (res : DiagResult)
  (s : State) (r : Req) (u : Nat) (k : Nat), Turn s i 3074 r ∧ s.ao.service = false ∧ field r.payload 0 4 = u ∧ u = unitId k (u
  % 2 ^ 24) ∧ unitExists u = true ∧ zeroAt r.payload 5 3 = true ∧ field r.payload 4 1 = 3 ∧ k = 17) ∧ (∃ (i : ReqId) (res :
  DiagResult) (s : State) (r : Req) (u : Nat) (k : Nat), Turn s i 3074 r ∧ s.ao.service = false ∧ field r.payload 0 4 = u ∧ u =
  unitId k (u % 2 ^ 24) ∧ unitExists u = true ∧ zeroAt r.payload 5 3 = true ∧ field r.payload 4 1 = 4 ∧ k = 10) ∧ (∃ (i : ReqId)
  (res : DiagResult) (s : State) (r : Req), Turn s i 3074 r ∧ s.ao.service = false ∧ unitExists (field r.payload 0 4) = true ∧
  field r.payload 4 1 = 1 ∧ zeroAt r.payload 5 3 = true ∧ unitGranted s (field r.payload 0 4) = true) ∧ (∃ (i : ReqId) (res :
  DiagResult) (s : State) (r : Req), Turn s i 3074 r ∧ s.ao.service = false ∧ unitExists (field r.payload 0 4) = true ∧ field
  r.payload 4 1 = 4 ∧ zeroAt r.payload 5 3 = true ∧ field r.payload 0 4 / 2 ^ 24 = 17) :=
  ⟨⟨⟨0, false, 0⟩, asked (req 0x0C01 0xFF (toLe 4 0 ++ toLe 2 112 ++ [1, 0])) (live), req 0x0C01 0xFF (toLe 4 0 ++ toLe 2 112 ++
  [1, 0]), turn_of (by decide +kernel), by decide +kernel, by decide +kernel, by decide +kernel, by decide +kernel⟩,
   ⟨live, by decide +kernel⟩,
   ⟨modLog (fun l => { l with dropped := 3 }) live, by decide +kernel⟩,
   ⟨⟨0, true, 0⟩, ⟨0, 0⟩, asked (ringReq 0x0C02 0xFF (toLe 4 0x1000040 ++ [1, 0, 0, 0])) (live), ringReq 0x0C02 0xFF (toLe 4
  0x1000040 ++ [1, 0, 0, 0]), 0x1000040, 1, turn_of (by decide +kernel), by decide +kernel, by decide +kernel,
  by decide +kernel, by decide +kernel, by decide +kernel, by decide +kernel, by decide +kernel, by decide +kernel,
  by decide +kernel, by decide +kernel⟩,
   ⟨⟨0, true, 0⟩, ⟨0, 0⟩, asked (ringReq 0x0C02 0xFF (toLe 4 0x800007f ++ [2, 0, 0, 0])) (live), ringReq 0x0C02 0xFF (toLe 4
  0x800007f ++ [2, 0, 0, 0]), 0x800007f, 8, turn_of (by decide +kernel), by decide +kernel, by decide +kernel,
  by decide +kernel, by decide +kernel, by decide +kernel, by decide +kernel, by decide +kernel⟩,
   ⟨⟨0, true, 0⟩, ⟨0, 0⟩, asked (ringReq 0x0C02 0xFF (toLe 4 0x11000000 ++ [3, 0, 0, 0])) (live), ringReq 0x0C02 0xFF (toLe 4
  0x11000000 ++ [3, 0, 0, 0]), 0x11000000, 17, turn_of (by decide +kernel), by decide +kernel, by decide +kernel,
  by decide +kernel, by decide +kernel, by decide +kernel, by decide +kernel, by decide +kernel⟩,
   ⟨⟨0, true, 0⟩, ⟨0, 0⟩, asked (ringReq 0x0C02 0xFF (toLe 4 0xa000007 ++ [4, 0, 0, 0])) (live), ringReq 0x0C02 0xFF (toLe 4
  0xa000007 ++ [4, 0, 0, 0]), 0xa000007, 10, turn_of (by decide +kernel), by decide +kernel, by decide +kernel,
  by decide +kernel, by decide +kernel, by decide +kernel, by decide +kernel, by decide +kernel⟩,
   ⟨⟨0, true, 0⟩, ⟨0, 0⟩, asked (ringReq 0x0C02 0xFF (toLe 4 0x100003f ++ [1, 0, 0, 0])) (withPart 0 loaded live), ringReq
  0x0C02 0xFF (toLe 4 0x100003f ++ [1, 0, 0, 0]), turn_of (by decide +kernel), by decide +kernel, by decide +kernel,
  by decide +kernel, by decide +kernel, by decide +kernel⟩,
   ⟨⟨0, true, 0⟩, ⟨0, 0⟩, asked (ringReq 0x0C02 0xFF (toLe 4 0x11000001 ++ [4, 0, 0, 0])) (live), ringReq 0x0C02 0xFF (toLe 4
  0x11000001 ++ [4, 0, 0, 0]), turn_of (by decide +kernel), by decide +kernel, by decide +kernel, by decide +kernel,
  by decide +kernel, by decide +kernel⟩⟩

end Sys2Proof.Tests
end

/-! # Layouts: cursors, response windows and log records

The byte codec's lengths, then one rule per layout, and the obligation they settle. -/

section
namespace Sys2Proof.Machine

/-! ## Little-endian fields -/

/-- A field has the width it is written with (R6). -/
@[simp] theorem toLe_length (w n : Nat) : (toLe w n).length = w := by
  induction w generalizing n with
  | zero => rfl
  | succ w ih => simp [toLe, ih]

@[simp] theorem zeros_length (n : Nat) : (zeros n).length = n := List.length_replicate

/-! ## Cursors (R11) -/

/-- With every part in its range nothing is cut off. -/
theorem packCursor_of_lt {c : Cursor} (he : c.epoch < 2 ^ 16) (hs : c.step < 2 ^ 32) (ho : c.off < 2 ^ 16) :
    packCursor c = c.epoch * 2 ^ 48 + c.step * 2 ^ 16 + c.off := by
  rw [packCursor, Nat.mod_eq_of_lt he, Nat.mod_eq_of_lt hs, Nat.mod_eq_of_lt ho]

/-- The three parts of a packed number do not overlap, so each is read back. -/
theorem unpackCursor_packed {e s o : Nat} (he : e < 2 ^ 16) (hs : s < 2 ^ 32) (ho : o < 2 ^ 16) :
    unpackCursor (e * 2 ^ 48 + s * 2 ^ 16 + o) = ⟨e, s, o⟩ := by
  simp only [unpackCursor, bits, Cursor.mk.injEq]
  refine ⟨?_, ?_, ?_⟩ <;> omega

/-- Unpacking takes a packed cursor back. -/
theorem unpackCursor_packCursor {c : Cursor} (he : c.epoch < 2 ^ 16) (hs : c.step < 2 ^ 32) (ho : c.off < 2 ^ 16) :
    unpackCursor (packCursor c) = c := by
  rw [packCursor_of_lt he hs ho, unpackCursor_packed he hs ho]

/-! ## Response windows (R86) -/

/-- The response header is 32 bytes (Table MBX-6). -/
@[simp] theorem rspBytes_length (a : Ans) (tag seq op flags : Nat) :
    (rspBytes a tag seq op flags).length = 32 + a.payload.length := by
  simp only [rspBytes, List.length_append, toLe_length, zeros_length]

/-- A window holds the first 4096 bytes of its response, and zeros after them. -/
theorem memRead_winOf (bs : List Byte) (n : Nat) : memRead (winOf bs) n = (bs.take 4096).getD n 0 := by
  rw [winOf, memRead_writeN _ [] 0 n rfl, Nat.sub_zero, Nat.zero_add]
  split_ifs with hin
  · rfl
  · have hend : (bs.take 4096).length ≤ n := by omega
    rw [List.getD_eq_default _ _ hend, memRead]

/-- Past the end of the response a window reads 0, whether or not the response was cut to the window. -/
theorem memRead_winOf_beyond {bs : List Byte} {n : Nat} (h : bs.length ≤ n) : memRead (winOf bs) n = 0 := by
  have hend : (bs.take 4096).length ≤ n := (List.length_take_le' 4096 bs).trans h
  rw [memRead_winOf, List.getD_eq_default _ _ hend]

/-! ## Log records (R480) -/

/-- Table ERR-7's fields before the CRC-32 are 32 bytes. -/
@[simp] theorem recBody_length (r : LogRec) : (recBody r).length = 32 := by
  simp [recBody]

@[simp] theorem recBytes_length (r : LogRec) : (recBytes r).length = 36 := by
  simp [recBytes]

theorem recBytes_take (r : LogRec) : (recBytes r).take 32 = recBody r :=
  List.take_left' (recBody_length r)

theorem recBytes_drop (r : LogRec) : (recBytes r).drop 32 = toLe 4 (crc32 (recBody r)) :=
  List.drop_left' (recBody_length r)

end Sys2Proof.Machine

namespace Sys2Proof.Claims

theorem cursorPack_holds : cursorPack := fun _ he hs ho =>
  ⟨Machine.unpackCursor_packCursor he hs ho, Machine.packCursor_of_lt he hs ho⟩

theorem windowBeyond_holds : windowBeyond := fun a tag seq op flags n h =>
  Machine.memRead_winOf_beyond (by rwa [Machine.rspBytes_length a tag seq op flags])

theorem recordLayout_holds : recordLayout := fun r =>
  ⟨Machine.recBytes_length r, Machine.recBytes_take r, by rw [Machine.recBytes_take, Machine.recBytes_drop]⟩

end Sys2Proof.Claims

namespace Sys2Proof

/-- Settles O6: the parts of a cursor do not overlap, a window holds nothing past its response, and a record's fixed
widths add up. -/
theorem cursorWindowAndRecordLayouts : Obligations.CursorWindowAndRecordLayouts :=
  ⟨Claims.cursorPack_holds, Claims.windowBeyond_holds, Claims.recordLayout_holds⟩

end Sys2Proof
end

/-! # Power domains: the frame of what goes with them

`Spares` is the frame of an operation that neither powers a domain, fences a partition nor clears near memory; `Loses`
is the direction in which a loss of power and all that it sets off move the state. -/

section
namespace Sys2Proof.Machine
open State (LoggedTo)
variable {r s t : State}

/-! ## The frame of completions, withdrawals and units -/

/-- Domains, service state, the states of the partitions, the cells of near memory and the pool's service are as
before. -/
structure Spares (s t : State) : Prop where
  pwr : t.ao.pwr = s.ao.pwr
  service : t.ao.service = s.ao.service
  st : ∀ p, (partOf t p).st = (partOf s p).st
  cells : t.units.mem.cells = s.units.mem.cells
  inService : t.units.pool.inService = s.units.pool.inService

theorem Spares.refl (s : State) : Spares s s := ⟨rfl, rfl, fun _ => rfl, rfl, rfl⟩

theorem Spares.trans (h : Spares r s) (k : Spares s t) : Spares r t :=
  ⟨k.pwr.trans h.pwr, k.service.trans h.service, fun p => (k.st p).trans (h.st p), k.cells.trans h.cells,
    k.inService.trans h.inService⟩

theorem Spares.dom (h : Spares s t) (k : Nat) : domOf t k = domOf s k := by unfold domOf; rw [h.pwr]

theorem State.LoggedTo.spares (h : LoggedTo s t) : Spares s t :=
  ⟨h.pwr, h.service, h.st, by rw [h.units], by rw [h.units]⟩

theorem ite_spares {c : Prop} [Decidable c] {a b : State} (ha : Spares r a) (hb : Spares r b) :
    Spares r (if c then a else b) := by
  split
  · exact ha
  · exact hb

theorem foldl_spares {α : Type} {l : List α} {g : State → α → State} (hg : ∀ x a, Spares r x → Spares r (g x a))
    (h : Spares r s) : Spares r (l.foldl g s) :=
  List.foldlRecOn l g (motive := Spares r) h fun x hx a _ => hg x a hx

/-! ### Updates -/

theorem modHost_spares (g) (h : Spares r s) : Spares r (modHost g s) := h.trans ⟨rfl, rfl, fun _ => rfl, rfl, rfl⟩
theorem modFn_spares (f g) (h : Spares r s) : Spares r (modFn f g s) := modHost_spares _ h
theorem modMbx_spares (f g) (h : Spares r s) : Spares r (modMbx f g s) := modFn_spares _ _ h
theorem modRing_spares (f g) (h : Spares r s) : Spares r (modRing f g s) := modFn_spares _ _ h
theorem modCnt_spares (f g) (h : Spares r s) : Spares r (modCnt f g s) := modFn_spares _ _ h
theorem modReq_spares (i g) (h : Spares r s) : Spares r (modReq i g s) := modHost_spares _ h
theorem dropReq_spares (i) (h : Spares r s) : Spares r (dropReq i s) := modHost_spares _ h
theorem killDma_spares (w) (h : Spares r s) : Spares r (killDma w s) := modHost_spares _ h
theorem linkDown_spares (h : Spares r s) : Spares r (linkDown s) := modHost_spares _ h
theorem modLog_spares (g) (h : Spares r s) : Spares r (modLog g s) := h.trans ⟨rfl, rfl, fun _ => rfl, rfl, rfl⟩
theorem modCtrl_spares (g) (h : Spares r s) : Spares r (modCtrl g s) := h.trans ⟨rfl, rfl, fun _ => rfl, rfl, rfl⟩
theorem emit_spares (o) (h : Spares r s) : Spares r (emit o s) := h.trans ⟨rfl, rfl, fun _ => rfl, rfl, rfl⟩

theorem modUnits_spares {g : UnitSt → UnitSt} (h : Spares r s)
    (hc : (g s.units).mem.cells = s.units.mem.cells := by rfl)
    (hi : (g s.units).pool.inService = s.units.pool.inService := by rfl) : Spares r (modUnits g s) :=
  h.trans ⟨rfl, rfl, fun _ => rfl, hc, hi⟩

theorem modChurn_spares (g) (h : Spares r s) : Spares r (modChurn g s) := modUnits_spares h
theorem modPool_spares {g : PoolSt → PoolSt} (hg : ∀ q, (g q).inService = q.inService) (h : Spares r s) :
    Spares r (modPool g s) := modUnits_spares h rfl (hg _)
theorem modDrive_spares (n g) (h : Spares r s) : Spares r (modDrive n g s) := modUnits_spares h

theorem modParts_spares {g : Part → Part} (hg : ∀ q, (g q).st = q.st) (h : Spares r s) : Spares r (modParts g s) :=
  h.trans ⟨rfl, rfl, fun p => by rw [partOf_modParts, hg], rfl, rfl⟩

theorem modPartN_spares {n : Nat} {g : Part → Part} (hg : ∀ q, (g q).st = q.st) (h : Spares r s) :
    Spares r (modPartN n g s) := by
  refine h.trans ⟨rfl, rfl, fun p => ?_, rfl, rfl⟩
  rw [partOf_modPartN]
  split
  · exact hg _
  · rfl

theorem modPart_spares {p : Pid} {g : Part → Part} (hg : ∀ q, (g q).st = q.st) (h : Spares r s) :
    Spares r (modPart p g s) := by
  refine h.trans ⟨rfl, rfl, fun k => ?_, rfl, rfl⟩
  by_cases e : k = p
  · rw [e, partOf_modPart, hg]
  · rw [partOf_modPart_ne _ e]

/-! ### Completions -/

theorem logEvent_spares (n c a0 a1 a2 a3) (h : Spares r s) : Spares r (logEvent n c a0 a1 a2 a3 s) :=
  h.trans (logEvent_logged _ _ _ _ _ _ (.refl _)).spares

theorem lateDiscard_spares (n u f k) (h : Spares r s) : Spares r (lateDiscard n u f k s) :=
  h.trans (lateDiscard_logged _ _ _ _ (.refl _)).spares

theorem issueDma_spares (f k a b n) (h : Spares r s) : Spares r (issueDma f k a b n s) := by
  unfold issueDma
  dsimp only
  split <;> exact emit_spares _ (modHost_spares _ h)

theorem writeCqe_spares (f c) (h : Spares r s) : Spares r (writeCqe f c s) := by
  unfold writeCqe
  exact issueDma_spares _ _ _ _ _ (modRing_spares _ _ h)

theorem fenceAtNext_spares (n c) (h : Spares r s) : Spares r (fenceAtNext n c s) :=
  ite_spares (modPartN_spares (fun _ => rfl) h) h

theorem postCqe_spares (f c) (h : Spares r s) : Spares r (postCqe f c s) :=
  ite_spares h
    (ite_spares (lateDiscard_spares _ _ _ _ (modCnt_spares _ _ h))
      (ite_spares (writeCqe_spares _ _ h)
        (ite_spares (modRing_spares _ _ h)
          (fenceAtNext_spares _ _
            (logEvent_spares _ _ _ _ _ _ (modCnt_spares _ _ h))))))

theorem postRing_spares (q p c) (h : Spares r s) : Spares r (postRing q p c s) :=
  ite_spares (postCqe_spares _ _ h) (ite_spares (postCqe_spares _ _ h) (issueDma_spares _ _ _ _ _ h))

theorem postResponse_spares (f a n q o i d) (h : Spares r s) : Spares r (postResponse f a n q o i d s) :=
  have hw := modMbx_spares _ _ h
  ite_spares (hw.trans (raiseIrq_logged _ _ (.refl _)).spares) hw

theorem finish_spares (q a) (h : Spares r s) : Spares r (finish q a s) := by
  have hq : Spares r (if a.pend then modReq q.id (fun q => { q with phase := .pending, payload := a.payload }) s
      else dropReq q.id s) := ite_spares (modReq_spares _ _ h) (dropReq_spares _ h)
  exact ite_spares (ite_spares hq (postRing_spares _ _ _ hq)) (postResponse_spares _ _ _ _ _ _ _ hq)

theorem complete_spares (i a b c l) (h : Spares r s) : Spares r (complete i a b c l s) := by
  unfold complete
  split
  · exact h
  · have hq : Spares r (if l then dropReq i s else s) := ite_spares (dropReq_spares _ h) h
    exact ite_spares (ite_spares (postRing_spares _ _ _ hq) hq) (postCqe_spares _ _ hq)

theorem completeOpt_spares (i a b c) (h : Spares r s) : Spares r (completeOpt i a b c s) := by
  cases i with
  | none => exact h
  | some i => exact complete_spares _ _ _ _ _ h

/-! ### Withdrawing work -/

theorem killJobs_spares (a b c) (h : Spares r s) : Spares r (killJobs a b c s) := by
  unfold killJobs
  exact modUnits_spares h

theorem nvmeFence_spares (n c) (h : Spares r s) : Spares r (nvmeFence n c s) :=
  emit_spares _ (modDrive_spares _ _ (modDrive_spares _ _ h))

theorem nvmeFenceWhere_spares (w) (h : Spares r s) : Spares r (nvmeFenceWhere w s) :=
  foldl_spares (fun _ _ hx => foldl_spares (fun _ _ => nvmeFence_spares _ _) (modDrive_spares _ _ hx)) h

theorem killWork_spares (p k) (h : Spares r s) : Spares r (killWork p k s) := by
  unfold killWork
  exact modCtrl_spares _ (modPart_spares (fun _ => rfl) (nvmeFenceWhere_spares _ (killJobs_spares _ _ _ h)))

theorem dropRuns_spares (i) (h : Spares r s) : Spares r (dropRuns i s) := by
  unfold dropRuns
  exact modParts_spares (fun _ => rfl) h

theorem fenceOpen_spares (p) (h : Spares r s) : Spares r (fenceOpen p s) :=
  foldl_spares (fun _ _ hx =>
    have hd := dropRuns_spares _ (killDma_spares _ hx)
    ite_spares (complete_spares _ _ _ _ _ hd) (finish_spares _ _ hd)) h

theorem dropRequests_spares (p w) (h : Spares r s) : Spares r (dropRequests p w s) := by
  unfold dropRequests
  exact modPool_spares (fun _ => rfl) h

theorem lastingFence_spares (n u f c k l) (h : Spares r s) : Spares r (lastingFence n u f c k l s) :=
  modParts_spares (fun q => by split <;> rfl)
    (h.trans (countFence_logged _ (lastingFault_logged _ _ _ _ _ (.refl _))).spares)

/-! ### What a domain takes with it and brings -/

theorem tilesOff_spares (d) (h : Spares r s) : Spares r (tilesOff d s) := modUnits_spares h

theorem netOff_spares (h : Spares r s) : Spares r (netOff s) := by
  unfold netOff
  exact modUnits_spares (foldl_spares (fun _ _ => completeOpt_spares _ _ _ _) h)

theorem vidOff_spares (h : Spares r s) : Spares r (vidOff s) := modUnits_spares h

theorem churnOff_spares (h : Spares r s) : Spares r (churnOff s) := by
  unfold churnOff
  exact modChurn_spares _ (modParts_spares (fun _ => rfl)
    (foldl_spares (fun _ _ => foldl_spares fun _ _ => completeOpt_spares _ _ _ _) h))

theorem memOn_spares (h : Spares r s) : Spares r (memOn s) := by
  unfold memOn
  dsimp only
  split
  · exact modPool_spares (fun _ => rfl) h
  · exact logEvent_spares _ _ _ _ _ _ (modLog_spares _ (modPool_spares (fun _ => rfl) h))

theorem tilesOn_spares (d b) (h : Spares r s) : Spares r (tilesOn d b s) :=
  foldl_spares (fun _ _ => lastingFence_spares _ _ _ _ _ _) (modUnits_spares h)

theorem netOn_spares (h : Spares r s) : Spares r (netOn s) := modUnits_spares h

theorem unitsOn_spares (d b) (h : Spares r s) : Spares r (unitsOn d b s) :=
  ite_spares (memOn_spares h) (ite_spares (tilesOn_spares _ _ h) (ite_spares (netOn_spares h)
    (ite_spares (vidOff_spares h) (ite_spares (churnOff_spares h) h))))

/-- Near memory that goes off loses its cells and nothing else of the frame. -/
theorem unitsOff_spares {d : Nat} (hd : d ≠ 2) (h : Spares r s) : Spares r (unitsOff d s) := by
  rw [unitsOff, if_neg hd]
  exact ite_spares (tilesOff_spares _ h) (ite_spares (netOff_spares h)
    (ite_spares (vidOff_spares h) (ite_spares (churnOff_spares h) h)))

end Sys2Proof.Machine
end

/-! # Power domains: the fall of a domain

What fences, the pool's leaving and units without power have in common, and from it what `dropDom` leaves of the
domains, the partitions and near memory. -/

section
namespace Sys2Proof.Machine
open State (LoggedTo)
variable {r s t : State} {D : Set Nat}

/-! ## The direction of a loss -/

/-- Only domains of D change, and they go off; no power operation begins, no partition becomes ENABLED, near memory
stays empty once it is, and the pool out of service once it is. -/
structure Loses (D : Set Nat) (s t : State) : Prop where
  dom : ∀ k, domOf t k = domOf s k ∨ k ∈ D ∧ domOf t k = .off
  op : s.ao.pwr.op = none → t.ao.pwr.op = none
  enabled : ∀ p, (partOf t p).st = .enabled → (partOf s p).st = .enabled
  cells : s.units.mem.cells = [] → t.units.mem.cells = []
  inService : s.units.pool.inService = false → t.units.pool.inService = false

theorem Spares.loses (h : Spares s t) : Loses D s t :=
  ⟨fun k => .inl (h.dom k), fun e => by rw [h.pwr, e], fun p e => by rw [← h.st p, e], fun e => by rw [h.cells, e],
    fun e => by rw [h.inService, e]⟩

theorem Loses.refl (s : State) : Loses D s s := (Spares.refl s).loses

theorem Loses.trans (h : Loses D r s) (k : Loses D s t) : Loses D r t := by
  refine ⟨fun d => ?_, fun e => k.op (h.op e), fun p e => h.enabled p (k.enabled p e), fun e => k.cells (h.cells e),
    fun e => k.inService (h.inService e)⟩
  rcases k.dom d with e | e
  · rw [e]; exact h.dom d
  · exact .inr e

theorem Loses.dom_of_notMem {k : Nat} (h : Loses D s t) (hk : k ∉ D) : domOf t k = domOf s k :=
  (h.dom k).resolve_right fun e => hk e.1

theorem Loses.off {k : Nat} (h : Loses D s t) (hk : domOf s k = .off) : domOf t k = .off :=
  (h.dom k).elim (fun e => e.trans hk) And.right

theorem Loses.not_on {k : Nat} (h : Loses D s t) (hk : domOf s k ≠ .on) : domOf t k ≠ .on := by
  rcases h.dom k with e | ⟨-, e⟩
  · rwa [e]
  · rw [e]; decide

theorem Loses.spares (h : Loses D r s) (k : Spares s t) : Loses D r t := h.trans k.loses

theorem ite_loses {c : Prop} [Decidable c] {a b : State} (ha : Loses D r a) (hb : Loses D r b) :
    Loses D r (if c then a else b) := by
  split
  · exact ha
  · exact hb

theorem foldl_loses {α : Type} {l : List α} {g : State → α → State} (hg : ∀ x a, Loses D r x → Loses D r (g x a))
    (h : Loses D r s) : Loses D r (l.foldl g s) :=
  List.foldlRecOn l g (motive := Loses D r) h fun x hx a _ => hg x a hx

/-! ### Fences -/

theorem modPart_loses {p : Pid} {g : Part → Part} (hg : ∀ q, (g q).st ≠ .enabled) (h : Loses D r s) :
    Loses D r (modPart p g s) := by
  refine h.trans ⟨fun _ => .inl rfl, id, fun k e => ?_, id, id⟩
  by_cases hk : k = p
  · rw [hk, partOf_modPart] at e; exact absurd e (hg _)
  · rwa [partOf_modPart_ne _ hk] at e

theorem beginTeardown_loses (p) (h : Loses D r s) : Loses D r (beginTeardown p s) := by
  unfold beginTeardown
  exact .spares (modPart_loses (fun _ => by simp) (h.spares (dropRequests_spares _ _ (.refl s))))
    (completeOpt_spares _ _ _ _ (.refl _))

theorem beginTeardown_st (p : Pid) (s : State) : (partOf (beginTeardown p s) p).st = .tearingDown := by
  unfold beginTeardown
  dsimp only
  rw [(completeOpt_spares _ _ _ _ (.refl _)).st, partOf_modPart]

theorem fencePart_loses (p c) (h : Loses D r s) : Loses D r (fencePart p c s) := by
  unfold fencePart
  dsimp only
  split
  · exact h
  · have hw := dropRequests_spares p (fun _ => true) (fenceOpen_spares p (killWork_spares p none
      (countFence_logged [p] (logEvent_logged p.val 0x0006 c (packCursor (partOf s p).ld.cursor)
        (packCursor (partOf s p).ld.cursor / 2 ^ 32) 0 (.refl s))).spares))
    have hf {g : Part → Part} (hg : ∀ q, (g q).st ≠ .enabled) :=
      (modPart_loses (p := p) hg (h.spares hw)).spares
        (completeOpt_spares (partOf s p).sc.pauseReq stFenced 0x011A 0 (.refl _))
    exact ite_loses (beginTeardown_loses _ (hf fun _ => nofun)) (hf fun _ => nofun)

theorem fencePart_st (p : Pid) (c : Nat) (s : State) : (partOf (fencePart p c s) p).st ≠ .enabled := by
  unfold fencePart
  dsimp only
  split
  · assumption
  · split
    · rw [beginTeardown_st]; nofun
    · rw [(completeOpt_spares _ _ _ _ (.refl _)).st, partOf_modPart]; nofun

theorem fenceParts_loses (l c) (h : Loses D r s) : Loses D r (fenceParts l c s) :=
  foldl_loses (fun _ _ => fencePart_loses _ _) h

theorem fenceParts_st {l : List Pid} {p : Pid} (hp : p ∈ l) (c : Nat) (s : State) :
    (partOf (fenceParts l c s) p).st ≠ .enabled := by
  induction l generalizing s with
  | nil => exact absurd hp List.not_mem_nil
  | cons q l ih =>
    rcases List.mem_cons.1 hp with rfl | hl
    · exact fun e => fencePart_st p c s ((fenceParts_loses (D := ∅) l c (.refl _)).enabled p e)
    · exact ih hl _

theorem fenceWhere_loses (w c) (h : Loses D r s) : Loses D r (fenceWhere w c s) := fenceParts_loses _ _ h

theorem fenceWhere_st {w : Part → Bool} {p : Pid} (hw : w (partOf s p) = true) (c : Nat) :
    (partOf (fenceWhere w c s) p).st ≠ .enabled :=
  fenceParts_st (List.mem_filter.2 ⟨List.mem_finRange p, hw⟩) c s

theorem fenceWhere_false (c : Nat) : fenceWhere (fun _ => false) c s = s := by
  simp [fenceWhere, partsWhere, fenceParts]

theorem poolOut_loses (c) (h : Loses D r s) : Loses D r (poolOut c s) := by
  unfold poolOut
  split
  · exact h
  · refine .trans (s := modParts _ (fenceWhere _ c s)) ?_ ⟨fun _ => .inl rfl, id, fun _ => id, id, fun _ => rfl⟩
    exact .spares (fenceWhere_loses _ c h) (modParts_spares (fun _ => rfl) (.refl _))

theorem poolOut_inService (c : Nat) (s : State) : (poolOut c s).units.pool.inService = false := by
  unfold poolOut
  split
  case isTrue h => simpa using h
  case isFalse => rfl

theorem memOff_loses (h : Loses D r s) : Loses D r (memOff s) := by
  refine h.trans ⟨fun _ => .inl rfl, id, fun p e => ?_, fun _ => rfl, id⟩
  have hm : (partOf (memOff s) p).st = (partOf s p).st := by
    show (partOf (modParts _ _) p).st = _
    rw [partOf_modParts]; rfl
  rwa [hm] at e

theorem unitsOff_loses (d) (h : Loses D r s) : Loses D r (unitsOff d s) := by
  by_cases hd : d = 2
  · subst hd; exact memOff_loses h
  · exact h.spares (unitsOff_spares hd (.refl s))

/-! ## Domain changes and operations -/

theorem changeDom_logged (d st a) (s : State) : LoggedTo (setDom d st s) (changeDom d st a s) :=
  logDev_logged _ _ _ _ _ (.refl _)

theorem domOf_changeDom {d : Nat} (hd : d < 8) (st a) (s : State) : domOf (changeDom d st a s) d = st := by
  rw [(changeDom_logged d st a s).dom, domOf_setDom _ _ hd]

theorem domOf_changeDom_ne {d k : Nat} (hk : k ≠ d) (st a) (s : State) :
    domOf (changeDom d st a s) k = domOf s k := by
  rw [(changeDom_logged d st a s).dom, domOf_setDom_ne _ hk]

/-- A number that names no domain reads OFF. -/
theorem domOf_changeDom_off (d a : Nat) (s : State) : domOf (changeDom d .off a s) d = .off := by
  by_cases hd : d < 8
  · exact domOf_changeDom hd _ _ _
  · exact vget_of_ge _ _ (Nat.le_of_not_lt hd)

theorem changeDom_op (d st a) (s : State) : (changeDom d st a s).ao.pwr.op = s.ao.pwr.op := by
  rw [(changeDom_logged d st a s).pwr]; rfl

theorem changeDom_off_loses {d : Nat} (hd : d ∈ D) (a : Nat) (h : Loses D r s) :
    Loses D r (changeDom d .off a s) := by
  have hl := (changeDom_logged d .off a s).spares
  refine h.trans ⟨fun k => ?_, fun e => by rw [changeDom_op, e], fun p e => ?_, fun e => hl.cells.trans e,
    fun e => hl.inService.trans e⟩
  · by_cases hk : k = d
    · exact .inr ⟨hk ▸ hd, hk ▸ domOf_changeDom_off d a s⟩
    · exact .inl (domOf_changeDom_ne hk _ _ _)
  · rw [hl.st] at e; exact e

/-- A power operation once one of its domains is finished. -/
def opAfter (d : Nat) (o : PowerOp) : Option PowerOp :=
  let on := o.toOn.filter (· != d)
  let off := o.toOff.filter (· != d)
  if on.isEmpty && off.isEmpty then none else some { o with toOn := on, toOff := off }

theorem opAfter_eq_some {d : Nat} {o o' : PowerOp} (h : opAfter d o = some o') :
    o'.toOn = o.toOn.filter (· != d) ∧ o'.toOff = o.toOff.filter (· != d) := by
  unfold opAfter at h
  dsimp only at h
  split at h <;> cases h
  exact ⟨rfl, rfl⟩

/-- Finishing a domain takes it off the lists of the operation, or ends the operation, and completes requests. -/
theorem finishDom_op (d st a b c) (s : State) : ∃ op,
    Spares (modPwr (fun p => { p with op := op }) s) (finishDom d st a b c s) ∧
      ∀ o', op = some o' → ∃ o, s.ao.pwr.op = some o ∧ o'.toOn = o.toOn.filter (· != d)
        ∧ o'.toOff = o.toOff.filter (· != d) := by
  have hself : modPwr (fun p => { p with op := s.ao.pwr.op }) s = s := rfl
  unfold finishDom
  split
  case h_1 he => exact ⟨none, by rw [← he, hself]; exact .refl s, nofun⟩
  case h_2 o he =>
    dsimp only
    split
    · exact ⟨none, .refl _, nofun⟩
    split
    · have hnot : d ∉ o.toOn ∧ d ∉ o.toOff := by simp_all
      refine ⟨s.ao.pwr.op, by rw [hself]; exact .refl s, fun o' ho' => ⟨o', ho', ?_⟩⟩
      obtain rfl : o' = o := by simp_all
      have hfilter {l : List Nat} (hl : d ∉ l) : l = l.filter (· != d) :=
        (List.filter_eq_self.2 fun x hx => by simpa using fun e : x = d => hl (e ▸ hx)).symm
      exact ⟨hfilter hnot.1, hfilter hnot.2⟩
    · refine ⟨opAfter d o, ?_, fun o' ho' => ⟨o, he, opAfter_eq_some ho'⟩⟩
      unfold opAfter
      cases o.req with
      | some i => exact complete_spares _ _ _ _ _ (.refl _)
      | none => exact .refl _

theorem finishDom_dom (d st a b c) (s : State) (k : Nat) : domOf (finishDom d st a b c s) k = domOf s k := by
  obtain ⟨op, h, -⟩ := finishDom_op d st a b c s
  exact h.dom k

theorem finishDom_service (d st a b c) (s : State) : (finishDom d st a b c s).ao.service = s.ao.service := by
  obtain ⟨op, h, -⟩ := finishDom_op d st a b c s
  exact h.service

theorem finishDom_of_op_none (d st a b c) (h : s.ao.pwr.op = none) : finishDom d st a b c s = s := by
  unfold finishDom
  rw [h]

theorem finishDom_loses (d st a b c) (h : Loses D r s) : Loses D r (finishDom d st a b c s) := by
  obtain ⟨op, k, -⟩ := finishDom_op d st a b c s
  refine h.trans ⟨fun d => .inl (k.dom d), fun e => ?_, fun p e => (k.st p).symm.trans e, fun e => k.cells.trans e,
    fun e => k.inService.trans e⟩
  rw [finishDom_of_op_none _ _ _ _ _ e, e]

theorem advancePower_of_op_none (n : Nat) (h : s.ao.pwr.op = none) : advancePower n s = s := by
  cases n with
  | zero => rfl
  | succ n => rw [advancePower, h]

/-! ## The fall of a domain -/

/-- What a domain's own fall does, before the domains that depend on it follow. -/
def dropOne (d : Nat) (s : State) : State :=
  let s := changeDom d .off 0 s
  let s := finishDom d .off 0 stFenced 0x0114 s
  let s := if d = 1 then linkDown s else s
  let s := fenceWhere (lossFences d) 0x0102 s
  let s := if d = 2 || d = 3 || d = 4 then poolOut 0x0102 s else s
  unitsOff d s

/-- A domain that depends on one that fell, and can no longer be. -/
def dropDependent (n : Nat) (s : State) (e : Nat) : State :=
  if needsMet e (fun x => domOn s x) then s else dropDom n e s

theorem dropDom_succ (n d : Nat) (s : State) : dropDom (n + 1) d s =
    if domOf s d = .off || domOf s d = .fenced then s
    else (dependents d).foldl (dropDependent n) (dropOne d s) := by
  rw [dropDom]
  rfl

/-- Behind the change of the domain itself, its fall changes no domain. -/
theorem dropOne_loses_behind (d : Nat) (h : Loses D r (changeDom d .off 0 s)) : Loses D r (dropOne d s) := by
  have hl := finishDom_loses d .off 0 stFenced 0x0114 h
  have hf := fenceWhere_loses (lossFences d) 0x0102 (ite_loses (c := d = 1) (b := finishDom d .off 0 stFenced 0x0114 _)
    (hl.spares (linkDown_spares (.refl _))) hl)
  exact unitsOff_loses _ (ite_loses (poolOut_loses _ hf) hf)

theorem dropOne_off (d : Nat) (s : State) : domOf (dropOne d s) d = .off :=
  (dropOne_loses_behind (D := ∅) d (.refl _)).off (domOf_changeDom_off d 0 s)

theorem dropOne_dom_ne {d k : Nat} (hk : k ≠ d) (s : State) : domOf (dropOne d s) k = domOf s k :=
  ((dropOne_loses_behind d (.refl _)).dom_of_notMem (Set.notMem_empty k)).trans (domOf_changeDom_ne hk _ _ _)

theorem dropOne_loses {d : Nat} (hd : d ∈ D) (h : Loses D r s) : Loses D r (dropOne d s) :=
  dropOne_loses_behind d (changeDom_off_loses hd 0 h)

theorem dropDom_loses (n : Nat) : ∀ (d : Nat) {s : State}, Loses Set.univ r s → Loses Set.univ r (dropDom n d s) := by
  induction n with
  | zero => exact fun _ _ h => h
  | succ n ih =>
    intro d s h
    rw [dropDom_succ]
    exact ite_loses h (foldl_loses (fun _ e hx => ite_loses hx (ih e hx)) (dropOne_loses (Set.mem_univ d) h))

theorem dropDependents_loses (n : Nat) (l : List Nat) (s : State) :
    Loses Set.univ s (l.foldl (dropDependent n) s) :=
  foldl_loses (fun _ e hx => ite_loses hx (dropDom_loses n e hx)) (.refl s)

theorem dropDom_off {d : Nat} (n : Nat) (hd : domOf s d = .on) : domOf (dropDom (n + 1) d s) d = .off := by
  rw [dropDom_succ, if_neg (by rw [hd]; decide)]
  exact (dropDependents_loses n _ _).off (dropOne_off d s)

theorem dropDom_not_on (n d : Nat) (s : State) : domOf (dropDom (n + 1) d s) d ≠ .on := by
  by_cases hd : domOf s d = .on
  · rw [dropDom_off n hd]; decide
  · exact (dropDom_loses _ _ (.refl s)).not_on hd

/-- A domain that cannot be without d goes with d. -/
theorem dropDom_dependent {n d e : Nat} (he : e ∈ dependents d)
    (hneeds : ∀ ok : Nat → Bool, ok d = false → needsMet e ok = false) (hon : domOf s d = .on) :
    domOf (dropDom (n + 2) d s) e ≠ .on := by
  rw [dropDom_succ, if_neg (by rw [hon]; decide)]
  have hoff := dropOne_off d s
  generalize dropOne d s = x at hoff
  generalize dependents d = l at he
  induction l generalizing x with
  | nil => exact absurd he List.not_mem_nil
  | cons a l ih =>
    rcases List.mem_cons.1 he with rfl | hl
    · refine (dropDependents_loses _ l _).not_on ?_
      rw [dropDependent, if_neg (by simp [hneeds, domOn, hoff])]
      exact dropDom_not_on n e x
    · exact ih _ ((dropDependents_loses _ [a] x).off hoff) hl

/-! ### PD_NET and the domains behind it -/

/-- While PD_NET is not on, neither PD_VID nor PD_CHURN is (Table CLK-3). -/
def NetClosed (s : State) : Prop := domOf s 5 = .on ∨ domOf s 6 ≠ .on ∧ domOf s 7 ≠ .on

theorem NetClosed.of_loses (hs : NetClosed s) (h : Loses D s t) (h5 : domOf t 5 = domOf s 5) : NetClosed t :=
  hs.imp h5.trans fun ⟨h6, h7⟩ => ⟨h.not_on h6, h.not_on h7⟩

theorem dropDom_net_closed (n : Nat) (hs : NetClosed s) : NetClosed (dropDom (n + 2) 5 s) := by
  refine .inr ?_
  rcases hs with h5 | ⟨h6, h7⟩
  · exact ⟨dropDom_dependent (by decide) (fun _ h => h) h5, dropDom_dependent (by decide) (fun _ h => h) h5⟩
  · exact ⟨(dropDom_loses _ _ (.refl s)).not_on h6, (dropDom_loses _ _ (.refl s)).not_on h7⟩

theorem dropDom_closed {n d : Nat} (hd : d ≠ 5)
    (hdep : ∀ e ∈ dependents d, ∀ x, NetClosed x → NetClosed (dropDom n e x)) (hs : NetClosed s) :
    NetClosed (dropDom (n + 1) d s) := by
  rw [dropDom_succ]
  split
  · exact hs
  · have hone := hs.of_loses (dropOne_loses (Set.mem_singleton d) (.refl s)) (dropOne_dom_ne hd.symm s)
    refine List.foldlRecOn _ _ hone ?_
    intro x hx e he
    rw [dropDependent]
    split
    · exact hx
    · exact hdep e he x hx

theorem dropDom_mem_closed (n : Nat) (hs : NetClosed s) : NetClosed (dropDom (n + 4) 2 s) := by
  have htile {d : Nat} (hd : d = 3 ∨ d = 4) (x : State) (hx : NetClosed x) : NetClosed (dropDom (n + 3) d x) := by
    refine dropDom_closed (by omega) (fun e he y hy => ?_) hx
    obtain rfl : e = 5 := by rcases hd with rfl | rfl <;> simpa [dependents] using he
    exact dropDom_net_closed n hy
  refine dropDom_closed (by decide) (fun e he x hx => ?_) hs
  have he : e = 3 ∨ e = 4 ∨ e = 5 := by simpa [dependents] using he
  rcases he with rfl | rfl | rfl
  · exact htile (.inl rfl) x hx
  · exact htile (.inr rfl) x hx
  · exact dropDom_net_closed (n + 1) hx

end Sys2Proof.Machine
end

/-! # Power domains: their events

What each domain event leaves when the guards of its row hold, one equation per event, and the obligation they
settle. -/

section
namespace Sys2Proof.Machine
open State (LoggedTo)
variable {s : State}

/-! ## Beginning domains -/

/-- Beginning a domain is logged; else it sets the domain's state and attempt, and PD_TILE_W starts the inrush delay. -/
theorem beginDom_logged (d a : Nat) (s : State) :
    LoggedTo (modPwr (fun p => { p with attempt := vmodN p.attempt d (fun _ => a)
                                        inrush := if d = 3 then true else p.inrush }) (setDom d .powering s))
      (beginDom d a s) :=
  (changeDom_logged d .powering a s).modAo fun x y h => by
    cases x; cases y; simp_all [AoSt.sansFaults]

theorem domOf_beginDom {d : Nat} (hd : d < 8) (a : Nat) (s : State) : domOf (beginDom d a s) d = .powering := by
  rw [(beginDom_logged d a s).dom]
  exact domOf_setDom _ _ hd

theorem domOf_beginDom_ne {d k : Nat} (hk : k ≠ d) (a : Nat) (s : State) : domOf (beginDom d a s) k = domOf s k := by
  rw [(beginDom_logged d a s).dom]
  exact domOf_setDom_ne _ hk

theorem beginDom_attempt {d : Nat} (hd : d < 8) (a : Nat) (s : State) :
    vget (beginDom d a s).ao.pwr.attempt d 0 = a := by
  rw [(beginDom_logged d a s).pwr]
  exact vget_vmodN_same _ _ _ hd

theorem beginDom_inrush {d : Nat} (hd : d ≠ 3) (a : Nat) (s : State) :
    (beginDom d a s).ao.pwr.inrush = s.ao.pwr.inrush := by
  rw [(beginDom_logged d a s).pwr]
  exact if_neg hd

theorem beginDom_op (d a : Nat) (s : State) : (beginDom d a s).ao.pwr.op = s.ao.pwr.op := by
  rw [(beginDom_logged d a s).pwr]; rfl

theorem beginDom_service (d a : Nat) (s : State) : (beginDom d a s).ao.service = s.ao.service :=
  (beginDom_logged d a s).service

theorem beginDom_units (d a : Nat) (s : State) : (beginDom d a s).units = s.units := (beginDom_logged d a s).units

theorem beginDom_st (d a : Nat) (s : State) (p : Pid) : (partOf (beginDom d a s) p).st = (partOf s p).st :=
  (beginDom_logged d a s).st p

/-! ## Advancing an operation -/

/-- No operation in progress is to power d up, and none has a domain to power down. -/
def OpLeaves (d : Nat) (s : State) : Prop := ∀ o, s.ao.pwr.op = some o → d ∉ o.toOn ∧ o.toOff = []

theorem OpLeaves.finishDom {d : Nat} (h : OpLeaves d s) (e st a b c) : OpLeaves d (finishDom e st a b c s) := by
  obtain ⟨op, hs, hop⟩ := finishDom_op e st a b c s
  intro o' ho'
  obtain ⟨o, ho, hon, hoff⟩ := hop o' (by rw [hs.pwr] at ho'; exact ho')
  obtain ⟨hd, hnil⟩ := h o ho
  exact ⟨fun hm => hd (List.mem_of_mem_filter (hon ▸ hm)), by rw [hoff, hnil]; rfl⟩

/-- Once d is finished it is no longer on the operation's list. -/
theorem opLeaves_finishDom (hoff : ∀ o, s.ao.pwr.op = some o → o.toOff = []) (d st a b c) :
    OpLeaves d (finishDom d st a b c s) := by
  obtain ⟨op, hs, hop⟩ := finishDom_op d st a b c s
  intro o' ho'
  obtain ⟨o, ho, hon, hnil⟩ := hop o' (by rw [hs.pwr] at ho'; exact ho')
  exact ⟨by simp [hon], by rw [hnil, hoff o ho]; rfl⟩

theorem advancePower_opLeaves {d : Nat} (n : Nat) (h : OpLeaves d s) :
    domOf (advancePower n s) d = domOf s d ∧ (advancePower n s).ao.service = s.ao.service := by
  induction n generalizing s with
  | zero => exact ⟨rfl, rfl⟩
  | succ n ih =>
    cases ho : s.ao.pwr.op with
    | none => rw [advancePower_of_op_none _ ho]; exact ⟨rfl, rfl⟩
    | some o =>
      obtain ⟨hd, hnil⟩ := h o ho
      rw [advancePower, ho]
      dsimp only
      split
      case h_1 e _ =>
        have hi := ih (h.finishDom e (domOf s e) 0 stFenced 0x0114)
        rwa [finishDom_dom, finishDom_service] at hi
      split
      case h_1 e he =>
        have hne : d ≠ e := fun heq => hd (heq ▸ List.mem_of_mem_filter (List.mem_of_find?_eq_some he))
        have hi := ih (s := beginDom e 1 s) fun o' ho' => h o' (by rwa [beginDom_op] at ho')
        rwa [domOf_beginDom_ne hne, beginDom_service] at hi
      · rw [hnil]; exact ⟨rfl, rfl⟩

/-- An operation with nothing left to do waits. -/
theorem advancePower_of_lists_nil {o : PowerOp} (n : Nat) (ho : s.ao.pwr.op = some o) (hon : o.toOn = [])
    (hoff : o.toOff = []) : advancePower n s = s := by
  cases n with
  | zero => rfl
  | succ n => simp [advancePower, ho, hon, hoff]

theorem advancePower_tileE {o : PowerOp} (n : Nat) (ho : s.ao.pwr.op = some o) (hon : o.toOn = [4])
    (hoff : o.toOff = []) (hin : s.ao.pwr.inrush = false) (h4 : domOf s 4 = .off) (h2 : domOf s 2 = .on) :
    advancePower (n + 2) s = beginDom 4 1 s := by
  have hbegin : advancePower (n + 2) s = advancePower (n + 1) (beginDom 4 1 s) := by
    rw [advancePower, ho]
    simp [hon, h4, h2, hin, needsMet]
  have ho' : (beginDom 4 1 s).ao.pwr.op = some o := by rw [beginDom_op, ho]
  have h4' : domOf (beginDom 4 1 s) 4 = .powering := domOf_beginDom (by decide) 1 s
  rw [hbegin, advancePower, ho']
  simp [hon, hoff, h4']

/-! ## The domain events -/

theorem enterService_logged (c : Nat) (s : State) :
    LoggedTo (modAo (fun a => { a with service := true }) s) (enterService c s) := by
  unfold enterService
  dsimp only
  split
  · exact .refl _
  · exact logDev_logged _ _ _ _ _ (.refl _)

theorem enterService_service (c : Nat) (s : State) : (enterService c s).ao.service = true :=
  (enterService_logged c s).service

theorem domOf_enterService (c : Nat) (s : State) (k : Nat) : domOf (enterService c s) k = domOf s k :=
  (enterService_logged c s).dom k

theorem enterService_op (c : Nat) (s : State) : (enterService c s).ao.pwr.op = s.ao.pwr.op := by
  rw [(enterService_logged c s).pwr]; rfl

/-- A switched domain that has come on, before the operation goes on: its units with it, the service state left. -/
def upDom (d : Nat) (bad : List Nat) (s : State) : State :=
  let a := vget s.ao.pwr.attempt d 0
  let s := if a = 2 then transientFault 0xFF (unitId 0x12 d) 0x0008 0 s else s
  modAo (fun x => { x with service := false }) (unitsOn d bad (changeDom d .on a s))

theorem upDom_pwr (d : Nat) (bad : List Nat) (s : State) : (upDom d bad s).ao.pwr = (setDom d .on s).ao.pwr := by
  have hlog : LoggedTo s (if vget s.ao.pwr.attempt d 0 = 2 then transientFault 0xFF (unitId 0x12 d) 0x0008 0 s
      else s) := by
    split
    · exact transientFault_logged _ _ _ _ (.refl s)
    · exact .refl s
  rw [upDom, modAo_ao, (unitsOn_spares _ _ (.refl _)).pwr, (changeDom_logged _ _ _ _).pwr]
  exact congrArg (fun p : PowerSt => { p with dom := vmodN p.dom d fun _ => .on }) hlog.pwr

theorem upDom_service (d : Nat) (bad : List Nat) (s : State) : (upDom d bad s).ao.service = false := rfl

theorem domOf_upDom {d : Nat} (hd : d < 8) (bad : List Nat) (s : State) : domOf (upDom d bad s) d = .on := by
  rw [domOf, upDom_pwr]
  exact domOf_setDom _ _ hd

theorem doDomainUp_switched {d : Domain} (hd : 2 ≤ d.val) (bad : List Nat) (hp : domOf s d.val = .powering) :
    doDomainUp d bad s =
      advancePower 32 (finishDom d.val .on (vget s.ao.pwr.attempt d.val 0) 0 0 (upDom d.val bad s)) := by
  have h1 : d.val ≠ 1 := by omega
  simp [doDomainUp, upDom, hp, hd, h1]

/-- A switched domain that failed twice, before the service state of a fenced PD_MEM. -/
def fencedDom (d : Nat) (s : State) : State :=
  let s := changeDom d .fenced 2 s
  lastingFence 0xFF (unitId 0x12 d) 0x0008 4 0 (partsWhere s (fun q => q.st != .free && holdsIn q d)) s

theorem fencedDom_spares (d : Nat) (s : State) : Spares (changeDom d .fenced 2 s) (fencedDom d s) :=
  lastingFence_spares _ _ _ _ _ _ (.refl _)

theorem doDomainUpFail_first {d : Domain} (hd : 2 ≤ d.val) (hp : domOf s d.val = .powering)
    (ha : vget s.ao.pwr.attempt d.val 0 < 2) : doDomainUpFail d s = beginDom d.val 2 s := by
  have h1 : d.val ≠ 1 := by omega
  simp [doDomainUpFail, hp, ha, h1]

theorem doDomainUpFail_second {d : Domain} (hd : 2 ≤ d.val) (hp : domOf s d.val = .powering)
    (ha : 2 ≤ vget s.ao.pwr.attempt d.val 0) (hop : s.ao.pwr.op = none) :
    doDomainUpFail d s = if d.val = 2 then enterService 0 (fencedDom d.val s) else fencedDom d.val s := by
  have hf : (fencedDom d.val s).ao.pwr.op = none := by rw [(fencedDom_spares _ _).pwr, changeDom_op, hop]
  have he : (if d.val = 2 then enterService 0 (fencedDom d.val s) else fencedDom d.val s).ao.pwr.op = none := by
    split
    · rw [enterService_op, hf]
    · exact hf
  rw [doDomainUpFail]
  dsimp only
  rw [if_neg (by simp [hp]), if_neg (Nat.not_lt.2 ha), if_neg (show ¬ d.val = 1 by omega)]
  show advancePower 32 (finishDom d.val .fenced 2 stFenced 0x0114
    (if d.val = 2 then enterService 0 (fencedDom d.val s) else fencedDom d.val s)) = _
  rw [finishDom_of_op_none _ _ _ _ _ he, advancePower_of_op_none _ he]

/-- A domain that has powered down, before the service state. -/
def downDom (d : Nat) (s : State) : State := unitsOff d (changeDom d .off 1 s)

theorem downDom_loses (d : Nat) (s : State) : Loses {d} s (downDom d s) :=
  unitsOff_loses d (changeDom_off_loses (Set.mem_singleton d) 1 (.refl s))

theorem domOf_downDom (d : Nat) (s : State) : domOf (downDom d s) d = .off :=
  (unitsOff_loses (D := ∅) d (.refl _)).off (domOf_changeDom_off d 1 s)

theorem domOf_downDom_ne {d k : Nat} (hk : k ≠ d) (s : State) : domOf (downDom d s) k = domOf s k :=
  (downDom_loses d s).dom_of_notMem hk

/-- DOMAIN_POWER_DOWN_DONE without an operation: the service state begins when no switched domain is on. -/
theorem doDomainDown_of_op_none {d : Domain} (hp : domOf s d.val = .poweringDown) (hop : s.ao.pwr.op = none) :
    doDomainDown d s =
      if [2, 3, 4, 5, 6, 7].any (fun k => domOn (downDom d.val s) k) then downDom d.val s
      else enterService 0 (downDom d.val s) := by
  have hd : (downDom d.val s).ao.pwr.op = none := (downDom_loses d.val s).op hop
  have he : (if [2, 3, 4, 5, 6, 7].any (fun k => domOn (downDom d.val s) k) then downDom d.val s
      else enterService 0 (downDom d.val s)).ao.pwr.op = none := by
    split
    · exact hd
    · rw [enterService_op, hd]
  rw [doDomainDown]
  dsimp only
  rw [if_neg (by simp [hp])]
  show advancePower 32 (finishDom d.val .off 1 0 0
    (if [2, 3, 4, 5, 6, 7].any (fun k => domOn (downDom d.val s) k) then downDom d.val s
      else enterService 0 (downDom d.val s))) = _
  rw [finishDom_of_op_none _ _ _ _ _ he, advancePower_of_op_none _ he]

/-! ### Loss of power-good -/

/-- PD_CHURN falls alone: nothing depends on it and no partition is fenced (Table CLK-5). -/
theorem dropDom_churn (n : Nat) (h7 : domOf s 7 = .on) (hop : s.ao.pwr.op = none) :
    dropDom (n + 1) 7 s = churnOff (changeDom 7 .off 0 s) := by
  have hfin := finishDom_of_op_none 7 .off 0 stFenced 0x0114 ((changeDom_op 7 .off 0 s).trans hop)
  have hnone : lossFences 7 = fun _ => false := rfl
  rw [dropDom_succ, if_neg (by rw [h7]; decide)]
  simp [dependents, dropOne, hfin, hnone, fenceWhere_false, unitsOff]

/-- The records of the partitions that hold Churn slices. -/
def logChurnLoss (s : State) : State :=
  (partsWhere s (fun q => !q.g.churn.isEmpty)).foldl (fun s p => logEvent p.val 0x0102 (unitId 0x12 7) 0 0 0 s) s

theorem logChurnLoss_logged (s : State) : LoggedTo s (logChurnLoss s) :=
  List.foldlRecOn _ _ (motive := LoggedTo s) (.refl s) fun _ hx _ _ => logEvent_logged _ _ _ _ _ _ hx

/-- The operation that powers a domain again by itself (R67). -/
def repowerOp (d : Nat) : PowerOp := { req := none, tag := 0, toOn := [], toOff := [], repower := some d }

/-- PD_CHURN is off and its loss is logged. -/
def churnLost (s : State) : State := logChurnLoss (churnOff (changeDom 7 .off 0 s))

theorem churnLost_spares (s : State) : Spares (changeDom 7 .off 0 s) (churnLost s) :=
  (churnOff_spares (.refl _)).trans (logChurnLoss_logged _).spares

theorem churnLost_holder (s : State) : (churnLost s).units.churn.holder = none := by
  rw [churnLost, (logChurnLoss_logged _).units]
  rfl

theorem doPowerGoodLoss_churn {d : Domain} (hd : d.val = 7) (h7 : domOf s 7 = .on) (h5 : domOf s 5 = .on)
    (hop : s.ao.pwr.op = none) :
    doPowerGoodLoss d s = beginDom 7 1 (modPwr (fun p => { p with op := some (repowerOp 7) }) (churnLost s)) := by
  have hneeds : needsMet 7 (fun x => domOn (churnLost s) x) = true := by
    show domOn (churnLost s) 5 = true
    rw [domOn, (churnLost_spares s).dom, domOf_changeDom_ne (by decide), h5]; rfl
  have hidle : (churnLost s).ao.pwr.op.isNone = true := by
    rw [(churnLost_spares s).pwr, changeDom_op, hop]; rfl
  rw [doPowerGoodLoss]
  dsimp only
  rw [hd, if_neg (by decide), if_neg (by simp [domOn, h7]), dropDom_churn 7 h7 hop, if_neg (by decide),
    if_pos (rfl : 7 = 7)]
  show (if needsMet 7 (fun x => domOn (churnLost s) x) then advancePower 32 (beginDom 7 1
    (if (churnLost s).ao.pwr.op.isNone then modPwr (fun p => { p with op := some (repowerOp 7) }) (churnLost s)
      else churnLost s)) else advancePower 32 (churnLost s)) = _
  rw [if_pos hneeds, if_pos hidle]
  exact advancePower_of_lists_nil 32 (o := repowerOp 7) (beginDom_op _ _ _) rfl rfl

theorem doPowerGoodLoss_mem {d : Domain} (hd : d.val = 2) (h2 : domOf s 2 = .on) (hop : s.ao.pwr.op = none) :
    doPowerGoodLoss d s = enterService 0x0102 (dropDom 8 2 s) := by
  have he : (enterService 0x0102 (dropDom 8 2 s)).ao.pwr.op = none := by
    rw [enterService_op, (dropDom_loses 8 2 (.refl s)).op hop]
  rw [doPowerGoodLoss]
  dsimp only
  rw [hd, if_neg (by decide), if_neg (by simp [domOn, h2]), if_pos rfl, advancePower_of_op_none _ he]

/-! ### What the fall of PD_MEM leaves -/

theorem dropOne_mem (s : State) : dropOne 2 s =
    memOff (poolOut 0x0102 (fenceWhere (lossFences 2) 0x0102
      (finishDom 2 .off 0 stFenced 0x0114 (changeDom 2 .off 0 s)))) := by
  simp [dropOne, unitsOff]

/-- Every partition leans on near memory (Table CLK-5). -/
theorem dropOne_mem_st (s : State) (p : Pid) : (partOf (dropOne 2 s) p).st ≠ .enabled := by
  rw [dropOne_mem]
  intro e
  exact fenceWhere_st (w := lossFences 2) rfl 0x0102
    ((memOff_loses (D := ∅) (poolOut_loses 0x0102 (.refl _))).enabled p e)

theorem memOff_cells (s : State) : (memOff s).units.mem.cells = [] := rfl

theorem dropOne_mem_cells (s : State) : (dropOne 2 s).units.mem.cells = [] := by
  rw [dropOne_mem, memOff_cells]

theorem dropOne_mem_inService (s : State) : (dropOne 2 s).units.pool.inService = false := by
  rw [dropOne_mem]
  exact (memOff_loses (D := ∅) (.refl _)).inService (poolOut_inService _ _)

theorem dropDom_mem_loses (n : Nat) (h2 : domOf s 2 = .on) : Loses Set.univ (dropOne 2 s) (dropDom (n + 1) 2 s) := by
  rw [dropDom_succ, if_neg (by rw [h2]; decide)]
  exact dropDependents_loses n _ _

end Sys2Proof.Machine

namespace Sys2Proof.Claims
open Sys2Proof.Machine

theorem domainUpRow_holds : domainUpRow := by
  intro d bad s hd hp hoff
  refine ⟨doDomainUp d bad s, rfl, ?_⟩
  rw [doDomainUp_switched hd bad hp]
  have hop : ∀ o, (upDom d.val bad s).ao.pwr.op = some o → o.toOff = [] := by
    rw [upDom_pwr]; exact hoff
  have hadv := advancePower_opLeaves 32 (opLeaves_finishDom hop d.val .on (vget s.ao.pwr.attempt d.val 0) 0 0)
  rw [finishDom_dom, finishDom_service, domOf_upDom d.isLt, upDom_service] at hadv
  exact hadv

theorem domainUpFailRow_holds : domainUpFailRow := by
  intro d s hd hp
  refine ⟨fun ha => ⟨doDomainUpFail d s, rfl, ?_⟩, fun ha hop => ⟨doDomainUpFail d s, rfl, ?_⟩⟩
  · rw [doDomainUpFail_first hd hp ha]
    exact ⟨domOf_beginDom d.isLt 2 s, beginDom_attempt d.isLt 2 s, fun k hk => domOf_beginDom_ne hk 2 s,
      beginDom_units _ 2 s⟩
  · rw [doDomainUpFail_second hd hp ha hop]
    have hf : domOf (fencedDom d.val s) d.val = .fenced := by
      rw [(fencedDom_spares _ _).dom, domOf_changeDom d.isLt]
    split
    · exact ⟨by rw [domOf_enterService, hf], fun _ => enterService_service _ _⟩
    · exact ⟨hf, fun h2 => absurd h2 ‹_›⟩

theorem domainDownRow_holds : domainDownRow := by
  intro d s hd hp hop
  refine ⟨doDomainDown d s, rfl, ?_⟩
  rw [doDomainDown_of_op_none hp hop]
  split
  case isTrue hany =>
    refine ⟨domOf_downDom _ s, fun k hk => domOf_downDom_ne hk s, fun hnone => ?_⟩
    obtain ⟨k, hk, hon⟩ := List.any_eq_true.1 hany
    have hkd : k ≠ d.val := fun e => by simp [domOn, e, domOf_downDom] at hon
    have hrange : 2 ≤ k ∧ k < 8 := by simp at hk; omega
    rw [domOn, domOf_downDom_ne hkd] at hon
    exact absurd hon (by simpa [domOn] using hnone k hrange.1 hrange.2 hkd)
  case isFalse =>
    exact ⟨by rw [domOf_enterService, domOf_downDom], fun k hk => by rw [domOf_enterService, domOf_downDom_ne hk],
      fun _ => enterService_service _ _⟩

theorem churnLossRow_holds : churnLossRow := by
  intro d s hd h7 h5 hop
  refine ⟨doPowerGoodLoss d s, rfl, ?_⟩
  rw [doPowerGoodLoss_churn hd h7 h5 hop]
  have hs := churnLost_spares s
  refine ⟨domOf_beginDom (by decide) 1 _, beginDom_attempt (by decide) 1 _, fun k hk => ?_, beginDom_op 7 1 _,
    fun p => ?_, ?_⟩
  · rw [domOf_beginDom_ne hk]
    exact (hs.dom k).trans (domOf_changeDom_ne hk _ _ _)
  · rw [beginDom_st]
    exact (hs.st p).trans ((changeDom_logged 7 .off 0 s).st p)
  · rw [beginDom_units, modPwr_units, churnLost_holder]

theorem memLossRow_holds : memLossRow := by
  intro d s hd h2 hop
  refine ⟨doPowerGoodLoss d s, rfl, ?_⟩
  rw [doPowerGoodLoss_mem hd h2 hop]
  have hlog := enterService_logged 0x0102 (dropDom 8 2 s)
  have hl := dropDom_mem_loses 7 h2
  have h5 : domOf (dropDom 8 2 s) 5 ≠ .on := dropDom_dependent (by decide) (fun ok h => by simp [needsMet, h]) h2
  refine ⟨?_, fun p e => ?_, hlog.service, ?_, fun k hk3 hk5 => ?_, fun hon5 => ?_, ?_, ?_⟩
  · rw [hlog.dom]
    exact dropDom_off 7 h2
  · rw [hlog.st] at e
    exact dropOne_mem_st s p (hl.enabled p e)
  · rw [hlog.units]
    exact hl.cells (dropOne_mem_cells s)
  · rw [hlog.dom]
    have hk : k = 3 ∨ k = 4 ∨ k = 5 := by omega
    rcases hk with rfl | rfl | rfl
    · exact dropDom_dependent (by decide) (fun _ h => h) h2
    · exact dropDom_dependent (by decide) (fun _ h => h) h2
    · exact h5
  · rw [hlog.dom, hlog.dom]
    exact (dropDom_mem_closed 4 (.inl hon5)).resolve_left h5
  · rw [hlog.units]
    exact hl.inService (dropOne_mem_inService s)
  · rw [enterService_op]
    exact (dropDom_loses 8 2 (.refl s)).op hop

theorem inrushRow_holds : inrushRow := by
  intro s hin hop
  show Host.Outcome.next (doInrush s) = _
  rw [doInrush, if_pos hin, advancePower_of_op_none]
  exact hop

theorem inrushBegins_holds : inrushBegins := by
  intro s o hin hop hon hoff h4 h2
  refine ⟨doInrush s, rfl, ?_⟩
  rw [doInrush, if_pos hin,
    advancePower_tileE (s := modPwr (fun p => { p with inrush := false }) s) 30 hop hon hoff rfl h4 h2]
  exact ⟨domOf_beginDom (by decide) 1 _, beginDom_inrush (by decide) 1 _, fun k hk => domOf_beginDom_ne hk 1 _⟩

end Sys2Proof.Claims
end

section
namespace Sys2Proof

/-- Settles O24: what a domain's change sets off spares every other domain (`Spares`), and a loss of power only takes
(`Loses`), so PD_MEM's fall leaves nothing on that leans on it. -/
theorem powerDomains : Obligations.PowerDomains :=
  ⟨Claims.domainUpRow_holds, Claims.domainUpFailRow_holds, Claims.domainDownRow_holds, Claims.churnLossRow_holds,
    Claims.memLossRow_holds, Claims.inrushRow_holds, Claims.inrushBegins_holds⟩

end Sys2Proof
end

/-! # Every command follows its state

One lemma per form of row, and from the lemmas of Laws one case per command: nothing a command does touches the queue,
takes a message back or restores a fuse. -/

section
namespace Sys2Proof.Machine
variable {s₀ s : State}

/-! ## The rows of the Command Reference -/

/-- A row whose body always answers. -/
theorem answerCmd_follows {i : ReqId} {op : Nat} {sel : List Byte → Bool} {fields : State → Req → Bool}
    {body : Req → State → State × Ans} (hb : ∀ r (t : State), Follows s₀ t → Follows s₀ (body r t).1)
    (h : Follows s₀ s) : Follows s₀ (runCmd i op sel fields (answering body) s) :=
  runCmd_follows _ _ _ _ _ (fun r _ => answering_follows body r hb) h

/-- A row that only reads. -/
theorem readCmd_follows {i : ReqId} {op : Nat} {sel : List Byte → Bool} {fields : State → Req → Bool}
    {body : Req → State → Ans} (h : Follows s₀ s) : Follows s₀ (runCmd i op sel fields (reading body) s) :=
  runCmd_follows _ _ _ _ _ (fun r _ => reading_follows body r) h

/-- PIPELINE_PAUSE begins the pause once its request is committed. -/
theorem execPipelinePause_follows (i : ReqId) (s : State) :
    ∃ t, execPipelinePause i s = .next t ∧ Follows s t := by
  have h : Follows s (runCmd i 0x0302 (fun _ => true) (fun _ _ => true) (answering pauseBody) s) :=
    answerCmd_follows (fun r _ => pauseBody_follows r) (.refl s)
  refine ⟨_, rfl, ?_⟩
  split
  · exact ite_follows (beginPause_follows _ _ h) h
  · exact h

/-- STORAGE_DETACH ends at once for a drive that has nothing to shut down. -/
theorem execStorageDetach_follows (i : ReqId) (s : State) :
    ∃ t, execStorageDetach i s = .next t ∧ Follows s t := by
  refine ⟨_, rfl, foldl_follows (fun x n hx => ?_) (answerCmd_follows (fun r _ => detachBody_follows r) (.refl s))⟩
  exact ite_follows (detachDone_follows _ _ hx)
    (ite_follows (completeOpt_follows _ _ _ _ (modDrive_follows _ _ hx)) hx)

/-- TAKE_OVER begins the takeover once its request is committed. -/
theorem execPairTakeoverTakeOver_follows (i : ReqId) (s : State) :
    ∃ t, execPairTakeoverTakeOver i s = .next t ∧ Follows s t := by
  have h : Follows s (runCmd i 0x0B04 (fun b => field b 0 1 != 1) takeoverFields (answering takeoverBody) s) :=
    answerCmd_follows (fun r _ => takeoverBody_follows r) (.refl s)
  refine ⟨_, rfl, ?_⟩
  split
  · exact ite_follows (takeover_follows _ h) h
  · exact h

/-! ## Every command -/

/-- Every command ends in a next state, which follows the state it was given. -/
theorem exec_follows (c : Instr) (s : State) : ∃ t, exec c s = .next t ∧ Follows s t := by
  cases c with
  | deviceIdentify _ => exact ⟨_, rfl, readCmd_follows (.refl s)⟩
  | devicePowerSet _ => exact ⟨_, rfl, answerCmd_follows (fun _ _ => powerSet_follows _) (.refl s)⟩
  | devicePowerStatus _ => exact ⟨_, rfl, readCmd_follows (.refl s)⟩
  | deviceResetWarm _ => exact ⟨_, rfl, answerCmd_follows (fun _ _ => acceptReset_follows _ _) (.refl s)⟩
  | deviceResetCold _ => exact ⟨_, rfl, answerCmd_follows (fun _ _ => acceptReset_follows _ _) (.refl s)⟩
  | firmwareUpdate _ => exact ⟨_, rfl, runCmd_follows _ _ _ _ _ (fun _ _ => fwBody_follows _) (.refl s)⟩
  | deviceTileMapReadClusters _ =>
    exact ⟨_, rfl, answerCmd_follows (fun _ _ => tileMapClusters_follows _) (.refl s)⟩
  | deviceTileMapReadHidden _ => exact ⟨_, rfl, answerCmd_follows (fun _ _ => tileMapHidden_follows _) (.refl s)⟩
  | deviceMemoryStatus _ => exact ⟨_, rfl, readCmd_follows (.refl s)⟩
  | devicePoolConfig _ => exact ⟨_, rfl, answerCmd_follows (fun _ _ => poolConfig_follows _) (.refl s)⟩
  | partitionGrant _ => exact ⟨_, rfl, runCmd_follows _ _ _ _ _ (fun _ _ => grantBody_follows _) (.refl s)⟩
  | partitionRelease _ => exact ⟨_, rfl, answerCmd_follows (fun _ _ => releaseBody_follows _) (.refl s)⟩
  | partitionEnable _ => exact ⟨_, rfl, answerCmd_follows (fun _ _ => enableBody_follows _) (.refl s)⟩
  | partitionTeardownAtBoundary _ => exact ⟨_, rfl, answerCmd_follows (fun _ _ => boundaryBody_follows _) (.refl s)⟩
  | partitionTeardownImmediate _ => exact ⟨_, rfl, answerCmd_follows (fun _ _ => immediateBody_follows _) (.refl s)⟩
  | partitionStatus _ => exact ⟨_, rfl, readCmd_follows (.refl s)⟩
  | regionLoad _ => exact ⟨_, rfl, runCmd_follows _ _ _ _ _ (fun _ _ => regionLoad_follows _) (.refl s)⟩
  | regionRead _ => exact ⟨_, rfl, runCmd_follows _ _ _ _ _ (fun _ _ => regionRead_follows _) (.refl s)⟩
  | pipelineLoad _ => exact ⟨_, rfl, runCmd_follows _ _ _ _ _ (fun _ _ => loadBody_follows _) (.refl s)⟩
  | pipelinePause r => exact execPipelinePause_follows r s
  | pipelineResume _ => exact ⟨_, rfl, answerCmd_follows (fun _ _ => resumeBody_follows _) (.refl s)⟩
  | pipelineStepDigest _ => exact ⟨_, rfl, readCmd_follows (.refl s)⟩
  | streamOpen _ => exact ⟨_, rfl, answerCmd_follows (fun _ _ => streamOpenBody_follows _) (.refl s)⟩
  | streamClose _ => exact ⟨_, rfl, answerCmd_follows (fun _ _ => streamCloseBody_follows _) (.refl s)⟩
  | streamStatus _ => exact ⟨_, rfl, readCmd_follows (.refl s)⟩
  | randomSeedSet _ => exact ⟨_, rfl, runCmd_follows _ _ _ _ _ (fun _ _ => seedBody_follows _) (.refl s)⟩
  | randomEntropyRead _ => exact ⟨_, rfl, runCmd_follows _ _ _ _ _ (fun _ _ => entropyReadBody_follows _) (.refl s)⟩
  | randomStatus _ => exact ⟨_, rfl, readCmd_follows (.refl s)⟩
  | randomEvaluate _ => exact ⟨_, rfl, runCmd_follows _ _ _ _ _ (fun _ _ => evaluateBody_follows _) (.refl s)⟩
  | routingPlaceReviseNow _ => exact ⟨_, rfl, answerCmd_follows (fun _ _ => reviseBody_follows _) (.refl s)⟩
  | routingPlaceSet _ => exact ⟨_, rfl, answerCmd_follows (fun _ _ => setBody_follows _) (.refl s)⟩
  | routingCountersRead _ => exact ⟨_, rfl, readCmd_follows (.refl s)⟩
  | churnRun _ => exact ⟨_, rfl, answerCmd_follows (fun _ _ => churnRunBody_follows _) (.refl s)⟩
  | ingestPortConfig _ => exact ⟨_, rfl, answerCmd_follows (fun _ _ => portConfigBody_follows _) (.refl s)⟩
  | ingestStatus _ => exact ⟨_, rfl, readCmd_follows (.refl s)⟩
  | deliveryOpen _ => exact ⟨_, rfl, answerCmd_follows (fun _ _ => deliveryOpenBody_follows _) (.refl s)⟩
  | deliveryClose _ => exact ⟨_, rfl, answerCmd_follows (fun _ _ => deliveryCloseBody_follows _) (.refl s)⟩
  | deliveryStatus _ => exact ⟨_, rfl, readCmd_follows (.refl s)⟩
  | storageAttach _ => exact ⟨_, rfl, answerCmd_follows (fun _ _ => attachBody_follows _) (.refl s)⟩
  | storageDetach r => exact execStorageDetach_follows r s
  | storageStatus _ => exact ⟨_, rfl, readCmd_follows (.refl s)⟩
  | pairStatus _ => exact ⟨_, rfl, readCmd_follows (.refl s)⟩
  | pairConfig _ => exact ⟨_, rfl, answerCmd_follows (fun _ _ => pairConfigBody_follows _) (.refl s)⟩
  | pairPlanSet _ => exact ⟨_, rfl, answerCmd_follows (fun _ _ => planBody_follows _) (.refl s)⟩
  | pairTakeoverTakeOver r => exact execPairTakeoverTakeOver_follows r s
  | pairTakeoverReleaseIds _ => exact ⟨_, rfl, answerCmd_follows (fun _ _ => releaseIdsBody_follows _) (.refl s)⟩
  | pairMove _ => exact ⟨_, rfl, answerCmd_follows (fun _ _ => moveBody_follows _) (.refl s)⟩
  | logRead _ => exact ⟨_, rfl, readCmd_follows (.refl s)⟩
  | diagRunSelfTest _ _ => exact ⟨_, rfl, readCmd_follows (.refl s)⟩
  | diagRunScoreboardDump _ => exact ⟨_, rfl, readCmd_follows (.refl s)⟩
  | diagRunLockstepCheck _ _ => exact ⟨_, rfl, readCmd_follows (.refl s)⟩
  | diagRunLoopback _ _ => exact ⟨_, rfl, readCmd_follows (.refl s)⟩
  | mbxSubmit _ => exact ⟨_, rfl, doMbxSubmit_follows _ (.refl s)⟩
  | mbxRelease _ => exact ⟨_, rfl, doMbxRelease_follows _ (.refl s)⟩
  | sqDoorbell _ _ => exact ⟨_, rfl, doSqDoorbell_follows _ _ (.refl s)⟩
  | descriptorConsume _ _ => exact ⟨_, rfl, doDescriptorConsume_follows _ _ (.refl s)⟩
  | deferredCommandStart _ => exact ⟨_, rfl, doDeferredStart_follows _ (.refl s)⟩
  | cqHeadAdvance _ _ => exact ⟨_, rfl, doCqHead_follows _ _ (.refl s)⟩
  | sqEnable _ => exact ⟨_, rfl, doSqEnable_follows _ (.refl s)⟩
  | sqDisable _ => exact ⟨_, rfl, doSqDisable_follows _ (.refl s)⟩
  | cqEnable _ => exact ⟨_, rfl, doCqEnable_follows _ (.refl s)⟩
  | cqDisable _ => exact ⟨_, rfl, doCqDisable_follows _ (.refl s)⟩
  | msixVectorUnmask _ _ => exact ⟨_, rfl, doMsixUnmask_follows _ _ (.refl s)⟩
  | registerWrite _ _ _ => exact ⟨_, rfl, doRegisterWrite_follows _ _ _ (.refl s)⟩
  | bar0MisalignedAccess _ _ _ _ => exact ⟨_, rfl, doMisaligned_follows _ _ _ _ (.refl s)⟩
  | mailboxTimeout _ => exact ⟨_, rfl, doMailboxTimeout_follows _ (.refl s)⟩
  | cqFullTimeout _ => exact ⟨_, rfl, doCqFullTimeout_follows _ (.refl s)⟩
  | irqCoalesceTimeout _ => exact ⟨_, rfl, doIrqCoalesceTimeout_follows _ (.refl s)⟩
  | hostDmaComplete _ _ => exact ⟨_, rfl, doDmaComplete_follows _ _ (.refl s)⟩
  | hostCompletionTimeout _ => exact ⟨_, rfl, doCompletionTimeout_follows _ (.refl s)⟩
  | tlpReplay => exact ⟨_, rfl, modHost_follows rfl (.refl s)⟩
  | pcieConfigRequest _ => exact ⟨_, rfl, doConfigRequest_follows _ (.refl s)⟩
  | vfFlr _ => exact ⟨_, rfl, doVfFlr_follows _ (.refl s)⟩
  | pfFlr => exact ⟨_, rfl, doPfFlr_follows (.refl s)⟩
  | pcieHotReset => exact ⟨_, rfl, doHotReset_follows (.refl s)⟩
  | hostLinkDown => exact ⟨_, rfl, doHostLinkDown_follows (.refl s)⟩
  | hostLinkUp _ _ => exact ⟨_, rfl, doHostLinkUp_follows _ _ (.refl s)⟩
  | vfEnableSet _ => exact ⟨_, rfl, doVfEnableSet_follows _ (.refl s)⟩
  | d3hotEntry _ => exact ⟨_, rfl, doD3_follows _ (.refl s)⟩
  | d0Return _ => exact ⟨_, rfl, doD0_follows _ (.refl s)⟩
  | powerInputsGood => exact ⟨_, rfl, doInputsGood_follows (.refl s)⟩
  | railOutOfRange _ => exact ⟨_, rfl, doRailOut_follows _ (.refl s)⟩
  | mainInputLoss => exact ⟨_, rfl, doMainLoss_follows (.refl s)⟩
  | auxInputRemoved => exact ⟨_, rfl, doAuxRemoved_follows (.refl s)⟩
  | perstAssert => exact ⟨_, rfl, doPerstAssert_follows (.refl s)⟩
  | perstDeassert => exact ⟨_, rfl, doPerstDeassert_follows (.refl s)⟩
  | imageVerifyDone => exact ⟨_, rfl, doImageVerifyDone_follows (.refl s)⟩
  | resetDelayExpiry => exact ⟨_, rfl, doResetDelay_follows (.refl s)⟩
  | warmResetBegin => exact ⟨_, rfl, doWarmResetBegin_follows (.refl s)⟩
  | refclkLost => exact ⟨_, rfl, doRefclkLost_follows (.refl s)⟩
  | rootPllLockLost => exact ⟨_, rfl, doPllLost_follows (.refl s)⟩
  | refclkReturn => exact ⟨_, rfl, doRefclkReturn_follows (.refl s)⟩
  | asyncFifoFault _ _ _ => exact ⟨_, rfl, doFifoFault_follows _ _ _ (.refl s)⟩
  | pairALockstepMismatch => exact ⟨_, rfl, doPairALockstep_follows (.refl s)⟩
  | pairAFirmwareWatchdog => exact ⟨_, rfl, doPairAWatchdog_follows (.refl s)⟩
  | pairBLockstepMismatch => exact ⟨_, rfl, doPairBMismatch_follows (.refl s)⟩
  | domainPowerUpDone _ _ => exact ⟨_, rfl, doDomainUp_follows _ _ (.refl s)⟩
  | domainPowerUpFail _ => exact ⟨_, rfl, doDomainUpFail_follows _ (.refl s)⟩
  | domainPowerDownDone _ => exact ⟨_, rfl, doDomainDown_follows _ (.refl s)⟩
  | powerGoodLoss _ => exact ⟨_, rfl, doPowerGoodLoss_follows _ (.refl s)⟩
  | poolEntersService => exact ⟨_, rfl, doPoolIn_follows (.refl s)⟩
  | granuleZeroed _ _ _ => exact ⟨_, rfl, doGranuleZeroed_follows _ _ _ (.refl s)⟩
  | windowZeroed _ _ => exact ⟨_, rfl, doWindowZeroed_follows _ _ (.refl s)⟩
  | teardownPhase _ _ => exact ⟨_, rfl, doTeardownPhase_follows _ _ (.refl s)⟩
  | teardownComplete _ => exact ⟨_, rfl, doTeardownComplete_follows _ (.refl s)⟩
  | tileResetDone _ => exact ⟨_, rfl, doTileResetDone_follows _ (.refl s)⟩
  | tileSramUncorrectable _ _ _ => exact ⟨_, rfl, sramError_follows _ _ _ (.refl s)⟩
  | tilePatrolScrub _ _ _ _ => exact ⟨_, rfl, doTileScrub_follows _ _ _ _ (.refl s)⟩
  | correctedErrorsSecond => exact ⟨_, rfl, doCorrectedSecond_follows (.refl s)⟩
  | tileImageFault _ _ _ => exact ⟨_, rfl, doTileImageFault_follows _ _ _ (.refl s)⟩
  | flitCrcFail _ _ => exact ⟨_, rfl, doFlitCrcFail_follows _ _ (.refl s)⟩
  | flitReplayDone _ _ _ _ => exact ⟨_, rfl, doFlitReplayDone_follows _ _ _ _ (.refl s)⟩
  | syncLaneMismatch _ _ _ => exact ⟨_, rfl, doSyncMismatch_follows _ _ _ (.refl s)⟩
  | meshPacketArrival _ _ => exact ⟨_, rfl, doMeshPacket_follows _ _ (.refl s)⟩
  | reservedSlotStart => exact ⟨_, rfl, doSlotStart_follows (.refl s)⟩
  | barrierArrival _ _ _ _ _ => exact ⟨_, rfl, doBarrier_follows _ _ _ _ _ (.refl s)⟩
  | flagContributionChange _ _ _ _ _ => exact ⟨_, rfl, doFlag_follows _ _ _ _ _ (.refl s)⟩
  | nearMemoryAccess _ => exact ⟨_, rfl, doNearMemory_follows _ (.refl s)⟩
  | nearMemoryUncorrectable _ _ => exact ⟨_, rfl, doMemUncorrectable_follows _ _ (.refl s)⟩
  | nearMemoryRereadDone _ _ => exact ⟨_, rfl, doReread_follows _ _ (.refl s)⟩
  | memoryPatrolScrub _ _ _ => exact ⟨_, rfl, doMemScrub_follows _ _ _ (.refl s)⟩
  | bufferReserve _ => exact ⟨_, rfl, doReserve_follows _ (.refl s)⟩
  | poolSetDecide => exact ⟨_, rfl, doPoolDecide_follows (.refl s)⟩
  | bufferDraw _ _ _ _ _ => exact ⟨_, rfl, doDraw_follows _ _ _ _ _ (.refl s)⟩
  | bufferUnreserve _ _ _ _ => exact ⟨_, rfl, doUnreserve_follows _ _ _ _ (.refl s)⟩
  | bufferHandOff _ _ _ _ => exact ⟨_, rfl, doHandOff_follows _ _ _ _ (.refl s)⟩
  | handOffApply _ _ => exact ⟨_, rfl, doHandOffApply_follows _ _ (.refl s)⟩
  | bufferRelease _ _ _ => exact ⟨_, rfl, doRelease_follows _ _ _ (.refl s)⟩
  | bufferAccess _ _ _ _ _ _ => exact ⟨_, rfl, doBufferAccess_follows _ _ _ _ _ _ (.refl s)⟩
  | noBufferWakeTimeout _ => exact ⟨_, rfl, doWakeTimeout_follows _ (.refl s)⟩
  | freeStoreFetchDone _ => exact ⟨_, rfl, doFetch_follows _ (.refl s)⟩
  | descriptorCacheFill _ _ _ => exact ⟨_, rfl, doCacheFill_follows _ _ _ (.refl s)⟩
  | admissionAttempt _ => exact ⟨_, rfl, doAdmission_follows _ (.refl s)⟩
  | schedulerIssue _ _ => exact ⟨_, rfl, doIssue_follows _ _ (.refl s)⟩
  | stageComplete _ _ _ _ => exact ⟨_, rfl, doStageComplete_follows _ _ _ _ (.refl s)⟩
  | routeCountsReport _ _ _ => exact ⟨_, rfl, doRouteCounts_follows _ _ _ (.refl s)⟩
  | listBuildDone => exact ⟨_, rfl, doListBuild_follows (.refl s)⟩
  | stepBoundary _ => exact ⟨_, rfl, doBoundary_follows _ (.refl s)⟩
  | stepWatchdogExpiry _ => exact ⟨_, rfl, doWatchdog_follows _ (.refl s)⟩
  | stillJobComplete _ _ _ => exact ⟨_, rfl, doStillComplete_follows _ _ _ (.refl s)⟩
  | stillJobTimeout _ _ => exact ⟨_, rfl, doStillTimeout_follows _ _ (.refl s)⟩
  | warpJobComplete _ => exact ⟨_, rfl, doWarpComplete_follows _ (.refl s)⟩
  | warpParityError _ => exact ⟨_, rfl, doWarpParity_follows _ (.refl s)⟩
  | segmentReady _ _ _ => exact ⟨_, rfl, doSegmentReady_follows _ _ _ (.refl s)⟩
  | segmentComplete _ _ _ => exact ⟨_, rfl, doSegmentComplete_follows _ _ _ (.refl s)⟩
  | segmentTimeout _ => exact ⟨_, rfl, doSegmentTimeout_follows _ (.refl s)⟩
  | entropyBlockReady _ => exact ⟨_, rfl, doEntropyBlock_follows _ (.refl s)⟩
  | entropyHealthFail _ => exact ⟨_, rfl, doEntropyFail_follows _ (.refl s)⟩
  | entropyRestartDone _ => exact ⟨_, rfl, doEntropyRestart_follows _ (.refl s)⟩
  | laneKeyExhausted _ _ => exact ⟨_, rfl, doLaneExhausted_follows _ _ (.refl s)⟩
  | churnSliceStart => exact ⟨_, rfl, doSliceStart_follows (.refl s)⟩
  | churnSaveLoadDone _ => exact ⟨_, rfl, doSaveLoad_follows _ (.refl s)⟩
  | churnRunEnd => exact ⟨_, rfl, doRunEnd_follows (.refl s)⟩
  | packingBudgetExpiry _ _ => exact ⟨_, rfl, doPackBudget_follows _ _ (.refl s)⟩
  | placementBudgetExpiry _ => exact ⟨_, rfl, doPlaceBudget_follows _ (.refl s)⟩
  | churnSramUncorrectable => exact ⟨_, rfl, doChurnSram_follows (.refl s)⟩
  | ethernetLinkUp _ => exact ⟨_, rfl, doEthUp_follows _ (.refl s)⟩
  | ethernetLinkDown _ => exact ⟨_, rfl, doEthDown_follows _ (.refl s)⟩
  | linkRetrainTick _ => exact ⟨_, rfl, doRetrainTick_follows _ (.refl s)⟩
  | linkTrainingFail _ => exact ⟨_, rfl, doTrainingFail_follows _ (.refl s)⟩
  | ethernetFrameReceived _ _ => exact ⟨_, rfl, doEthFrame_follows _ _ (.refl s)⟩
  | gvspLeader _ _ _ => exact ⟨_, rfl, doLeader_follows _ _ _ (.refl s)⟩
  | gvspPayload _ _ _ => exact ⟨_, rfl, doPayload_follows _ _ _ (.refl s)⟩
  | gvspTrailer _ _ _ => exact ⟨_, rfl, doTrailer_follows _ _ _ (.refl s)⟩
  | gvcpMessageReceived _ => exact ⟨_, rfl, doGvcp_follows _ (.refl s)⟩
  | arpRequestReceived _ _ _ => exact ⟨_, rfl, doArp_follows _ _ _ (.refl s)⟩
  | icmpEchoRequest _ _ _ => exact ⟨_, rfl, doIcmp_follows _ _ _ (.refl s)⟩
  | pauseFrameReceived _ _ => exact ⟨_, rfl, doPauseFrame_follows _ (.refl s)⟩
  | ptpSync _ _ _ _ => exact ⟨_, rfl, doPtpSync_follows _ _ _ _ (.refl s)⟩
  | ptpFollowUp _ _ => exact ⟨_, rfl, doFollowUp_follows _ _ (.refl s)⟩
  | ptpDelayResp _ _ _ => exact ⟨_, rfl, doDelayResp_follows _ _ _ (.refl s)⟩
  | ptpAnnounce _ _ _ => exact ⟨_, rfl, doAnnounce_follows _ _ _ (.refl s)⟩
  | ptpSyncTimeout => exact ⟨_, rfl, doSyncTimeout_follows (.refl s)⟩
  | blockTimeout _ _ => exact ⟨_, rfl, doBlockTimeout_follows _ _ (.refl s)⟩
  | streamTimeout _ _ => exact ⟨_, rfl, doStreamTimeout_follows _ _ (.refl s)⟩
  | resendDelayExpiry _ _ _ => exact ⟨_, rfl, rangeTimer_follows _ _ _ _ (.refl s)⟩
  | resendTimeout _ _ _ => exact ⟨_, rfl, rangeTimer_follows _ _ _ _ (.refl s)⟩
  | bdpUpdate _ _ _ => exact ⟨_, rfl, doBdpUpdate_follows _ _ _ (.refl s)⟩
  | bdpNakBatch _ _ _ => exact ⟨_, rfl, doBdpNak_follows _ _ _ (.refl s)⟩
  | bdpCloseReceived _ _ _ => exact ⟨_, rfl, doBdpClose_follows _ _ _ (.refl s)⟩
  | bdpAckTimerExpiry _ _ _ => exact ⟨_, rfl, doAckTimer_follows _ _ _ (.refl s)⟩
  | creditTimerExpiry _ _ => exact ⟨_, rfl, doCreditTimer_follows _ _ (.refl s)⟩
  | rcAckTimeout _ _ => exact ⟨_, rfl, doRcTimeout_follows _ _ (.refl s)⟩
  | rnrNakReceived _ _ => exact ⟨_, rfl, doRnrNak_follows _ _ (.refl s)⟩
  | cnpReceived _ _ => exact ⟨_, rfl, doCnp_follows _ _ (.refl s)⟩
  | rateIncreaseTick _ _ => exact ⟨_, rfl, doRateTick_follows _ _ (.refl s)⟩
  | p2pStatusPoll _ _ _ => exact ⟨_, rfl, doP2pPoll_follows _ _ _ (.refl s)⟩
  | remoteAccessErrorNak _ _ => exact ⟨_, rfl, doRemoteAccess_follows _ _ (.refl s)⟩
  | rdmaRequestToDevice _ _ => exact ⟨_, rfl, doRdmaToDevice_follows _ _ (.refl s)⟩
  | nvmeCompletion _ _ => exact ⟨_, rfl, doNvmeCompletion_follows _ _ (.refl s)⟩
  | nvmeIoTimeout _ _ => exact ⟨_, rfl, nvmeTimeout_follows _ _ _ (.refl s)⟩
  | nvmeAdminTimeout _ _ => exact ⟨_, rfl, doAdminTimeout_follows _ _ (.refl s)⟩
  | nvmeControllerFatal _ => exact ⟨_, rfl, controllerFailure_follows _ _ (.refl s)⟩
  | driveLinkDown _ _ => exact ⟨_, rfl, doDriveLinkDown_follows _ _ (.refl s)⟩
  | driveDma _ _ _ _ => exact ⟨_, rfl, doDriveDma_follows _ _ _ _ (.refl s)⟩
  | driveMsixWrite _ _ => exact ⟨_, rfl, doDriveMsix_follows _ _ (.refl s)⟩
  | detachShutdownTimeout _ => exact ⟨_, rfl, doShutdownTimeout_follows _ (.refl s)⟩
  | darradLinkTrained => exact ⟨_, rfl, doLinkTrained_follows (.refl s)⟩
  | darradFrameError _ => exact ⟨_, rfl, doFrameError_follows _ (.refl s)⟩
  | darradRetrainDone _ => exact ⟨_, rfl, doRetrainDone_follows _ (.refl s)⟩
  | darradTxFailure => exact ⟨_, rfl, doTxFailure_follows (.refl s)⟩
  | heartbeat _ _ _ _ _ => exact ⟨_, rfl, doHeartbeat_follows _ _ _ _ _ (.refl s)⟩
  | heartbeatSendTick => exact ⟨_, rfl, doBeat_follows (.refl s)⟩
  | heartbeatMiss _ => exact ⟨_, rfl, doMiss_follows _ (.refl s)⟩
  | departure _ => exact ⟨_, rfl, doDeparture_follows _ (.refl s)⟩
  | darradHello _ _ _ _ _ _ => exact ⟨_, rfl, doHello_follows _ _ _ _ _ _ (.refl s)⟩
  | helloRetryTick => exact ⟨_, rfl, doHelloRetry_follows (.refl s)⟩
  | hold _ _ => exact ⟨_, rfl, doHold_follows _ _ (.refl s)⟩
  | mirrorGrant _ _ => exact ⟨_, rfl, doMirrorGrant_follows _ _ (.refl s)⟩
  | mirrorStep _ _ => exact ⟨_, rfl, doMirrorStep_follows _ _ (.refl s)⟩
  | mirrorAck _ => exact ⟨_, rfl, doMirrorAck_follows _ (.refl s)⟩
  | mirrorAckTimeout _ => exact ⟨_, rfl, doMirrorTimeout_follows _ (.refl s)⟩
  | move _ => exact ⟨_, rfl, doMove_follows _ (.refl s)⟩
  | moveAck _ _ => exact ⟨_, rfl, doMoveAck_follows _ _ (.refl s)⟩
  | churnProblem _ _ => exact ⟨_, rfl, doChurnProblem_follows _ _ (.refl s)⟩
  | churnStage _ _ => exact ⟨_, rfl, doChurnStage_follows _ _ (.refl s)⟩
  | seed _ _ => exact ⟨_, rfl, doSeed_follows _ _ (.refl s)⟩
  | seedDone _ _ => exact ⟨_, rfl, doSeedDone_follows _ _ (.refl s)⟩
  | suspendedResourcesFree _ => exact ⟨_, rfl, doResourcesFree_follows _ (.refl s)⟩
  | logRateSecond => exact ⟨_, rfl, doRateSecond_follows (.refl s)⟩
  | thermalSample _ => exact ⟨_, rfl, doThermalSample_follows _ (.refl s)⟩
  | powerWindowEnd _ => exact ⟨_, rfl, doPowerWindow_follows _ (.refl s)⟩
  | mctpControlMessage _ _ => exact ⟨_, rfl, doMctp_follows _ _ (.refl s)⟩
  | getThermalPower => exact ⟨_, rfl, sideband_follows _ (.refl s)⟩
  | setPowerLimit _ => exact ⟨_, rfl, doSetPowerLimit_follows _ (.refl s)⟩
  | getSensors => exact ⟨_, rfl, sideband_follows _ (.refl s)⟩
  | fruLatchWrite _ => exact ⟨_, rfl, doFruWrite_follows _ (.refl s)⟩
  | jtagInstruction _ => exact ⟨_, rfl, doJtag_follows _ (.refl s)⟩
  | inrushDelayExpiry => exact ⟨_, rfl, doInrush_follows (.refl s)⟩
  | backgroundZeroingDone _ _ => exact ⟨_, rfl, doBackgroundZero_follows _ _ (.refl s)⟩
  | rootPllLockDone _ => exact ⟨_, rfl, doPllLockDone_follows _ (.refl s)⟩
  | pwrGoodHoldExpiry => exact ⟨_, rfl, doHoldExpiry_follows (.refl s)⟩
  | restartLatchRelease => exact ⟨_, rfl, doLatchRelease_follows (.refl s)⟩
  | rootPortLinkUp _ _ => exact ⟨_, rfl, doRootPortUp_follows _ _ (.refl s)⟩
  | controllerStatusChange _ _ => exact ⟨_, rfl, doControllerStatus_follows _ _ (.refl s)⟩
  | controllerReadyTimeout _ => exact ⟨_, rfl, doReadyTimeout_follows _ (.refl s)⟩
  | rcTransportAck _ _ => exact ⟨_, rfl, doRcAck_follows _ _ (.refl s)⟩
  | darradUnknownFrame _ => exact ⟨_, rfl, doUnknownFrame_follows _ (.refl s)⟩

end Sys2Proof.Machine

namespace Sys2Proof.Claims
open Sys2Proof.Machine

theorem commandKeeps_holds : commandKeeps := by
  intro c s t h
  obtain ⟨u, hu, hf⟩ := exec_follows c s
  obtain rfl : u = t := Host.Outcome.next.inj (hu.symm.trans h)
  exact ⟨hf.pending, hf.sent, hf.fuse⟩

end Sys2Proof.Claims

namespace Sys2Proof

/-- Settles O5: every command's effect follows its state (`exec_follows`). -/
theorem commandsKeepQueueFusesAndMessages : Obligations.CommandsKeepQueueFusesAndMessages :=
  Claims.commandKeeps_holds

end Sys2Proof
end

/-! # Device commands: fields of a record, a request's turn, and the reads

What a field of a list of little-endian fields reads, the rule of a row whose turn it is, and from them the device
reads and the identity record. -/

section
namespace Sys2Proof.Machine

/-! ## What a field reads -/

theorem leNat_toLe (w n : Nat) : leNat (toLe w n) = n % 256 ^ w := by
  induction w generalizing n with
  | zero => rw [toLe, leNat, Nat.pow_zero, Nat.mod_one]
  | succ w ih =>
    have hm := Nat.mod_mul (x := n) (a := 256) (b := 256 ^ w)
    rw [toLe, leNat, ih, BitVec.toNat_ofNat, Nat.pow_succ' (m := 256), hm]

theorem slice_eq_of_le {a : List Byte} {off n : Nat} (h : off + n ≤ a.length) :
    slice a off n = (a.drop off).take n := by
  have hz : n - (a.drop off).length = 0 := by simp only [List.length_drop]; omega
  rw [slice, padTo, hz, zeros, List.replicate_zero, List.append_nil]

/-- What stands behind a field does not matter to it. -/
theorem field_append_left {a b : List Byte} {off n : Nat} (h : off + n ≤ a.length) :
    field (a ++ b) off n = field a off n := by
  have hn : n ≤ (a.drop off).length := by simp only [List.length_drop]; omega
  rw [field, field, slice_eq_of_le h, slice_eq_of_le (by simp only [List.length_append]; omega),
    List.drop_append_of_le_length (by omega), List.take_append_of_le_length hn]

/-- What stands before a field only shifts it. -/
theorem field_append_right {a b : List Byte} {off n : Nat} (h : a.length ≤ off) :
    field (a ++ b) off n = field b (off - a.length) n := by
  obtain ⟨k, rfl⟩ := Nat.exists_eq_add_of_le h
  rw [field, field, slice, slice, List.drop_append, List.drop_eq_nil_of_le h, List.nil_append]

/-- A field reads the number that was laid out there, modulo its width (R6). -/
theorem field_toLe (w n : Nat) : field (toLe w n) 0 w = n % 256 ^ w := by
  rw [field, slice_eq_of_le (by simp), List.drop_zero, List.take_of_length_le (by simp), leNat_toLe]

/-- A byte of a list reads as its element. -/
theorem field_one {a : List Byte} {i : Nat} (h : i < a.length) : field a i 1 = a[i].toNat := by
  rw [field, slice_eq_of_le h, List.drop_eq_getElem_cons h, List.take_succ_cons, List.take_zero]
  simp [leNat]

end Sys2Proof.Machine

namespace Sys2Proof.Claims
open Sys2Proof.Machine
variable {s t : State} {i : ReqId} {r : Req} {op : Nat}

/-! ## A request whose turn it is -/

/-- The row of a request whose turn it is carries out its body and gives the body's answer (R102, R107). -/
theorem Turn.runCmd_eq {sel : List Byte → Bool} {fields : State → Req → Bool}
    {body : Req → State → State × Option Ans} {a : Ans} (h : Turn s i op r) (hsel : sel r.payload = true)
    (hfields : fields s r = true) (hbody : body r s = (t, some a)) (hpend : a.pend = false ∨ r.ring = true) :
    runCmd i op sel fields body s = finish r a t := by
  have hp : (a.pend && !r.ring) = false := by rcases hpend with e | e <;> simp [e]
  simp only [runCmd, h.head, h.id, h.opcode, h.ready, h.state, h.noConflict, h.noStall, hsel, hfields, hbody, hp]
  simp

/-- A row that only reads answers and does nothing else. -/
theorem Turn.reads {sel : List Byte → Bool} {fields : State → Req → Bool} {body : Req → State → Ans}
    (h : Turn s i op r) (hsel : sel r.payload = true) (hfields : fields s r = true)
    (hpend : (body r s).pend = false) : runCmd i op sel fields (reading body) s = finish r (body r s) s :=
  h.runCmd_eq hsel hfields rfl (.inl hpend)

/-- A row whose body always answers. -/
theorem Turn.answers {sel : List Byte → Bool} {fields : State → Req → Bool} {body : Req → State → State × Ans}
    {a : Ans} (h : Turn s i op r) (hsel : sel r.payload = true) (hfields : fields s r = true)
    (hbody : body r s = (t, a))
    (hpend : a.pend = false ∨ r.ring = true) : runCmd i op sel fields (answering body) s = finish r a t :=
  h.runCmd_eq hsel hfields (by rw [answering, hbody]) hpend

/-! ## Device reads -/

theorem deviceReads_holds : deviceReads := fun _ _ _ =>
  ⟨fun h => congrArg _ (h.reads rfl rfl rfl), fun h => congrArg _ (h.reads rfl rfl rfl),
    fun h => congrArg _ (h.reads rfl rfl rfl)⟩

end Sys2Proof.Claims

namespace Sys2Proof.Machine
variable {s : State}

/-! ## The identity record (R80) -/

@[simp] theorem domBytes_length (s : State) : (domBytes s).length = 8 := by simp [domBytes]

theorem field_domBytes {d : Nat} (h : d < 8) : field (domBytes s) d 1 = domCode (domOf s d) := by
  have hlt : domCode s.ao.pwr.dom[d] < 256 := by cases s.ao.pwr.dom[d] <;> decide
  rw [field_one (by simpa using h), domOf, vget_of_lt _ _ h, vec_get]
  simp [domBytes, Nat.mod_eq_of_lt hlt]

/-- The flags byte of the identity record. -/
def identifyFlags (s : State) : Nat :=
  s.ao.boot.fallback.toNat + 2 * s.ao.service.toNat + (if s.units.pair.st = 3 then 4 else 0)

theorem identifyFlags_lt (s : State) : identifyFlags s < 256 := by
  unfold identifyFlags
  have hf := Bool.toNat_le s.ao.boot.fallback
  have hv := Bool.toNat_le s.ao.service
  split <;> omega

theorem identifyFlags_fallback (s : State) : bit (identifyFlags s) 0 = s.ao.boot.fallback := by
  unfold identifyFlags bit
  cases s.ao.boot.fallback <;> cases s.ao.service <;> split <;> rfl

/-- The record of running firmware before its power states. -/
def identifyHead (s : State) : List Byte :=
  toLe 4 0x00008192 ++ (toLe 1 s.ao.fuse.stepping ++ (toLe 1 s.ao.boot.slot ++ (toLe 1 s.ao.fw.verMin
    ++ (toLe 1 s.ao.fw.verMax ++ (toLe 8 s.ao.fuse.serial ++ (toLe 4 s.ao.fw.version ++ (toLe 4 s.ao.fw.numerics
    ++ (toLe 4 s.ao.fuse.rollback ++ (toLe 1 (identifyFlags s) ++ zeros 3)))))))))

@[simp] theorem identifyHead_length (s : State) : (identifyHead s).length = 32 := by simp [identifyHead]

theorem identify_running (h : s.ao.boot.phase ≠ .rom) : identify s = identifyHead s ++ domBytes s := by
  simp [identify, identifyHead, identifyFlags, h]

theorem field_identify_head (h : s.ao.boot.phase ≠ .rom) {off n : Nat} (hn : off + n ≤ 32) :
    field (identify s) off n = field (identifyHead s) off n := by
  rw [identify_running h, field_append_left (by simpa using hn)]

end Sys2Proof.Machine

namespace Sys2Proof.Claims
open Sys2Proof.Machine

theorem identifyFields_holds : identifyFields := by
  intro s hrom hroll hver hnum hslot
  have hpos {off w n : Nat} (h : off + w ≤ 32) (hn : n < 256 ^ w) (hf : field (identifyHead s) off w = n % 256 ^ w) :
      field (identify s) off w = n := by
    rw [field_identify_head hrom h, hf, Nat.mod_eq_of_lt hn]
  refine ⟨by simp [identify_running hrom], hpos (by decide) hslot ?_, hpos (by decide) hver ?_,
    hpos (by decide) hnum ?_, hpos (by decide) (hroll.trans_lt (by decide)) ?_, ?_, fun d hd => ?_⟩
  · simp [identifyHead, field_append_right, field_append_left, field_toLe]
  · simp [identifyHead, field_append_right, field_append_left, field_toLe]
  · simp [identifyHead, field_append_right, field_append_left, field_toLe]
  · simp [identifyHead, field_append_right, field_append_left, field_toLe]
  · rw [hpos (by decide) (identifyFlags_lt s)]
    · exact identifyFlags_fallback s
    · simp [identifyHead, field_append_right, field_append_left, field_toLe]
  · rw [identify_running hrom, field_append_right (by simp), identifyHead_length, Nat.add_sub_cancel_left,
      field_domBytes hd]

end Sys2Proof.Claims
end

/-! # Device commands: the tile map

What DEVICE_TILE_MAP_READ answers, and why a half-row hides two columns. -/

section
namespace Sys2Proof.Machine
variable {s : State} {r : Req}

/-! ## The tile map (R138, R140) -/

theorem zeroAt_iff {b : List Byte} {off n : Nat} : zeroAt b off n = true ↔ field b off n = 0 := by simp [zeroAt]

/-- The candidate of a half at distance k from the seam. -/
def seamCol (h k : Nat) : Nat := if h = 0 then 65 - k else 66 + k

theorem seamCol_succ_ne {k : Nat} (h : Nat) (hk : k < 65) : seamCol h (k + 1) ≠ seamCol h k := by
  unfold seamCol
  split <;> omega

theorem hideMore_succ (h n k : Nat) (l : List Nat) : hideMore h (n + 1) k l =
    if 2 ≤ l.length then l
    else hideMore h n (k + 1) (if l.contains (seamCol h k) then l else seamCol h k :: l) := rfl

theorem hideMore_two (h k : Nat) : ∀ (n : Nat) {l : List Nat}, 2 ≤ l.length → hideMore h n k l = l
  | 0, _, _ => rfl
  | _ + 1, _, hl => by rw [hideMore_succ, if_pos hl]

/-- With one column hidden, the first or the second candidate is another one. -/
theorem hideMore_one_length {k : Nat} (h n a : Nat) (hk : k < 65) : (hideMore h (n + 2) k [a]).length = 2 := by
  rw [hideMore_succ, if_neg (by simp)]
  split
  case isFalse => rw [hideMore_two _ _ _ (by simp)]; rfl
  case isTrue ha =>
    have hne : seamCol h (k + 1) ≠ a := by
      have e : seamCol h k = a := by simpa using ha
      exact e ▸ seamCol_succ_ne h hk
    rw [hideMore_succ, if_neg (by simp), if_neg (by simpa using hne), hideMore_two _ _ _ (by simp)]
    rfl

theorem hideMore_nil_length {k : Nat} (h n : Nat) (hk : k < 64) : (hideMore h (n + 3) k []).length = 2 := by
  rw [hideMore_succ, if_neg (by simp), if_neg (by simp), hideMore_one_length h n _ (by omega)]

/-- Candidates come until two columns are hidden. -/
theorem hideMore_length {h : Nat} {l : List Nat} (hl : l.length ≤ 2) : (hideMore h 66 0 l).length = 2 := by
  match l, hl with
  | [], _ => exact hideMore_nil_length h 63 (by decide)
  | [a], _ => exact hideMore_one_length h 64 a (by decide)
  | [_, _], _ => rw [hideMore_two _ _ _ (by simp)]; rfl

/-- A caller that may name the clusters reads their records. -/
theorem tileMapClusters_allowed (h : r.fn.val = 0 ∨
      ∀ k, k < field r.payload 2 1 → (field r.payload 1 1 + k) ∈ (partAt s r.part).g.clusters) :
    tileMapClusters r s = (s, ansOk (toLe 2 (field r.payload 2 1) ++ zeros 2 ++
      ((List.range (field r.payload 2 1)).map (fun k => field r.payload 1 1 + k)).flatMap (clusterRec s))) := by
  rw [tileMapClusters, if_neg]
  rcases h with h | h
  · simp [h]
  · simpa using fun _ => h

end Sys2Proof.Machine

namespace Sys2Proof.Claims
open Sys2Proof.Machine

theorem tileMapRows_holds : tileMapRows := by
  intro i s r ht
  refine ⟨fun hmode hres hpos hmax hlast hmay => ?_, fun hmode hres hpf => ?_⟩
  · exact congrArg _ (ht.answers (by simp [hmode])
      (by simp [zeroAt_iff, hmode, zeroAt_iff.1 hres, hpos, hmax, hlast]) (tileMapClusters_allowed hmay) (.inl rfl))
  · exact congrArg _ (ht.answers (by simp [hmode]) (by simp [hres]) (by simp [tileMapHidden, hpf]) (.inl rfl))

theorem hiddenTwo_holds : hiddenTwo := fun _ _ _ _ hl => hideMore_length hl

end Sys2Proof.Claims

namespace Sys2Proof

/-- Settles O16: a row whose turn it is answers with its record, whose fields read what was laid out in them, and a
half-row's seam always has two columns left to hide. -/
theorem deviceReadsAndIdentity : Obligations.DeviceReadsAndIdentity :=
  ⟨Claims.deviceReads_holds, Claims.identifyFields_holds, Claims.tileMapRows_holds, Claims.hiddenTwo_holds⟩

end Sys2Proof
end

/-! # Device commands: power, firmware and the pool

The power operation of a single domain, and the effects of FIRMWARE_UPDATE and DEVICE_POOL_CONFIG. -/

section
namespace Sys2Proof.Machine
variable {s : State} {r : Req}

/-! ## DEVICE_POWER_SET (R62, R63, R65) -/

theorem powerSet_of_op (h : s.ao.pwr.op.isSome = true) : powerSet r s = (s, ansBusy 0x010E 1000) := by
  simp [powerSet, h]

/-- PD_MEM needs no other domain, so an operation of it alone begins it and waits. -/
theorem advancePower_mem {o : PowerOp} (n : Nat) (ho : s.ao.pwr.op = some o) (hon : o.toOn = [2]) (hoff : o.toOff = [])
    (h2 : domOf s 2 = .off) : advancePower (n + 2) s = beginDom 2 1 s := by
  have hbegin : advancePower (n + 2) s = advancePower (n + 1) (beginDom 2 1 s) := by
    rw [advancePower, ho]
    simp [hon, h2, needsMet]
  have ho' : (beginDom 2 1 s).ao.pwr.op = some o := by rw [beginDom_op, ho]
  have h2' : domOf (beginDom 2 1 s) 2 = .powering := domOf_beginDom (by decide) 1 s
  rw [hbegin, advancePower, ho']
  simp [hon, hoff, h2']

/-- The operation of a request that powers up PD_MEM alone. -/
def memPowerOp (r : Req) : PowerOp := { req := some r.id, tag := r.tag, toOn := [2], toOff := [], repower := none }

/-- The state in which a request's power operation for PD_MEM is in progress. -/
def memPowering (r : Req) (s : State) : State :=
  beginDom 2 1 (modPwr (fun p => { p with op := some (memPowerOp r) }) s)

theorem dom_settled (h : ∀ d, domOf s d ≠ .powering ∧ domOf s d ≠ .poweringDown) :
    s.ao.pwr.dom.toList.any (fun d => d == .powering || d == .poweringDown) = false := by
  simp only [List.any_eq_false, Bool.or_eq_true, beq_iff_eq, not_or]
  intro x hx
  obtain ⟨d, hd, rfl⟩ := List.getElem_of_mem hx
  have hlt : d < 8 := by simpa using hd
  simpa [domOf, vget_of_lt _ _ hlt, vec_get] using h d

theorem powerSet_mem (hon : field r.payload 0 1 = 4) (hoff : field r.payload 1 1 = 0) (hop : s.ao.pwr.op = none)
    (h2 : domOf s 2 = .off) (hset : ∀ d, domOf s d ≠ .powering ∧ domOf s d ≠ .poweringDown) :
    powerSet r s = (memPowering r s, ansPend) := by
  have hbits : bitsOf 4 8 = [2] := by decide
  have hnone : bitsOf 0 8 = [] := by decide
  have hadv := advancePower_mem (s := modPwr (fun p => { p with op := some (memPowerOp r) }) s) 30 rfl rfl rfl h2
  rw [memPowering, ← hadv]
  simp [powerSet, memPowerOp, hon, hoff, hbits, hnone, hop, h2, dom_settled hset, needsMet]

/-! ## FIRMWARE_UPDATE (R77, R78) -/

/-- WRITE without COMMIT puts the image that has arrived into the slot that does not run. -/
theorem fwCommit_write (ho : field r.payload 12 1 = 1) : ∃ a, a.status = 0 ∧ a.pend = false ∧ fwCommit r s =
    (modFw (fun w => if idleSlot s = 0 then { w with slotA := r.bulk } else { w with slotB := r.bulk }) s, a) := by
  have hwrite : bit 1 0 = true := rfl
  have hcommit : bit 1 1 = false := rfl
  exact ⟨_, rfl, rfl, by simp [fwCommit, ho, hwrite, hcommit]; rfl⟩

/-- COMMIT with FORCE and without WRITE only advances the rollback counter. -/
theorem fwCommit_commit (ho : field r.payload 12 1 = 6) (hb : r.bulk = []) : ∃ p, fwCommit r s =
    (modAo (fun a => { a with fuse := { a.fuse with
      rollback := max a.fuse.rollback (min s.ao.fw.rollbackVersion 64) } }) s, { payload := p }) := by
  have hwrite : bit 6 0 = false := rfl
  have hcommit : bit 6 1 = true := rfl
  have hforce : bit 6 2 = true := rfl
  exact ⟨_, by simp [fwCommit, ho, hb, hwrite, hcommit, hforce, ceilDiv]; rfl⟩

theorem fwBody_eq (ho : otherRuns s r 0x0105 = false) (hb : bit (field r.payload 12 1) 0 = true → r.bulk ≠ []) :
    fwBody r s = ((fwCommit r s).1, some (fwCommit r s).2) := by
  rw [fwBody, if_neg (by simp [ho]), if_neg (by simpa using hb)]

/-! ## The pool area (R206 to R208) -/

/-- The state in which a request's rows are the pool's configuration. -/
def poolConfigured (r : Req) (s : State) : State :=
  let rows := cfgRows r.payload
  let area := areaRows s.units.mem.retired (metaRowsOf rows + sumL rows)
  modMem (fun x => { x with clean := x.clean.filter (fun h => !area.contains h.row) })
    (modPool (fun p => { p with rows := rows, cfg := rows, metaRows := metaRowsOf rows, area := area, descs := [],
                                dcache := [], cache := [0, 0, 0, 0, 0] }) s)

theorem poolConfig_accepted (hfree : ∀ p, (partOf s p).st = .free)
    (hheld : (heldHalfRows s).any (fun h => (areaRows s.units.mem.retired
      (metaRowsOf (cfgRows r.payload) + sumL (cfgRows r.payload))).contains h.row) = false) :
    poolConfig r s = (poolConfigured r s, ansOk (toLe 2 (metaRowsOf (cfgRows r.payload)) ++
      toLe 2 (metaRowsOf (cfgRows r.payload) + sumL (cfgRows r.payload)))) := by
  rw [poolConfig, if_neg (by simp [hfree]), if_neg (by rw [hheld]; decide)]
  rfl

theorem partOf_poolIn (p : Pid) : partOf (poolIn s) p =
    { partOf s p with held := [0, 0, 0, 0, 0], drawn := [0, 0, 0, 0, 0] } :=
  partOf_modParts _ p

end Sys2Proof.Machine

namespace Sys2Proof.Claims
open Sys2Proof.Machine

theorem powerSetMem_holds : powerSetMem := by
  intro i s r ht hring hon hoff hres hop h2 hset
  have hlog := beginDom_logged 2 1 (modPwr (fun p => { p with op := some (memPowerOp r) }) s)
  have hfields : powerFields r = true := by simp [powerFields, hon, hoff, hres]
  refine ⟨memPowering r s, congrArg _ (ht.answers rfl hfields (powerSet_mem hon hoff hop h2 hset) (.inr hring)), ?_⟩
  exact ⟨domOf_beginDom (by decide) 1 _, beginDom_attempt (by decide) 1 _, fun d hd => domOf_beginDom_ne hd 1 _,
    hlog.units, hlog.reqs⟩

theorem powerSetBusy_holds : powerSetBusy := fun _ _ _ ht hfields hop =>
  congrArg _ (ht.answers rfl hfields (powerSet_of_op hop) (.inl rfl))

theorem firmwareCommit_holds : firmwareCommit := by
  intro i s r ht hfields hother hbulk ho hroll
  obtain ⟨p, hp⟩ := fwCommit_commit (s := s) ho hbulk
  have hbody := fwBody_eq (r := r) hother (fun h => absurd h (by rw [ho]; decide))
  rw [hp] at hbody
  refine ⟨p, _, congrArg _ (ht.runCmd_eq rfl hfields hbody (.inl rfl)), ?_, rfl, rfl, rfl, rfl, rfl, rfl⟩
  show max _ (min _ _) = max _ _
  rw [Nat.min_eq_left hroll]

theorem firmwareWrite_holds : firmwareWrite := by
  intro i s r ht hfields hother hbulk ho
  obtain ⟨a, hok, hpend, ha⟩ := fwCommit_write (s := s) ho
  have hbody := fwBody_eq (r := r) hother (fun _ => hbulk)
  rw [ha] at hbody
  refine ⟨a, hok, _, congrArg _ (ht.runCmd_eq rfl hfields hbody (.inl hpend)), ?_⟩
  by_cases hs : s.ao.boot.slot = 0
  · simp [idleSlot, slotBytes, hs]
  · simp [idleSlot, slotBytes, hs]

theorem poolConfigRow_holds : poolConfigRow := by
  intro i s r ht hres h0 hrows hfree hheld
  refine ⟨poolConfigured r s, congrArg _ (ht.answers rfl ?_ (poolConfig_accepted hfree hheld) (.inl rfl)), ?_⟩
  · simp [h0, hrows, hres]
  · exact ⟨rfl, rfl, rfl, fun _ _ => rfl, rfl, rfl, rfl⟩

theorem poolEntersRow_holds : poolEntersRow := by
  intro s h2 h3 h4 hout
  refine ⟨poolIn s, ?_, rfl, rfl, rfl, fun p => ?_, rfl, rfl, rfl, rfl⟩
  · show Host.Outcome.next (doPoolIn s) = _
    rw [doPoolIn, if_pos (by simp [h2, h3, h4, hout])]
  · rw [partOf_poolIn]
    exact ⟨rfl, rfl, rfl, rfl⟩

end Sys2Proof.Claims

namespace Sys2Proof

/-- Settles O17: with PD_MEM off and every domain settled the operation begins it, and an operation in progress answers
BUSY before anything else is looked at. -/
theorem devicePowerSet : Obligations.DevicePowerSet :=
  ⟨Claims.powerSetMem_holds, Claims.powerSetBusy_holds⟩

/-- Settles O19: what FIRMWARE_UPDATE and DEVICE_POOL_CONFIG leave when their tests pass, and the pool's entry into
service. -/
theorem firmwareAndPoolConfig : Obligations.FirmwareAndPoolConfig :=
  ⟨Claims.firmwareCommit_holds, Claims.firmwareWrite_holds, Claims.poolConfigRow_holds, Claims.poolEntersRow_holds⟩

end Sys2Proof
end

/-! # Reset: delay, warm reset, departure notice and the control pairs

A departure notice only sends; what a cold and a warm reset leave is their definition's. -/

section
namespace Sys2Proof.Machine
open State (LoggedTo)
variable {s t : State}

/-! ## The departure notice (R71) -/

theorem departureNotice_ao (s : State) : (departureNotice s).ao = s.ao := by unfold departureNotice; split <;> rfl
theorem departureNotice_host (s : State) : (departureNotice s).host = s.host := by unfold departureNotice; split <;> rfl
theorem departureNotice_parts (s : State) : (departureNotice s).parts = s.parts := by
  unfold departureNotice; split <;> rfl
theorem departureNotice_log (s : State) : (departureNotice s).log = s.log := by unfold departureNotice; split <;> rfl

theorem warmTrigger_of_not_due (h : s.ao.boot.warmDue = false) :
    warmTrigger s = modBoot (fun b => { b with warmDue := true }) (departureNotice s) :=
  if_neg (by simp [h])

/-- A warm reset becomes due, and nothing else of the always-on side and the host side changes. -/
theorem warmTrigger_ao (h : s.ao.boot.warmDue = false) :
    (warmTrigger s).ao = { s.ao with boot := { s.ao.boot with warmDue := true } } := by
  rw [warmTrigger_of_not_due h, modBoot_ao, departureNotice_ao]

theorem warmTrigger_host (h : s.ao.boot.warmDue = false) : (warmTrigger s).host = s.host := by
  rw [warmTrigger_of_not_due h, modBoot_host, departureNotice_host]

/-! ## What the resets leave (R68) -/

theorem partOf_default {s : State} (h : s.parts = Vector.replicate 64 {}) (p : Pid) : partOf s p = {} := by
  simp [partOf, h, vec_get]

/-- At power-up only PD_AO is on. -/
theorem dom_powerUp {d : Nat} (hd : d ≠ 0) : vget ({} : PowerSt).dom d .off = .off := by
  by_cases h : d < 8
  · rw [vget_of_lt _ _ h, vec_get]
    exact (Vector.getElem_set_ne (by decide) h (Ne.symm hd)).trans (Vector.getElem_replicate h)
  · exact vget_of_ge _ _ (Nat.le_of_not_lt h)

/-! ## Pair B (R72) -/

theorem modStep_marks {p : Pid} {slot : Nat} {x : OpenStep}
    (hx : x ∈ (partOf (modStep p slot (fun st => { st with pairBMiss := true }) s) p).sc.steps)
    (hslot : x.slot = slot) :
    x.pairBMiss = true := by
  rw [modStep, partOf_modSched] at hx
  obtain ⟨y, -, rfl⟩ := List.mem_map.1 hx
  split at hslot
  case isTrue h => rw [if_pos h]
  case isFalse h => exact absurd (beq_iff_eq.2 hslot) h

end Sys2Proof.Machine

namespace Sys2Proof.Claims
open Sys2Proof.Machine

theorem resetDelayRow_holds : resetDelayRow := by
  intro s
  refine ⟨fun hcold => ⟨doResetDelay s, rfl, ?_⟩, fun hwarm hdue => ⟨doResetDelay s, rfl, ?_⟩⟩
  · rw [doResetDelay, if_neg (by omega), if_pos hcold]
    refine ⟨rfl, rfl, rfl, rfl, partOf_default rfl, ?_, ?_⟩
    · show (departureNotice s).ao.fuse = _
      rw [departureNotice_ao]
    · show (departureNotice s).ao.mod_ = _
      rw [departureNotice_ao]
  · rw [doResetDelay, if_pos hwarm, warmTrigger_of_not_due hdue]
    exact ⟨congrArg (fun a : AoSt => { a.boot with warmDue := true }) (departureNotice_ao s), departureNotice_parts s,
      departureNotice_host s, departureNotice_log s⟩

theorem warmResetRow_holds : warmResetRow := by
  intro s hdue
  refine ⟨doWarmResetBegin s, rfl, ?_⟩
  rw [doWarmResetBegin, if_pos hdue]
  refine ⟨partOf_default rfl, rfl, rfl, rfl, rfl, rfl, rfl, rfl, rfl, rfl, fun d hd => ?_, rfl⟩
  exact (vget_vmodN_ne _ _ _ (by omega)).trans (dom_powerUp (by omega))

theorem departureSent_holds : departureSent := by
  intro s hdue
  rw [warmTrigger_of_not_due hdue, modBoot_out]
  refine ⟨fun hon htrained => ?_, fun hoff => ?_⟩
  · rw [departureNotice, if_pos (by simp [hon, htrained])]
    rfl
  · rw [departureNotice, if_neg (by simp [hoff])]

theorem pairARows_holds : pairARows := by
  intro c s hc hrun hdue
  rcases hc with rfl | rfl
  · have hlog := logDev_logged 0x0104 0 2 0 0 (.refl s)
    have hdue' : (logDev 0x0104 0 2 0 0 s).ao.boot.warmDue = false := by rw [hlog.boot, hdue]
    refine ⟨doPairALockstep s, rfl, ?_⟩
    rw [doPairALockstep, if_pos hrun]
    dsimp only
    rw [warmTrigger_ao hdue', warmTrigger_host hdue']
    exact ⟨by rw [hlog.boot], hlog.reqs, hlog.pwr⟩
  · refine ⟨doPairAWatchdog s, rfl, ?_⟩
    rw [doPairAWatchdog, if_pos hrun]
    dsimp only
    rw [warmTrigger_ao hdue, warmTrigger_host hdue]
    exact ⟨rfl, rfl, rfl⟩

theorem pairBRow_holds : pairBRow := by
  intro s hrun hdue
  have hrun' : ¬(s.ao.boot.phase != .running) = true := by simp [hrun]
  refine ⟨fun hmiss => ⟨doPairBMismatch s, rfl, ?_⟩, fun hmiss hlists => ⟨doPairBMismatch s, rfl, ?_⟩⟩
  · have hlog := lastingFault_logged 0xFF (unitId 0x11 1) 0x0006 5 0 (logDev_logged 0x0104 1 2 0 0 (.refl s))
    rw [doPairBMismatch, if_neg hrun', if_pos hmiss]
    dsimp only
    rw [warmTrigger_ao (by rw [hlog.boot, hdue])]
    exact ⟨by rw [hlog.boot], hlog.pwr⟩
  · have hlog := logDev_logged 0x0104 1 1 0 0 (.refl s)
    obtain ⟨⟨p, slot⟩, rest, hl⟩ := List.exists_cons_of_ne_nil hlists
    have heq : doPairBMismatch s =
        modStep p slot (fun st => { st with pairBMiss := true }) (logDev 0x0104 1 1 0 0 s) := by
      rw [doPairBMismatch, if_neg hrun', if_neg (by simp [hmiss])]
      dsimp only
      rw [hlog.ctrl, hl]
    rw [heq]
    refine ⟨hlog.boot, hlog.ctrl, hlog.units, fun p' slot' rest' hl' x hx hslot => ?_⟩
    obtain ⟨rfl, rfl⟩ : p = p' ∧ slot = slot' := by simp_all
    exact modStep_marks hx hslot

end Sys2Proof.Claims

namespace Sys2Proof

/-- Settles O22: a departure notice leaves the always-on side alone, so a trigger only makes the warm reset due, and the
resets leave what their definitions say. -/
theorem warmResetAndLockstep : Obligations.WarmResetAndLockstep :=
  ⟨Claims.resetDelayRow_holds, Claims.warmResetRow_holds, Claims.departureSent_holds, Claims.pairARows_holds,
    Claims.pairBRow_holds⟩

end Sys2Proof
end

/-! # Ethernet ports: crossing FIFO faults, links and failed trainings

What stops a port's streams and what sends for its sessions leaves every port and every partition's state alone
(`PortsStay`), so the link of a port is what its own row wrote. -/

section
namespace Sys2Proof.Machine
open State (LoggedTo)
variable {r s t : State}

/-! ## The frame -/

/-- The ports and the states of the partitions are as before. -/
structure PortsStay (s t : State) : Prop where
  ports : t.units.ports = s.units.ports
  st : ∀ p, (partOf t p).st = (partOf s p).st

theorem PortsStay.refl (s : State) : PortsStay s s := ⟨rfl, fun _ => rfl⟩

theorem PortsStay.trans (h : PortsStay r s) (k : PortsStay s t) : PortsStay r t :=
  ⟨k.ports.trans h.ports, fun p => (k.st p).trans (h.st p)⟩

theorem PortsStay.port (h : PortsStay s t) (n : Nat) : portOf t n = portOf s n := by rw [portOf, portOf, h.ports]

theorem State.LoggedTo.portsStay (h : LoggedTo s t) : PortsStay s t := ⟨by rw [h.units], h.st⟩

theorem foldl_portsStay {α : Type} {l : List α} {g : State → α → State}
    (hg : ∀ x a, PortsStay r x → PortsStay r (g x a)) (h : PortsStay r s) : PortsStay r (l.foldl g s) :=
  List.foldlRecOn l g (motive := PortsStay r) h fun x hx a _ => hg x a hx

/-! ### Updates -/

theorem emit_portsStay (o) (h : PortsStay r s) : PortsStay r (emit o s) := h.trans ⟨rfl, fun _ => rfl⟩
theorem modCnt_portsStay (f g) (h : PortsStay r s) : PortsStay r (modCnt f g s) := h.trans ⟨rfl, fun _ => rfl⟩
theorem modPool_portsStay (g) (h : PortsStay r s) : PortsStay r (modPool g s) := h.trans ⟨rfl, fun _ => rfl⟩

theorem logEvent_portsStay (n c a0 a1 a2 a3) (h : PortsStay r s) : PortsStay r (logEvent n c a0 a1 a2 a3 s) :=
  h.trans (logEvent_logged _ _ _ _ _ _ (.refl _)).portsStay

/-- The same change of a port on both sides. -/
theorem modPort_portsStay (n g) (h : PortsStay r s) : PortsStay (modPort n g r) (modPort n g s) :=
  ⟨by simp [h.ports], h.st⟩

theorem modPart_portsStay {p : Pid} {g : Part → Part} (hg : ∀ q, (g q).st = q.st) (h : PortsStay r s) :
    PortsStay r (modPart p g s) := by
  refine h.trans ⟨rfl, fun k => ?_⟩
  by_cases e : k = p
  · rw [e, partOf_modPart, hg]
  · rw [partOf_modPart_ne _ e]

theorem modParts_portsStay {g : Part → Part} (hg : ∀ q, (g q).st = q.st) (h : PortsStay r s) :
    PortsStay r (modParts g s) := h.trans ⟨rfl, fun p => by rw [partOf_modParts, hg]⟩

theorem modStream_portsStay (p i g) (h : PortsStay r s) : PortsStay r (modStream p i g s) :=
  modPart_portsStay (fun _ => rfl) h
theorem modWin_portsStay (p i w g) (h : PortsStay r s) : PortsStay r (modWin p i w g s) := modStream_portsStay _ _ _ h
theorem modTarget_portsStay (p n g) (h : PortsStay r s) : PortsStay r (modTarget p n g s) :=
  modPart_portsStay (fun _ => rfl) h
theorem modSent_portsStay (p n q g) (h : PortsStay r s) : PortsStay r (modSent p n q g s) :=
  modTarget_portsStay _ _ _ h
theorem modBatch_portsStay (p n i g) (h : PortsStay r s) : PortsStay r (modBatch p n i g s) :=
  modPart_portsStay (fun _ => rfl) h

theorem issueDma_portsStay (f k a b n) (h : PortsStay r s) : PortsStay r (issueDma f k a b n s) := by
  unfold issueDma
  dsimp only
  split <;> exact emit_portsStay _ (h.trans ⟨rfl, fun _ => rfl⟩)

/-! ### A stream stops -/

theorem setDesc_portsStay (d) (h : PortsStay r s) : PortsStay r (setDesc d s) := modPool_portsStay _ h
theorem cacheBack_portsStay (c) (h : PortsStay r s) : PortsStay r (cacheBack c s) := modPool_portsStay _ h
theorem poolWake_portsStay (p c) (h : PortsStay r s) : PortsStay r (poolWake p c s) := by
  unfold poolWake
  exact modPool_portsStay _ h

theorem releaseDesc_portsStay (d) (h : PortsStay r s) : PortsStay r (releaseDesc d s) := by
  unfold releaseDesc
  have hc := cacheBack_portsStay d.cls (modPool_portsStay
    (fun q => { q with dcache := q.dcache.filter (fun x => !(x.2.1 == d.cls && x.2.2 == d.index)) })
    (setDesc_portsStay { d with st := 0, gen := (d.gen + 1) % 2 ^ 15, written := [], for_ := none } h))
  split
  · exact poolWake_portsStay _ _ (modPart_portsStay (fun _ => rfl) hc)
  · exact hc

theorem dropBuffer_portsStay (p i w) (h : PortsStay r s) : PortsStay r (dropBuffer p i w s) := by
  unfold dropBuffer
  split
  · refine modWin_portsStay _ _ _ _ ?_
    split
    · exact releaseDesc_portsStay _ h
    · exact h
  · exact h

theorem logGap_portsStay (p i a b) (h : PortsStay r s) : PortsStay r (logGap p i a b s) :=
  logEvent_portsStay _ _ _ _ _ _ h

theorem stopStream_portsStay (p i) (h : PortsStay r s) : PortsStay r (stopStream p i s) := by
  unfold stopStream
  split
  · exact h
  split
  · exact h
  · refine modStream_portsStay _ _ _ (foldl_portsStay (fun x w hx => dropBuffer_portsStay _ _ _ ?_) h)
    split
    · exact hx
    · exact logGap_portsStay _ _ _ _ hx

theorem lastingFence_portsStay (n u f c k l) (h : PortsStay r s) : PortsStay r (lastingFence n u f c k l s) :=
  modParts_portsStay (fun q => by split <;> rfl)
    (h.trans (countFence_logged _ (lastingFault_logged _ _ _ _ _ (.refl _))).portsStay)

/-! ### A session sends -/

theorem sessWrite_portsStay (p x a b) (h : PortsStay r s) : PortsStay r (sessWrite p x a b s) := by
  unfold sessWrite
  split
  · exact h
  split
  · exact issueDma_portsStay _ _ _ _ _ (modCnt_portsStay _ _ h)
  · exact emit_portsStay _ h

theorem sessReady_portsStay (p x q m) (h : PortsStay r s) : PortsStay r (sessReady p x q m s) := by
  unfold sessReady
  split
  · have hw := sessWrite_portsStay p x (x.par.descRing + 64 * (q % max 1 x.par.slots)) m h
    split
    · exact hw
    · exact sessWrite_portsStay _ _ _ _ hw
  · exact emit_portsStay _ h

theorem sessBatch_portsStay (p x b m) (h : PortsStay r s) : PortsStay r (sessBatch p x b m s) :=
  sessReady_portsStay _ _ _ _ (modTarget_portsStay _ _ _ (sessWrite_portsStay _ _ _ _ (sessWrite_portsStay _ _ _ _ h)))

theorem pumpTarget_portsStay (p k) (n : Nat) : ∀ {s}, PortsStay r s → PortsStay r (pumpTarget p k n s) := by
  induction n with
  | zero => exact fun h => h
  | succ n ih =>
    intro s h
    rw [pumpTarget]
    dsimp only
    split
    · exact h
    split
    · exact h
    split
    · split
      · exact h
      · exact emit_portsStay _ (modTarget_portsStay _ _ _ h)
    split
    · split
      · exact h
      · exact ih (modTarget_portsStay _ _ _ (sessBatch_portsStay _ _ _ _ (modSent_portsStay _ _ _ _ h)))
    split
    · exact h
    split
    · exact h
    · exact ih (sessBatch_portsStay _ _ _ _ (modTarget_portsStay _ _ _ (modBatch_portsStay _ _ _ _ h)))

theorem pumpAll_portsStay (p) (h : PortsStay r s) : PortsStay r (pumpAll p s) :=
  foldl_portsStay (fun _ _ => pumpTarget_portsStay _ _ _) h

theorem askCameras_portsStay (n) (h : PortsStay r s) : PortsStay r (askCameras n s) :=
  foldl_portsStay (fun _ _ => emit_portsStay _) h

/-! ## The port's own change -/

/-- A port whose training has completed, and one that is fenced. -/
def Port.trainedUp (x : Port) : Port := { x with link := .up, trainTried := false, training := false }
def Port.fencedOff (x : Port) : Port := { x with link := .fenced, trainTried := false, training := false }

/-- Behind the change of its own link, a port's coming up changes no port. -/
theorem doEthUp_portsStay {n : Nat} (h5 : domOn s 5 = true) (hl : (portOf s n).link = .down)
    (hr : (portOf s n).role ≠ 0) : PortsStay (modPort n Port.trainedUp s) (doEthUp n s) := by
  have hlog (k : Nat) := logEvent_portsStay k 0x0905 (portUnit n) 1 0 0 (.refl (modPort n Port.trainedUp s))
  have hup (k j : Nat) : PortsStay (modPort n Port.trainedUp s) (askCameras n
      (if (portOf s n).trainTried then
        transientFault j (portUnit n) 0x0004 0 (logEvent k 0x0905 (portUnit n) 1 0 0 (modPort n Port.trainedUp s))
      else logEvent k 0x0905 (portUnit n) 1 0 0 (modPort n Port.trainedUp s))) := by
    refine askCameras_portsStay _ ?_
    split
    · exact (hlog k).trans (transientFault_logged _ _ _ _ (.refl _)).portsStay
    · exact hlog k
  rw [doEthUp, if_neg (by simp [h5, hl, hr])]
  dsimp only
  split
  · exact pumpAll_portsStay _ (hup _ _)
  · exact hup _ _

/-- A fenced port is fenced, no other port changes, and no partition is fenced for it. -/
theorem fenceEthPort_portsStay (n c : Nat) (s : State) :
    PortsStay (modPort n Port.fencedOff s) (fenceEthPort n c s) := by
  have hlog (k : Nat) := logEvent_portsStay k 0x0905 (portUnit n) 2 0 0 (modPort_portsStay n Port.fencedOff
    (lastingFence_portsStay (portPart s n) (portUnit n) c 2 0 (portUsers s n) (.refl s)))
  unfold fenceEthPort
  dsimp only
  split
  · exact foldl_portsStay (fun _ _ => stopStream_portsStay _ _) (hlog _)
  · exact hlog _

theorem ethDown_up {n : Nat} (h : (portOf s n).link = .up) :
    LoggedTo (modPort n (fun x => { x with link := .down, training := false }) s) (ethDown n s) := by
  rw [ethDown, if_neg (by simp [h])]
  exact logEvent_logged _ _ _ _ _ _ (.refl _)

theorem link_of_fifoLive {c : Nat} (hc : c < 8) (h : fifoLive s c = true) : (portOf s c).link = .up := by
  simp [fifoLive, hc] at h
  exact h.2

end Sys2Proof.Machine

namespace Sys2Proof.Claims
open Sys2Proof.Machine

theorem ethLinkRows_holds : ethLinkRows := by
  intro n s hn h5
  refine ⟨fun hl hr => ?_, fun hl => ⟨doEthDown n s, rfl, ethDown_up hl⟩, fun hl hr => ?_⟩
  · have hp := doEthUp_portsStay h5 hl hr
    refine ⟨doEthUp n s, rfl, ?_, ?_, fun k hk => ?_, hp.st⟩
    · rw [hp.port, portOf_modPort _ _ hn]; rfl
    · rw [hp.port, portOf_modPort _ _ hn]; rfl
    · rw [hp.port, portOf_modPort_ne _ hk]
  · show Host.Outcome.next (doRetrainTick n s) = _
    rw [doRetrainTick, if_pos (by simp [h5, hl, hr])]

theorem trainingFailRow_holds : trainingFailRow := by
  intro n s hn h5 hl hr
  have hready : ¬(!domOn s 5 || (portOf s n).link != .down || decide ((portOf s n).role = 0)) = true := by
    simp [h5, hl, hr]
  refine ⟨fun ht => ?_, fun ht => ⟨doTrainingFail n s, rfl, ?_⟩⟩
  · show Host.Outcome.next (doTrainingFail n s) = _
    rw [doTrainingFail, if_neg hready, if_neg (by simp [ht])]
  · rw [doTrainingFail, if_neg hready, if_pos ht]
    have hp := fenceEthPort_portsStay n 0x0004 s
    refine ⟨?_, fun k hk => ?_, hp.st⟩
    · rw [hp.port, portOf_modPort _ _ hn]; rfl
    · rw [hp.port, portOf_modPort_ne _ hk]

theorem fifoRow_holds : fifoRow := by
  intro stop c ov s hc hlive
  have hlog := logDev_logged 0x0702 (unitId 0x13 stop) (if ov then 1 else 2) 0 0 (.refl s)
  have hup := link_of_fifoLive hc hlive
  refine ⟨fun hfirst => ⟨doFifoFault stop c ov s, rfl, ?_⟩, fun hagain => ⟨doFifoFault stop c ov s, rfl, ?_⟩⟩
  · rw [doFifoFault, if_neg (by simp [hlive])]
    dsimp only
    rw [hlog.units, if_neg (by simpa using hfirst), fifoRetrain, if_pos hc]
    have hd := ethDown_up (n := c) (s := modMesh (fun m => { m with fifoOnce := m.fifoOnce ++ [c] })
      (logDev 0x0702 (unitId 0x13 stop) (if ov then 1 else 2) 0 0 s)) (by
        show (portOf (logDev _ _ _ _ _ s) c).link = .up
        rw [hlog.portsStay.port, hup])
    refine ⟨?_, ?_⟩
    · rw [modPort_units, hd.units]
      simp
    · rw [portOf_modPort _ _ hc, hd.portsStay.port, portOf_modPort _ _ hc]
      nofun
  · rw [doFifoFault, if_neg (by simp [hlive])]
    dsimp only
    rw [hlog.units, if_pos hagain, fifoFence, if_pos hc, (fenceEthPort_portsStay _ _ _).port, portOf_modPort _ _ hc]
    rfl

end Sys2Proof.Claims

namespace Sys2Proof

/-- Settles O25: what follows the change of a port's link leaves the ports alone (`PortsStay`). -/
theorem fifoAndEthernetLinkFaults : Obligations.FifoAndEthernetLinkFaults :=
  ⟨Claims.fifoRow_holds, Claims.ethLinkRows_holds, Claims.trainingFailRow_holds⟩

end Sys2Proof
end

/-! # Function and host resets: withdrawal and pausing

What a pause sets off without an open request (`Pauses`): it reaches neither the host side nor the always-on side but
the control lists, and no partition runs on that did not run before. -/

section
namespace Sys2Proof.Machine
open State (LoggedTo)
variable {r s t : State}

/-! ## The frame of a pause -/

/-- A partition that admits samples and does not pause. -/
def RunsOn (s : State) (p : Pid) : Prop := (partOf s p).st = .enabled ∧ (partOf s p).sc.pausing = false

/-- The host side, the grants and the always-on side but the control lists are as before, and a partition that runs on
ran on before. -/
structure Pauses (s t : State) : Prop where
  host : t.host = s.host
  ao : { t.ao with ctrl := {} } = { s.ao with ctrl := {} }
  g : ∀ p, (partOf t p).g = (partOf s p).g
  runsOn : ∀ p, RunsOn t p → RunsOn s p

theorem Pauses.refl (s : State) : Pauses s s := ⟨rfl, rfl, fun _ => rfl, fun _ => id⟩

theorem Pauses.trans (h : Pauses r s) (k : Pauses s t) : Pauses r t :=
  ⟨k.host.trans h.host, k.ao.trans h.ao, fun p => (k.g p).trans (h.g p), fun p e => h.runsOn p (k.runsOn p e)⟩

theorem ite_pauses {c : Prop} [Decidable c] {a b : State} (ha : Pauses r a) (hb : Pauses r b) :
    Pauses r (if c then a else b) := by
  split
  · exact ha
  · exact hb

theorem foldl_pauses {α : Type} {l : List α} {g : State → α → State} (hg : ∀ x a, Pauses r x → Pauses r (g x a))
    (h : Pauses r s) : Pauses r (l.foldl g s) :=
  List.foldlRecOn l g (motive := Pauses r) h fun x hx a _ => hg x a hx

/-! ### Updates -/

theorem modUnits_pauses (g) (h : Pauses r s) : Pauses r (modUnits g s) := h.trans ⟨rfl, rfl, fun _ => rfl, fun _ => id⟩
theorem modPool_pauses (g) (h : Pauses r s) : Pauses r (modPool g s) := modUnits_pauses _ h
theorem modDrive_pauses (n g) (h : Pauses r s) : Pauses r (modDrive n g s) := modUnits_pauses _ h
theorem modCtrl_pauses (g) (h : Pauses r s) : Pauses r (modCtrl g s) := h.trans ⟨rfl, rfl, fun _ => rfl, fun _ => id⟩
theorem emit_pauses (o) (h : Pauses r s) : Pauses r (emit o s) := h.trans ⟨rfl, rfl, fun _ => rfl, fun _ => id⟩

/-- A change of a partition that keeps its grants and makes no partition run on. -/
theorem modPart_pauses {p : Pid} {g : Part → Part} (hg : ∀ q, (g q).g = q.g)
    (hr : ∀ q, (g q).st = .enabled → (g q).sc.pausing = false → q.st = .enabled ∧ q.sc.pausing = false)
    (h : Pauses r s) : Pauses r (modPart p g s) := by
  refine h.trans ⟨rfl, rfl, fun k => ?_, fun k e => ?_⟩
  · by_cases hk : k = p
    · rw [hk, partOf_modPart, hg]
    · rw [partOf_modPart_ne _ hk]
  · by_cases hk : k = p
    · subst hk
      rw [RunsOn, partOf_modPart] at e
      exact hr _ e.1 e.2
    · rwa [RunsOn, partOf_modPart_ne _ hk] at e

/-! ### Buffers and reservations -/

theorem setDesc_pauses (d) (h : Pauses r s) : Pauses r (setDesc d s) := modPool_pauses _ h
theorem cacheBack_pauses (c) (h : Pauses r s) : Pauses r (cacheBack c s) := modPool_pauses _ h

theorem poolWake_pauses (p c) (h : Pauses r s) : Pauses r (poolWake p c s) := by
  unfold poolWake
  exact modPool_pauses _ h

theorem dropRequests_pauses (p w) (h : Pauses r s) : Pauses r (dropRequests p w s) := by
  unfold dropRequests
  exact modPool_pauses _ h

theorem unreserve_pauses (p c n) (h : Pauses r s) : Pauses r (unreserve p c n s) :=
  ite_pauses h (poolWake_pauses _ _ (modPart_pauses (fun _ => rfl) (fun _ => And.intro) h))

theorem unreserveAll_pauses (p l) (h : Pauses r s) : Pauses r (unreserveAll p l s) :=
  foldl_pauses (fun _ _ => unreserve_pauses _ _ _) h

theorem releaseDesc_pauses (d) (h : Pauses r s) : Pauses r (releaseDesc d s) := by
  unfold releaseDesc
  have hc := cacheBack_pauses d.cls (modPool_pauses
    (fun q => { q with dcache := q.dcache.filter (fun x => !(x.2.1 == d.cls && x.2.2 == d.index)) })
    (setDesc_pauses { d with st := 0, gen := (d.gen + 1) % 2 ^ 15, written := [], for_ := none } h))
  split
  · exact poolWake_pauses _ _ (modPart_pauses (fun _ => rfl) (fun _ => And.intro) hc)
  · exact hc

theorem releaseWhere_pauses (w) (h : Pauses r s) : Pauses r (releaseWhere w s) :=
  foldl_pauses (fun _ _ => releaseDesc_pauses _) h

/-! ### Work -/

theorem nvmeFence_pauses (n c) (h : Pauses r s) : Pauses r (nvmeFence n c s) :=
  emit_pauses _ (modDrive_pauses _ _ (modDrive_pauses _ _ h))

theorem nvmeFenceWhere_pauses (w) (h : Pauses r s) : Pauses r (nvmeFenceWhere w s) :=
  foldl_pauses (fun _ _ hx => foldl_pauses (fun _ _ => nvmeFence_pauses _ _) (modDrive_pauses _ _ hx)) h

theorem killWork_pauses (p k) (h : Pauses r s) : Pauses r (killWork p k s) := by
  unfold killWork killJobs
  exact modCtrl_pauses _ (modPart_pauses (fun _ => rfl) (fun _ => And.intro)
    (nvmeFenceWhere_pauses _ (modUnits_pauses _ h)))

theorem returnCredits_pauses (p x) (h : Pauses r s) : Pauses r (returnCredits p x s) :=
  modPart_pauses (fun _ => rfl) (fun _ => And.intro) h

theorem withdrawStep_pauses (p x) (h : Pauses r s) : Pauses r (withdrawStep p x s) := by
  unfold withdrawStep
  have hw := killWork_pauses p (some x.slot) h
  refine foldl_pauses (fun _ _ => unreserveAll_pauses _ _) (unreserveAll_pauses _ _ (releaseWhere_pauses _ ?_))
  exact modPart_pauses (fun _ => rfl) (fun _ => And.intro) (ite_pauses hw (returnCredits_pauses _ _ hw))

/-! ### The boundary -/

/-- With no open request there is none to complete. -/
theorem completeOpt_of_no_reqs (i a b c) (h : s.host.reqs = []) : completeOpt i a b c s = s := by
  cases i with
  | none => rfl
  | some i => simp [completeOpt, complete, findReq, h]

theorem completeOpt_pauses (i a b c) (hq : r.host.reqs = []) (h : Pauses r s) : Pauses r (completeOpt i a b c s) := by
  rwa [completeOpt_of_no_reqs _ _ _ _ (by rw [h.host, hq])]

theorem beginTeardown_pauses (p) (hq : r.host.reqs = []) (h : Pauses r s) : Pauses r (beginTeardown p s) := by
  unfold beginTeardown
  exact completeOpt_pauses _ _ _ _ hq (modPart_pauses (fun _ => rfl) (fun _ e => nomatch e)
    (dropRequests_pauses _ _ h))

theorem maybePaused_pauses (p) (hq : r.host.reqs = []) (h : Pauses r s) : Pauses r (maybePaused p s) := by
  unfold maybePaused
  exact ite_pauses (beginTeardown_pauses p hq h) (ite_pauses
    (completeOpt_pauses _ _ _ _ hq (modPart_pauses (fun _ => rfl) (fun _ e => nomatch e) h)) h)

/-- The pause mark of a partition, before its steps are withdrawn. -/
def markPausing (p : Pid) (q : Option ReqId) (s : State) : State :=
  modSched p (fun c => { c with pausing := true, pauseReq := q, asking := false }) s

theorem markPausing_pauses (p q) (h : Pauses r s) : Pauses r (markPausing p q s) :=
  modPart_pauses (fun _ => rfl) (fun _ _ => nofun) h

theorem not_runsOn_markPausing (p q) (s : State) : ¬RunsOn (markPausing p q s) p := by
  rw [RunsOn, markPausing, partOf_modSched]
  exact fun e => nomatch e.2

theorem beginPause_behind (p q) (hq : s.host.reqs = []) : Pauses (markPausing p q s) (beginPause p q s) := by
  unfold beginPause
  dsimp only
  refine maybePaused_pauses p hq ?_
  have hd := dropRequests_pauses p (fun r => r.admission) (.refl (markPausing p q s))
  split
  · exact foldl_pauses (fun _ _ => withdrawStep_pauses _ _) (ite_pauses hd (withdrawStep_pauses _ _ hd))
  · exact hd

theorem flrPause_pauses (p) (hq : r.host.reqs = []) (h : Pauses r s) : Pauses r (flrPause p s) :=
  ite_pauses ((markPausing_pauses p none h).trans (beginPause_behind p none (by rw [h.host, hq]))) h

theorem not_runsOn_flrPause (p) (hq : s.host.reqs = []) : ¬RunsOn (flrPause p s) p := by
  unfold flrPause
  split
  · exact fun e => not_runsOn_markPausing p none s ((beginPause_behind p none hq).runsOn p e)
  case isFalse h => simpa [RunsOn] using h

/-- Every partition pauses. -/
def pauseAll (l : List Pid) (s : State) : State := l.foldl (fun s p => flrPause p s) s

theorem pauseAll_pauses (l) (hq : s.host.reqs = []) : Pauses s (pauseAll l s) :=
  foldl_pauses (fun _ _ => flrPause_pauses _ hq) (.refl s)

theorem not_runsOn_pauseAll {l : List Pid} {p : Pid} (hp : p ∈ l) (hq : s.host.reqs = []) :
    ¬RunsOn (pauseAll l s) p := by
  induction l generalizing s with
  | nil => exact absurd hp List.not_mem_nil
  | cons k l ih =>
    have hq' : (flrPause k s).host.reqs = [] := by rw [(flrPause_pauses k hq (.refl s)).host, hq]
    rcases List.mem_cons.1 hp with rfl | hl
    · exact fun e => not_runsOn_flrPause p hq ((pauseAll_pauses l hq').runsOn p e)
    · exact ih hl hq'

/-- Where no partition is ENABLED there is none to pause. -/
theorem pauseAll_of_none_enabled (l : List Pid) (h : ∀ p, (partOf s p).st ≠ .enabled) : pauseAll l s = s := by
  induction l with
  | nil => rfl
  | cons p l ih =>
    have hp : flrPause p s = s := if_neg (by simp [h p])
    rw [pauseAll, List.foldl_cons, hp]
    exact ih

end Sys2Proof.Machine
end

/-! # Function and host resets: what they leave

Fencing a function's requests takes them and logs (`Discards`); a reset function is blank, and a host reset blanks every
function before the partitions pause. -/

section
namespace Sys2Proof.Machine
open State (LoggedTo)
variable {r s t : State}

/-! ## The frame of a fenced request -/

/-- The link, the always-on side but the fault counters, every function's mailbox and rings, and every partition's
state, grants, image and scheduler are as before; no request appears. -/
structure Discards (s t : State) : Prop where
  ao : t.ao.sansFaults = s.ao.sansFaults
  link : t.host.link = s.host.link
  reqs : t.host.reqs ⊆ s.host.reqs
  mbx : ∀ f, (fnOf t f).mbx = (fnOf s f).mbx
  ring : ∀ f, (fnOf t f).ring = (fnOf s f).ring
  st : ∀ p, (partOf t p).st = (partOf s p).st
  g : ∀ p, (partOf t p).g = (partOf s p).g
  ld : ∀ p, (partOf t p).ld = (partOf s p).ld
  sc : ∀ p, (partOf t p).sc = (partOf s p).sc

theorem Discards.refl (s : State) : Discards s s :=
  ⟨rfl, rfl, fun _ h => h, fun _ => rfl, fun _ => rfl, fun _ => rfl, fun _ => rfl, fun _ => rfl, fun _ => rfl⟩

theorem Discards.trans (h : Discards r s) (k : Discards s t) : Discards r t :=
  ⟨k.ao.trans h.ao, k.link.trans h.link, fun _ e => h.reqs (k.reqs e), fun f => (k.mbx f).trans (h.mbx f),
    fun f => (k.ring f).trans (h.ring f), fun p => (k.st p).trans (h.st p), fun p => (k.g p).trans (h.g p),
    fun p => (k.ld p).trans (h.ld p), fun p => (k.sc p).trans (h.sc p)⟩

theorem State.LoggedTo.discards (h : LoggedTo s t) : Discards s t :=
  ⟨h.ao, h.link, fun _ e => h.reqs ▸ e, h.mbx, h.ring, h.st, h.g, h.ld, h.sc⟩

theorem dropReq_discards (i : ReqId) (s : State) : Discards s (dropReq i s) :=
  { Discards.refl s with reqs := fun _ h => List.mem_of_mem_filter h }

theorem killDma_discards (w : DmaOp → Bool) (s : State) : Discards s (killDma w s) := { Discards.refl s with }

theorem dropRuns_discards (i : ReqId) (s : State) : Discards s (dropRuns i s) :=
  { Discards.refl s with
    st := fun p => by rw [dropRuns, partOf_modParts], g := fun p => by rw [dropRuns, partOf_modParts]
    ld := fun p => by rw [dropRuns, partOf_modParts], sc := fun p => by rw [dropRuns, partOf_modParts] }

theorem modCnt_discards (f : Fn) (g : CntBlock → CntBlock) (s : State) : Discards s (modCnt f g s) := by
  have hf (k : Fn) : (fnOf (modCnt f g s) k).mbx = (fnOf s k).mbx ∧ (fnOf (modCnt f g s) k).ring = (fnOf s k).ring := by
    by_cases e : k = f
    · rw [e, fnOf_modCnt]; exact ⟨rfl, rfl⟩
    · rw [fnOf_modCnt_ne _ e]; exact ⟨rfl, rfl⟩
  exact { Discards.refl s with mbx := fun k => (hf k).1, ring := fun k => (hf k).2 }

theorem fenceReq_discards (s : State) (q : Req) : Discards s (fenceReq s q) :=
  ((((dropReq_discards _ s).trans (killDma_discards _ _)).trans (dropRuns_discards _ _)).trans
    (modCnt_discards _ _ _)).trans (lateDiscard_logged _ _ _ _ (.refl _)).discards

theorem fenceReq_reqs (s : State) (q : Req) :
    (fenceReq s q).host.reqs = s.host.reqs.filter (fun x => !reqMatches q.id x) :=
  (lateDiscard_logged _ _ _ _ (.refl _)).reqs

theorem foldl_fenceReq_discards (l : List Req) (s : State) : Discards s (l.foldl fenceReq s) :=
  List.foldlRecOn l fenceReq (motive := Discards s) (.refl s) fun x hx q _ => hx.trans (fenceReq_discards x q)

theorem foldl_fenceReq_reqs (l : List Req) (s : State) :
    (l.foldl fenceReq s).host.reqs = s.host.reqs.filter (fun x => l.all (fun q => !reqMatches q.id x)) := by
  induction l generalizing s with
  | nil => simp
  | cons q l ih => simp only [List.foldl_cons, ih, fenceReq_reqs, List.filter_filter, List.all_cons, Bool.and_comm]

/-- Requests of one identifier are of one function, so fencing a function's requests takes these and no other. -/
theorem fenceReqs_fn_reqs (f : Fn) (s : State) :
    (fenceReqs (fun q => decide (q.fn = f)) s).host.reqs = s.host.reqs.filter (fun q => q.fn ≠ f) := by
  rw [fenceReqs, foldl_fenceReq_reqs]
  refine List.filter_congr fun x hx => ?_
  rw [Bool.eq_iff_iff]
  simp only [List.all_eq_true, List.mem_filter, decide_eq_true_eq, reqMatches, Bool.not_eq_true',
    decide_eq_false_iff_not]
  constructor
  · exact fun h e => h x ⟨hx, e⟩ rfl
  · exact fun h q hq e => h ((congrArg ReqId.fn e).trans hq.2)

/-! ## A function's reset -/

/-- A reset function is at its reset values and has no request. -/
theorem fnOf_resetFn (f : Fn) (s : State) : fnOf (resetFn f s) f = {} := fnOf_modFn _ _

theorem fnOf_resetFn_ne {f k : Fn} (h : k ≠ f) : fnOf (resetFn f s) k =
    fnOf (fenceReqs (fun q => decide (q.fn = f)) s) k := fnOf_modFn_ne _ h

theorem resetFn_reqs (f : Fn) (s : State) : (resetFn f s).host.reqs = s.host.reqs.filter (fun q => q.fn ≠ f) :=
  fenceReqs_fn_reqs f s

/-- A function whose mailbox and rings are at their reset values. -/
def Blank (s : State) (f : Fn) : Prop := (fnOf s f).mbx = {} ∧ (fnOf s f).ring = {}

/-- What the reset of functions keeps: `Discards` but for the blocks, which become blank and stay so. -/
structure Resets (s t : State) : Prop where
  ao : t.ao.sansFaults = s.ao.sansFaults
  link : t.host.link = s.host.link
  reqs : t.host.reqs ⊆ s.host.reqs
  blank : ∀ f, Blank s f → Blank t f
  st : ∀ p, (partOf t p).st = (partOf s p).st
  g : ∀ p, (partOf t p).g = (partOf s p).g
  ld : ∀ p, (partOf t p).ld = (partOf s p).ld
  sc : ∀ p, (partOf t p).sc = (partOf s p).sc

theorem Discards.resets (h : Discards s t) : Resets s t :=
  { h with blank := fun f e => ⟨(h.mbx f).trans e.1, (h.ring f).trans e.2⟩ }

theorem Resets.refl (s : State) : Resets s s := (Discards.refl s).resets

theorem Resets.trans (h : Resets r s) (k : Resets s t) : Resets r t :=
  ⟨k.ao.trans h.ao, k.link.trans h.link, fun _ e => h.reqs (k.reqs e), fun f e => k.blank f (h.blank f e),
    fun p => (k.st p).trans (h.st p), fun p => (k.g p).trans (h.g p),
    fun p => (k.ld p).trans (h.ld p), fun p => (k.sc p).trans (h.sc p)⟩

theorem resetFn_resets (f : Fn) (s : State) : Resets s (resetFn f s) := by
  have hd := (foldl_fenceReq_discards (s.host.reqs.filter fun q => decide (q.fn = f)) s).trans
    (killDma_discards (fun d => decide (d.fn = f) && (match d.kind with | .p2pWrite _ _ => false | _ => true)) _)
  refine hd.resets.trans ⟨rfl, rfl, fun _ e => e, fun k e => ?_, fun _ => rfl, fun _ => rfl, fun _ => rfl, fun _ => rfl⟩
  by_cases hk : k = f
  · rw [Blank, hk, fnOf_resetFn]; exact ⟨rfl, rfl⟩
  · rw [Blank, fnOf_resetFn_ne hk]; exact e

/-! ## A host reset -/

theorem mem_allFns (f : Fn) : f ∈ allFns := List.mem_finRange f
theorem mem_allPids (p : Pid) : p ∈ allPids := List.mem_finRange p

/-- Every function of a list is reset. -/
def resetFns (l : List Fn) (s : State) : State := l.foldl (fun s f => resetFn f s) s

theorem resetFns_resets (l : List Fn) (s : State) : Resets s (resetFns l s) :=
  List.foldlRecOn l _ (motive := Resets s) (.refl s) fun x hx f _ => hx.trans (resetFn_resets f x)

theorem resetFns_blank {l : List Fn} {f : Fn} (hf : f ∈ l) (s : State) :
    Blank (resetFns l s) f ∧ ∀ q ∈ (resetFns l s).host.reqs, q.fn ≠ f := by
  induction l generalizing s with
  | nil => exact absurd hf List.not_mem_nil
  | cons k l ih =>
    have hl := resetFns_resets l (resetFn k s)
    rcases List.mem_cons.1 hf with rfl | hm
    · refine ⟨hl.blank f (by rw [Blank, fnOf_resetFn]; exact ⟨rfl, rfl⟩), fun q hq => ?_⟩
      have hq' := hl.reqs hq
      rw [resetFn_reqs] at hq'
      simpa using (List.mem_filter.1 hq').2
    · exact ih hm _

/-- The state of a host reset before its partitions pause. -/
def hostCleared (s : State) : State :=
  modHost (fun h => { h with link := { h.link with vfEnable := false, numVfs := 0 } }) (resetFns allFns s)

theorem hostReset_eq (s : State) : hostReset s = pauseAll allPids (hostCleared s) := rfl

theorem hostCleared_reqs (s : State) : (hostCleared s).host.reqs = [] := by
  have h : (resetFns allFns s).host.reqs = [] :=
    List.eq_nil_iff_forall_not_mem.2 fun q hq => (resetFns_blank (mem_allFns q.fn) s).2 q hq rfl
  rw [hostCleared, modHost_host, h]

theorem hostReset_pauses (s : State) : Pauses (hostCleared s) (hostReset s) :=
  pauseAll_pauses _ (hostCleared_reqs s)

theorem hostReset_link (s : State) :
    (hostReset s).host.link = { s.host.link with vfEnable := false, numVfs := 0 } := by
  rw [(hostReset_pauses s).host, ← (resetFns_resets allFns s).link]
  rfl

theorem hostReset_reqs (s : State) : (hostReset s).host.reqs = [] := by
  rw [(hostReset_pauses s).host, hostCleared_reqs]

theorem hostReset_blank (s : State) (f : Fn) : Blank (hostReset s) f := by
  rw [Blank, fnOf, (hostReset_pauses s).host]
  exact (resetFns_blank (mem_allFns f) s).1

theorem hostReset_not_runsOn (s : State) (p : Pid) : ¬RunsOn (hostReset s) p :=
  not_runsOn_pauseAll (mem_allPids p) (hostCleared_reqs s)

theorem hostReset_g (s : State) (p : Pid) : (partOf (hostReset s) p).g = (partOf s p).g := by
  rw [(hostReset_pauses s).g, hostCleared, partOf_modHost, (resetFns_resets allFns s).g]

/-- The always-on side but its control lists and fault counters. -/
def AoSt.sansWork (a : AoSt) : AoSt := { a with ctrl := {}, faults := {} }

theorem AoSt.sansWork_of_sansFaults {a b : AoSt} (h : a.sansFaults = b.sansFaults) : a.sansWork = b.sansWork :=
  congrArg (fun a : AoSt => { a with ctrl := {} }) h

theorem AoSt.sansWork_of_ctrl {a b : AoSt} (h : { a with ctrl := {} } = { b with ctrl := {} }) :
    a.sansWork = b.sansWork :=
  congrArg AoSt.sansFaults h

theorem AoSt.pwr_of_sansWork {a b : AoSt} (h : a.sansWork = b.sansWork) : a.pwr = b.pwr :=
  (congrArg AoSt.pwr h :)
theorem AoSt.fuse_of_sansWork {a b : AoSt} (h : a.sansWork = b.sansWork) : a.fuse = b.fuse :=
  (congrArg AoSt.fuse h :)

theorem hostReset_ao (s : State) : (hostReset s).ao.sansWork = s.ao.sansWork := by
  rw [AoSt.sansWork_of_ctrl (hostReset_pauses s).ao, hostCleared, modHost_ao,
    AoSt.sansWork_of_sansFaults (resetFns_resets allFns s).ao]

/-! ## The pause of a partition without an open step -/

/-- A partition that has come to its boundary pausing. -/
def Part.pausedNow (q : Part) : Part :=
  { q with
    st := .paused
    sc := { q.sc with pausing := false, pauseReq := none, wait := .none, asking := false, next := q.ld.cursor }
    ld := { q.ld with loadedInPause := false, recheck := false } }

theorem partOf_dropRequests (p w) (s : State) (k : Pid) : partOf (dropRequests p w s) k = partOf s k := rfl

theorem beginPause_idle {p : Pid} (hst : (partOf s p).st = .enabled) (hsteps : (partOf s p).sc.steps = [])
    (htd : (partOf s p).sc.teardownAtBoundary = false) : beginPause p none s =
      modPart p Part.pausedNow (dropRequests p (fun r => r.admission) (markPausing p none s)) := by
  have hmark : partOf (dropRequests p (fun r => r.admission) (markPausing p none s)) p =
      { partOf s p with sc := { (partOf s p).sc with pausing := true, pauseReq := none, asking := false } } := by
    rw [partOf_dropRequests, markPausing, partOf_modSched]
  have hpause : beginPause p none s = maybePaused p (dropRequests p (fun r => r.admission) (markPausing p none s)) := by
    unfold beginPause
    dsimp only
    rw [← markPausing, hmark]
    dsimp only
    rw [hsteps]
  rw [hpause, maybePaused, hmark]
  simp [hst, hsteps, htd, completeOpt]
  rfl

/-! ## VF FLR -/

theorem doVfFlr_eq {v : Pid} (hf : fnExists s (fnOfPart v) = true) (hup : s.host.link.up = true) :
    doVfFlr v s = flrPause v (resetFn (fnOfPart v) s) := by
  rw [doVfFlr, if_neg (by simp [hf, hup])]

theorem flrPause_idle {p : Pid} (hst : (partOf s p).st = .enabled) (hp : (partOf s p).sc.pausing = false)
    (hsteps : (partOf s p).sc.steps = []) (htd : (partOf s p).sc.teardownAtBoundary = false) : flrPause p s =
      modPart p Part.pausedNow (dropRequests p (fun r => r.admission) (markPausing p none s)) := by
  rw [flrPause, if_pos (by simp [hst, hp]), beginPause_idle hst hsteps htd]

end Sys2Proof.Machine

namespace Sys2Proof.Claims
open Sys2Proof.Machine

theorem vfFlrRow_holds : vfFlrRow := by
  intro v s hf hup hst
  have hr := resetFn_resets (fnOfPart v) s
  have hblocks := fnOf_resetFn (fnOfPart v) s
  refine ⟨doVfFlr v s, rfl, ?_⟩
  rw [doVfFlr_eq hf hup, flrPause, if_neg (by simp [hr.st, hst])]
  exact ⟨congrArg FnState.mbx hblocks, congrArg FnState.ring hblocks, congrArg FnState.irq hblocks,
    congrArg FnState.cnt hblocks, resetFn_reqs _ s, hr.st v, hr.g v, hr.ld v⟩

theorem vfFlrPauses_holds : vfFlrPauses := by
  intro v s hf hup hsteps hst hp htd
  have hr := resetFn_resets (fnOfPart v) s
  have hblocks := fnOf_resetFn (fnOfPart v) s
  refine ⟨doVfFlr v s, rfl, ?_⟩
  rw [doVfFlr_eq hf hup, flrPause_idle (by rw [hr.st, hst]) (by rw [hr.sc, hp]) (by rw [hr.sc, hsteps])
    (by rw [hr.sc, htd])]
  have hpart := partOf_modPart (s := dropRequests v (fun r => r.admission)
    (markPausing v none (resetFn (fnOfPart v) s))) v Part.pausedNow
  rw [partOf_dropRequests, markPausing, partOf_modSched] at hpart
  beta_reduce
  rw [markPausing, hpart]
  exact ⟨rfl, hr.g v, (congrArg Loaded.image (hr.ld v) :), (congrArg Loaded.seed (hr.ld v) :),
    (congrArg Loaded.cursor (hr.ld v) :), congrArg FnState.ring hblocks⟩

/-- What a host reset leaves, the link's state apart (R70). -/
theorem hostReset_leaves (s : State) :
    (hostReset s).host.link.vfEnable = false ∧ (hostReset s).host.link.numVfs = 0 ∧ (hostReset s).host.reqs = []
    ∧ (∀ f, mbx (hostReset s) f = {} ∧ ring (hostReset s) f = {})
    ∧ (∀ p, (partOf (hostReset s) p).st = .enabled → (partOf (hostReset s) p).sc.pausing = true)
    ∧ (∀ p, (partOf (hostReset s) p).g = (partOf s p).g) ∧ (hostReset s).ao.pwr = s.ao.pwr
    ∧ (hostReset s).ao.fuse = s.ao.fuse := by
  refine ⟨by rw [hostReset_link], by rw [hostReset_link], hostReset_reqs s, hostReset_blank s, fun p hst => ?_,
    hostReset_g s, AoSt.pwr_of_sansWork (hostReset_ao s), AoSt.fuse_of_sansWork (hostReset_ao s)⟩
  exact Bool.eq_true_of_not_eq_false fun hp => hostReset_not_runsOn s p ⟨hst, hp⟩

theorem hostResets_holds : hostResets := by
  intro c s hc hup
  have hkeep : (hostReset s).host.link.up = true := by rw [hostReset_link, hup]
  have hdown : (hostReset (linkDown s)).host.link.up = false := by rw [hostReset_link]; rfl
  rcases hc with rfl | rfl | rfl
  · obtain ⟨hvf, hnum, hrest⟩ := hostReset_leaves s
    exact ⟨doPfFlr s, rfl, by rw [doPfFlr, if_pos hup]; exact ⟨hvf, hnum, nofun, fun _ => hkeep, hrest⟩⟩
  · obtain ⟨hvf, hnum, hrest⟩ := hostReset_leaves s
    exact ⟨doHotReset s, rfl, by rw [doHotReset, if_pos hup]; exact ⟨hvf, hnum, nofun, fun _ => hkeep, hrest⟩⟩
  · obtain ⟨hvf, hnum, hrest⟩ := hostReset_leaves (linkDown s)
    exact ⟨doHostLinkDown s, rfl, by
      rw [doHostLinkDown, if_pos hup]; exact ⟨hvf, hnum, fun _ => hdown, fun h => absurd rfl h, hrest⟩⟩

end Sys2Proof.Claims

namespace Sys2Proof

/-- Settles O15: a reset function is blank and keeps the partitions (`Resets`); with no open request a pause reaches
neither the host side nor the grants (`Pauses`). -/
theorem functionAndHostResets : Obligations.FunctionAndHostResets :=
  ⟨Claims.vfFlrRow_holds, Claims.vfFlrPauses_holds, Claims.hostResets_holds⟩

end Sys2Proof
end

/-! # Clocks: loss and relock

What the loss of a clock sets off leaves the clocks alone (`_clk`); the fences leave no partition ENABLED, and the fall
of each domain leaves it off or fenced. -/

section
namespace Sys2Proof.Machine
open State (LoggedTo)
variable {r s t : State} {D : Set Nat}

/-! ## The clocks under completions, fences and falls -/

theorem foldl_clk {α : Type} {g : State → α → State} (l : List α) (hg : ∀ x a, (g x a).ao.clk = x.ao.clk) :
    (l.foldl g s).ao.clk = s.ao.clk :=
  List.foldlRecOn l g (motive := fun x => x.ao.clk = s.ao.clk) rfl fun x hx a _ => (hg x a).trans hx

@[simp] theorem logEvent_clk (n c a0 a1 a2 a3) (s : State) : (logEvent n c a0 a1 a2 a3 s).ao.clk = s.ao.clk :=
  (logEvent_logged _ _ _ _ _ _ (.refl s)).clk
@[simp] theorem logDev_clk (c a0 a1 a2 a3) (s : State) : (logDev c a0 a1 a2 a3 s).ao.clk = s.ao.clk :=
  (logDev_logged _ _ _ _ _ (.refl s)).clk
@[simp] theorem lateDiscard_clk (n u f k) (s : State) : (lateDiscard n u f k s).ao.clk = s.ao.clk :=
  (lateDiscard_logged _ _ _ _ (.refl s)).clk
@[simp] theorem raiseIrq_clk (f b) (s : State) : (raiseIrq f b s).ao.clk = s.ao.clk :=
  (raiseIrq_logged _ _ (.refl s)).clk
@[simp] theorem countFence_clk (l) (s : State) : (countFence l s).ao.clk = s.ao.clk :=
  (countFence_logged _ (.refl s)).clk

theorem ite_clk {c : Prop} [Decidable c] {a b : State} {k : ClockSt} (ha : a.ao.clk = k) (hb : b.ao.clk = k) :
    (if c then a else b).ao.clk = k := by
  split
  · exact ha
  · exact hb

@[simp] theorem issueDma_clk (f k a b n) (s : State) : (issueDma f k a b n s).ao.clk = s.ao.clk := by
  unfold issueDma; split <;> rfl

@[simp] theorem writeCqe_clk (f c) (s : State) : (writeCqe f c s).ao.clk = s.ao.clk := by simp [writeCqe]

@[simp] theorem fenceAtNext_clk (n c) (s : State) : (fenceAtNext n c s).ao.clk = s.ao.clk := ite_clk rfl rfl

@[simp] theorem postCqe_clk (f c) (s : State) : (postCqe f c s).ao.clk = s.ao.clk :=
  ite_clk rfl (ite_clk (lateDiscard_clk _ _ _ _ _) (ite_clk (writeCqe_clk _ _ _) (ite_clk rfl
    ((fenceAtNext_clk _ _ _).trans (logEvent_clk _ _ _ _ _ _ _)))))

@[simp] theorem postRing_clk (q p c) (s : State) : (postRing q p c s).ao.clk = s.ao.clk :=
  ite_clk (postCqe_clk _ _ _) (ite_clk (postCqe_clk _ _ _) (issueDma_clk _ _ _ _ _ _))

@[simp] theorem postResponse_clk (f a n q o i d) (s : State) :
    (postResponse f a n q o i d s).ao.clk = s.ao.clk :=
  ite_clk (raiseIrq_clk _ _ _) rfl

@[simp] theorem finish_clk (q a) (s : State) : (finish q a s).ao.clk = s.ao.clk := by
  have hq : (if a.pend then modReq q.id (fun q => { q with phase := .pending, payload := a.payload }) s
      else dropReq q.id s).ao.clk = s.ao.clk := ite_clk rfl rfl
  exact ite_clk (ite_clk hq ((postRing_clk _ _ _ _).trans hq)) ((postResponse_clk _ _ _ _ _ _ _ _).trans hq)

@[simp] theorem complete_clk (i a b c l) (s : State) : (complete i a b c l s).ao.clk = s.ao.clk := by
  unfold complete
  split
  · rfl
  · have hq : (if l then dropReq i s else s).ao.clk = s.ao.clk := ite_clk rfl rfl
    exact ite_clk (ite_clk ((postRing_clk _ _ _ _).trans hq) hq) ((postCqe_clk _ _ _).trans hq)

@[simp] theorem completeOpt_clk (i a b c) (s : State) : (completeOpt i a b c s).ao.clk = s.ao.clk := by
  cases i with
  | none => rfl
  | some i => exact complete_clk _ _ _ _ _ s

@[simp] theorem nvmeFence_clk (n c) (s : State) : (nvmeFence n c s).ao.clk = s.ao.clk := rfl

@[simp] theorem nvmeFenceWhere_clk (w) (s : State) : (nvmeFenceWhere w s).ao.clk = s.ao.clk := by
  unfold nvmeFenceWhere
  refine foldl_clk _ fun x n => ?_
  dsimp only
  rw [foldl_clk _ fun _ _ => nvmeFence_clk _ _ _, modDrive_ao]

@[simp] theorem killWork_clk (p k) (s : State) : (killWork p k s).ao.clk = s.ao.clk := by simp [killWork, killJobs]

@[simp] theorem dropRequests_clk (p w) (s : State) : (dropRequests p w s).ao.clk = s.ao.clk := rfl

@[simp] theorem fenceOpen_clk (p) (s : State) : (fenceOpen p s).ao.clk = s.ao.clk :=
  foldl_clk _ fun _ _ => ite_clk (complete_clk _ _ _ _ _ _) (finish_clk _ _ _)

@[simp] theorem beginTeardown_clk (p) (s : State) : (beginTeardown p s).ao.clk = s.ao.clk := by simp [beginTeardown]

@[simp] theorem fencePart_clk (p c) (s : State) : (fencePart p c s).ao.clk = s.ao.clk := by
  unfold fencePart
  dsimp only
  split
  · rfl
  · exact ite_clk (by simp) (by simp)

@[simp] theorem fenceParts_clk (l c) (s : State) : (fenceParts l c s).ao.clk = s.ao.clk :=
  foldl_clk _ fun _ _ => fencePart_clk _ _ _

@[simp] theorem fenceWhere_clk (w c) (s : State) : (fenceWhere w c s).ao.clk = s.ao.clk := fenceParts_clk _ _ s

@[simp] theorem poolOut_clk (c) (s : State) : (poolOut c s).ao.clk = s.ao.clk :=
  ite_clk rfl (fenceWhere_clk _ _ s)

theorem netOff_clk (s : State) : (netOff s).ao.clk = s.ao.clk := by
  unfold netOff
  exact foldl_clk _ fun _ _ => completeOpt_clk _ _ _ _ _

theorem churnOff_clk (s : State) : (churnOff s).ao.clk = s.ao.clk := by
  unfold churnOff
  dsimp only
  rw [modChurn_ao, modParts_ao]
  exact foldl_clk allPids fun _ _ => foldl_clk _ fun _ _ => completeOpt_clk _ _ _ _ _

@[simp] theorem unitsOff_clk (d) (s : State) : (unitsOff d s).ao.clk = s.ao.clk :=
  ite_clk rfl (ite_clk rfl (ite_clk (netOff_clk s) (ite_clk rfl (ite_clk (churnOff_clk s) rfl))))

@[simp] theorem changeDom_clk (d st a) (s : State) : (changeDom d st a s).ao.clk = s.ao.clk :=
  (changeDom_logged d st a s).clk

@[simp] theorem finishDom_clk (d st a b c) (s : State) : (finishDom d st a b c s).ao.clk = s.ao.clk := by
  unfold finishDom
  split
  case h_1 => rfl
  case h_2 o _ =>
    refine ite_clk rfl (ite_clk rfl ?_)
    dsimp only
    cases o.req with
    | some i => exact complete_clk _ _ _ _ _ _
    | none => rfl

@[simp] theorem dropOne_clk (d) (s : State) : (dropOne d s).ao.clk = s.ao.clk := by
  unfold dropOne
  dsimp only
  have hd : (if d = 1 then linkDown (finishDom d .off 0 stFenced 0x0114 (changeDom d .off 0 s))
      else finishDom d .off 0 stFenced 0x0114 (changeDom d .off 0 s)).ao.clk = s.ao.clk :=
    ite_clk (by simp [linkDown]) (by simp)
  rw [unitsOff_clk]
  exact ite_clk (by rw [poolOut_clk, fenceWhere_clk, hd]) (by rw [fenceWhere_clk, hd])

@[simp] theorem dropDom_clk (n d) (s : State) : (dropDom n d s).ao.clk = s.ao.clk := by
  induction n generalizing d s with
  | zero => rfl
  | succ n ih =>
    rw [dropDom_succ]
    split
    · rfl
    · refine (foldl_clk _ fun x e => ?_).trans (dropOne_clk d s)
      unfold dropDependent
      split
      · rfl
      · exact ih e x

/-! ## Domains that have fallen -/

/-- The domain is off or fenced. -/
def IsDown (s : State) (d : Nat) : Prop := domOf s d = .off ∨ domOf s d = .fenced

theorem Loses.isDown {d : Nat} (h : Loses D s t) (hd : IsDown s d) : IsDown t d := by
  rcases h.dom d with e | ⟨-, e⟩
  · rwa [IsDown, e]
  · exact .inl e

theorem dropDom_isDown (n d : Nat) (s : State) : IsDown (dropDom (n + 1) d s) d := by
  rw [dropDom_succ]
  split
  case isTrue h => simpa [IsDown] using h
  case isFalse => exact .inl ((dropDependents_loses n _ _).off (dropOne_off d s))

/-- The domains of a list fall in turn. -/
def dropAll (l : List Nat) (s : State) : State := l.foldl (fun s d => dropDom 8 d s) s

theorem dropAll_loses (l : List Nat) (s : State) : Loses Set.univ s (dropAll l s) :=
  foldl_loses (fun _ d hx => dropDom_loses 8 d hx) (.refl s)

theorem dropAll_isDown {l : List Nat} {d : Nat} (hd : d ∈ l) (s : State) : IsDown (dropAll l s) d := by
  induction l generalizing s with
  | nil => exact absurd hd List.not_mem_nil
  | cons e l ih =>
    rcases List.mem_cons.1 hd with rfl | hl
    · exact (dropAll_loses l _).isDown (dropDom_isDown 7 d s)
    · exact ih hl _

theorem dropAll_clk (l : List Nat) (s : State) : (dropAll l s).ao.clk = s.ao.clk :=
  foldl_clk _ fun _ _ => dropDom_clk _ _ _

/-! ## The loss of a clock -/

/-- The clocks once REFCLK (cause 1) or the lock (cause 2) is lost. -/
def ClockSt.lose (cause : Nat) (c : ClockSt) : ClockSt :=
  { c with lost := cause, pllLocked := false, onInternal := true, stopped := true }

/-- The loss of a clock up to the record of it: the partitions are fenced, and the domains have fallen. -/
def clockFenced (cause : Nat) (s : State) : State :=
  let s := modClk (ClockSt.lose cause) s
  dropAll [7, 6, 5, 4, 3, 2] (fenceParts allPids 0x0103 (countFence (partsWhere s (fun q => q.st == .enabled)) s))

theorem clockFenced_clk (cause : Nat) (s : State) : (clockFenced cause s).ao.clk = s.ao.clk.lose cause := by
  rw [clockFenced, dropAll_clk, fenceParts_clk, countFence_clk, modClk_ao]

theorem clockFenced_st (cause : Nat) (s : State) (p : Pid) : (partOf (clockFenced cause s) p).st ≠ .enabled :=
  fun e => fenceParts_st (mem_allPids p) 0x0103 _ ((dropAll_loses _ _).enabled p e)

theorem clockFenced_isDown (cause : Nat) (s : State) {d : Nat} (h2 : 2 ≤ d) (h8 : d < 8) :
    IsDown (clockFenced cause s) d :=
  dropAll_isDown (by simp; omega) _

/-- What the loss of a clock leaves, the clocks apart. -/
structure OutOfService (s : State) : Prop where
  phase : s.ao.boot.phase = .rom
  service : s.ao.service = true
  st : ∀ p, (partOf s p).st ≠ .enabled
  down : ∀ d, 2 ≤ d → d < 8 → IsDown s d

theorem clockLoss_eq (cause : Nat) (hlost : s.ao.clk.lost = 0) (hlock : s.ao.clk.pllLocked = true) :
    clockLoss cause s = modAo (fun a => { a with service := true })
      (modBoot (fun b => { b with phase := .rom })
        (markRecheck (logDev 0x0103 cause 2 0 0 (clockFenced cause s)))) := by
  rw [clockLoss, if_neg (by simp [hlost, hlock])]
  rfl

theorem partOf_markRecheck_st (s : State) (p : Pid) : (partOf (markRecheck s) p).st = (partOf s p).st := by
  rw [markRecheck, partOf_modParts]
  split <;> rfl

theorem clockLoss_clk (cause : Nat) (hlost : s.ao.clk.lost = 0) (hlock : s.ao.clk.pllLocked = true) :
    (clockLoss cause s).ao.clk = s.ao.clk.lose cause := by
  rw [clockLoss_eq cause hlost hlock, modAo_ao, modBoot_ao, markRecheck, modParts_ao, logDev_clk, clockFenced_clk]

theorem clockLoss_outOfService (cause : Nat) (hlost : s.ao.clk.lost = 0) (hlock : s.ao.clk.pllLocked = true) :
    OutOfService (clockLoss cause s) := by
  rw [clockLoss_eq cause hlost hlock]
  have hst := clockFenced_st cause s
  have hdown := @clockFenced_isDown cause s
  generalize clockFenced cause s = x at hst hdown
  have hlog := logDev_logged 0x0103 cause 2 0 0 (.refl x)
  refine ⟨rfl, rfl, fun p => ?_, fun d h2 h8 => ?_⟩
  · show (partOf (markRecheck _) p).st ≠ _
    rw [partOf_markRecheck_st, hlog.st]
    exact hst p
  · show IsDown (logDev _ _ _ _ _ _) d
    rw [IsDown, hlog.dom]
    exact hdown h2 h8

theorem AoSt.clk_of_sansWork {a b : AoSt} (h : a.sansWork = b.sansWork) : a.clk = b.clk := (congrArg AoSt.clk h :)
theorem AoSt.boot_of_sansWork {a b : AoSt} (h : a.sansWork = b.sansWork) : a.boot = b.boot := (congrArg AoSt.boot h :)
theorem AoSt.service_of_sansWork {a b : AoSt} (h : a.sansWork = b.sansWork) : a.service = b.service :=
  (congrArg AoSt.service h :)

/-- Where no partition is ENABLED a host reset pauses none, so what the loss of a clock left stays. -/
theorem hostReset_outOfService (h : OutOfService s) : OutOfService (hostReset s) := by
  have hao := hostReset_ao s
  have hst (p : Pid) : (partOf (hostCleared s) p).st = (partOf s p).st := by
    rw [hostCleared, partOf_modHost, (resetFns_resets allFns s).st]
  refine ⟨?_, ?_, fun p => ?_, fun d h2 h8 => ?_⟩
  · rw [AoSt.boot_of_sansWork hao, h.phase]
  · rw [AoSt.service_of_sansWork hao, h.service]
  · rw [hostReset_eq, pauseAll_of_none_enabled _ fun p => by rw [hst]; exact h.st p, hst]
    exact h.st p
  · rw [IsDown, domOf, AoSt.pwr_of_sansWork hao]
    exact h.down d h2 h8

/-- The host side follows the loss of REFCLK: the link goes down, and with it the host interface. -/
def hostLoss (s : State) : State := if s.host.link.up then hostReset (linkDown s) else s

theorem hostLoss_outOfService (h : OutOfService s) : OutOfService (hostLoss s) := by
  unfold hostLoss
  split
  · exact hostReset_outOfService ⟨h.phase, h.service, h.st, h.down⟩
  · exact h

theorem hostLoss_clk (s : State) : (hostLoss s).ao.clk = s.ao.clk :=
  ite_clk (AoSt.clk_of_sansWork (hostReset_ao (linkDown s))) rfl

theorem hostLoss_up (s : State) : (hostLoss s).host.link.up = false := by
  unfold hostLoss
  split
  case isTrue => rw [hostReset_link]; rfl
  case isFalse h => exact Bool.eq_false_of_not_eq_true h

theorem doRefclkLost_eq (h : s.ao.clk.refclk = true) :
    doRefclkLost s = hostLoss (clockLoss 1 (modClk (fun c => { c with refclk := false }) s)) :=
  if_neg (by simp [h])

theorem doPllLost_eq (hlost : s.ao.clk.lost = 0) (hlock : s.ao.clk.pllLocked = true) :
    doPllLost s = modClk (fun c => { c with relocking := true }) (clockLoss 2 s) :=
  if_neg (by simp [hlost, hlock])

end Sys2Proof.Machine

namespace Sys2Proof.Claims
open Sys2Proof.Machine

theorem clockLossRows_holds : clockLossRows := by
  intro c s href hlost hlock hc
  rcases hc with rfl | rfl
  · refine ⟨doRefclkLost s, rfl, ?_⟩
    rw [doRefclkLost_eq href]
    have hout := hostLoss_outOfService (clockLoss_outOfService
      (s := modClk (fun c => { c with refclk := false }) s) 1 hlost hlock)
    have hup := hostLoss_up (clockLoss 1 (modClk (fun c => { c with refclk := false }) s))
    have hclk := (hostLoss_clk _).trans
      (clockLoss_clk (s := modClk (fun c => { c with refclk := false }) s) 1 hlost hlock)
    generalize hostLoss _ = t at hout hup hclk
    beta_reduce
    rw [hclk]
    exact ⟨rfl, rfl, rfl, rfl, rfl, (Bool.or_false _).symm, hout.phase, hout.service, hout.st, hout.down, fun _ => hup⟩
  · refine ⟨doPllLost s, rfl, ?_⟩
    rw [doPllLost_eq hlost hlock]
    have hout := clockLoss_outOfService 2 hlost hlock
    have hclk := clockLoss_clk 2 hlost hlock
    generalize clockLoss 2 s = t at hout hclk
    beta_reduce
    rw [modClk_ao, hclk]
    exact ⟨rfl, rfl, rfl, rfl, href, (Bool.or_true _).symm, hout.phase, hout.service, hout.st, hout.down, nofun⟩

theorem refclkReturnRow_holds : refclkReturnRow := by
  intro s href
  show Host.Outcome.next (doRefclkReturn s) = _
  rw [doRefclkReturn, if_neg (by simp [href])]

theorem relockRow_holds : relockRow := by
  intro s hphase hre
  refine ⟨⟨doPllLockDone true s, rfl, ?_⟩, ⟨doPllLockDone false s, rfl, ?_⟩⟩
  · rw [doPllLockDone, if_neg hphase, if_pos hre, if_pos rfl]
    dsimp only
    have hlog := logDev_logged 0x0103 s.ao.clk.lost 1 0 0 (.refl (modClk (fun c =>
      { c with relocking := false, lost := 0, pllLocked := true, onInternal := false, stopped := false }) s))
    generalize logDev _ _ _ _ _ _ = x at hlog
    have hservice := enterService_logged 0x0103 (modBoot (fun b =>
      { b with phase := if b.slot = 0xFF then .rom else .running }) x)
    exact ⟨hservice.clk.trans hlog.clk, hservice.service, hservice.pwr.trans hlog.pwr,
      hservice.units.trans hlog.units⟩
  · rw [doPllLockDone, if_neg hphase, if_pos hre, if_neg nofun]
    exact logDev_logged _ _ _ _ _ (.refl _)

end Sys2Proof.Claims

namespace Sys2Proof

/-- Settles O23: behind the loss of a clock the fences and the falls of the domains leave the clocks alone, no partition
ENABLED and every domain down (`OutOfService`), and the host reset finds no partition to pause. -/
theorem clockLossAndRelock : Obligations.ClockLossAndRelock :=
  ⟨Claims.clockLossRows_holds, Claims.refclkReturnRow_holds, Claims.relockRow_holds⟩

end Sys2Proof
end

/-! # The queue, reset and functions

What a step does with the queue and the invariant (both from `exec_follows`), and the values at reset. -/

section
namespace Sys2Proof.Claims
open Sys2Proof.Machine

/-! ## Steps -/

theorem stepRunsFront_holds : stepRunsFront := fun _ _ _ => rfl

theorem everyCommand_holds : everyCommand := fun c s =>
  have ⟨t, ht, _⟩ := exec_follows c s
  ⟨t, ht⟩

theorem step_of_idle {s : State} (h : s.pending = []) : step s = .next { s with time := s.time + 1 } := by
  rw [step, h]

theorem step_of_front {s : State} {c : Instr} {rest : List Instr} (h : s.pending = c :: rest) :
    step s = exec c { s with pending := rest } := by
  rw [step, h]

theorem stepIdle_holds : stepIdle := fun _ => step_of_idle

/-- The invariant does not speak of time or of the queue, and a command's effect follows its state. -/
theorem stepKeepsInv_holds : stepKeepsInv := by
  intro s t hs ht
  match hq : s.pending with
  | [] =>
    obtain rfl := Host.Outcome.next.inj ((step_of_idle hq).symm.trans ht)
    exact { hs with }
  | c :: rest =>
    obtain ⟨u, hu, hf⟩ := exec_follows c { s with pending := rest }
    obtain rfl := Host.Outcome.next.inj (((step_of_front hq).trans hu).symm.trans ht)
    exact hf.inv { hs with }

/-! ## Reset -/

theorem vec_get_replicate {α : Type} {n : Nat} (a : α) (i : Fin n) : (Vector.replicate n a).get i = a :=
  Vector.getElem_replicate _

/-- Every function is at its reset values. -/
theorem fnOf_reset (f : Fn) : fnOf State.reset f = {} := vec_get_replicate _ _

theorem resetInv_holds : resetInv := by
  refine ⟨⟨Nat.zero_le _, Nat.zero_le _, fun f => ?_, rfl⟩, rfl⟩
  show (fnOf State.reset f).ring.hold.length ≤ 256
  rw [fnOf_reset]
  exact Nat.zero_le _

theorem resetValues_holds : resetValues := by
  refine ⟨fun p => vec_get_replicate _ _, fun f => ?_, fun f => ?_, fun f => ?_, rfl, by decide, rfl, rfl, rfl⟩
  · rw [mbx, fnOf_reset]; exact ⟨rfl, rfl⟩
  · rw [ring, fnOf_reset]; exact ⟨rfl, rfl, rfl, rfl⟩
  · rw [irq, fnOf_reset]; exact ⟨rfl, rfl⟩

/-! ## Functions and partitions (R82) -/

theorem partCheck_pf {f : Fn} {part : Nat} (hf : f.val = 0) :
    partCheck f part = none ↔ part < 64 ∨ part = 0xFF := by
  rw [partCheck, if_pos hf]
  split
  case isTrue hbeyond =>
    have hout : 63 < part ∧ part ≠ 0xFF := by simpa using hbeyond
    exact iff_of_false nofun (by omega)
  case isFalse hin =>
    have hin : ¬(63 < part ∧ part ≠ 0xFF) := by simpa using hin
    exact iff_of_true rfl (by omega)

theorem partCheck_vf {f : Fn} {part : Nat} (hf : f.val ≠ 0) : partCheck f part = none ↔ part = f.val - 1 := by
  by_cases hown : part = f.val - 1
  · have hrange : ¬63 < part ∧ part ≠ 0xFF := by omega
    simp [partCheck, hf, hrange, ← hown]
  · refine iff_of_false ?_ hown
    rw [partCheck, if_neg hf, if_neg hown]
    split_ifs <;> exact nofun

theorem functionPartitions_holds : functionPartitions :=
  ⟨fun _ _ => partCheck_vf, fun _ _ => partCheck_pf, fun _ => rfl⟩

end Sys2Proof.Claims

namespace Sys2Proof

/-- Settles O4: an idle step moves only time, and every other step's effect follows its state, which keeps the
invariant (`exec_follows`). -/
theorem stepKeepsInvariant : Obligations.StepKeepsInvariant := Claims.stepKeepsInv_holds

/-- Settles O1: the step of a queue with a front is the command there. -/
theorem stepRunsFrontCommand : Obligations.StepRunsFrontCommand := Claims.stepRunsFront_holds

/-- Settles O2: every command ends in a next state (`exec_follows`). -/
theorem everyStepGoesOn : Obligations.EveryStepGoesOn := ⟨Claims.everyCommand_holds, Claims.stepIdle_holds⟩

/-- Settles O3: every function and partition is a default at reset. -/
theorem resetStateMeetsInvariant : Obligations.ResetStateMeetsInvariant :=
  ⟨Claims.resetInv_holds, Claims.resetValues_holds⟩

/-- Settles O7: by the branches of check 7 of R107. -/
theorem functionsServePartitions : Obligations.FunctionsServePartitions := Claims.functionPartitions_holds

end Sys2Proof
end

/-! # The host interface: answers

The frames of the host side's operations, one equation for each way an answer or a completion takes, and where an
answer goes. -/

section
namespace Sys2Proof.Machine
open Claims (OtherFns Behind HostOnly entryFor)
variable {s : State} {f : Fn}

/-! ## Frames of the host side -/

theorem modHost_hostOnly (g : HostSt → HostSt) (s : State) : HostOnly s (modHost g s) :=
  ⟨⟨rfl, rfl, rfl, rfl⟩, rfl, rfl, rfl⟩

theorem modFn_otherFns (f : Fn) (g : FnState → FnState) (s : State) : OtherFns f s (modFn f g s) :=
  fun _ h => fnOf_modFn_ne g h

/-- A change of a function's rings is a change of nothing else. -/
theorem modRing_row (f : Fn) (g : RingBlock → RingBlock) (s : State) :
    (fnOf (modRing f g s) f).ring = g (fnOf s f).ring ∧ (fnOf (modRing f g s) f).mbx = (fnOf s f).mbx
    ∧ (fnOf (modRing f g s) f).irq = (fnOf s f).irq ∧ OtherFns f s (modRing f g s)
    ∧ (modRing f g s).host.reqs = s.host.reqs ∧ HostOnly s (modRing f g s) := by
  rw [fnOf_modRing]
  exact ⟨rfl, rfl, rfl, modFn_otherFns _ _ _, rfl, modHost_hostOnly _ _⟩

/-! ## Issuing host DMA -/

theorem issueDma_host (f : Fn) (k : DmaKind) (addr : Nat) (bytes : List Byte) (len : Nat) (s : State) :
    (issueDma f k addr bytes len s).host =
      { s.host with dma := s.host.dma ++ [⟨s.host.nextTag, f, k, addr, bytes, len, false, false⟩],
                    nextTag := s.host.nextTag + 1 } := by
  cases k <;> rfl

@[simp] theorem fnOf_issueDma (f : Fn) (k : DmaKind) (addr : Nat) (bytes : List Byte) (len : Nat) (s : State) (g : Fn) :
    fnOf (issueDma f k addr bytes len s) g = fnOf s g :=
  congrArg (fun h => h.fns.get g) (issueDma_host f k addr bytes len s)

theorem issueDma_behind (f : Fn) (k : DmaKind) (addr : Nat) (bytes : List Byte) (len : Nat) (s : State) :
    Behind s (issueDma f k addr bytes len s) := by
  cases k <;> exact ⟨rfl, rfl, rfl, rfl⟩

theorem issueDma_read_out {k : DmaKind} (h : isRead k = true) (f : Fn) (addr : Nat) (bytes : List Byte) (len : Nat)
    (s : State) : (issueDma f k addr bytes len s).out = .hostRead f s.host.nextTag addr len :: s.out := by
  cases k with
  | cmdData _ | bulkIn _ => rfl
  | completion _ | response _ | bulkOut _ | p2pWrite _ _ => exact nomatch h

/-! ## Completions (R98, R100) -/

/-- Before a DEVICE_RESET, a completion for an enabled CQ that holds nothing, has room and can use the link is
written. -/
theorem postCqe_written {c : Cqe} (hreset : s.ao.boot.resetKind = 0) (hcq : (fnOf s f).ring.cqEn = true)
    (hhold : (fnOf s f).ring.hold = []) (hroom : cqFull (fnOf s f).ring = false) (hdma : canDma s f = true) :
    postCqe f c s = writeCqe f c s := by
  simp [postCqe, hreset, hcq, hhold, hroom, hdma]

/-- While the CQ is full a completion is held, as long as the hold queue has room. -/
theorem postCqe_held {c : Cqe} (hreset : s.ao.boot.resetKind = 0) (hcq : (fnOf s f).ring.cqEn = true)
    (hfull : cqFull (fnOf s f).ring = true) (hlen : (fnOf s f).ring.hold.length < 256) :
    postCqe f c s = modRing f (fun r => { r with hold := r.hold ++ [c] }) s := by
  simp [postCqe, hreset, hcq, hfull, hlen]

/-! ## Answers (R85 to R91, R96) -/

theorem findReq_dropReq (i : ReqId) (s : State) : findReq (dropReq i s) i = none := by
  simp [findReq]

/-- An answer without PENDING to a mailbox request is its response, and the request is gone. -/
theorem finish_mailbox {r : Req} {a : Ans} (hring : r.ring = false) (hpend : a.pend = false) :
    finish r a s = postResponse r.fn a r.tag r.seq r.opcode (bit r.flags 0) (a.status != stBusy) (dropReq r.id s) := by
  simp [finish, hring, hpend]

/-- An answer without PENDING or response payload to a ring request is one completion, and the request is gone. -/
theorem finish_ring {r : Req} {a : Ans} (hring : r.ring = true) (hpend : a.pend = false) (haddr : r.rspAddr = 0) :
    finish r a s = postCqe r.fn (entryFor r a) (dropReq r.id s) := by
  simp [finish, postRing, entryFor, hring, hpend, haddr]

/-- A response without an interrupt is a change of its mailbox. -/
theorem postResponse_quiet (f : Fn) (a : Ans) (tag seq op : Nat) (advance : Bool) (s : State) :
    postResponse f a tag seq op false advance s = modMbx f (fun m => { m with
      rspWin := winOf (rspBytes a tag seq op a.pend.toNat)
      state := .response
      nextSeq := if advance then (m.nextSeq + 1) % 2 ^ 32 else m.nextSeq
      stored := if advance then some ⟨op, tag, rspBytes a tag seq op a.pend.toNat⟩ else m.stored }) s := rfl

end Sys2Proof.Machine

namespace Sys2Proof.Claims
open Sys2Proof.Machine

theorem finishMailbox_holds : finishMailbox := by
  intro r a s hring hpend hquiet
  dsimp only
  rw [finish_mailbox hring hpend, hquiet, postResponse_quiet, hpend, Bool.toNat_false]
  refine ⟨?_, ?_, ?_, findReq_dropReq _ _, modFn_otherFns _ _ _, ?_, ?_, rfl, modHost_hostOnly _ _⟩
  · rw [mbx, fnOf_modMbx]
  · rw [mbx, fnOf_modMbx]
  · rw [mbx, fnOf_modMbx, fnOf_dropReq]
    by_cases hbusy : a.status = stBusy <;> simp [hbusy]
  · rw [ring, fnOf_modMbx, fnOf_dropReq]
  · rw [irq, fnOf_modMbx, fnOf_dropReq]

theorem windowHolds_holds : windowHolds := by
  intro a tag seq op flags n hfit _
  have hlen : (rspBytes a tag seq op flags).length ≤ 4096 := by rw [rspBytes_length]; omega
  rw [memRead_winOf, List.take_of_length_le hlen]

theorem finishRing_holds : finishRing := by
  intro r a s hring hpend hreset haddr hcq hhold hroom hdma
  dsimp only
  rw [finish_ring hring hpend haddr, postCqe_written (s := dropReq r.id s) hreset hcq hhold hroom hdma, writeCqe]
  refine ⟨?_, rfl, ?_, ?_, ?_, ?_⟩
  · rw [ring, fnOf_issueDma, fnOf_modRing]; rfl
  · rw [issueDma_host]; rfl
  · rw [findReq, issueDma_host]; exact findReq_dropReq _ _
  · intro g hg
    rw [fnOf_issueDma, fnOf_modRing_ne _ hg]; rfl
  · exact issueDma_behind _ _ _ _ _ _

theorem finishHeld_holds : finishHeld := by
  intro r a s hring hpend hreset haddr hcq hfull hlen
  rw [finish_ring hring hpend haddr, postCqe_held (s := dropReq r.id s) hreset hcq hfull hlen]
  obtain ⟨hrow, -, -, hother, -, hbehind, -, hout, -⟩ :=
    modRing_row r.fn (fun q => { q with hold := q.hold ++ [entryFor r a] }) (dropReq r.id s)
  exact ⟨hrow, hout, hother, hbehind⟩

end Sys2Proof.Claims

namespace Sys2Proof

/-- Settles O9: the answer drops its request, and then is a change of the mailbox, the write of an entry, or one more
held completion. -/
theorem answersReachMailboxOrRing : Obligations.AnswersReachMailboxOrRing :=
  ⟨Claims.finishMailbox_holds, Claims.windowHolds_holds, Claims.finishRing_holds, Claims.finishHeld_holds⟩

end Sys2Proof
end

/-! # The host interface: rings

Doorbells and enables are changes of a function's rings alone; SQ_DISABLE and CQ_DISABLE fence what the ring held; a
descriptor that passes the checks is the last request. -/

section
namespace Sys2Proof.Machine
open Claims (OtherFns)
open State (LoggedTo)
variable {s : State} {f : Fn}

/-! ## Fencing requests by their identifier (R93) -/

/-- Fencing by a test that only looks at the identifier takes the requests of the test and no other. -/
theorem fenceReqs_reqs {w : Req → Bool} (hw : ∀ q x : Req, q.id = x.id → w q = w x) (s : State) :
    (fenceReqs w s).host.reqs = s.host.reqs.filter (fun q => !w q) := by
  rw [fenceReqs, foldl_fenceReq_reqs]
  refine List.filter_congr fun x hx => ?_
  rw [Bool.eq_iff_iff]
  simp only [List.all_eq_true, List.mem_filter, reqMatches, Bool.not_eq_true', decide_eq_false_iff_not]
  constructor
  · exact fun h => Bool.eq_false_iff.2 fun e => h x ⟨hx, e⟩ rfl
  · exact fun h q hq e => Bool.false_ne_true ((h.symm.trans (hw x q e)).trans hq.2)

theorem fenceReqs_discards (w : Req → Bool) (s : State) : Discards s (fenceReqs w s) := foldl_fenceReq_discards _ _

/-! ## Discarding held completions (R93, R100) -/

theorem modCnt_modCnt (f : Fn) (g k : CntBlock → CntBlock) :
    modCnt f k (modCnt f g s) = modCnt f (fun c => k (g c)) s := modFn_modFn _ _ _

theorem modCnt_id (f : Fn) : modCnt f (fun c => c) s = s := by
  have hfns : vmod s.host.fns f (fun x => x) = s.host.fns := by simp [vmod, vec_get]
  show { s with host := { s.host with fns := vmod s.host.fns f (fun x => x) } } = s
  rw [hfns]

/-- Disabling a CQ discards what it held, and otherwise only counts and logs. -/
theorem disableCq_logged (f : Fn) (s : State) : ∃ g, LoggedTo
    (modCnt f g (modRing f (fun r => { r with cqEn := false, hold := [], stall := false }) s)) (disableCq f s) := by
  rw [disableCq]
  dsimp only
  generalize modRing _ _ s = u
  have hstart : LoggedTo (modCnt f (fun c => c) u) u := by rw [modCnt_id]; exact .refl u
  refine List.foldlRecOn (motive := fun x => ∃ g, LoggedTo (modCnt f g u) x) _ _ ⟨_, hstart⟩
    fun x ⟨g, hx⟩ c _ => ?_
  have hcount := hx.modCnt f fun k => { k with late := satAdd 32 k.late 1 }
  rw [modCnt_modCnt] at hcount
  exact ⟨_, lateDiscard_logged _ _ _ _ hcount⟩

/-! ## Interrupt status (R105) -/

theorem sendMsix_status (f : Fn) (v : Fin 3) (s : State) :
    (fnOf (sendMsix f v s) f).irq.status = (fnOf s f).irq.status := by
  rw [sendMsix]
  split
  · rfl
  · split
    · rw [fnOf_modIrq]
    · rfl

/-- Raising an interrupt sets its status bit, whether or not a message goes. -/
theorem raiseIrq_status (f : Fn) (b : Fin 4) (s : State) :
    (fnOf (raiseIrq f b s) f).irq.status.getLsbD b.val = true := by
  have hset (q : BitVec 4) : (q ||| BitVec.twoPow 4 b.val).getLsbD b.val = true := by simp
  rw [raiseIrq]
  dsimp only
  split
  · assumption
  · split
    · rw [fnOf_modIrq]; exact hset _
    · rw [sendMsix_status, fnOf_modIrq]; exact hset _

/-! ## Descriptors (R95, R97, R101) -/

/-- The state after a descriptor left the SQ: head and consumption count advance, and the submission is counted. -/
def shiftSq (f : Fn) (s : State) : State :=
  modCnt f (fun k => { k with sq := satAdd 64 k.sq 1 })
    (modRing f (fun r => { r with sqHead := (r.sqHead + 1) % ringEntries r.sqSize,
                                  consumed := (r.consumed + 1) % 2 ^ 32 }) s)

theorem shiftSq_row (f : Fn) (s : State) :
    (fnOf (shiftSq f s) f).ring = { (fnOf s f).ring with
      sqHead := ((fnOf s f).ring.sqHead + 1) % ringEntries (fnOf s f).ring.sqSize,
      consumed := ((fnOf s f).ring.consumed + 1) % 2 ^ 32 }
    ∧ (fnOf (shiftSq f s) f).mbx = (fnOf s f).mbx ∧ (fnOf (shiftSq f s) f).irq = (fnOf s f).irq
    ∧ OtherFns f s (shiftSq f s) := by
  rw [shiftSq, fnOf_modCnt, fnOf_modRing]
  exact ⟨rfl, rfl, rfl, fun g hg => by rw [fnOf_modCnt_ne _ hg, fnOf_modRing_ne _ hg]⟩

theorem doDescriptorConsume_got {b : List Byte} (hdma : canDma s f = true) (hsq : (fnOf s f).ring.sqEn = true)
    (hnew : (fnOf s f).ring.sqHead ≠ (fnOf s f).ring.sqTail) (hopen : openSubs s f < 64) :
    doDescriptorConsume f (.got b) s = takeDescriptor f (fnOf s f).ring.consumed b (shiftSq f s) := by
  simp [doDescriptorConsume, shiftSq, hdma, hsq, hnew, hopen]

theorem doDescriptorConsume_limit (h : 64 ≤ openSubs s f) (x : FetchResult) : doDescriptorConsume f x s = s := by
  simp [doDescriptorConsume, h]

/-- The request of a descriptor without command data (Table MBX-9). -/
def plainSubmission (f : Fn) (seq : Nat) (b : List Byte) : Req :=
  { fn := f, ring := true, seq := seq, tag := field b 4 4, opcode := field b 0 2, part := field b 0x14 1,
    flags := field b 2 2, dataAddr := 0, dataLen := 0, rspAddr := field b 0x20 8, phase := .ready }

/-- A descriptor that passes every check, has no command data and waits for nothing is the last request. -/
theorem takeDescriptor_ready {seq : Nat} {b : List Byte} (hmin : s.ao.fw.verMin ≤ field b 0x15 1)
    (hmax : field b 0x15 1 ≤ s.ao.fw.verMax) (hflags : field b 2 2 ≤ 1) (hres1 : zeroAt b 0x16 2 = true)
    (hres2 : zeroAt b 0x1C 4 = true) (hres3 : zeroAt b 0x2C 20 = true) (hseq : field b 0x18 4 = seq)
    (hlen : field b 0x10 4 = 0) (haddr : field b 8 8 = 0) (hrsp : field b 0x20 8 % 64 = 0)
    (hcheck : headerChecks s f true (field b 0 2) 0 (field b 0x14 1) (field b 0x28 4) = none) :
    takeDescriptor f seq b s = modHost (fun g => { g with reqs := g.reqs ++ [plainSubmission f seq b] }) s := by
  have hver : (decide (field b 0x15 1 < s.ao.fw.verMin) || decide (s.ao.fw.verMax < field b 0x15 1)) = false := by
    simp [hmin, hmax]
  have hfl : ¬3 < field b 2 2 := by omega
  have hfree : bit (field b 2 2) 1 = false := Nat.testBit_lt_two_pow (by omega)
  simp [takeDescriptor, hver, hfl, hfree, hres1, hres2, hres3, hseq, hlen, haddr, hrsp, hcheck, startReq,
    plainSubmission]

end Sys2Proof.Machine

namespace Sys2Proof.Claims
open Sys2Proof.Machine

/-! ## Doorbells -/

theorem sqDoorbellRow_holds : sqDoorbellRow := by
  intro f v s hreach hlt
  refine ⟨_, rfl, ?_⟩
  rw [doSqDoorbell, hreach, Bool.not_true, if_neg nofun, if_neg (Nat.not_le.2 hlt)]
  exact modRing_row _ _ _

theorem sqDoorbellBeyond_holds : sqDoorbellBeyond := by
  intro f v s hreach hge
  refine ⟨_, rfl, ?_⟩
  rw [doSqDoorbell, hreach, Bool.not_true, if_neg nofun, if_pos hge]
  exact violation_logged _ _ _

theorem cqHeadRow_holds : cqHeadRow := by
  intro f v s hreach hcq hhold
  refine ⟨_, rfl, ?_⟩
  have hdrain : doCqHead f v.toNat s = modRing f (fun r => { r with cqHead := v.toNat % 4096, stall := false }) s := by
    simp [doCqHead, drainHold, hreach, hcq, hhold, modRing_modRing]
  rw [hdrain]
  exact modRing_row _ _ _

/-! ## Enables -/

theorem sqEnableRow_holds : sqEnableRow := by
  intro f s hreach hoff hsize
  refine ⟨_, rfl, ?_⟩
  have hdo : doSqEnable f s =
      modRing f (fun r => { r with sqEn := true, sqHead := 0, sqTail := 0, consumed := 0 }) s := by
    simp [doSqEnable, hreach, hoff, Nat.not_lt.2 hsize]
  rw [hdo]
  exact modRing_row _ _ _

theorem cqEnableRow_holds : cqEnableRow := by
  intro f s hreach hoff hsize
  refine ⟨_, rfl, ?_⟩
  have hdo : doCqEnable f s =
      modRing f (fun r => { r with cqEn := true, cqHead := 0, cqTail := 0, phase := true }) s := by
    simp [doCqEnable, hreach, hoff, Nat.not_lt.2 hsize]
  rw [hdo]
  exact modRing_row _ _ _

theorem enableTooLarge_holds : enableTooLarge := by
  intro f s hreach
  refine ⟨fun hoff hsize => ⟨_, rfl, ?_⟩, fun hoff hsize => ⟨_, rfl, ?_⟩⟩
  · have hdo : doSqEnable f s = violation f 0 0 s := by simp [doSqEnable, hreach, hoff, hsize]
    exact hdo ▸ violation_logged _ _ _
  · have hdo : doCqEnable f s = violation f 0 0 s := by simp [doCqEnable, hreach, hoff, hsize]
    exact hdo ▸ violation_logged _ _ _

/-! ## Disables and the stall -/

theorem sqDisableRow_holds : sqDisableRow := by
  intro f s hreach hon
  refine ⟨_, rfl, ?_⟩
  rw [doSqDisable, hreach, hon, if_neg nofun]
  obtain ⟨hring, hmbx, -⟩ := modRing_row f (fun r => { r with sqEn := false }) s
  have hfence := fenceReqs_discards (fun q => decide (q.fn = f) && q.ring)
    (modRing f (fun r => { r with sqEn := false }) s)
  refine ⟨(hfence.ring f).trans hring, fenceReqs_reqs (fun q x e => ?_) _, (hfence.mbx f).trans hmbx⟩
  rw [show q.fn = x.fn from congrArg ReqId.fn e, show q.ring = x.ring from congrArg ReqId.ring e]

theorem cqDisableRow_holds : cqDisableRow := by
  intro f s hreach hon
  refine ⟨_, rfl, ?_⟩
  rw [doCqDisable, hreach, hon, if_neg nofun]
  obtain ⟨g, h⟩ := disableCq_logged f s
  refine ⟨?_, ?_, h.reqs, h.units, h.part⟩
  · rw [ring, h.ring, fnOf_modCnt, fnOf_modRing]
  · rw [mbx, h.mbx, fnOf_modCnt, fnOf_modRing]

theorem cqFullTimeoutRow_holds : cqFullTimeoutRow := by
  intro f s hcq hstall hfull
  refine ⟨_, rfl, ?_⟩
  have hlog := guaranteeLapse_logged (fnPart f) 1
    (logEvent_logged (fnPart f) 0x0105 f.val (ring s f).hold.length 0 0 (.refl s))
  rw [doCqFullTimeout, hcq, hstall, hfull, if_neg nofun]
  exact ⟨raiseIrq_logged _ _ (hlog.modRing f _), raiseIrq_status _ _ _⟩

/-! ## Descriptors -/

theorem descriptorConsumeRow_holds : descriptorConsumeRow := by
  intro f s b hdma hsq hnew hopen hmin hmax hflags hres1 hres2 hres3 hseq hlen haddr hrsp hcheck
  refine ⟨_, rfl, ?_⟩
  obtain ⟨hring, hmbx, hirq, hother⟩ := shiftSq_row f s
  rw [doDescriptorConsume_got hdma hsq hnew hopen,
    takeDescriptor_ready (s := shiftSq f s) hmin hmax hflags hres1 hres2 hres3 hseq hlen haddr hrsp hcheck]
  exact ⟨hring, rfl, hmbx, hirq, hother, modHost_hostOnly _ _⟩

theorem descriptorLimit_holds : descriptorLimit := fun _ _ x h =>
  congrArg Host.Outcome.next (doDescriptorConsume_limit h x)

end Sys2Proof.Claims

namespace Sys2Proof

/-- Settles O10: doorbells and enables change the rings of their function (`modRing_row`), or count a violation; a
disable fences by identifier (`fenceReqs_reqs`) or discards what was held (`disableCq_logged`); a stall logs and raises
its status bit. -/
theorem ringRegistersAndStalls : Obligations.RingRegistersAndStalls :=
  ⟨Claims.sqDoorbellRow_holds, Claims.sqDoorbellBeyond_holds, Claims.cqHeadRow_holds, Claims.sqEnableRow_holds,
    Claims.cqEnableRow_holds, Claims.enableTooLarge_holds, Claims.sqDisableRow_holds, Claims.cqDisableRow_holds,
    Claims.cqFullTimeoutRow_holds⟩

/-- Settles O11: a descriptor without command data that passes the checks joins the queue (`takeDescriptor_ready`). -/
theorem descriptorConsumption : Obligations.DescriptorConsumption :=
  ⟨Claims.descriptorConsumeRow_holds, Claims.descriptorLimit_holds⟩

end Sys2Proof
end

/-! # The host interface: the ends of host DMA

A completion takes its tag out of the outstanding DMA; what follows is an effect of the data, one posted entry, the
one retry, or a late discard. -/

section
namespace Sys2Proof.Machine
open Claims (OtherFns Behind)
open State (LoggedTo)
variable {s : State} {d : DmaOp} {tag : Nat}

/-! ## Tags -/

/-- The state after a tag was taken out of the outstanding DMA. -/
def takeTag (tag : Nat) (s : State) : State :=
  modHost (fun h => { h with dma := h.dma.filter (fun x => x.tag != tag) }) s

/-- Every tag in use was given out before the next one. -/
def TagsBelow (s : State) : Prop := ∀ x ∈ s.host.dma, x.tag < s.host.nextTag

theorem tagsBelow_iff : s.host.dma.all (fun x => decide (x.tag < s.host.nextTag)) = true ↔ TagsBelow s := by
  simp [TagsBelow]

theorem TagsBelow.takeTag (h : TagsBelow s) (tag : Nat) : TagsBelow (takeTag tag s) :=
  fun x hx => h x (List.mem_of_mem_filter hx)

theorem TagsBelow.killDma (h : TagsBelow s) (w : DmaOp → Bool) : TagsBelow (killDma w s) := by
  intro x hx
  obtain ⟨y, hy, rfl⟩ := List.mem_map.1 hx
  have hlt := h y hy
  split <;> exact hlt

/-! ## The rows of HOST_DMA_COMPLETE and HOST_COMPLETION_TIMEOUT -/

theorem doDmaComplete_ok (hfind : s.host.dma.find? (fun x => x.tag == tag) = some d) (hlive : d.dead = false)
    (hfirst : d.retried = false) (bs : List Byte) : doDmaComplete tag (.ok bs) s = dmaOk d bs (takeTag tag s) := by
  simp [doDmaComplete, takeTag, dmaTransient, hfind, hlive, hfirst]

theorem doDmaComplete_error (hfind : s.host.dma.find? (fun x => x.tag == tag) = some d) (hlive : d.dead = false)
    (hfirst : d.retried = false) : doDmaComplete tag .error s = reissueDma d (takeTag tag s) := by
  simp [doDmaComplete, takeTag, dmaError, hfind, hlive, hfirst]

theorem doDmaComplete_dead (hfind : s.host.dma.find? (fun x => x.tag == tag) = some d) (hdead : d.dead = true)
    (res : DmaResult) : doDmaComplete tag res s = lateDiscard (fnPart d.fn) (fnUnit d.fn) 4 tag
      (modCnt d.fn (fun k => { k with late := satAdd 32 k.late 1 }) (takeTag tag s)) := by
  simp [doDmaComplete, takeTag, hfind, hdead]

theorem doCompletionTimeout_first (hfind : s.host.dma.find? (fun x => x.tag == tag) = some d) (hlive : d.dead = false)
    (hfirst : d.retried = false) (hread : isRead d.kind = true) :
    doCompletionTimeout tag s = reissueDma d (killDma (fun x => x.tag == tag) s) := by
  simp [doCompletionTimeout, dmaError, hfind, hlive, hfirst, hread]

/-- Command data that a request waits for make it ready. -/
theorem dmaOk_data {i : ReqId} {q : Req} (hkind : d.kind = .cmdData i) (hreq : findReq s i = some q)
    (hphase : q.phase = .fetching) (bs : List Byte) :
    dmaOk d bs s = dataHere i (fun q => { q with payload := padTo d.len bs }) s := by
  simp [dmaOk, hkind, hreq, hphase]

/-! ## The retry (R101, R473) -/

theorem modFirst_append_of_none {α : Type} {w : α → Bool} (g : α → α) {l : List α} {x : α}
    (hl : ∀ y ∈ l, w y = false) (hx : w x = true) : modFirst w g (l ++ [x]) = l ++ [g x] := by
  induction l with
  | nil => simp [modFirst, hx]
  | cons y l ih =>
    simp only [List.cons_append, modFirst, hl y (by simp), ih fun z hz => hl z (List.mem_cons_of_mem _ hz)]
    simp

/-- The retry is the last of the outstanding DMA, under the next tag, and is counted. -/
theorem reissueDma_host (h : TagsBelow s) : (reissueDma d s).host =
    { s.host with
      fns := vmod s.host.fns d.fn (fun x => { x with cnt := { x.cnt with dmaRetries := satAdd 32 x.cnt.dmaRetries 1 } })
      dma := s.host.dma ++ [{ d with tag := s.host.nextTag, retried := true, dead := false }]
      nextTag := s.host.nextTag + 1 } := by
  have hlast (x : DmaOp) (hx : x.tag = s.host.nextTag) :
      modFirst (fun x => x.tag == s.host.nextTag) (fun x => { x with retried := true }) (s.host.dma ++ [x]) =
        s.host.dma ++ [{ x with retried := true }] :=
    modFirst_append_of_none _ (fun y hy => by simpa using (h y hy).ne) (by simpa using hx)
  simp only [reissueDma, modHost_host, issueDma_host, modCnt_host]
  rw [hlast _ rfl]

theorem reissueDma_behind (d : DmaOp) (s : State) : Behind s (reissueDma d s) :=
  issueDma_behind _ _ _ _ _ (modCnt _ _ s)

theorem reissueDma_fn (h : TagsBelow s) : (fnOf (reissueDma d s) d.fn).cnt =
      { (fnOf s d.fn).cnt with dmaRetries := satAdd 32 (fnOf s d.fn).cnt.dmaRetries 1 }
    ∧ OtherFns d.fn s (reissueDma d s) := by
  have hfns (k : Fn) : fnOf (reissueDma d s) k = fnOf (modCnt d.fn
      (fun k => { k with dmaRetries := satAdd 32 k.dmaRetries 1 }) s) k := by
    rw [fnOf, reissueDma_host h]; rfl
  refine ⟨?_, fun k hk => ?_⟩
  · rw [hfns, fnOf_modCnt]
  · rw [hfns, fnOf_modCnt_ne _ hk]

/-! ## A posted entry (R105) -/

/-- A message changes nothing behind the host interface and nothing of another function. -/
theorem sendMsix_frame (f : Fn) (v : Fin 3) (s : State) :
    Behind s (sendMsix f v s) ∧ OtherFns f s (sendMsix f v s) := by
  rw [sendMsix]
  split
  · exact ⟨⟨rfl, rfl, rfl, rfl⟩, fun _ _ => rfl⟩
  · split
    · exact ⟨⟨rfl, rfl, rfl, rfl⟩, fun _ h => fnOf_modIrq_ne _ h⟩
    · exact ⟨⟨rfl, rfl, rfl, rfl⟩, fun _ _ => rfl⟩

/-- The state after CQ_POSTED was set and n entries wait for their signal. -/
def markPosted (f : Fn) (n : Nat) (s : State) : State :=
  modIrq f (fun q => { q with status := q.status ||| 2#4, unsignalled := n }) s

/-- An entry that asks for its interrupt sets CQ_POSTED; then vector 1 may go. -/
theorem cqPosted_of_irq {c : Cqe} (h : c.irq = true) (f : Fn) (s : State) :
    ∃ n, cqPosted f c s = markPosted f n s ∨ cqPosted f c s = sendMsix f 1 (markPosted f n s) := by
  simp only [cqPosted, h, Bool.true_or, if_true, modIrq_modIrq]
  exact ⟨_, (ite_eq_or_eq _ _ _).symm⟩

theorem cqPosted_row {c : Cqe} (h : c.irq = true) (f : Fn) (s : State) :
    (fnOf (cqPosted f c s) f).irq.status = (fnOf s f).irq.status ||| 2#4
    ∧ OtherFns f s (cqPosted f c s) ∧ Behind s (cqPosted f c s) ∧ LoggedTo s (cqPosted f c s) := by
  obtain ⟨n, e | e⟩ := cqPosted_of_irq h f s
  · rw [e, markPosted, fnOf_modIrq]
    exact ⟨rfl, fun _ hk => fnOf_modIrq_ne _ hk, ⟨rfl, rfl, rfl, rfl⟩, modIrq_logged _ _ (.refl s)⟩
  · have ⟨hbehind, hother⟩ := sendMsix_frame f 1 (markPosted f n s)
    rw [e, sendMsix_status, markPosted, fnOf_modIrq]
    exact ⟨rfl, fun k hk => (hother k hk).trans (fnOf_modIrq_ne _ hk), hbehind,
      sendMsix_logged _ _ (modIrq_logged _ _ (.refl s))⟩

end Sys2Proof.Machine

namespace Sys2Proof.Claims
open Sys2Proof.Machine

theorem hostDmaData_holds : hostDmaData := by
  intro tag s d i q bs hfind hlive hfirst hkind hreq hphase
  refine ⟨_, rfl, ?_⟩
  rw [doDmaComplete_ok hfind hlive hfirst, dmaOk_data (s := takeTag tag s) hkind hreq hphase]
  exact ⟨rfl, rfl, rfl, modHost_hostOnly _ _⟩

theorem hostDmaPosted_holds : hostDmaPosted := by
  intro tag s d c hfind hlive hfirst hkind hirq
  refine ⟨_, rfl, ?_⟩
  rw [doDmaComplete_ok hfind hlive hfirst, dmaOk, hkind]
  dsimp only
  have hcount := fnOf_modCnt (s := takeTag tag s) d.fn (fun k => { k with cq := satAdd 64 k.cq 1 })
  have hothers : OtherFns d.fn s (modCnt d.fn (fun k => { k with cq := satAdd 64 k.cq 1 }) (takeTag tag s)) :=
    modFn_otherFns _ _ (takeTag tag s)
  obtain ⟨hstatus, hother, hbehind, hlog⟩ :=
    cqPosted_row hirq d.fn (modCnt d.fn (fun k => { k with cq := satAdd 64 k.cq 1 }) (takeTag tag s))
  refine ⟨?_, ?_, ?_, ?_, fun k hk => (hother k hk).trans (hothers k hk), hlog.reqs, hlog.dma, hbehind⟩
  · rw [hlog.fcnt, hcount]; rfl
  · rw [irq, hstatus, hcount]; rfl
  · rw [mbx, hlog.mbx, hcount]; rfl
  · rw [ring, hlog.ring, hcount]; rfl

theorem hostDmaRetry_holds : hostDmaRetry := by
  intro tag s d hfind hlive hfirst htags
  refine ⟨_, rfl, ?_⟩
  have hbelow := (tagsBelow_iff.1 htags).takeTag tag
  obtain ⟨hcnt, hother⟩ := reissueDma_fn (d := d) hbelow
  have hhost := reissueDma_host (d := d) hbelow
  rw [doDmaComplete_error hfind hlive hfirst]
  exact ⟨congrArg HostSt.dma hhost, congrArg HostSt.nextTag hhost, hcnt, (congrArg HostSt.reqs hhost :), hother,
    reissueDma_behind d (takeTag tag s)⟩

theorem hostDmaDead_holds : hostDmaDead := by
  intro tag s d res hfind hdead
  refine ⟨_, rfl, ?_⟩
  rw [doDmaComplete_dead hfind hdead]
  have hlog := lateDiscard_logged (fnPart d.fn) (fnUnit d.fn) 4 tag
    (.refl (modCnt d.fn (fun k => { k with late := satAdd 32 k.late 1 }) (takeTag tag s)))
  refine ⟨hlog.dma, hlog.reqs, ?_, ?_, ?_, hlog.units⟩
  · rw [hlog.fcnt, fnOf_modCnt]; rfl
  · rw [mbx, hlog.mbx, fnOf_modCnt]; rfl
  · rw [ring, hlog.ring, fnOf_modCnt]; rfl

theorem completionTimeoutRow_holds : completionTimeoutRow := by
  intro tag s d hfind hlive hfirst hread htags
  refine ⟨_, rfl, ?_⟩
  have hbelow := (tagsBelow_iff.1 htags).killDma (fun x => x.tag == tag)
  have hhost := reissueDma_host (d := d) hbelow
  rw [doCompletionTimeout_first hfind hlive hfirst hread]
  exact ⟨congrArg HostSt.dma hhost, issueDma_read_out hread _ _ _ _ (modCnt _ _ (killDma _ s)),
    (congrArg HostSt.reqs hhost :), reissueDma_behind d (killDma _ s)⟩

end Sys2Proof.Claims

namespace Sys2Proof

/-- Settles O13: the tag is taken out or dead, and the rest is a change of the request, a posted entry
(`cqPosted_row`), the retry under the next tag (`reissueDma_host`), or logging. -/
theorem hostDmaCompletions : Obligations.HostDmaCompletions :=
  ⟨Claims.hostDmaData_holds, Claims.hostDmaPosted_holds, Claims.hostDmaRetry_holds, Claims.hostDmaDead_holds,
    Claims.completionTimeoutRow_holds⟩

end Sys2Proof
end

/-! # Partitions: what keeps the grants

A change of one partition's grants behind the host interface (`Regrants`), completions and answers, which keep every
partition's grants (`Posts`), and the service of waiting transfers. -/

section
namespace Sys2Proof.Machine
open State (LoggedTo)
variable {r s t x : State} {p : Pid} {st : PSt} {g : Grants}

/-! ## The grants of one partition -/

/-- From s to t partition p's state became `st` and its grants `g`; every other partition, the host side and the
always-on side are as before. -/
structure Regrants (p : Pid) (st : PSt) (g : Grants) (s t : State) : Prop where
  host : t.host = s.host
  ao : t.ao = s.ao
  st : (partOf t p).st = st
  g : (partOf t p).g = g
  other : ∀ q, q ≠ p → partOf t q = partOf s q

theorem Regrants.refl (p : Pid) (s : State) : Regrants p (partOf s p).st (partOf s p).g s s :=
  ⟨rfl, rfl, rfl, rfl, fun _ _ => rfl⟩

theorem ite_regrants {c : Prop} [Decidable c] {a b : State} (ha : Regrants p st g s a) (hb : Regrants p st g s b) :
    Regrants p st g s (if c then a else b) := by
  split
  · exact ha
  · exact hb

theorem foldl_regrants {α : Type} {l : List α} {f : State → α → State}
    (hf : ∀ x a, Regrants p st g s x → Regrants p st g s (f x a)) (h : Regrants p st g s x) :
    Regrants p st g s (l.foldl f x) :=
  List.foldlRecOn l f (motive := Regrants p st g s) h fun x hx a _ => hf x a hx

/-! ### Updates -/

/-- A change of the partition itself; it says what state and grants it leaves. -/
theorem modPart_regrants {st' : PSt} {g' : Grants} {f : Part → Part} (h : Regrants p st g s x)
    (hst : (f (partOf x p)).st = st') (hg : (f (partOf x p)).g = g') : Regrants p st' g' s (modPart p f x) :=
  ⟨h.host, h.ao, by rw [partOf_modPart, hst], by rw [partOf_modPart, hg],
    fun q hq => by rw [partOf_modPart_ne _ hq, h.other q hq]⟩

theorem modUnits_regrants (f) (h : Regrants p st g s x) : Regrants p st g s (modUnits f x) :=
  ⟨h.host, h.ao, h.st, h.g, h.other⟩
theorem modMem_regrants (f) (h : Regrants p st g s x) : Regrants p st g s (modMem f x) := modUnits_regrants _ h
theorem modPair_regrants (f) (h : Regrants p st g s x) : Regrants p st g s (modPair f x) := modUnits_regrants _ h
theorem modDrive_regrants (n f) (h : Regrants p st g s x) : Regrants p st g s (modDrive n f x) := modUnits_regrants _ h
theorem emit_regrants (o) (h : Regrants p st g s x) : Regrants p st g s (emit o x) :=
  ⟨h.host, h.ao, h.st, h.g, h.other⟩

/-! ### Frames to the partner -/

theorem darradSend_regrants (a b c d e) (h : Regrants p st g s x) : Regrants p st g s (darradSend a b c d e x) :=
  ite_regrants (emit_regrants _ (modPair_regrants _ h)) h

theorem darradPut_regrants (a b c d) (h : Regrants p st g s x) : Regrants p st g s (darradPut a b c d x) :=
  ite_regrants (emit_regrants _ (modPair_regrants _ h)) h

theorem holdChanged_regrants (h : Regrants p st g s x) : Regrants p st g s (holdChanged x) :=
  ite_regrants (darradPut_regrants _ _ _ _ h) h

theorem sendMirror_regrants (a b) (h : Regrants p st g s x) : Regrants p st g s (sendMirror p a b x) := by
  unfold sendMirror putMirror
  have hm := modPart_regrants (f := fun q => { q with
    mirTag := ((partOf x p).mirTag + 1) % 65536
    mirWait := q.mirWait ++ [{ tag := ((partOf x p).mirTag + 1) % 65536, grant := a, step := b }] }) h h.st h.g
  dsimp only
  split
  · exact darradPut_regrants _ _ _ _ hm
  · exact darradPut_regrants _ _ _ _ hm
  · exact hm

theorem mirrorGrantOf_regrants (h : Regrants p st g s x) : Regrants p st g s (mirrorGrantOf p x) :=
  ite_regrants (sendMirror_regrants _ _ h) h

/-! ## Every partition's grants -/

/-- Every partition holds what it held. -/
def GrantsStay (s t : State) : Prop := ∀ p, (partOf t p).g = (partOf s p).g

theorem GrantsStay.refl (s : State) : GrantsStay s s := fun _ => rfl
theorem GrantsStay.trans (h : GrantsStay r s) (k : GrantsStay s t) : GrantsStay r t := fun p => (k p).trans (h p)

theorem State.LoggedTo.grantsStay (h : LoggedTo s t) : GrantsStay s t := h.g

theorem Regrants.grantsStay (h : Regrants p st (partOf s p).g s t) : GrantsStay s t := by
  intro q
  by_cases hq : q = p
  · rw [hq, h.g]
  · rw [h.other q hq]

theorem modPartN_grantsStay (n : Nat) {f : Part → Part} (s : State) (hf : ∀ q, (f q).g = q.g) :
    GrantsStay s (modPartN n f s) := by
  intro q
  rw [partOf_modPartN]
  split
  · exact hf _
  · rfl

/-! ## Completions and answers -/

/-- The units and the open requests are as before, and every partition holds what it held. -/
structure Posts (s t : State) : Prop where
  units : t.units = s.units
  reqs : t.host.reqs = s.host.reqs
  g : GrantsStay s t

theorem Posts.refl (s : State) : Posts s s := ⟨rfl, rfl, .refl s⟩

theorem Posts.trans (h : Posts r s) (k : Posts s t) : Posts r t :=
  ⟨k.units.trans h.units, k.reqs.trans h.reqs, h.g.trans k.g⟩

theorem State.LoggedTo.posts (h : LoggedTo s t) : Posts s t := ⟨h.units, h.reqs, h.g⟩

theorem ite_posts {c : Prop} [Decidable c] {a b : State} (ha : Posts r a) (hb : Posts r b) :
    Posts r (if c then a else b) := by
  split
  · exact ha
  · exact hb

theorem modFn_posts (f k) (h : Posts r s) : Posts r (modFn f k s) := h.trans ⟨rfl, rfl, .refl _⟩
theorem modRing_posts (f k) (h : Posts r s) : Posts r (modRing f k s) := modFn_posts _ _ h
theorem modMbx_posts (f k) (h : Posts r s) : Posts r (modMbx f k s) := modFn_posts _ _ h
theorem modCnt_posts (f k) (h : Posts r s) : Posts r (modCnt f k s) := modFn_posts _ _ h

theorem issueDma_posts (f k a b n) (h : Posts r s) : Posts r (issueDma f k a b n s) := by
  obtain ⟨-, hunits, hparts, -⟩ := issueDma_behind f k a b n s
  exact h.trans ⟨hunits, by rw [issueDma_host], fun p => by rw [partOf, hparts]; rfl⟩

theorem writeCqe_posts (f c) (h : Posts r s) : Posts r (writeCqe f c s) := by
  unfold writeCqe
  exact issueDma_posts _ _ _ _ _ (modRing_posts _ _ h)

theorem fenceAtNext_posts (n c) (h : Posts r s) : Posts r (fenceAtNext n c s) :=
  ite_posts (h.trans ⟨rfl, rfl, modPartN_grantsStay _ _ fun _ => rfl⟩) h

theorem postCqe_posts (f c) (h : Posts r s) : Posts r (postCqe f c s) :=
  have hcnt (k) : Posts r (modCnt f k s) := modCnt_posts _ _ h
  ite_posts h
    (ite_posts ((hcnt _).trans (lateDiscard_logged _ _ _ _ (.refl _)).posts)
      (ite_posts (writeCqe_posts _ _ h)
        (ite_posts (modRing_posts _ _ h)
          (fenceAtNext_posts _ _ ((hcnt _).trans (logEvent_logged _ _ _ _ _ _ (.refl _)).posts)))))

theorem postRing_posts (q b c) (h : Posts r s) : Posts r (postRing q b c s) :=
  ite_posts (postCqe_posts _ _ h) (ite_posts (postCqe_posts _ _ h) (issueDma_posts _ _ _ _ _ h))

theorem postResponse_posts (f a n q o i d) (h : Posts r s) : Posts r (postResponse f a n q o i d s) :=
  have hw := modMbx_posts _ _ h
  ite_posts (hw.trans (raiseIrq_logged _ _ (.refl _)).posts) hw

/-- An answer changes its request, and then only posts. -/
theorem finish_grantsStay (q : Req) (a : Ans) (s : State) : GrantsStay s (finish q a s) := by
  have hreq : GrantsStay s (if a.pend then modReq q.id (fun q => { q with phase := .pending, payload := a.payload }) s
      else dropReq q.id s) := by split <;> exact .refl s
  refine hreq.trans (Posts.g ?_)
  exact ite_posts (ite_posts (.refl _) (postRing_posts _ _ _ (.refl _))) (postResponse_posts _ _ _ _ _ _ _ (.refl _))

/-- A last completion takes its request out of the queue, and then only posts. -/
theorem complete_posts (i : ReqId) (a b c : Nat) (s : State) : Posts (dropReq i s) (complete i a b c true s) := by
  unfold complete
  split
  case h_1 hnone =>
    refine ⟨rfl, ?_, .refl _⟩
    rw [dropReq_host, List.filter_eq_self.2]
    simpa [findReq] using hnone
  case h_2 => exact ite_posts (postRing_posts _ _ _ (.refl _)) (postCqe_posts _ _ (.refl _))

theorem runCmd_grantsStay (i : ReqId) (op : Nat) (sel : List Byte → Bool) (fields : State → Req → Bool)
    (body : Req → State → State × Option Ans) (s : State) :
    GrantsStay s (runCmd i op sel fields body s) ∨ ∃ q, GrantsStay (body q s).1 (runCmd i op sel fields body s) := by
  have hviolation (f : Fn) (n o : Nat) : GrantsStay s (violation f n o s) :=
    GrantsStay.trans (fun _ => rfl) (violation_logged f n o).grantsStay
  unfold runCmd
  split
  · exact .inl (.refl s)
  case h_2 q _ =>
    split
    · exact .inl (.refl s)
    split
    · exact .inl ((hviolation _ _ _).trans (finish_grantsStay _ _ _))
    split
    · exact .inl (finish_grantsStay _ _ _)
    split
    · exact .inl (finish_grantsStay _ _ _)
    split
    · exact .inl (finish_grantsStay _ _ _)
    split
    case h_1 hbody => exact .inr ⟨q, by rw [hbody]; exact .refl _⟩
    case h_2 hbody =>
      split
      · exact .inl (finish_grantsStay _ _ _)
      · exact .inr ⟨q, by rw [hbody]; exact finish_grantsStay _ _ _⟩

end Sys2Proof.Machine
end

/-! # Windows: zeroing

What zeroed half-rows read, and what the three zeroing events leave of the windows, the grants and the requests that
waited for them. -/

section
namespace Sys2Proof.Machine
variable {s x : State} {p : Pid} {st : PSt} {g : Grants}

/-! ## Bytes -/

theorem memRead_cons_of_lt {c : Host.Cell} {a : Nat} (h : c.1 < a) (m : List Host.Cell) :
    memRead (c :: m) a = memRead m a := by
  rw [memRead, if_neg h.ne, if_neg h.not_gt]

/-- Cleared addresses of a memory in canonical form read 0, every other one reads what it read. -/
theorem memRead_memClear {m : List Host.Cell} (h : memWf m = true) (w : Nat → Bool) (a : Nat) :
    memRead (memClear m w) a = if w a then 0 else memRead m a := by
  rw [memWf_iff] at h
  induction m with
  | nil => simp [memClear, memRead]
  | cons c m ih =>
    obtain ⟨hlt, hord⟩ := List.pairwise_cons.1 h.1
    have hm := ih ⟨hord, fun e he => h.2 e (List.mem_cons_of_mem _ he)⟩
    rcases Nat.lt_trichotomy a c.1 with ha | ha | ha
    · have hall : ∀ e ∈ c :: m, a < e.1 := List.forall_mem_cons.2 ⟨ha, fun e he => ha.trans (hlt e he)⟩
      have hrest : ∀ e ∈ memClear (c :: m) w, a < e.1 := fun e he => hall e (List.mem_of_mem_filter he)
      rw [memRead_below _ a hall, memRead_below _ a hrest, ite_self]
    · subst ha
      by_cases hc : w c.1 = true
      · rw [memClear, List.filter_cons_of_neg (by simp [hc]), if_pos hc]
        exact memRead_below _ _ fun e he => hlt e (List.mem_of_mem_filter he)
      · rw [memClear, List.filter_cons_of_pos (by simp [hc]), if_neg hc, memRead, memRead, if_pos rfl, if_pos rfl]
    · rw [memRead_cons_of_lt ha, ← hm, memClear, List.filter_cons]
      split
      · rw [memRead_cons_of_lt ha, memClear]
      · rfl

/-- Zeroed half-rows read 0, every other half-row reads what it read (R186). -/
theorem memRead_zeroHalfRows {m : MemSt} (h : memWf m.cells = true) (hs : List HR) (d : Nat) :
    memRead (zeroHalfRows hs m).cells d = if dpaHalfRow d ∈ hs then 0 else memRead m.cells d := by
  rw [zeroHalfRows, memRead_memClear h]
  simp

/-! ## Transfers that waited -/

theorem seedFrames_regrants (c : Nat) (last : Bool) (n : Nat) : ∀ (a : Nat) (bs : List Byte) {x : State},
    Regrants p st g s x → Regrants p st g s (seedFrames p c a last n bs x) := by
  induction n with
  | zero => exact fun _ _ _ h => h
  | succ n ih => exact fun a bs _ h => ite_regrants h (ih _ _ (darradSend_regrants _ _ _ _ _ h))

theorem seedRegions_regrants (c : Nat) (l : List Region) : ∀ {x : State},
    Regrants p st g s x → Regrants p st g s (seedRegions p c l x) := by
  induction l with
  | nil => exact fun h => h
  | cons r l ih => exact fun h => ih (seedFrames_regrants _ _ _ _ _ h)

theorem reseed_regrants (wa n : Nat) (h : Regrants p st g s x) : Regrants p st g s (reseed p wa n x) :=
  ite_regrants (ite_regrants h (seedRegions_regrants _ _ (modPair_regrants _ (modPart_regrants h h.st h.g)))) h

theorem finishMove_grantsStay (r : Req) (n : Nat) (a : Ans) (s : State) : GrantsStay s (finishMove r n a s) :=
  GrantsStay.trans (fun _ => rfl) (finish_grantsStay r { a with resHi := ceilDiv n 64 } (modCnt r.fn _ s))

theorem serviceTransfer_grantsStay (s : State) (r : Req) : GrantsStay s (serviceTransfer s r) := by
  unfold serviceTransfer
  dsimp only
  split
  · split <;> exact .refl s
  split
  · exact .refl s
  split
  · have hmove := finishMove_grantsStay r (field r.payload 16 8) ansOk
      (winWrite r.pid (field r.payload 0 8) r.bulk s)
    exact hmove.trans (reseed_regrants _ _ (.refl _ _)).grantsStay
  split
  · exact (issueDma_posts _ _ _ _ _ (.refl (modReq r.id (fun q => { q with left := 0 }) s))).g
  · exact .refl s

theorem serviceTransfers_grantsStay (p : Pid) (s : State) : GrantsStay s (serviceTransfers p s) :=
  List.foldlRecOn _ serviceTransfer (motive := GrantsStay s) (.refl s) fun _ hx r _ =>
    hx.trans (serviceTransfer_grantsStay _ r)

/-- With no open request of the partition no transfer waits. -/
theorem serviceTransfers_of_no_reqs (h : ∀ q ∈ s.host.reqs, q.part ≠ p.val) : serviceTransfers p s = s := by
  rw [serviceTransfers, List.filter_eq_nil_iff.2 (by simpa using fun q hq e => absurd e (h q hq))]
  rfl

/-! ## The completions of a zeroing -/

/-- The last completions of a list of requests, each with the bytes its answer left. -/
def completeLeft (l : List Req) (s : State) : State := l.foldl (fun s r => complete r.id 0 0 r.left true s) s

/-- They take their requests out of the queue, and else change no request, unit or grant. -/
theorem completeLeft_spec (l : List Req) (s : State) :
    (completeLeft l s).units = s.units ∧ GrantsStay s (completeLeft l s)
    ∧ (completeLeft l s).host.reqs = s.host.reqs.filter (fun x => l.all (fun q => !reqMatches q.id x)) := by
  induction l generalizing s with
  | nil => exact ⟨rfl, .refl s, by simp [completeLeft]⟩
  | cons q l ih =>
    obtain ⟨hunits, hg, hreqs⟩ := ih (complete q.id 0 0 q.left true s)
    have hq := complete_posts q.id 0 0 q.left s
    refine ⟨hunits.trans hq.units, GrantsStay.trans (fun k => hq.g k) hg, ?_⟩
    rw [completeLeft, List.foldl_cons, ← completeLeft, hreqs, hq.reqs]
    simp [List.filter_filter, Bool.and_comm]

theorem zeroDone_units (op n : Nat) (s : State) : (zeroDone op n s).units = s.units := (completeLeft_spec _ s).1

theorem zeroDone_grantsStay (op n : Nat) (s : State) : GrantsStay s (zeroDone op n s) := (completeLeft_spec _ s).2.1

/-- No request of the partition with this opcode waits for its later completion any more. -/
theorem zeroDone_not_pending {op n : Nat} {q : Req} (hq : q ∈ (zeroDone op n s).host.reqs) (hpart : q.part = n)
    (hop : q.opcode = op) : q.phase ≠ .pending := by
  intro hphase
  rw [show (zeroDone op n s).host.reqs = _ from (completeLeft_spec _ s).2.2, List.mem_filter, List.all_eq_true] at hq
  obtain ⟨hmem, hall⟩ := hq
  have := hall q (List.mem_filter.2 ⟨hmem, by simp [hpart, hop, hphase]⟩)
  simp [reqMatches] at this

/-! ## The events -/

/-- A partition whose window does not wait for half-rows any more. -/
def Part.zeroed (hs : List HR) (q : Part) : Part :=
  { q with g := { q.g with win := { q.g.win with unzero := q.g.win.unzero.filter (fun h => !hs.contains h) } } }

/-- A granule that the window waits for is zeroed; without open requests of the partition nothing else happens. -/
theorem doGranuleZeroed_eq {mode n : Nat} {e : Granule} (he : (winMode (partOf s p).g.win mode)[n]? = some e)
    (h2 : domOn s 2 = true) (ha : e.a ∈ (partOf s p).g.win.unzero) (hb : e.b ∈ (partOf s p).g.win.unzero)
    (hreqs : ∀ q ∈ s.host.reqs, q.part ≠ p.val) :
    doGranuleZeroed p mode n s = modPart p (Part.zeroed [e.a, e.b]) (modMem (zeroHalfRows [e.a, e.b]) s) := by
  have hwait : [e.a, e.b].filter (fun h => (partOf s p).g.win.unzero.contains h) = [e.a, e.b] := by simp [ha, hb]
  simp only [doGranuleZeroed, he, hwait, h2]
  exact serviceTransfers_of_no_reqs (s := modPart p (Part.zeroed [e.a, e.b]) (modMem _ s)) hreqs

/-- The state in which a partition's window is zero throughout. -/
def windowClean (p : Pid) (s : State) : State :=
  modPart p (fun q => { q with g := { q.g with win := { q.g.win with unzero := [] } } })
    (modMem (zeroHalfRows (partOf s p).g.win.unzero) s)

theorem doWindowZeroed_granted (h2 : domOn s 2 = true) :
    doWindowZeroed p false s = zeroDone 0x0201 p.val (serviceTransfers p (windowClean p s)) := by
  rw [doWindowZeroed, h2]
  rfl

/-- A plan whose standby window is zero throughout. -/
def Plan.zeroed (e : Plan) : Plan := { e with win := { e.win with unzero := [] } }

theorem doWindowZeroed_standby {e : Plan} (h2 : domOn s 2 = true)
    (he : s.units.pair.plans.find? (fun x => x.part == p.val) = some e) : doWindowZeroed p true s =
      zeroDone 0x0B03 p.val (modPair (fun y => { y with
        plans := modFirst (fun x => x.part == p.val) Plan.zeroed y.plans })
          (modMem (zeroHalfRows e.win.unzero) s)) := by
  simp only [doWindowZeroed, h2, he]
  rfl

/-- The first element that satisfies a test, after that element was changed and still satisfies it. -/
theorem find?_modFirst {α : Type} {w : α → Bool} {f : α → α} (hf : ∀ a, w a = true → w (f a) = true) (l : List α) :
    (modFirst w f l).find? w = (l.find? w).map f := by
  induction l with
  | nil => rfl
  | cons a l ih =>
    by_cases ha : w a = true
    · simp [modFirst, ha, hf a ha]
    · simp [modFirst, ha, ih]

/-- A dirty half-row that no window holds is zeroed and clean. -/
theorem doBackgroundZero_eq {west : Bool} {row : Nat} (h2 : domOn s 2 = true) (hrow : row < 1024)
    (hfree : halfRowFree s (heldHalfRows s) ⟨west, row⟩ = true)
    (hdirty : s.units.mem.clean.contains ⟨west, row⟩ = false) :
    doBackgroundZero west row s =
      modMem (fun m => { zeroHalfRows [⟨west, row⟩] m with clean := m.clean ++ [⟨west, row⟩] }) s := by
  have hle : ¬1023 < row := by omega
  simp only [doBackgroundZero, h2, hfree, hdirty, hle]
  rfl

end Sys2Proof.Machine

namespace Sys2Proof.Claims
open Sys2Proof.Machine

theorem granuleZeroedRow_holds : granuleZeroedRow := by
  intro p mode n s e he h2 ha hb hreqs
  refine ⟨_, congrArg Host.Outcome.next (doGranuleZeroed_eq he h2 ha hb hreqs), ?_⟩
  dsimp only
  rw [partOf_modPart]
  refine ⟨by simp [Part.zeroed], by simp [Part.zeroed], fun hwf d hd => ?_, fun hwf d hda hdb => ?_, rfl, rfl,
    fun q hq => partOf_modPart_ne _ hq⟩
  · exact (memRead_zeroHalfRows hwf _ d).trans (if_pos (by simpa using hd))
  · exact (memRead_zeroHalfRows hwf _ d).trans (if_neg (by simp [hda, hdb]))

theorem windowZeroedRow_holds : windowZeroedRow := by
  intro p s h2
  constructor
  · refine ⟨_, congrArg Host.Outcome.next (doWindowZeroed_granted h2), ?_⟩
    have hstay := (serviceTransfers_grantsStay p (windowClean p s)).trans (zeroDone_grantsStay 0x0201 p.val _)
    refine ⟨?_, fun q hq => ?_, fun _ => zeroDone_not_pending⟩
    · rw [hstay, windowClean, partOf_modPart]
    · rw [hstay, windowClean, partOf_modPart_ne _ hq]; rfl
  · intro e he
    refine ⟨_, congrArg Host.Outcome.next (doWindowZeroed_standby h2 he), fun y hy => ?_⟩
    have hplans : (modFirst (fun x => x.part == p.val) Plan.zeroed s.units.pair.plans).find? (fun x => x.part == p.val)
        = some y := by rwa [zeroDone_units] at hy
    rw [find?_modFirst (w := fun x => x.part == p.val) (f := Plan.zeroed) fun _ h => h, he] at hplans
    obtain rfl := Option.some.inj hplans
    exact ⟨rfl, rfl⟩

theorem backgroundZeroRow_holds : backgroundZeroRow := by
  intro west row s h2 hrow hfree hdirty
  refine ⟨_, congrArg Host.Outcome.next (doBackgroundZero_eq h2 hrow hfree hdirty), rfl, fun hwf d => ?_, rfl, rfl, rfl⟩
  exact (memRead_zeroHalfRows hwf _ d).trans (by simp only [List.mem_singleton])

end Sys2Proof.Claims

namespace Sys2Proof

/-- Settles O33: zeroed half-rows read 0 (`memRead_zeroHalfRows`), and completions and the transfers that waited keep
every partition's grants. -/
theorem windowZeroing : Obligations.WindowZeroing :=
  ⟨Claims.granuleZeroedRow_holds, Claims.windowZeroedRow_holds, Claims.backgroundZeroRow_holds⟩

end Sys2Proof
end

/-! # Partitions: granting and releasing

PARTITION_GRANT either keeps every partition's grants or commits what no other partition holds; PARTITION_RELEASE
leaves what the request does not name. -/

section
namespace Sys2Proof.Machine
open Claims (Exclusive)
variable {s t x : State} {p : Pid} {st : PSt} {g : Grants} {r : Req}

/-! ## What the others hold -/

theorem othersHold_eq_false {w : Grants → Bool} :
    othersHold s p w = false ↔ ∀ q, q ≠ p → w (partOf s q).g = false := by
  simp [othersHold, allPids]

/-- The items of a request that its partition does not hold yet. -/
def newClusters (s : State) (r : Req) : List Nat :=
  (parseGrant r.payload).clusters.filter (fun c => !(partOf s r.pid).g.clusters.contains c)
def newCores (s : State) (r : Req) : List Nat :=
  (parseGrant r.payload).cores.filter (fun c => !(partOf s r.pid).g.cores.contains c)
def newPorts (s : State) (r : Req) : List Nat :=
  (parseGrant r.payload).ports.filter (fun c => !(partOf s r.pid).g.ports.contains c)
def newNs (s : State) (r : Req) : List (Nat × Nat) :=
  (parseGrant r.payload).ns.filter (fun x => !(partOf s r.pid).g.ns.contains x)

/-- The shortfalls of a request (Table PRT-8, row 8). -/
def shortsOf (s : State) (r : Req) : List Short :=
  grantShorts s r.pid (parseGrant r.payload) (newClusters s r) (newCores s r) (newPorts s r) (newNs s r)

/-- A request without shortfalls asks for nothing that another partition holds (R111). -/
theorem not_othersHold_of_shortsOf_nil (h : shortsOf s r = []) :
    (∀ c ∈ newClusters s r, othersHold s r.pid (fun x => x.clusters.contains c) = false)
    ∧ (∀ c ∈ newCores s r, othersHold s r.pid (fun x => x.cores.contains c) = false)
    ∧ (∀ c ∈ newPorts s r, othersHold s r.pid (fun x => x.ports.contains c) = false)
    ∧ (∀ c ∈ newNs s r, othersHold s r.pid (fun x => x.ns.contains c) = false) := by
  simp only [shortsOf, grantShorts, List.append_eq_nil_iff, List.map_eq_nil_iff, List.filter_eq_nil_iff,
    Bool.not_eq_true] at h
  obtain ⟨⟨⟨⟨⟨⟨⟨⟨hclusters, -⟩, -⟩, hcores⟩, hports⟩, -⟩, -⟩, -⟩, hns⟩ := h
  refine ⟨hclusters, ?_, hports, hns⟩
  simpa using hcores

/-! ## The commit of a grant -/

theorem mem_insSorted {a c : Nat} {l : List Nat} : c ∈ insSorted a l ↔ c = a ∨ c ∈ l := by
  induction l with
  | nil => simp [insSorted]
  | cons b l ih =>
    rw [insSorted]
    split
    · simp
    split
    case isTrue h => simp [h]
    · simp [ih, or_left_comm]

theorem mem_foldl_insSorted {c : Nat} {l q : List Nat} :
    c ∈ l.foldl (fun l c => insSorted c l) q ↔ c ∈ q ∨ c ∈ l := by
  induction l generalizing q with
  | nil => simp
  | cons a l ih => simp [ih, mem_insSorted, or_assoc, or_left_comm]

/-- The state of a partition after a grant (Table PRT-1). -/
def PSt.afterGrant (a : PSt) : PSt := if a = .free then .granted else a

/-- A partition to which grants were committed; an id that was FREE gets the pair's generation. -/
def Part.granted (g : Grants) (was : PSt) (gen : Nat) (q : Part) : Part :=
  { q with g := g, st := was.afterGrant, gen := if was = .free then gen else q.gen }

/-- The state in which the half-rows and the clusters of a grant are ready for the partition. -/
def grantReady (r : Req) (win : Window) (s : State) : State :=
  let u := unclean (winHalfRows win) (resetClusters (newClusters s r) s)
  if (newClusters s r).isEmpty then u else clearSync r.pid u

/-- The commit of a grant whose window part is `win` (R111, R501). -/
def grantCommitted (r : Req) (win : Window) (s : State) : State :=
  let u := grantReady r win s
  let w := grantsChanged r.pid (modPart r.pid (Part.granted (addGrants s r.pid (parseGrant r.payload) win)
    (partOf s r.pid).st u.units.pair.gen) u)
  mirrorGrantOf r.pid (if (partOf s r.pid).st = .free then holdChanged w else w)

theorem grantsChanged_regrants (h : Regrants p st g s x) : Regrants p st g s (grantsChanged p x) :=
  modPart_regrants h (by split <;> exact h.st) (by split <;> exact h.g)

theorem clearSync_regrants (q) (h : Regrants p st g s x) : Regrants p st g s (clearSync q x) := by
  unfold clearSync
  exact modUnits_regrants _ h

theorem grantReady_regrants (r : Req) (win : Window) (h : Regrants p st g s s) :
    Regrants p st g s (grantReady r win s) :=
  have hu : Regrants p st g s (unclean (winHalfRows win) (resetClusters (newClusters s r) s)) :=
    modMem_regrants _ (modUnits_regrants _ h)
  ite_regrants hu (clearSync_regrants _ hu)

theorem grantCommitted_regrants (r : Req) (win : Window) (s : State) :
    Regrants r.pid (partOf s r.pid).st.afterGrant (addGrants s r.pid (parseGrant r.payload) win) s
      (grantCommitted r win s) := by
  have hw : Regrants r.pid (partOf s r.pid).st.afterGrant (addGrants s r.pid (parseGrant r.payload) win) s
      (grantsChanged r.pid (modPart r.pid (Part.granted (addGrants s r.pid (parseGrant r.payload) win)
        (partOf s r.pid).st (grantReady r win s).units.pair.gen) (grantReady r win s))) :=
    grantsChanged_regrants (modPart_regrants (grantReady_regrants r win (.refl r.pid s)) rfl rfl)
  exact mirrorGrantOf_regrants (ite_regrants (holdChanged_regrants hw) hw)

/-! ## PARTITION_GRANT never takes what another holds -/

theorem createQueues_grantsStay (p : Pid) (l : List (Nat × Nat)) (s : State) :
    GrantsStay s (l.foldl (fun s x => createQueue p x s) s) :=
  (foldl_regrants (p := p) (fun _ _ h => emit_regrants _ (modDrive_regrants _ _ h)) (.refl p s)).grantsStay

/-- An outcome that keeps every partition's grants, or commits a request without shortfalls. -/
def StaysOrCommits (r : Req) (s : State) (o : State × Option Ans) : Prop :=
  GrantsStay s o.1 ∨ shortsOf s r = [] ∧ ∃ win, GrantsStay (grantCommitted r win s) o.1

theorem StaysOrCommits.refl (r : Req) (s : State) (a : Option Ans) : StaysOrCommits r s (s, a) := .inl (.refl s)

theorem ite_staysOrCommits {c : Prop} [Decidable c] {a b : State × Option Ans} (ha : c → StaysOrCommits r s a)
    (hb : ¬c → StaysOrCommits r s b) : StaysOrCommits r s (if c then a else b) := by
  split
  · exact ha (by assumption)
  · exact hb (by assumption)

/-- Only the body's last step, behind the test for shortfalls, changes grants. -/
theorem grantBody_cases (r : Req) (s : State) : StaysOrCommits r s (grantBody r s) := by
  unfold grantBody
  extract_lets p q gr ncl nco npo nns needs minima poolNeeds shorts noQueue
  iterate 5 refine ite_staysOrCommits (fun _ => .refl r s _) fun _ => ?_
  refine ite_staysOrCommits (fun _ => .refl r s _) fun hshorts => ?_
  refine ite_staysOrCommits (fun _ => .inl (createQueues_grantsStay p _ _)) fun _ => ?_
  cases hwin : takeGranules s gr.a gr.w gr.e with
  | none => exact .refl r s _
  | some win =>
    have hnil : shorts = [] := by simpa using hshorts
    have hstay := GrantsStay.refl (grantCommitted r win s)
    exact ite_staysOrCommits (fun _ => .inr ⟨hnil, win, hstay⟩) fun _ => .inr ⟨hnil, win, hstay⟩

/-- What holds of the new items of a request holds of every item that the partition did not hold before. -/
theorem mem_or_of_new {α : Type} [BEq α] [LawfulBEq α] {held asked : List α} {w : α → Prop}
    (hw : ∀ c ∈ asked.filter (fun c => !held.contains c), w c) {c : α} (hc : c ∈ held ∨ c ∈ asked) :
    c ∈ held ∨ w c := by
  by_cases hold : c ∈ held
  · exact .inl hold
  · exact .inr (hw c (List.mem_filter.2 ⟨hc.resolve_left hold, by simpa using hold⟩))

/-- No two partitions share an item of a kind of holding. -/
def Unshared {α : Type} (f : Grants → List α) (s : State) : Prop :=
  ∀ j k, j ≠ k → ∀ c ∈ f (partOf s j).g, c ∉ f (partOf s k).g

theorem exclusive_iff : Exclusive s ↔
    Unshared (·.clusters) s ∧ Unshared (·.cores) s ∧ Unshared (·.ports) s ∧ Unshared (·.ns) s := by
  simp only [Exclusive, Unshared, imp_and, forall_and]

/-- A kind of holding stays unshared when one partition took only what no other holds. -/
theorem unshared_of_added {α : Type} [BEq α] [LawfulBEq α] {f : Grants → List α} (hs : Unshared f s)
    (hother : ∀ q, q ≠ p → (partOf t q).g = (partOf s q).g)
    (hadd : ∀ c ∈ f (partOf t p).g, c ∈ f (partOf s p).g ∨ othersHold s p (fun x => (f x).contains c) = false) :
    Unshared f t := by
  have hp : ∀ k, k ≠ p → ∀ c ∈ f (partOf t p).g, c ∉ f (partOf s k).g := by
    intro k hk c hc
    rcases hadd c hc with hold | hfree
    · exact hs p k hk.symm c hold
    · simpa using othersHold_eq_false.1 hfree k hk
  intro j k hjk c hj hk
  by_cases ej : j = p
  · subst ej
    exact hp k hjk.symm c hj (hother k hjk.symm ▸ hk)
  · rw [hother j ej] at hj
    by_cases ek : k = p
    · subst ek
      exact hp j hjk c hk hj
    · exact hs j k hjk c hj (hother k ek ▸ hk)

theorem exclusive_of_grantsStay (h : GrantsStay s t) (hs : Exclusive s) : Exclusive t := by
  intro j k hjk
  rw [h j, h k]
  exact hs j k hjk

/-- A commit without shortfalls keeps the grants exclusive (R109 to R111). -/
theorem grantCommitted_exclusive (hs : Exclusive s) (hshorts : shortsOf s r = []) (win : Window) :
    Exclusive (grantCommitted r win s) := by
  obtain ⟨hclusters, hcores, hports, hns⟩ := not_othersHold_of_shortsOf_nil hshorts
  have h := grantCommitted_regrants r win s
  have hother : ∀ q, q ≠ r.pid → (partOf (grantCommitted r win s) q).g = (partOf s q).g := fun q hq => by
    rw [h.other q hq]
  obtain ⟨sclusters, scores, sports, sns⟩ := exclusive_iff.1 hs
  rw [exclusive_iff]
  refine ⟨unshared_of_added sclusters hother ?_, unshared_of_added scores hother ?_, unshared_of_added sports hother ?_,
    unshared_of_added sns hother ?_⟩
  · rw [h.g]
    exact fun c hc => mem_or_of_new hclusters (mem_foldl_insSorted.1 hc)
  · rw [h.g]
    exact fun c hc => mem_or_of_new hcores (mem_foldl_insSorted.1 hc)
  · rw [h.g]
    exact fun c hc => mem_or_of_new hports (mem_foldl_insSorted.1 hc)
  · rw [h.g]
    exact fun c hc => (List.mem_append.1 hc).imp_right (hns c)

end Sys2Proof.Machine

namespace Sys2Proof.Claims
open Sys2Proof.Machine

theorem grantExclusive_holds : grantExclusive := by
  intro i s t hs hexec
  obtain rfl : runCmd i 0x0201 (fun _ => true) grantFields grantBody s = t := Host.Outcome.next.inj hexec
  rcases runCmd_grantsStay i 0x0201 (fun _ => true) grantFields grantBody s with hrun | ⟨r, hrun⟩
  · exact exclusive_of_grantsStay hrun hs
  · refine exclusive_of_grantsStay hrun ?_
    rcases grantBody_cases r s with hbody | ⟨hshorts, win, hbody⟩
    · exact exclusive_of_grantsStay hbody hs
    · exact exclusive_of_grantsStay hbody (grantCommitted_exclusive hs hshorts win)

end Sys2Proof.Claims

namespace Sys2Proof.Machine
open Claims (coresOnly)
variable {s x : State} {p : Pid} {st : PSt} {g : Grants} {r : Req}

/-! ## A grant of clusters and cores (R111, R117) -/

theorem clusterDom_range (c : Nat) : 2 ≤ clusterDom c ∧ clusterDom c < 8 := by
  unfold clusterDom
  split <;> decide

/-- Clusters and cores need only domains of the tiles and PD_VID (R64). -/
theorem grantNeeds_coresOnly {gr : GrantReq} (ha : gr.a = 0) (hw : gr.w = 0) (he : gr.e = 0) (cl co : List Nat)
    {d : Nat} (hd : d ∈ grantNeeds cl gr co [] []) : 2 ≤ d ∧ d < 8 := by
  simp only [grantNeeds, ha, hw, he, List.isEmpty_nil, Bool.and_self, if_true, List.append_nil, List.mem_append,
    List.mem_map] at hd
  rcases hd with ⟨c, -, rfl⟩ | hd
  · exact clusterDom_range c
  · split at hd
    · exact nomatch hd
    · obtain rfl := List.mem_singleton.1 hd
      decide

/-- A request for a cluster of another partition falls short of that first (R492). -/
theorem shortsOf_cluster {c : Nat} (hc : c ∈ (parseGrant r.payload).clusters) (hnew : c ∉ (partOf s r.pid).g.clusters)
    (hheld : othersHold s r.pid (fun x => x.clusters.contains c) = true) :
    ∃ d l, shortsOf s r = ⟨0x0101, 1, 5, d, 64, 0⟩ :: l := by
  have hmem : c ∈ (newClusters s r).filter (fun c => othersHold s r.pid (fun x => x.clusters.contains c)) :=
    List.mem_filter.2 ⟨List.mem_filter.2 ⟨hc, by simpa using hnew⟩, hheld⟩
  obtain ⟨d, l, hl⟩ := List.exists_cons_of_ne_nil (List.ne_nil_of_mem hmem)
  rw [shortsOf, grantShorts, hl]
  exact ⟨d, _, rfl⟩

/-- Clusters and cores that no other partition holds fall short of nothing. -/
theorem shortsOf_coresOnly (hcores : coresOnly r.payload)
    (hcl : ∀ c ∈ (parseGrant r.payload).clusters, othersHold s r.pid (fun x => x.clusters.contains c) = false)
    (hco : ∀ c ∈ (parseGrant r.payload).cores, othersHold s r.pid (fun x => x.cores.contains c) = false) :
    shortsOf s r = [] := by
  obtain ⟨ha, hw, he, hports, hchurn, hslots, hset, hns⟩ := hcores
  have hclusters : (newClusters s r).filter (fun c => othersHold s r.pid (fun x => x.clusters.contains c)) = [] :=
    List.filter_eq_nil_iff.2 fun c hc => Bool.not_eq_true _ ▸ hcl c (List.mem_of_mem_filter hc)
  have hcores : (newCores s r).filter (fun c => othersHold s r.pid (fun x => x.cores.contains c)) = [] :=
    List.filter_eq_nil_iff.2 fun c hc => Bool.not_eq_true _ ▸ hco c (List.mem_of_mem_filter hc)
  have hset4 : bit (parseGrant r.payload).set 4 = false := by rw [hset]; rfl
  simp only [shortsOf, grantShorts, hclusters, hcores, newPorts, newNs, ha, hw, he, hports, hchurn, hslots, hset4, hns]
  simp

/-- A grant without memory takes no half-row. -/
theorem takeGranules_zero (s : State) : takeGranules s 0 0 0 = some {} := by simp [takeGranules, pairUp]

/-- For clusters and cores that are powered, available and unfenced, only the test for shortfalls is left. -/
theorem grantBody_coresOnly (hcores : coresOnly r.payload)
    (hid : partnerHolds s r.pid.val = false ∨ (partOf s r.pid).st ≠ .free) (hop : s.ao.pwr.op = none)
    (hon : ∀ d, 2 ≤ d → d < 8 → domOf s d = .on)
    (havail : ∀ c ∈ (parseGrant r.payload).clusters, s.units.unavailable.contains c = false)
    (hunfenced : ∀ c ∈ (parseGrant r.payload).cores, (vget s.units.cores c {}).fenced = false) :
    grantBody r s = if (shortsOf s r).isEmpty then (grantCommitted r {} s, some (ansOk (toLe 8 0)))
      else (s, some (ansShort stNoResource (shortsOf s r))) := by
  obtain ⟨ha, hw, he, hports, -, -, hset, hns⟩ := hcores
  unfold grantBody
  extract_lets p q gr ncl nco npo nns needs minima poolNeeds shorts noQueue
  have hset4 : bit gr.set 4 = false := by rw [hset]; rfl
  have hminima : minima = false := by simp only [minima, hset4, Bool.false_and]
  have hpool : poolNeeds = [] := by simp only [poolNeeds, hminima]; rfl
  have hnpo : npo = [] := by simp only [npo, gr, hports]; rfl
  have hnns : nns = [] := by simp only [nns, gr, hns]; rfl
  have hneeds : ∀ d ∈ needs, domSeen s d = .on := by
    intro d hd
    simp only [needs, hnpo, hnns] at hd
    obtain ⟨hlo, hhi⟩ := grantNeeds_coresOnly ha hw he ncl nco hd
    simp only [domSeen, hop, hon d hlo hhi]
  have hncl : ∀ c ∈ ncl, c ∉ s.units.unavailable := fun c hc => by simpa using havail c (List.mem_of_mem_filter hc)
  have hnco : ∀ c ∈ nco, (vget s.units.cores c {}).fenced = false := fun c hc =>
    hunfenced c (List.mem_of_mem_filter hc)
  have hnot (a : DomSt) (h : a ≠ .on) : ∀ d ∈ needs, domSeen s d ≠ a := fun d hd e => h (e.symm.trans (hneeds d hd))
  rw [if_neg, if_neg, if_neg, if_neg, if_neg]
  · have hwin : takeGranules s gr.a gr.w gr.e = some {} := by rw [ha, hw, he, takeGranules_zero]
    have hnoQueue : noQueue = [] := by simp only [noQueue, hnns]; rfl
    rw [show shortsOf s r = shorts from rfl]
    by_cases hs : shorts = []
    · rw [if_neg (by simp [hs]), if_neg (by simp [hnoQueue]), hwin, if_pos (List.isEmpty_iff.2 hs)]
      rfl
    · rw [if_pos (by simpa using hs), if_neg (by simpa using hs)]
  · simpa using hnot .powering (by decide)
  · simpa [hminima] using fun d hd => ⟨hnot .off (by decide) d hd, hnot .poweringDown (by decide) d hd⟩
  · simpa [hpool, hnpo, hnns] using ⟨⟨hnot .fenced (by decide), hncl⟩, hnco⟩
  · simp [hset4]
  · rcases hid with h | h
    · simp [p, h]
    · simp [q, p, h]

/-! ## PARTITION_RELEASE (R117, R502) -/

theorem releasePort_regrants (n) (h : Regrants p st g s x) : Regrants p st g s (releasePort n x) := by
  unfold releasePort
  exact modUnits_regrants _ h

theorem deleteQueue_regrants (a) (h : Regrants p st g s x) : Regrants p st g s (deleteQueue a x) :=
  ite_regrants (emit_regrants _ (modDrive_regrants _ _ (modDrive_regrants _ _ h))) h

/-- With no region transfer open the partition's holdings are cut, and no other partition changes. -/
theorem releaseBody_regrants (hopen : transferOpen s r.pid = false) :
    ∃ t, releaseBody r s = (t, ansOk) ∧
      Regrants r.pid (partOf s r.pid).st (cutGrants s r.pid (parseGrant r.payload)) s t := by
  rw [releaseBody, if_neg (by simp [hopen])]
  have hports := foldl_regrants (l := (parseGrant r.payload).ports) (fun _ n => releasePort_regrants n)
    (.refl r.pid s)
  have hqueues := foldl_regrants (l := (parseGrant r.payload).ns) (fun _ a => deleteQueue_regrants a) hports
  exact ⟨_, rfl, mirrorGrantOf_regrants (grantsChanged_regrants (modPart_regrants hqueues hqueues.st rfl))⟩

end Sys2Proof.Machine

namespace Sys2Proof.Claims
open Sys2Proof.Machine

theorem grantRow_holds : grantRow := by
  intro i s r ht _ hfields hcores hid hop hon hclusters hcore
  have hbody := grantBody_coresOnly hcores hid hop hon (fun c hc => (hclusters c hc).1) (fun c hc => (hcore c hc).1)
  have hnone := shortsOf_coresOnly hcores (fun c hc => (hclusters c hc).2) (fun c hc => (hcore c hc).2)
  rw [hnone, List.isEmpty_nil, if_pos rfl] at hbody
  have h := grantCommitted_regrants r {} s
  obtain ⟨-, -, -, hports, hchurn, -, -, hns⟩ := hcores
  refine ⟨_, congrArg Host.Outcome.next (ht.runCmd_eq rfl hfields hbody (.inl rfl)), h.st, fun c => ?_, fun c => ?_,
    ?_, ?_, ?_, h.other, h.host, h.ao⟩
  · rw [h.g]; exact mem_foldl_insSorted
  · rw [h.g]; exact mem_foldl_insSorted
  · rw [h.g, addGrants, hports]; rfl
  · rw [h.g, addGrants, hns]; exact List.append_nil _
  · rw [h.g, addGrants, hchurn]; rfl

theorem grantShort_holds : grantShort := by
  intro i s r c ht _ hfields hcores hid hop hon havail hunfenced hc hnew hheld
  have hbody := grantBody_coresOnly hcores hid hop hon havail hunfenced
  obtain ⟨d, l, hshorts⟩ := shortsOf_cluster hc hnew hheld
  rw [hshorts, if_neg (by simp)] at hbody
  exact ⟨_, rfl, rfl, congrArg Host.Outcome.next (ht.runCmd_eq rfl hfields hbody (.inl rfl))⟩

theorem releaseRow_holds : releaseRow := by
  intro i s r ht _ hfields hopen
  obtain ⟨t, hbody, h⟩ := releaseBody_regrants hopen
  refine ⟨t, congrArg Host.Outcome.next (ht.answers rfl hfields hbody (.inl rfl)), fun c => ?_, fun c => ?_,
    fun c => ?_, fun c => ?_, h.st, by rw [h.g]; rfl, h.other⟩
  · rw [h.g]; simp [cutGrants]
  · rw [h.g]; simp [cutGrants]
  · rw [h.g]; simp [cutGrants]
  · rw [h.g]; simp [cutGrants]

theorem releaseBusy_holds : releaseBusy := fun _ _ _ ht hfields hopen =>
  congrArg Host.Outcome.next (ht.answers rfl hfields (if_pos hopen) (.inl rfl))

end Sys2Proof.Claims

namespace Sys2Proof

/-- Settles O27: for clusters and cores that can be granted only the test for shortfalls is left
(`grantBody_coresOnly`), and a commit or a release changes its partition alone (`Regrants`). -/
theorem grantAndReleaseOfUnits : Obligations.GrantAndReleaseOfUnits :=
  ⟨Claims.grantRow_holds, Claims.grantShort_holds, Claims.releaseRow_holds, Claims.releaseBusy_holds⟩

/-- Settles O28: only the commit of a request without shortfalls changes grants (`grantBody_cases`), and such a request
takes nothing that another partition holds (`not_othersHold_of_shortsOf_nil`). -/
theorem grantsStayExclusive : Obligations.GrantsStayExclusive := Claims.grantExclusive_holds

end Sys2Proof
end

/-! # Tiles: their state, and what a fence of an idle partition leaves

Reading a tile after a change of a tile, the frame of a change of one tile (`OnlyTile`), and what the end of a
partition's work keeps (`EndsWork`), from which a fence without open requests is one change of the partition. -/

section
namespace Sys2Proof.Machine
open State (LoggedTo)
variable {r s t : State} {n k : Nat}

/-! ## Reading a tile -/

@[simp] theorem tileOf_id (s : State) (n : Nat) : (tileOf s n).id = n := by
  unfold tileOf
  cases h : s.units.tiles.find? (fun x => x.id == n) with
  | none => rfl
  | some x => simpa using List.find?_some h

theorem tileOf_congr (h : t.units.tiles = s.units.tiles) (k : Nat) : tileOf t k = tileOf s k := by
  rw [tileOf, h, tileOf]

/-- A changed tile reads what the change gives, when that keeps its number. -/
@[simp] theorem tileOf_modTile {g : Tile → Tile} (h : (g (tileOf s n)).id = n) :
    tileOf (modTile n g s) n = g (tileOf s n) := by
  have hold : (s.units.tiles.filter (fun y => y.id != n)).find? (fun x => x.id == n) = none := by simp
  rw [tileOf, modTile, modUnits_units, List.find?_append, hold, Option.none_or,
    List.find?_cons_of_pos (by simpa using h), Option.getD_some]

theorem tileOf_modTile_ne {g : Tile → Tile} (h : (g (tileOf s n)).id = n) (hk : k ≠ n) :
    tileOf (modTile n g s) k = tileOf s k := by
  have hnew : [g (tileOf s n)].find? (fun x => x.id == k) = none := by simpa [h] using hk.symm
  have hold : (s.units.tiles.filter (fun y => y.id != n)).find? (fun x => x.id == k)
      = s.units.tiles.find? (fun x => x.id == k) := by
    rw [List.find?_filter]
    congr 1
    funext x
    by_cases hx : x.id = k <;> simp [hx, hk]
  rw [tileOf, modTile, modUnits_units, List.find?_append, hold, hnew, Option.or_none, tileOf]

@[simp] theorem tileOf_modMesh (g : MeshSt → MeshSt) (k : Nat) : tileOf (modMesh g s) k = tileOf s k := rfl

@[simp] theorem tileOf_modUnavailable (g : List Nat → List Nat) (k : Nat) :
    tileOf (modUnits (fun u => { u with unavailable := g u.unavailable }) s) k = tileOf s k := rfl

theorem State.LoggedTo.tile (h : LoggedTo s t) (k : Nat) : tileOf t k = tileOf s k := tileOf_congr (by rw [h.units]) k

/-! ## A change of one tile -/

/-- Every other tile, near memory and the buffer pool are as before. -/
structure OnlyTile (n : Nat) (s t : State) : Prop where
  other : ∀ k, k ≠ n → tileOf t k = tileOf s k
  mem : t.units.mem = s.units.mem
  pool : t.units.pool = s.units.pool

theorem OnlyTile.refl (n : Nat) (s : State) : OnlyTile n s s := ⟨fun _ _ => rfl, rfl, rfl⟩

theorem OnlyTile.trans (h : OnlyTile n r s) (k : OnlyTile n s t) : OnlyTile n r t :=
  ⟨fun i hi => (k.other i hi).trans (h.other i hi), k.mem.trans h.mem, k.pool.trans h.pool⟩

theorem State.LoggedTo.onlyTile (h : LoggedTo s t) : OnlyTile n s t :=
  ⟨fun k _ => h.tile k, by rw [h.units], by rw [h.units]⟩

theorem modTile_onlyTile {g : Tile → Tile} (h : (g (tileOf s n)).id = n := by simp) : OnlyTile n s (modTile n g s) :=
  ⟨fun _ => tileOf_modTile_ne h, rfl, rfl⟩

theorem modMesh_onlyTile (g : MeshSt → MeshSt) (s : State) : OnlyTile n s (modMesh g s) := { OnlyTile.refl n s with }

/-! ## Reset and reload (R141, R142, R145) -/

/-- A load changes the regions and the bytes of the tile, if anything. -/
theorem loadTile_spec (n : Nat) (s : State) :
    (∃ rs m, tileOf (loadTile n s) n = { tileOf s n with regions := rs, sram := m }) ∧ OnlyTile n s (loadTile n s) := by
  have hsame : (∃ rs m, tileOf s n = { tileOf s n with regions := rs, sram := m }) ∧ OnlyTile n s s :=
    ⟨⟨_, _, rfl⟩, .refl n s⟩
  unfold loadTile
  split
  · exact hsame
  · dsimp only
    split
    · exact hsame
    · split
      · exact hsame
      · exact ⟨⟨_, _, tileOf_modTile (tileOf_id s n)⟩, modTile_onlyTile (tileOf_id s n)⟩

/-- The regions that the image copy gives a tile are those it has after a load. -/
theorem loadTile_regions {p : Pid} {c : TileCode} (howner : tileOwner s n = some p)
    (hcode : codeOf (partOf s p) (relOf (partOf s p) (n / 64)) = some c)
    (hrs : c.regions.filter (fun r => r.tile == n % 64) ≠ []) :
    (tileOf (loadTile n s) n).regions = c.regions.filter (fun r => r.tile == n % 64) := by
  unfold loadTile
  simp only [howner, hcode]
  rw [if_neg (by simp [hrs]), tileOf_modTile (tileOf_id s n)]

/-- The tile's reset is over and its image copy loaded. -/
def reloaded (n : Nat) (s : State) : State := loadTile n (modTile n (fun x => { x with resetting := false }) s)

theorem reloaded_spec (n : Nat) (s : State) :
    (∃ rs m, tileOf (reloaded n s) n = { tileOf s n with resetting := false, regions := rs, sram := m })
    ∧ OnlyTile n s (reloaded n s) := by
  obtain ⟨⟨rs, m, hload⟩, honly⟩ := loadTile_spec n (modTile n (fun x => { x with resetting := false }) s)
  rw [tileOf_modTile (by simp)] at hload
  exact ⟨⟨rs, m, hload⟩, .trans modTile_onlyTile honly⟩

/-- Where a retry ends on a tile, that is logged as a transient fault. -/
def retryEnded (n off : Nat) (s : State) : State :=
  transientFault (ownerNo (tileOwner s n)) (unitId 0x01 n) 0x0002 (sramTag n off)
    (modTile n (fun x => { x with retry := none }) s)

theorem retryEnded_spec (n off : Nat) (s : State) :
    tileOf (retryEnded n off s) n = { tileOf s n with retry := none } ∧ OnlyTile n s (retryEnded n off s) := by
  have hlog : LoggedTo (modTile n (fun x => { x with retry := none }) s) (retryEnded n off s) :=
    transientFault_logged _ _ _ _ (.refl _)
  exact ⟨(hlog.tile n).trans (tileOf_modTile (by simp)), .trans modTile_onlyTile hlog.onlyTile⟩

/-- After the reload TILE_RESET_DONE at most ends the tile's retry. -/
theorem doTileResetDone_cases (h : (tileOf s n).resetting = true) :
    doTileResetDone n s = reloaded n s ∨ ∃ off, doTileResetDone n s = retryEnded n off (reloaded n s) := by
  rw [doTileResetDone, if_neg (by simp [h])]
  dsimp only
  rw [← reloaded]
  cases (tileOf s n).retry with
  | none => exact .inl rfl
  | some off =>
    dsimp only
    exact (ite_eq_or_eq _ _ _).imp_right fun e => ⟨off, e⟩

theorem doTileResetDone_spec (h : (tileOf s n).resetting = true) :
    (∃ o, tileOf (doTileResetDone n s) n = { tileOf (reloaded n s) n with retry := o })
    ∧ OnlyTile n (reloaded n s) (doTileResetDone n s) := by
  rcases doTileResetDone_cases h with e | ⟨off, e⟩
  · rw [e]; exact ⟨⟨_, rfl⟩, .refl n _⟩
  · rw [e]
    obtain ⟨htile, honly⟩ := retryEnded_spec n off (reloaded n s)
    exact ⟨⟨none, htile⟩, honly⟩

/-- A tile reset clears the tile but for its fence and its retry, and leaves the other tiles alone. -/
theorem beginTileReset_spec (n : Nat) (s : State) :
    tileOf (beginTileReset n s) n =
      { id := n, resetting := true, fenced := (tileOf s n).fenced, retry := (tileOf s n).retry }
    ∧ OnlyTile n s (beginTileReset n s) := by
  unfold beginTileReset
  exact ⟨by simp, .trans modTile_onlyTile (modMesh_onlyTile _ _)⟩

/-! ## Errors of a tile's SRAM (R143 to R146) -/

/-- An error that the re-read mends is a transient fault. -/
theorem sramError_transient {off : Nat} (hon : domOn s (clusterDom (n / 64)) = true) (hf : (tileOf s n).fenced = false)
    (hretry : (tileOf s n).retry = none) :
    sramError n off true s = transientFault (ownerNo (tileOwner s n)) (unitId 0x01 n) 0x0002 (sramTag n off) s := by
  rw [sramError, if_neg (by simp [hon, hf]), if_neg (by simp [hretry]), if_pos rfl]

/-- A first error that stays resets the tile with its retry begun, and beyond that at most marks the entries that ran on
it. -/
theorem sramError_first {off : Nat} (hon : domOn s (clusterDom (n / 64)) = true) (hf : (tileOf s n).fenced = false)
    (hretry : (tileOf s n).retry = none) :
    (sramError n off false s).units = (beginTileReset n (modTile n (fun x => { x with retry := some off }) s)).units
    ∧ (sramError n off false s).log = s.log ∧ (sramError n off false s).host = s.host := by
  rw [sramError, if_neg (by simp [hon, hf]), if_neg (by simp [hretry]), if_neg Bool.false_ne_true]
  dsimp only
  split <;> exact ⟨rfl, rfl, rfl⟩

theorem sramError_second {off : Nat} (hon : domOn s (clusterDom (n / 64)) = true) (hf : (tileOf s n).fenced = false)
    (hretry : (tileOf s n).retry.isSome = true) (ok : Bool) : sramError n off ok s = tileLasting n off s := by
  rw [sramError, if_neg (by simp [hon, hf]), if_pos hretry]

theorem lastingFence_units (a u f c g l) (s : State) : (lastingFence a u f c g l s).units = s.units :=
  (countFence_logged l (lastingFault_logged a u f c g (.refl s))).units

/-- A lasting fault of a tile that no partition holds fences it and takes its cluster out of use. -/
theorem tileLasting_spec {off : Nat} (howner : tileOwner s n = none) :
    (tileOf (tileLasting n off s) n).fenced = true ∧ n / 64 ∈ (tileLasting n off s).units.unavailable
    ∧ (∀ k, k ≠ n → tileOf (tileLasting n off s) k = tileOf s k)
    ∧ ∀ p, (partOf (tileLasting n off s) p).st = (partOf s p).st := by
  let u := lastingFence 0xFF (unitId 0x01 n) 0x0002 2 (sramTag n off) [] s
  have htiles (k) : tileOf u k = tileOf s k := tileOf_congr (by rw [lastingFence_units]) k
  have heq : tileLasting n off s = modUnits (fun u => { u with unavailable := insSorted (n / 64) u.unavailable })
      (modTile n (fun x => { x with fenced := true, resetting := false, retry := none }) u) := by
    unfold tileLasting
    rw [howner]
    rfl
  rw [heq]
  refine ⟨?_, mem_insSorted.2 (.inl rfl), fun k hk => ?_, (lastingFence_spares _ _ _ _ _ _ (.refl s)).st⟩
  · simp
  · rw [tileOf_modUnavailable (insSorted (n / 64)), tileOf_modTile_ne (by simp) hk, htiles]

theorem cntFaults_log (a g) (s : State) : (cntFaults a g s).log = s.log := by
  unfold cntFaults
  dsimp only
  split <;> rfl

theorem cntFaults_host (a g) (s : State) : (cntFaults a g s).host = s.host := by
  unfold cntFaults
  dsimp only
  split <;> rfl

/-- A corrected error is counted in its tile, and outside the units in the fault counters only. -/
theorem tileCorrected_spec (n : Nat) (s : State) :
    tileOf (tileCorrected n s) n =
      { tileOf s n with corrected := (tileOf s n).corrected + 1, correctedSec := (tileOf s n).correctedSec + 1 }
    ∧ OnlyTile n s (tileCorrected n s) ∧ (tileCorrected n s).log = s.log ∧ (tileCorrected n s).host = s.host := by
  have hcnt (o g) (u : State) : LoggedTo u (cntFaults o g u) := cntFaults_logged _ _ (.refl u)
  unfold tileCorrected
  exact ⟨by rw [(hcnt _ _ _).tile, tileOf_modTile (by simp)], .trans modTile_onlyTile (hcnt _ _ _).onlyTile,
    cntFaults_log _ _ _, cntFaults_host _ _ _⟩

/-- An uncorrectable error in a line without a region, which no re-read mends, clears the line and is logged. -/
theorem doTileScrub_uncovered {line : Nat} (hon : domOn s (clusterDom (n / 64)) = true)
    (hf : (tileOf s n).fenced = false) (hline : lineCovered (tileOf s n) line = false) :
    LoggedTo (modTile n (fun x => { x with sram := memClear x.sram (fun a => a / 64 == line) }) s)
      (doTileScrub n line false (some false) s) := by
  rw [doTileScrub, if_neg (by simp [hon, hf])]
  simp only [Bool.false_eq_true, if_false, hline]
  exact transientFault_logged _ _ _ _ (.refl _)

/-! ## The end of a partition's work -/

/-- The open requests, the tiles, the available clusters and every partition's state, grants and buffers are as
before. -/
structure EndsWork (s t : State) : Prop where
  reqs : t.host.reqs = s.host.reqs
  tiles : t.units.tiles = s.units.tiles
  unavailable : t.units.unavailable = s.units.unavailable
  st : ∀ p, (partOf t p).st = (partOf s p).st
  g : ∀ p, (partOf t p).g = (partOf s p).g
  held : ∀ p, (partOf t p).held = (partOf s p).held

theorem EndsWork.refl (s : State) : EndsWork s s := ⟨rfl, rfl, rfl, fun _ => rfl, fun _ => rfl, fun _ => rfl⟩

theorem EndsWork.trans (h : EndsWork r s) (k : EndsWork s t) : EndsWork r t :=
  ⟨k.reqs.trans h.reqs, k.tiles.trans h.tiles, k.unavailable.trans h.unavailable, fun p => (k.st p).trans (h.st p),
    fun p => (k.g p).trans (h.g p), fun p => (k.held p).trans (h.held p)⟩

theorem State.LoggedTo.endsWork (h : LoggedTo s t) : EndsWork s t :=
  ⟨h.reqs, by rw [h.units], by rw [h.units], h.st, h.g, h.held⟩

theorem foldl_endsWork {α : Type} {l : List α} {f : State → α → State} (hf : ∀ x a, EndsWork x (f x a)) (s : State) :
    EndsWork s (l.foldl f s) :=
  List.foldlRecOn l f (motive := EndsWork s) (.refl s) fun x hx a _ => hx.trans (hf x a)

theorem nvmeFence_endsWork (d : Nat) (c : NvmeCmd) (s : State) : EndsWork s (nvmeFence d c s) :=
  { EndsWork.refl s with }

theorem nvmeFenceWhere_endsWork (w : NvmeCmd → Bool) (s : State) : EndsWork s (nvmeFenceWhere w s) :=
  foldl_endsWork (fun x d => EndsWork.trans (s := modDrive d _ x) { EndsWork.refl x with }
    (foldl_endsWork (fun y c => nvmeFence_endsWork d c y) _)) s

theorem killJobs_endsWork (a b c) (s : State) : EndsWork s (killJobs a b c s) := { EndsWork.refl s with }

theorem modCtrl_endsWork (g : CtrlSt → CtrlSt) (s : State) : EndsWork s (modCtrl g s) := { EndsWork.refl s with }

theorem modPart_endsWork {p : Pid} {f : Part → Part} (s : State) (hst : ∀ q, (f q).st = q.st := by exact fun _ => rfl)
    (hg : ∀ q, (f q).g = q.g := by exact fun _ => rfl) (hheld : ∀ q, (f q).held = q.held := by exact fun _ => rfl) :
    EndsWork s (modPart p f s) := by
  have hsame (q : Pid) : partOf (modPart p f s) q = f (partOf s q) ∨ partOf (modPart p f s) q = partOf s q := by
    by_cases e : q = p
    · rw [e]; exact .inl (partOf_modPart p f)
    · exact .inr (partOf_modPart_ne f e)
  refine ⟨rfl, rfl, rfl, fun q => ?_, fun q => ?_, fun q => ?_⟩ <;> rcases hsame q with h | h <;> rw [h]
  · exact hst _
  · exact hg _
  · exact hheld _

theorem killWork_endsWork (p : Pid) (o : Option Nat) (s : State) : EndsWork s (killWork p o s) := by
  unfold killWork
  exact .trans (killJobs_endsWork _ _ _ s)
    (.trans (nvmeFenceWhere_endsWork _ _) (.trans (modPart_endsWork _) (modCtrl_endsWork _ _)))

theorem dropRequests_endsWork (p : Pid) (w : ReserveReq → Bool) (s : State) : EndsWork s (dropRequests p w s) :=
  { EndsWork.refl s with }

/-- With no open request of the partition a fence ends none. -/
theorem fenceOpen_of_no_reqs {p : Pid} (h : ∀ q ∈ s.host.reqs, q.part ≠ p.val) : fenceOpen p s = s := by
  unfold fenceOpen
  dsimp only
  rw [List.filter_eq_nil_iff.2 (by simpa using fun q hq e => absurd e (h q hq)), List.foldl_nil]

/-! ## A fence of a partition (R478) -/

/-- A partition fenced at its last boundary: FENCED with the cause, and no step, wait or pause left. -/
def Part.fencedFor (cause : Nat) (q : Part) : Part :=
  { q with
    st := .fenced
    cause := cause
    cnt := { q.cnt with withdrawn := satAdd 64 q.cnt.withdrawn (sumL (q.sc.steps.map (fun x => x.samples.length))) }
    streams := q.streams.map (fun x =>
      if x.codec.st = 1 || x.codec.st = 4 then { x with codec := { x.codec with st := 3 } } else x)
    sc := { q.sc with steps := [], entries := [], wait := .none, asking := false, pausing := false,
                      pauseReq := none, next := q.ld.cursor } }

/-- The fence of an ENABLED partition without open requests, on which no pause or teardown waits, ends its work and then
changes the partition alone. -/
theorem fencePart_of_no_reqs {p : Pid} (c : Nat) (hst : (partOf s p).st = .enabled)
    (htd : (partOf s p).sc.teardownAtBoundary = false) (hpause : (partOf s p).sc.pauseReq = none)
    (hreqs : ∀ q ∈ s.host.reqs, q.part ≠ p.val) :
    ∃ u, EndsWork s u ∧ fencePart p c s = modPart p (Part.fencedFor c) u := by
  let v := killWork p none (countFence [p] (logEvent p.val 0x0006 c (packCursor (partOf s p).ld.cursor)
    (packCursor (partOf s p).ld.cursor / 2 ^ 32) 0 s))
  have hv : EndsWork s v :=
    (countFence_logged [p] (logEvent_logged _ _ _ _ _ _ (.refl s))).endsWork.trans (killWork_endsWork p none _)
  refine ⟨dropRequests p (fun _ => true) v, hv.trans (dropRequests_endsWork _ _ v), ?_⟩
  have hopen : fenceOpen p v = v := fenceOpen_of_no_reqs (by rw [hv.reqs]; exact hreqs)
  rw [fencePart, if_neg (not_not.2 hst)]
  dsimp only
  rw [hopen, htd, hpause, if_neg Bool.false_ne_true]
  rfl

end Sys2Proof.Machine

namespace Sys2Proof.Claims
open Sys2Proof.Machine

theorem tileResetDoneRow_holds : tileResetDoneRow := by
  intro n s h
  obtain ⟨⟨o, hdone⟩, hafter⟩ := doTileResetDone_spec h
  obtain ⟨⟨rs, m, hload⟩, hbefore⟩ := reloaded_spec n s
  have honly := hbefore.trans hafter
  refine ⟨_, rfl, by rw [hdone, hload], by rw [hdone, hload], honly.other, honly.mem, honly.pool, ?_⟩
  intro p c howner hcode hrs
  rw [hdone]
  exact loadTile_regions (s := modTile n (fun x => { x with resetting := false }) s) howner hcode hrs

theorem tileSramRow_holds : tileSramRow := by
  intro n off s hon hf
  refine ⟨fun hretry => ⟨_, rfl, ?_⟩, fun hretry => ⟨_, rfl, ?_⟩, fun hretry howner => ⟨_, rfl, ?_⟩⟩
  · rw [sramError_transient hon hf hretry]
    exact transientFault_logged _ _ _ _ (.refl s)
  · obtain ⟨hunits, hlog, hhost⟩ := sramError_first (off := off) hon hf hretry
    have hsame (k) := tileOf_congr (congrArg UnitSt.tiles hunits) k
    obtain ⟨htile, hreset⟩ := beginTileReset_spec n (modTile n (fun x => { x with retry := some off }) s)
    rw [tileOf_modTile (by simp), hf] at htile
    have honly := OnlyTile.trans modTile_onlyTile hreset
    exact ⟨(hsame n).trans htile, fun k hk => (hsame k).trans (honly.other k hk),
      (congrArg UnitSt.mem hunits).trans honly.mem, hlog, hhost⟩
  · rw [sramError_second hon hf hretry]
    exact tileLasting_spec howner

theorem tileScrubRow_holds : tileScrubRow := by
  intro n line s hon hf
  refine ⟨⟨_, rfl, ?_⟩, fun hline => ⟨_, rfl, ?_⟩⟩
  · obtain ⟨htile, honly, hlog, hhost⟩ := tileCorrected_spec n s
    rw [show doTileScrub n line true none s = tileCorrected n s by rw [doTileScrub, if_neg (by simp [hon, hf])]; rfl]
    exact ⟨htile, honly.other, hlog, hhost⟩
  · have htile := ((doTileScrub_uncovered hon hf hline).tile n).trans (tileOf_modTile (by simp))
    refine ⟨by rw [htile, hf], by rw [htile], fun hwf a => ?_⟩
    rw [htile, memRead_memClear hwf]
    simp

theorem correctedSecondRow_holds : correctedSecondRow := by
  intro s
  refine ⟨_, rfl, State.LoggedTo.modUnits ?_ _⟩
  have htiles : s.LoggedTo (s.units.tiles.foldl (fun a x =>
      if 16 < x.correctedSec then logEvent (ownerNo (tileOwner s x.id)) 0x0008 (unitId 0x01 x.id) x.correctedSec 0 0 a
      else a) s) :=
    List.foldlRecOn _ _ (motive := s.LoggedTo) (.refl s) fun x hx _ _ => by
      split
      · exact logEvent_logged _ _ _ _ _ _ hx
      · exact hx
  refine List.foldlRecOn _ _ (motive := s.LoggedTo) htiles fun x hx _ _ => ?_
  dsimp only
  split
  · exact logDev_logged _ _ _ _ _ hx
  · exact hx

theorem tileImageFaultRow_holds : tileImageFaultRow := by
  intro n k a p s howner hst htd hpause hreqs
  let v := logEvent p.val 0x000A (unitId 0x01 n) (imgFaultCode k) a 0 s
  have hlog : s.LoggedTo v := logEvent_logged _ _ _ _ _ _ (.refl s)
  obtain ⟨u, hu, hfence⟩ := fencePart_of_no_reqs (s := v) (p := p) 0x000A (by rw [hlog.st, hst])
    (by rw [hlog.sc, htd]) (by rw [hlog.sc, hpause]) (by rw [hlog.reqs]; exact hreqs)
  have hwork := hlog.endsWork.trans hu
  refine ⟨modPart p (Part.fencedFor 0x000A) u, congrArg Host.Outcome.next ?_, ?_, ?_, ?_, ?_, ?_, hwork.tiles,
    hwork.unavailable, fun q hq => ?_⟩
  · rw [doTileImageFault, howner]
    exact hfence
  · rw [partOf_modPart]; rfl
  · rw [partOf_modPart]; rfl
  · rw [partOf_modPart]; exact hwork.g p
  · rw [partOf_modPart]; rfl
  · rw [partOf_modPart]; exact hwork.held p
  · rw [partOf_modPart_ne _ hq, hwork.st]

theorem slotStartRow_holds : slotStartRow := by
  intro s hon
  have heq : doSlotStart s = modMesh (fun m => if m.slotRunning then { m with slot := (m.slot + 1) % 64 }
      else { m with slot := 0, slotRunning := true }) s := by
    rw [doSlotStart, if_neg (by rcases hon with h | h <;> simp [h])]
  refine ⟨fun hrun => ⟨_, rfl, ?_⟩, fun hrun => ⟨_, rfl, ?_⟩⟩
  · rw [heq]; simp [modMesh, modUnits, hrun]
  · rw [heq]; simp [modMesh, modUnits, hrun]

end Sys2Proof.Claims

namespace Sys2Proof

/-- Settles O34: each event changes its own tile and logs (`OnlyTile`, `LoggedTo`), an image fault ends its partition's
work and then changes that partition alone (`fencePart_of_no_reqs`). -/
theorem tileEvents : Obligations.TileEvents :=
  ⟨Claims.tileResetDoneRow_holds, Claims.tileSramRow_holds, Claims.tileScrubRow_holds, Claims.correctedSecondRow_holds,
    Claims.tileImageFaultRow_holds, Claims.slotStartRow_holds⟩

end Sys2Proof
end

/-! # Near memory: isolation of windows

A translated address lies in a half-row of its window, a write through a window changes translated addresses only, and
so a read through a window without a common half-row gives the same bytes. -/

section
namespace Sys2Proof.Machine
variable {w v : Window}

/-! ## Where a window address lies -/

theorem chanOf_lt {j : Nat} (hj : j < 16) (west : Bool) : chanOf west j < 32 := by
  unfold chanOf
  split_ifs <;> omega

/-- Every channel of a half-row lies in its half (Table MEM-2). -/
theorem chanWest_chanOf : ∀ west, ∀ j < 16, chanWest (chanOf west j) = west := by decide

/-- A DPA names its half-row in the bits of the channel and of the row, above the offset of 25 bits (R179). -/
theorem dpaHalfRow_of_fields {c row off : Nat} (hc : c < 32) (hrow : row < 1024) (hoff : off < 2 ^ 25) :
    dpaHalfRow (c * 2 ^ 35 + row * 2 ^ 25 + off) = ⟨chanWest c, row⟩ := by
  have hchan : (c * 2 ^ 35 + row * 2 ^ 25 + off) / 2 ^ 35 % 32 = c := by omega
  have hrow' : (c * 2 ^ 35 + row * 2 ^ 25 + off) / 2 ^ 25 % 1024 = row := by omega
  rw [dpaHalfRow, hchan, hrow']

/-- The hash of R182 leaves each byte of a granule in one of its two half-rows. -/
theorem dpaHalfRow_granuleDpa {g : Granule} {q : Nat} (hq : q < gib) (ha : g.a.row < 1024) (hb : g.b.row < 1024) :
    dpaHalfRow (granuleDpa g q) = g.a ∨ dpaHalfRow (granuleDpa g q) = g.b := by
  have hoff : q / 256 / 32 * 256 + q % 256 < 2 ^ 25 := by unfold gib at hq; omega
  have hplace (h : HR) (hrow : h.row < 1024) (j : Nat) :
      dpaHalfRow (chanOf h.west (j % 16) * 2 ^ 35 + h.row * 2 ^ 25 + q / 256 / 32 * 256 + q % 256) = h := by
    have hj : j % 16 < 16 := Nat.mod_lt _ (by omega)
    rw [Nat.add_assoc, dpaHalfRow_of_fields (chanOf_lt hj _) hrow hoff, chanWest_chanOf _ _ hj]
  unfold granuleDpa
  dsimp only
  split
  · exact .inl (hplace g.a ha _)
  · exact .inr (hplace g.b hb _)

theorem halfRows_of_mem_winMode {g : Granule} {m : Nat} (h : g ∈ winMode w m) :
    g.a ∈ winHalfRows w ∧ g.b ∈ winHalfRows w := by
  have hg : g ∈ w.all ++ w.west ++ w.east := by
    unfold winMode at h
    split_ifs at h <;> simp_all
  exact ⟨List.mem_flatMap.2 ⟨g, hg, by simp⟩, List.mem_flatMap.2 ⟨g, hg, by simp⟩⟩

/-- A translated address lies in a half-row of the window (R181, R185). -/
theorem dpaHalfRow_of_translate {wa d : Nat} (h : translate w wa = some d) (hrows : ∀ x ∈ winHalfRows w, x.row < 1024) :
    dpaHalfRow d ∈ winHalfRows w := by
  obtain ⟨g, hget, rfl⟩ := Option.map_eq_some_iff.1 h
  obtain ⟨ha, hb⟩ := halfRows_of_mem_winMode (List.mem_of_getElem? hget)
  have hq : wa % 2 ^ 40 % gib < gib := Nat.mod_lt _ (by decide)
  rcases dpaHalfRow_granuleDpa hq (hrows _ ha) (hrows _ hb) with e | e <;> rw [e] <;> assumption

/-- Windows without a common half-row translate no two addresses alike. -/
theorem translate_ne_of_disjoint (hsep : ∀ x ∈ winHalfRows w, x ∉ winHalfRows v)
    (hw : ∀ x ∈ winHalfRows w, x.row < 1024) (hv : ∀ x ∈ winHalfRows v, x.row < 1024) {b d : Nat}
    (hb : translate v b = some d) (a : Nat) : translate w a ≠ some d := fun ha =>
  hsep _ (dpaHalfRow_of_translate ha hw) (dpaHalfRow_of_translate hb hv)

/-! ## Bytes through a window -/

/-- A write through a window leaves every address that it does not reach. -/
theorem memRead_winWriteAt_of_ne {d : Nat} (bs : List Byte) : ∀ (wa : Nat) (m : MemSt), memWf m.cells = true →
    (∀ k, k < bs.length → translate w (wa + k) ≠ some d) →
    memRead (winWriteAt w wa bs m).cells d = memRead m.cells d := by
  induction bs with
  | nil => exact fun _ _ _ _ => rfl
  | cons b bs ih =>
    intro wa m hwf hne
    have hrest (k : Nat) (hk : k < bs.length) : translate w (wa + 1 + k) ≠ some d := by
      rw [Nat.add_right_comm]
      exact hne (k + 1) (by simpa using hk)
    rw [winWriteAt]
    split
    next e he =>
      have hde : d ≠ e := fun h => hne 0 (by simp) (he.trans (congrArg some h.symm))
      rw [ih _ _ (memWrite_wf _ _ _ hwf) hrest, memRead_write_other _ _ _ _ hde hwf]
    next => exact ih _ _ hwf hrest

/-- What a window reads depends on its translated addresses only. -/
theorem winReadAt_congr {m m' : MemSt}
    (h : ∀ a d, translate w a = some d → memRead m'.cells d = memRead m.cells d) (wa n : Nat) :
    winReadAt m' w wa n = winReadAt m w wa n := by
  refine List.map_congr_left fun i _ => ?_
  cases he : translate w (wa + i) with
  | none => rfl
  | some d => exact h _ d he

theorem winReadAt_winWriteAt_of_disjoint {m : MemSt} (hwf : memWf m.cells = true)
    (hsep : ∀ x ∈ winHalfRows w, x ∉ winHalfRows v) (hw : ∀ x ∈ winHalfRows w, x.row < 1024)
    (hv : ∀ x ∈ winHalfRows v, x.row < 1024) (a : Nat) (bs : List Byte) (wa n : Nat) :
    winReadAt (winWriteAt w a bs m) v wa n = winReadAt m v wa n :=
  winReadAt_congr (fun _ _ hd => memRead_winWriteAt_of_ne bs a m hwf fun _ _ =>
    translate_ne_of_disjoint hsep hw hv hd _) wa n

/-! ## The access -/

/-- A write of plain bytes inside the window that meets no region marked RO is a write through the window (R185,
R194). -/
theorem doNearMemory_write {a : MemAccess} {bs : List Byte} {s : State} (h2 : domOn s 2 = true) (hmx : a.mx = none)
    (hwrite : a.write = some bs) (hin : inWindow (partOf s a.part).g.win a.addr bs.length = true)
    (hro : writesRo (partOf s a.part) a.addr bs.length = false) :
    doNearMemory a s = winWrite a.part a.addr bs s := by
  simp [doNearMemory, h2, hmx, hwrite, hin, hro]

end Sys2Proof.Machine

namespace Sys2Proof.Claims
open Sys2Proof.Machine

theorem windowIsolation_holds : windowIsolation := by
  intro a bs q s h2 ⟨hmx, _⟩ hwrite hin hro hsep hrows hwf
  refine ⟨_, congrArg Host.Outcome.next (doNearMemory_write h2 hmx hwrite hin hro), fun wa n => ?_⟩
  exact winReadAt_winWriteAt_of_disjoint hwf hsep (hrows _ (by simp)) (hrows _ (by simp)) _ _ _ _

end Sys2Proof.Claims

namespace Sys2Proof

/-- Settles O37: translated addresses keep to the half-rows of their window (`dpaHalfRow_of_translate`), so what one
window writes reaches no address that a disjoint one reads. -/
theorem windowsAreIsolated : Obligations.WindowsAreIsolated := Claims.windowIsolation_holds

end Sys2Proof
end

/-! # The buffer pool: bytes of a buffer

The bytes of a buffer lie at distinct addresses (the hash of R182 is one to one within a granule, and a buffer keeps to
one row), so a write through `bufWrite` changes the bytes it names and clears the rest of the sectors it is first in. -/

section
namespace Sys2Proof.Machine

/-! ## The hash of R182 -/

/-- The slot of a granule's 256 B unit (R182): the halves of the granule take 16 channels each. -/
def slotOf (u : Nat) : Nat := ((((u ^^^ (u >>> 5)) ^^^ (u >>> 10)) ^^^ (u >>> 15)) ^^^ (u >>> 20)) % 32

/-- What the unit's higher bits add to its slot. -/
def slotMask (v : Nat) : Nat := (((v ^^^ (v >>> 5)) ^^^ (v >>> 10)) ^^^ (v >>> 15)) % 32

theorem slotOf_eq (u : Nat) : slotOf u = u % 32 ^^^ slotMask (u / 32) := by
  have hdiv : u / 32 = u >>> 5 := (Nat.shiftRight_eq_div_pow u 5).symm
  simp only [slotOf, slotMask, hdiv, ← Nat.shiftRight_add, ← Nat.xor_mod_two_pow (n := 5), Nat.xor_assoc]

theorem slotOf_lt (u : Nat) : slotOf u < 32 := Nat.mod_lt _ (by decide)

/-- Units of one group of 32 have distinct slots. -/
theorem eq_of_slotOf_eq {u v : Nat} (hgroup : u / 32 = v / 32) (h : slotOf u = slotOf v) : u = v := by
  rw [slotOf_eq, slotOf_eq, hgroup] at h
  have hlow : u % 32 = v % 32 := Nat.xor_left_injective h
  omega

theorem granuleDpa_eq (g : Granule) (q : Nat) :
    granuleDpa g q = chanOf (if slotOf (q / 256) < 16 then g.a else g.b).west (slotOf (q / 256) % 16) * 2 ^ 35
      + (if slotOf (q / 256) < 16 then g.a else g.b).row * 2 ^ 25 + (q / 256 / 32 * 256 + q % 256) := by
  rw [← Nat.add_assoc]
  rfl

theorem chanOf_injective {west : Bool} {i j : Nat} (hi : i < 16) (hj : j < 16) (h : chanOf west i = chanOf west j) :
    i = j := by
  unfold chanOf at h
  split_ifs at h <;> omega

/-- A DPA in a known row gives its channel and its offset (R179). -/
theorem dpaFields_injective {c e row x y : Nat} (hx : x < 2 ^ 25) (hy : y < 2 ^ 25)
    (h : c * 2 ^ 35 + row * 2 ^ 25 + x = e * 2 ^ 35 + row * 2 ^ 25 + y) : c = e ∧ x = y := by
  omega

/-- Within a granule of two half-rows translation is one to one (R182). -/
theorem granuleDpa_injective {g : Granule} {q k : Nat} (hq : q < gib) (hk : k < gib) (ha : g.a.row < 1024)
    (hb : g.b.row < 1024) (hne : g.a ≠ g.b) (h : granuleDpa g q = granuleDpa g k) : q = k := by
  have hoff {x : Nat} (hx : x < gib) : x / 256 / 32 * 256 + x % 256 < 2 ^ 25 := by unfold gib at hx; omega
  have hrow (x : Nat) : (if slotOf (x / 256) < 16 then g.a else g.b).row < 1024 := by split <;> assumption
  have hchan (x : Nat) (west : Bool) : chanOf west (slotOf (x / 256) % 16) < 32 :=
    chanOf_lt (Nat.mod_lt _ (by decide)) west
  have hhalf : (if slotOf (q / 256) < 16 then g.a else g.b) = if slotOf (k / 256) < 16 then g.a else g.b := by
    have hdpa := congrArg dpaHalfRow h
    rw [granuleDpa_eq, granuleDpa_eq, dpaHalfRow_of_fields (hchan _ _) (hrow _) (hoff hq),
      dpaHalfRow_of_fields (hchan _ _) (hrow _) (hoff hk), chanWest_chanOf _ _ (Nat.mod_lt _ (by decide)),
      chanWest_chanOf _ _ (Nat.mod_lt _ (by decide))] at hdpa
    exact hdpa
  have hside : slotOf (q / 256) < 16 ↔ slotOf (k / 256) < 16 := by
    split_ifs at hhalf with hx hy hy
    · exact iff_of_true hx hy
    · exact absurd hhalf hne
    · exact absurd hhalf.symm hne
    · exact iff_of_false hx hy
  rw [granuleDpa_eq, granuleDpa_eq, ← hhalf] at h
  obtain ⟨hchanEq, hplace⟩ := dpaFields_injective (hoff hq) (hoff hk) h
  have hslot16 : slotOf (q / 256) % 16 = slotOf (k / 256) % 16 :=
    chanOf_injective (Nat.mod_lt _ (by decide)) (Nat.mod_lt _ (by decide)) hchanEq
  have hslot : slotOf (q / 256) = slotOf (k / 256) := by
    have := slotOf_lt (q / 256)
    have := slotOf_lt (k / 256)
    omega
  have hunit : q / 256 = k / 256 := eq_of_slotOf_eq (by omega) hslot
  omega

/-! ## Addresses of a buffer -/

/-- Five classes have a size (R205). -/
theorem lt_five_of_lt_classSize {c b : Nat} (h : b < classSize c) : c < 5 := by
  by_contra hc
  rw [classSize, nth, List.getD_eq_default _ _ (by simpa using hc)] at h
  exact Nat.not_lt_zero b h

/-- A buffer is whole sectors, and a GiB is whole buffers (R205, R206). -/
theorem classSize_dvd : ∀ c < 5, 256 ∣ classSize c ∧ classSize c ∣ gib := by decide

/-- A buffer keeps to one GiB of its class. -/
theorem bufferOffset_div_gib {c i b : Nat} (hb : b < classSize c) :
    (i * classSize c + b) / gib = i / (gib / classSize c) := by
  obtain ⟨m, hm⟩ := (classSize_dvd c (lt_five_of_lt_classSize hb)).2
  have hpos : 0 < classSize c := Nat.zero_lt_of_lt hb
  rw [hm, Nat.mul_div_cancel_left _ hpos, ← Nat.div_div_eq_div_mul, Nat.mul_comm, Nat.mul_add_div hpos,
    Nat.div_eq_of_lt hb, Nat.add_zero]

/-- The rows of the pool area are rows of the memory (R206), an absent one standing for row 0. -/
theorem nth_lt_of_forall_lt {l : List Nat} {n : Nat} (h : ∀ r ∈ l, r < n) (hn : 0 < n) (k : Nat) : nth l k < n := by
  rw [nth, List.getD_eq_getElem?_getD]
  cases hk : l[k]? with
  | none => exact hn
  | some r => exact h r (List.mem_of_getElem? hk)

/-- Distinct bytes of a buffer lie at distinct addresses (R182, R206). -/
theorem bufferDpa_injective {p : PoolSt} {c i b k : Nat} (hrows : ∀ r ∈ p.area, r < 1024) (hb : b < classSize c)
    (hk : k < classSize c) (h : bufferDpa p c i b = bufferDpa p c i k) : b = k := by
  simp only [bufferDpa, bufferOffset_div_gib hb, bufferOffset_div_gib hk] at h
  have hrow := nth_lt_of_forall_lt hrows (by decide) (p.metaRows + sumL (p.rows.take c) + i / (gib / classSize c))
  have hmod := granuleDpa_injective (Nat.mod_lt _ (by decide)) (Nat.mod_lt _ (by decide)) hrow hrow (by simp) h
  have hdivb := bufferOffset_div_gib (i := i) hb
  have hdivk := bufferOffset_div_gib (i := i) hk
  have hoff : i * classSize c + b = i * classSize c + k := by
    rw [← Nat.div_add_mod (i * classSize c + b) gib, hmod, hdivb, ← hdivk, Nat.div_add_mod]
  exact Nat.add_left_cancel hoff

/-! ## Bytes in memory -/

variable {s : State} {d : Desc} {b off : Nat}

/-- Near memory is canonical and the pool's rows are rows of it. -/
structure PoolPlaced (s : State) : Prop where
  rows : ∀ r ∈ s.units.pool.area, r < 1024
  cells : memWf s.units.mem.cells = true

/-- The byte in memory behind an offset of a buffer, whether or not its sector has been written. -/
def bufByte (s : State) (d : Desc) (b : Nat) : Byte :=
  memRead s.units.mem.cells (bufferDpa s.units.pool d.cls d.index b)

theorem bufRead_one (s : State) (d : Desc) (b : Nat) :
    bufRead s d b 1 = [if d.written.contains (sectorOf b) then bufByte s d b else 0] := rfl

@[simp] theorem bufPut_pool (d : Desc) (off : Nat) (v : Byte) (s : State) :
    (bufPut d off v s).units.pool = s.units.pool := rfl

theorem PoolPlaced.bufPut (h : PoolPlaced s) (d : Desc) (off : Nat) (v : Byte) : PoolPlaced (bufPut d off v s) :=
  ⟨h.rows, memWrite_wf _ _ _ h.cells⟩

theorem PoolPlaced.bufPutN (d : Desc) (bs : List Byte) :
    ∀ {off : Nat} {s : State}, PoolPlaced s → PoolPlaced (bufPutN d off bs s) := by
  induction bs with
  | nil => exact id
  | cons v bs ih => exact fun h => ih (h.bufPut d _ v)

theorem bufByte_bufPut (h : PoolPlaced s) (hoff : off < classSize d.cls) (hb : b < classSize d.cls) (v : Byte) :
    bufByte (bufPut d off v s) d b = if b = off then v else bufByte s d b := by
  split
  case isTrue he => subst he; exact memRead_write_same _ _ _ h.cells
  case isFalse he =>
    exact memRead_write_other _ _ _ _ (fun ha => he (bufferDpa_injective h.rows hb hoff ha)) h.cells

theorem bufByte_bufPutN (hb : b < classSize d.cls) (bs : List Byte) : ∀ {off : Nat} {s : State}, PoolPlaced s →
    off + bs.length ≤ classSize d.cls → bufByte (bufPutN d off bs s) d b =
      if off ≤ b ∧ b < off + bs.length then bs.getD (b - off) 0 else bufByte s d b := by
  induction bs with
  | nil =>
    intro off s _ _
    rw [if_neg (by simp)]
    rfl
  | cons v bs ih =>
    intro off s h hfit
    rw [List.length_cons] at hfit ⊢
    rw [bufPutN, ih (h.bufPut d off v) (by omega), bufByte_bufPut h (by omega) hb]
    by_cases he : b = off
    · subst he
      rw [if_neg (by omega), if_pos rfl, if_pos (by omega), Nat.sub_self, List.getD_cons_zero]
    · by_cases hin : off + 1 ≤ b ∧ b < off + 1 + bs.length
      · obtain ⟨k, rfl⟩ : ∃ k, b = off + 1 + k := ⟨b - (off + 1), by omega⟩
        rw [if_pos hin, if_pos (by omega), Nat.add_sub_cancel_left, Nat.add_assoc, Nat.add_sub_cancel_left,
          Nat.add_comm 1, List.getD_cons_succ]
      · rw [if_neg hin, if_neg he, if_neg (by omega)]

/-! ## A sector's first write -/

/-- The sectors that a write is the first in (R224). -/
def freshSectors (d : Desc) (off n : Nat) : List Nat := (sectorsOf off n).filter (fun k => !d.written.contains k)

/-- Clear whole sectors of a buffer. -/
def clearSectors (d : Desc) (ks : List Nat) (s : State) : State :=
  ks.foldl (fun s k => bufPutN d (k * 256) (zeros 256) s) s

theorem clearSectors_cons (d : Desc) (k : Nat) (ks : List Nat) (s : State) :
    clearSectors d (k :: ks) s = clearSectors d ks (bufPutN d (k * 256) (zeros 256) s) := List.foldl_cons ..

/-- The descriptor after a write: the sectors it was the first in are marked (R224). -/
def markWritten (d : Desc) (off n : Nat) : Desc :=
  { d with written := (freshSectors d off n).foldl (fun l k => insSorted k l) d.written }

theorem bufWrite_eq (d : Desc) (off : Nat) (bs : List Byte) (s : State) : bufWrite d off bs s =
    setDesc (markWritten d off bs.length) (bufPutN d off bs (clearSectors d (freshSectors d off bs.length) s)) := rfl

theorem mem_sectorsOf {off n k : Nat} :
    k ∈ sectorsOf off n ↔ 0 < n ∧ sectorOf off ≤ k ∧ k ≤ sectorOf (off + n - 1) := by
  rw [sectorsOf]
  split
  case isTrue h => simp [h]
  case isFalse h =>
    simp only [List.mem_map, List.mem_range]
    constructor
    · rintro ⟨i, hi, rfl⟩
      omega
    · exact fun ⟨_, hlo, hhi⟩ => ⟨k - sectorOf off, by omega, by omega⟩

theorem mem_freshSectors {off n k : Nat} : k ∈ freshSectors d off n ↔ k ∈ sectorsOf off n ∧ k ∉ d.written := by
  simp [freshSectors]

theorem mem_markWritten {off n k : Nat} : k ∈ (markWritten d off n).written ↔ k ∈ d.written ∨ k ∈ sectorsOf off n := by
  rw [markWritten, mem_foldl_insSorted, mem_freshSectors]
  tauto

/-- Sectors that a write inside a buffer touches lie in the buffer. -/
theorem sector_fits {n k : Nat} (hfit : off + n ≤ classSize d.cls) (hk : k ∈ sectorsOf off n) :
    k * 256 + 256 ≤ classSize d.cls := by
  obtain ⟨hn, -, hle⟩ := mem_sectorsOf.1 hk
  obtain ⟨m, hm⟩ := (classSize_dvd d.cls (lt_five_of_lt_classSize (b := off) (by omega))).1
  unfold sectorOf at hle
  omega

theorem PoolPlaced.clearSectors (d : Desc) (ks : List Nat) : ∀ {s : State}, PoolPlaced s →
    PoolPlaced (clearSectors d ks s) := by
  induction ks with
  | nil => exact id
  | cons k ks ih =>
    intro s h
    rw [clearSectors_cons]
    exact ih (h.bufPutN d _)

theorem bufByte_clearSectors (hb : b < classSize d.cls) {ks : List Nat}
    (hks : ∀ k ∈ ks, k * 256 + 256 ≤ classSize d.cls) (h : PoolPlaced s) :
    bufByte (clearSectors d ks s) d b = if sectorOf b ∈ ks then 0 else bufByte s d b := by
  induction ks generalizing s with
  | nil => rfl
  | cons k ks ih =>
    have hone : bufByte (Machine.bufPutN d (k * 256) (zeros 256) s) d b =
        if sectorOf b = k then 0 else bufByte s d b := by
      have hsec : (k * 256 ≤ b ∧ b < k * 256 + 256) ↔ sectorOf b = k := by unfold sectorOf; omega
      rw [bufByte_bufPutN hb _ h (by simpa using hks k (by simp)), zeros_length, zeros, List.getD_eq_getElem?_getD,
        List.getElem?_getD_replicate_default_eq]
      simp only [hsec]
    rw [clearSectors_cons, ih (fun j hj => hks j (by simp [hj])) (h.bufPutN d _), hone]
    by_cases hk : sectorOf b = k <;> simp [hk]

/-! ## The descriptor after a write -/

@[simp] theorem setDesc_mem (d : Desc) (s : State) : (setDesc d s).units.mem = s.units.mem := rfl

theorem bufByte_setDesc (e d : Desc) (s : State) : bufByte (setDesc e s) d b = bufByte s d b := by
  simp only [bufByte, setDesc, modPool_units]
  split <;> rfl

/-- A descriptor that is put back is the one found for its buffer. -/
theorem descOf_setDesc (d : Desc) (s : State) : descOf (setDesc d s) d.cls d.index = d := by
  simp only [descOf, setDesc, modPool_units]
  split
  case isTrue hany =>
    obtain ⟨x, hx⟩ := Option.isSome_iff_exists.1 (List.find?_isSome.2 (List.any_eq_true.1 hany))
    rw [find?_modFirst (w := fun x => x.cls == d.cls && x.index == d.index) (f := fun _ => d) fun _ _ => by simp, hx]
    rfl
  case isFalse hany =>
    have hnone : s.units.pool.descs.find? (fun x => x.cls == d.cls && x.index == d.index) = none :=
      List.find?_eq_none.2 fun x hx hw => hany (List.any_eq_true.2 ⟨x, hx, hw⟩)
    rw [List.find?_append, hnone]
    simp

/-- The descriptor of a buffer names its class and index. -/
theorem descOf_names (s : State) (c i : Nat) : (descOf s c i).cls = c ∧ (descOf s c i).index = i := by
  rw [descOf]
  cases h : s.units.pool.descs.find? (fun d => d.cls == c && d.index == i) with
  | none => exact ⟨rfl, rfl⟩
  | some d => simpa using List.find?_some h

/-- When a handle is good (R209, R212). -/
theorem lookup_eq_some_iff {h : Nat} : lookup s h = some d ↔ descOf s (hCls h) (hIndex h) = d
    ∧ h < 2 ^ 48 ∧ hCls h < 5 ∧ d.st ≠ 0 ∧ d.gen = hGen h ∧ d.part = hPart h := by
  simp only [lookup, Option.ite_none_right_eq_some, Option.some.injEq, Bool.and_eq_true, decide_eq_true_eq, bne_iff_ne,
    beq_iff_eq, and_assoc]
  constructor
  · rintro ⟨hlt, hcls, hst, hgen, hpart, rfl⟩
    exact ⟨rfl, hlt, hcls, hst, hgen, hpart⟩
  · rintro ⟨rfl, hlt, hcls, hst, hgen, hpart⟩
    exact ⟨hlt, hcls, hst, hgen, hpart, rfl⟩

/-- When a unit of a partition may use a buffer through a handle (R212). -/
theorem ownedBy_eq_some_iff {p : Pid} {u : Owner} {h : Nat} : ownedBy s p u h = some d ↔
    lookup s h = some d ∧ d.st = 1 ∧ d.part = p.val ∧ d.owner = u := by
  rw [ownedBy]
  cases lookup s h with
  | none => simp
  | some e =>
    simp only [Option.ite_none_right_eq_some, Option.some.injEq, Bool.and_eq_true, decide_eq_true_eq, beq_iff_eq,
      and_assoc]
    constructor
    · rintro ⟨hst, hpart, howner, rfl⟩
      exact ⟨rfl, hst, hpart, howner⟩
    · rintro ⟨rfl, hst, hpart, howner⟩
      exact ⟨hst, hpart, howner, rfl⟩

/-- A write leaves the handle good, with the sectors marked. -/
theorem ownedBy_bufWrite {p : Pid} {u : Owner} {h : Nat} (howner : ownedBy s p u h = some d) (bs : List Byte) :
    ownedBy (bufWrite d off bs s) p u h = some (markWritten d off bs.length) := by
  obtain ⟨hlook, howns⟩ := ownedBy_eq_some_iff.1 howner
  obtain ⟨hd, hgood⟩ := lookup_eq_some_iff.1 hlook
  obtain ⟨hcls, hindex⟩ := hd ▸ descOf_names s (hCls h) (hIndex h)
  refine ownedBy_eq_some_iff.2 ⟨lookup_eq_some_iff.2 ⟨?_, hgood⟩, howns⟩
  rw [bufWrite_eq, ← hcls, ← hindex]
  exact descOf_setDesc _ _

/-! ## The write -/

/-- After a write inside a buffer a byte reads what was written there, else what it read before (R224). -/
theorem bufRead_bufWrite (h : PoolPlaced s) {bs : List Byte} (hfit : off + bs.length ≤ classSize d.cls)
    (hb : b < classSize d.cls) : bufRead (bufWrite d off bs s) (markWritten d off bs.length) b 1 =
      if off ≤ b ∧ b < off + bs.length then [bs.getD (b - off) 0] else bufRead s d b 1 := by
  have hfits : ∀ k ∈ freshSectors d off bs.length, k * 256 + 256 ≤ classSize d.cls := fun k hk =>
    sector_fits hfit (mem_freshSectors.1 hk).1
  have hbyte : bufByte (bufWrite d off bs s) (markWritten d off bs.length) b =
      if off ≤ b ∧ b < off + bs.length then bs.getD (b - off) 0
      else if sectorOf b ∈ freshSectors d off bs.length then 0 else bufByte s d b := by
    rw [← bufByte_clearSectors hb hfits h, ← bufByte_bufPutN hb bs (h.clearSectors d _) hfit, bufWrite_eq,
      bufByte_setDesc]
    rfl
  simp only [bufRead_one, hbyte, List.contains_iff_mem, mem_markWritten, mem_freshSectors]
  by_cases hin : off ≤ b ∧ b < off + bs.length
  · have hsec : sectorOf b ∈ sectorsOf off bs.length := mem_sectorsOf.2 (by unfold sectorOf; omega)
    simp [hin, hsec]
  · by_cases hw : sectorOf b ∈ d.written
    · simp [hin, hw]
    · by_cases hsec : sectorOf b ∈ sectorsOf off bs.length <;> simp [hin, hw, hsec]

/-- A write by the owner inside its buffer is a write of the buffer (R224). -/
theorem doBufferAccess_write {p : Pid} {u : Owner} {h len : Nat} {bs : List Byte} (hin : s.units.pool.inService = true)
    (howner : ownedBy s p u h = some d) (hfit : off + bs.length ≤ classSize d.cls) :
    doBufferAccess p u h off len (some bs) s = bufWrite d off bs s := by
  simp [doBufferAccess, hin, howner, Nat.not_lt.2 hfit]

end Sys2Proof.Machine

namespace Sys2Proof.Claims
open Sys2Proof.Machine

theorem bufferReadsBack_holds : bufferReadsBack := by
  intro p u h off bs d s hin howner hfit hrows hwf
  have hread {b : Nat} (hb : b < classSize d.cls) := bufRead_bufWrite ⟨hrows, hwf⟩ hfit hb
  refine ⟨_, congrArg Host.Outcome.next (doBufferAccess_write hin howner hfit), _, ownedBy_bufWrite howner bs, ?_, ?_⟩
  · intro k hk
    rw [hread (by omega), if_pos (by omega), Nat.add_sub_cancel_left]
  · intro b hb hout
    rw [hread hb, if_neg (by omega)]

end Sys2Proof.Claims

namespace Sys2Proof

/-- Settles O41: the bytes of a buffer lie at distinct addresses (`bufferDpa_injective`), so a write changes the bytes
it names and clears the rest of the sectors that it is the first in (`bufRead_bufWrite`). -/
theorem bufferReadsBackWrites : Obligations.BufferReadsBackWrites := Claims.bufferReadsBack_holds

end Sys2Proof
end

/-! # The buffer pool: deciding a reservation

A contender set of one request is decided at once: the whole of it is added to what its partition holds, or nothing is
and the request waits. -/

section
namespace Sys2Proof.Machine
variable {s : State} {q : ReserveReq}

/-- The pool while it decides the only request it has. -/
def takeOnly (s : State) : State := modPool (fun x => { x with cur := [], set := [] }) s

/-- A set of one request leaves the pointer of the ranking alone (R219). -/
theorem formSet_single (hcur : s.units.pool.cur = []) (hset : s.units.pool.set = [q]) :
    formSet s = modPool (fun x => { x with cur := [q], set := [] }) s := by
  rw [formSet, hcur, hset]
  rfl

/-- What falls short depends on the rows and the accounts, not on the requests that the pool has. -/
theorem shortOf_takeOnly (s : State) (q : ReserveReq) : shortOf (takeOnly s) q = shortOf s q := rfl

/-- The only request is granted whole, or refused with the classes it falls short in (R219, R221). -/
theorem decideHead_single (hin : s.units.pool.inService = true) (hcur : s.units.pool.cur = [])
    (hset : s.units.pool.set = [q]) : decideHead s =
      if (shortOf s q).isEmpty then (holdAdd q.part q.counts (takeOnly s), some (q, []))
      else (answerNoBuf q (shortOf s q) (takeOnly s), some (q, shortOf s q)) := by
  rw [decideHead, hin, formSet_single hcur hset]
  rfl

theorem doPoolDecide_granted (hin : s.units.pool.inService = true) (hcur : s.units.pool.cur = [])
    (hset : s.units.pool.set = [q]) (hplain : q.admission = false) (hshort : shortOf s q = []) :
    doPoolDecide s = emit (.reserved q.part q.by_ 0) (holdAdd q.part q.counts (takeOnly s)) := by
  rw [doPoolDecide, decideHead_single hin hcur hset, hshort]
  simp [hplain]

theorem doPoolDecide_refused {x : Nat × Nat} {rest : List (Nat × Nat)} (hin : s.units.pool.inService = true)
    (hcur : s.units.pool.cur = []) (hset : s.units.pool.set = [q]) (hshort : shortOf s q = x :: rest) :
    doPoolDecide s = answerNoBuf q (x :: rest) (takeOnly s) := by
  rw [doPoolDecide, decideHead_single hin hcur hset, hshort]
  rfl

/-! ## What a grant and a refusal change -/

theorem holdAdd_held (p : Pid) (counts : List Nat) (s : State) {c : Nat} (hc : c < 5) :
    nth (partOf (holdAdd p counts s) p).held c = nth (partOf s p).held c + nth counts c := by
  rw [holdAdd, partOf_modPart]
  simp [nth, hc]

theorem partOf_holdAdd_ne {p k : Pid} (counts : List Nat) (s : State) (h : k ≠ p) :
    partOf (holdAdd p counts s) k = partOf s k := partOf_modPart_ne _ h

/-- Counting a refusal changes no account (R227). -/
theorem countNoBuf_held (p : Pid) (c cause : Nat) (s : State) (k : Pid) :
    (partOf (countNoBuf p c cause s) k).held = (partOf s k).held := by
  by_cases h : k = p
  · subst h
    rw [countNoBuf, partOf_modPCnt]
  · exact congrArg Part.held (partOf_modPart_ne _ h)

/-- A refused plain request is answered and waits with the classes it fell short in (R221). -/
theorem answerNoBuf_plain (hplain : q.admission = false) (c cause : Nat) (rest : List (Nat × Nat)) (s : State) :
    answerNoBuf q ((c, cause) :: rest) s = emit (.reserved q.part q.by_ cause)
      (modPool (fun x => { x with waiters := x.waiters ++ [⟨q, (c, cause) :: rest⟩] })
        (countNoBuf q.part c cause s)) := by
  rw [answerNoBuf, hplain]
  rfl

end Sys2Proof.Machine

namespace Sys2Proof.Claims
open Sys2Proof.Machine

theorem decideRow_holds : decideRow := by
  intro q s hin hcur hset hplain
  refine ⟨fun hshort => ?_, fun c cause rest hshort => ?_⟩
  case refine_1 =>
    refine ⟨_, congrArg Host.Outcome.next (doPoolDecide_granted hin hcur hset hplain hshort), rfl, rfl, rfl, ?_, ?_⟩
    · exact fun c hc => holdAdd_held q.part q.counts (takeOnly s) hc
    · exact fun p hp => partOf_holdAdd_ne q.counts (takeOnly s) hp
  case refine_2 =>
    have hrefused := (doPoolDecide_refused hin hcur hset hshort).trans (answerNoBuf_plain hplain c cause rest _)
    refine ⟨_, congrArg Host.Outcome.next hrefused, rfl, rfl, rfl, rfl, ?_⟩
    exact countNoBuf_held q.part c cause (takeOnly s)

end Sys2Proof.Claims

namespace Sys2Proof

/-- Settles O38: the only request of a set is decided at once (`decideHead_single`), by adding the whole of it to what
its partition holds or by letting it wait with no account changed. -/
theorem reservationsWholeOrNot : Obligations.ReservationsWholeOrNot := Claims.decideRow_holds

end Sys2Proof
end

/-! # Partitions: what stands while they work

What every partition holds across its steps (`Standing`), and the frame (`Keeps`) of completions, withdrawn work, pauses
and fences with respect to it. -/

section
namespace Sys2Proof.Machine
open State (LoggedTo)
variable {α : Type} {φ : Part → α} {r s t : State} {p : Pid}

/-! ## The frame -/

/-- What φ reads of a partition is as before, for every partition. -/
def Keeps (φ : Part → α) (s t : State) : Prop := ∀ q, φ (partOf t q) = φ (partOf s q)

theorem Keeps.refl (φ : Part → α) (s : State) : Keeps φ s s := fun _ => rfl

theorem Keeps.trans (h : Keeps φ r s) (k : Keeps φ s t) : Keeps φ r t := fun q => (k q).trans (h q)

theorem Keeps.comp {β : Type} (h : Keeps φ s t) (f : α → β) : Keeps (fun q => f (φ q)) s t := fun q => congrArg f (h q)

theorem State.LoggedTo.keeps (h : LoggedTo s t) (hφ : ∀ q, φ q.sansFaults = φ q) : Keeps φ s t := fun q => by
  rw [← hφ, h.part, hφ]

theorem ite_keeps {c : Prop} [Decidable c] {a b : State} (ha : Keeps φ r a) (hb : Keeps φ r b) :
    Keeps φ r (if c then a else b) := by
  split
  · exact ha
  · exact hb

theorem foldl_keeps {β : Type} {l : List β} {f : State → β → State} (hf : ∀ x a, Keeps φ r x → Keeps φ r (f x a))
    (h : Keeps φ r s) : Keeps φ r (l.foldl f s) :=
  List.foldlRecOn l f (motive := Keeps φ r) h fun x hx a _ => hf x a hx

/-! ### Updates -/

theorem modHost_keeps (g) (h : Keeps φ r s) : Keeps φ r (modHost g s) := h
theorem modUnits_keeps (g) (h : Keeps φ r s) : Keeps φ r (modUnits g s) := h
theorem modAo_keeps (g) (h : Keeps φ r s) : Keeps φ r (modAo g s) := h

theorem modPart_keeps {g : Part → Part} (hg : ∀ q, φ (g q) = φ q) (h : Keeps φ r s) : Keeps φ r (modPart p g s) := by
  refine h.trans fun q => ?_
  by_cases hq : q = p
  · rw [hq, partOf_modPart, hg]
  · rw [partOf_modPart_ne _ hq]

theorem modPartN_keeps {n : Nat} {g : Part → Part} (hg : ∀ q, φ (g q) = φ q) (h : Keeps φ r s) :
    Keeps φ r (modPartN n g s) := by
  refine h.trans fun q => ?_
  rw [partOf_modPartN]
  split
  · exact hg _
  · rfl

theorem modParts_keeps {g : Part → Part} (hg : ∀ q, φ (g q) = φ q) (h : Keeps φ r s) : Keeps φ r (modParts g s) :=
  h.trans fun q => by rw [partOf_modParts, hg]

/-! ## What stands -/

/-- What a partition holds across its steps: its grants, the cursor of its last boundary, its image and seed, and its
count of steps. -/
structure Standing where
  g : Grants
  cursor : Cursor
  image : Option Image
  seed : Option (BitVec 128)
  steps : Nat

def Part.standing (q : Part) : Standing := ⟨q.g, q.ld.cursor, q.ld.image, q.ld.seed, q.cnt.steps⟩

/-- What the work of a step leaves: what stands, and the partition's state. -/
def Part.working (q : Part) : PSt × Standing := (q.st, q.standing)

theorem Keeps.standing (h : Keeps Part.working s t) : Keeps Part.standing s t := h.comp Prod.snd

theorem Keeps.st (h : Keeps Part.working s t) (q : Pid) : (partOf t q).st = (partOf s q).st := congrArg Prod.fst (h q)

theorem State.LoggedTo.standing (h : LoggedTo s t) : Keeps Part.standing s t := h.keeps fun _ => rfl

theorem logEvent_keeps (n c a0 a1 a2 a3) (h : Keeps Part.working r s) :
    Keeps Part.working r (logEvent n c a0 a1 a2 a3 s) :=
  h.trans ((logEvent_logged _ _ _ _ _ _ (.refl s)).keeps fun _ => rfl)

/-! ### Buffers and reservations -/

theorem unreserveAll_keeps (hφ : ∀ q l, φ { q with held := l } = φ q) (l) (h : Keeps φ r s) :
    Keeps φ r (unreserveAll p l s) :=
  foldl_keeps (fun _ _ hx => ite_keeps hx (modUnits_keeps _ (modPart_keeps (fun _ => hφ _ _) hx))) h

theorem releaseDesc_keeps (d) (h : Keeps Part.working r s) : Keeps Part.working r (releaseDesc d s) := by
  unfold releaseDesc
  dsimp only
  split
  · exact modUnits_keeps _ (modPart_keeps (fun _ => rfl) h)
  · exact h

theorem releaseWhere_keeps (w) (h : Keeps Part.working r s) : Keeps Part.working r (releaseWhere w s) :=
  foldl_keeps (fun _ _ => releaseDesc_keeps _) h

theorem dropRequests_keeps (w) (h : Keeps φ r s) : Keeps φ r (dropRequests p w s) := h

/-! ### Work that is withdrawn -/

theorem nvmeFenceWhere_keeps (w) (h : Keeps φ r s) : Keeps φ r (nvmeFenceWhere w s) :=
  foldl_keeps (fun _ _ hx => foldl_keeps (fun _ _ hy => hy) (modUnits_keeps _ hx)) h

theorem killWork_keeps (k) (h : Keeps Part.working r s) : Keeps Part.working r (killWork p k s) := by
  unfold killWork
  exact modAo_keeps _ (modPart_keeps (fun _ => rfl) (nvmeFenceWhere_keeps _ (modUnits_keeps _ h)))

theorem withdrawStep_keeps (x) (h : Keeps Part.working r s) : Keeps Part.working r (withdrawStep p x s) := by
  have hkill := killWork_keeps (p := p) (some x.slot) h
  have hfree (l) {y : State} : Keeps Part.working r y → Keeps Part.working r (unreserveAll p l y) :=
    unreserveAll_keeps (fun _ _ => rfl) l
  unfold withdrawStep
  refine foldl_keeps (fun _ _ => hfree _) (hfree _ (releaseWhere_keeps _ (modPart_keeps (fun _ => rfl) ?_)))
  exact ite_keeps hkill (modPart_keeps (fun _ => rfl) hkill)

/-! ### Completions -/

theorem issueDma_keeps (f k a b n) (h : Keeps φ r s) : Keeps φ r (issueDma f k a b n s) := by
  unfold issueDma
  dsimp only
  split <;> exact h

theorem writeCqe_keeps (f c) (h : Keeps φ r s) : Keeps φ r (writeCqe f c s) :=
  issueDma_keeps _ _ _ _ _ (modHost_keeps _ h)

/-- A completion that finds the hold queue full marks its partition for a fence, and what stands stays. -/
theorem postCqe_keeps (f c) (h : Keeps Part.standing r s) : Keeps Part.standing r (postCqe f c s) := by
  have hlate := (lateDiscard_logged (fnPart f) (unitId 0x0F f.val) 10 c.seq
    (.refl (modCnt f (fun k => { k with late := satAdd 32 k.late 1 }) s))).standing
  have hfull (a : Nat) := (logEvent_logged (fnPart f) 0x0106 f.val a 0 0
    (.refl (modCnt f (fun k => { k with dropped := satAdd 32 k.dropped 1 }) s))).standing
  have hfence (a : Nat) := h.trans (hfull a)
  unfold postCqe
  exact ite_keeps h (ite_keeps (h.trans hlate) (ite_keeps (writeCqe_keeps _ _ h) (ite_keeps h
    (ite_keeps (modPartN_keeps (fun _ => rfl) (hfence _)) (hfence _)))))

theorem postRing_keeps (q b c) (h : Keeps Part.standing r s) : Keeps Part.standing r (postRing q b c s) :=
  ite_keeps (postCqe_keeps _ _ h) (ite_keeps (postCqe_keeps _ _ h) (issueDma_keeps _ _ _ _ _ h))

theorem raiseIrq_keeps (f b) (h : Keeps Part.standing r s) : Keeps Part.standing r (raiseIrq f b s) :=
  h.trans (raiseIrq_logged f b (.refl s)).standing

theorem postResponse_keeps (f a n q o i d) (h : Keeps Part.standing r s) :
    Keeps Part.standing r (postResponse f a n q o i d s) :=
  ite_keeps (raiseIrq_keeps _ _ (modHost_keeps _ h)) (modHost_keeps _ h)

theorem finish_keeps (q a) (h : Keeps Part.standing r s) : Keeps Part.standing r (finish q a s) := by
  have hreq : Keeps Part.standing r (if a.pend then
      modReq q.id (fun q => { q with phase := .pending, payload := a.payload }) s else dropReq q.id s) := ite_keeps h h
  exact ite_keeps (ite_keeps hreq (postRing_keeps _ _ _ hreq)) (postResponse_keeps _ _ _ _ _ _ _ hreq)

theorem complete_keeps (i a b c l) (h : Keeps Part.standing r s) : Keeps Part.standing r (complete i a b c l s) := by
  unfold complete
  split
  · exact h
  · have hreq : Keeps Part.standing r (if l then dropReq i s else s) := ite_keeps h h
    exact ite_keeps (ite_keeps (postRing_keeps _ _ _ hreq) hreq) (postCqe_keeps _ _ hreq)

theorem completeOpt_keeps (i a b c) (h : Keeps Part.standing r s) : Keeps Part.standing r (completeOpt i a b c s) := by
  cases i with
  | none => exact h
  | some i => exact complete_keeps _ _ _ _ _ h

/-! ### Pauses and fences -/

theorem beginTeardown_keeps (h : Keeps Part.standing r s) : Keeps Part.standing r (beginTeardown p s) :=
  completeOpt_keeps _ _ _ _ (modPart_keeps (fun _ => rfl) (dropRequests_keeps _ h))

theorem maybePaused_keeps (h : Keeps Part.standing r s) : Keeps Part.standing r (maybePaused p s) :=
  ite_keeps (beginTeardown_keeps h) (ite_keeps (completeOpt_keeps _ _ _ _ (modPart_keeps (fun _ => rfl) h)) h)

theorem beginPause_keeps (i) (h : Keeps Part.standing r s) : Keeps Part.standing r (beginPause p i s) := by
  have hmark : Keeps Part.standing r (dropRequests p (fun q => q.admission)
      (modSched p (fun c => { c with pausing := true, pauseReq := i, asking := false }) s)) :=
    dropRequests_keeps _ (modPart_keeps (fun _ => rfl) h)
  have hstep (x) {y : State} (hy : Keeps Part.standing r y) : Keeps Part.standing r (withdrawStep p x y) :=
    hy.trans (withdrawStep_keeps x (.refl _ y)).standing
  unfold beginPause
  refine maybePaused_keeps ?_
  dsimp only
  split
  · exact foldl_keeps (fun _ _ => hstep _) (ite_keeps hmark (hstep _ hmark))
  · exact hmark

theorem dropRuns_keeps (i) (h : Keeps Part.standing r s) : Keeps Part.standing r (dropRuns i s) :=
  modParts_keeps (fun _ => rfl) h

theorem fenceOpen_keeps (h : Keeps Part.standing r s) : Keeps Part.standing r (fenceOpen p s) :=
  foldl_keeps (fun _ q hx =>
    have hruns := dropRuns_keeps q.id (modHost_keeps _ hx)
    ite_keeps (complete_keeps _ _ _ _ _ hruns) (finish_keeps _ _ hruns)) h

/-- A fence of a partition leaves what stands, and so the boundary that a resume starts from (R478). -/
theorem fencePart_keeps (c) (h : Keeps Part.standing r s) : Keeps Part.standing r (fencePart p c s) := by
  let x := packCursor (partOf s p).ld.cursor
  let u := killWork p none (countFence [p] (logEvent p.val 0x0006 c x (x / 2 ^ 32) 0 s))
  have hlog := (countFence_logged [p] (logEvent_logged p.val 0x0006 c x (x / 2 ^ 32) 0 (.refl s))).keeps
    (φ := Part.working) fun _ => rfl
  have hwork : Keeps Part.standing r u := h.trans (killWork_keeps none hlog).standing
  have hdone : Keeps Part.standing r (completeOpt (partOf s p).sc.pauseReq stFenced 0x011A 0
      (modPart p (Part.fencedFor c) (dropRequests p (fun _ => true) (fenceOpen p u)))) :=
    completeOpt_keeps _ _ _ _ (modPart_keeps (fun _ => rfl) (dropRequests_keeps _ (fenceOpen_keeps hwork)))
  unfold fencePart
  exact ite_keeps h (ite_keeps (beginTeardown_keeps hdone) hdone)

end Sys2Proof.Machine
end

/-! # The scheduler: stages and boundaries

An admission within a step changes its partition's schedule alone (`admitSample_eq`); the end of a stage leaves its
partition working (`Keeps Part.working`), and what follows a boundary leaves what stands. -/

section
namespace Sys2Proof.Machine
variable {α : Type} {φ : Part → α} {r s : State} {p : Pid}

/-! ## Admission within a step (R239, R240) -/

/-- A change of a partition to what it was changes nothing. -/
theorem modPart_eq_self {g : Part → Part} (h : g (partOf s p) = partOf s p) : modPart p g s = s := by
  have hparts : vmod s.parts p g = s.parts :=
    (congrArg (s.parts.set p.val · p.isLt) h).trans (Vector.set_getElem_self p.isLt)
  rw [modPart, hparts]

theorem modSched_eq_self {g : Sched → Sched} (h : g (partOf s p).sc = (partOf s p).sc) : modSched p g s = s :=
  modPart_eq_self (congrArg (fun c => { partOf s p with sc := c }) h)

/-- The partition may attempt the admission of a sample after its step's first one. -/
structure InStep (s : State) (p : Pid) : Prop where
  st : (partOf s p).st = .enabled
  image : (partOf s p).ld.image.isSome = true
  pausing : (partOf s p).sc.pausing = false
  asking : (partOf s p).sc.asking = false
  off : (partOf s p).sc.next.off ≠ 0
  replay : (hdrOf (partOf s p)).live = false
  entries : entriesFree (partOf s p) false = true
  room : inFlight (partOf s p) < (hdrOf (partOf s p)).maxInFlight

theorem doAdmission_eq (h : InStep s p) : doAdmission p s = tryAdmit p s := by
  have hsettle : modSched p (fun c =>
      if c.next.off = 0 then { c with next := settle (partOf s p) c.next } else c) s = s :=
    modSched_eq_self (if_neg h.off)
  have hopen : exhausted (partOf s p) = false := by simp [exhausted, h.off]
  have himage : (partOf s p).ld.image.isNone = false := by simp [Option.isNone_eq_false_iff, h.image]
  unfold doAdmission
  rw [hsettle]
  simp only [h.st, himage, h.pausing, h.asking, hopen]
  rfl

/-- The lead scheduler asks the pool for the next sample's buffers (R219). -/
def askPool (p : Pid) (s : State) : State :=
  modPool (fun x => { x with set := x.set ++
      [{ part := p, counts := needOf (partOf s p), by_ := leadOf (partOf s p), admission := true }] })
    (modSched p (fun c => { c with asking := true, wait := .pool }) s)

theorem tryAdmit_eq (h : InStep s p) (hpool : sumL (needOf (partOf s p)) ≠ 0 → s.units.pool.inService = true) :
    tryAdmit p s = if sumL (needOf (partOf s p)) = 0 then admitSample p s else askPool p s := by
  unfold tryAdmit
  simp only [beq_false_of_ne h.off, h.replay, h.entries, Nat.not_le.2 h.room, Bool.false_and, Bool.not_true,
    decide_false, Bool.or_false, Bool.false_eq_true, if_false]
  split
  · rfl
  case isFalse hneed =>
    exact if_pos (hpool hneed)

/-- The replay sample that the permutation names at the next position (R246). -/
def replaySample (s : State) (p : Pid) : Sample :=
  { off := (partOf s p).sc.next.off
    id := permAt s p (partOf s p).sc.next.epoch
      ((partOf s p).sc.next.step * (hdrOf (partOf s p)).samplesPerStep + (partOf s p).sc.next.off)
    undrawn := (bodyOf (partOf s p)).perSample }

theorem newSample_replay (h : (hdrOf (partOf s p)).live = false) : newSample s p (partOf s p) = replaySample s p := by
  rw [newSample, h]
  rfl

theorem noteLive_replay {q : Part} (h : (hdrOf q).live = false) (x : Sample) : noteLive p q x s = s := by
  rw [noteLive, h]
  rfl

/-- A change of a schedule puts another one in its place. -/
theorem modSched_eq_const (f : Sched → Sched) (s : State) :
    modSched p f s = modSched p (fun _ => f (partOf s p).sc) s := rfl

theorem modSched_modSched (f g : Sched → Sched) (s : State) :
    modSched p g (modSched p f s) = modSched p (fun c => g (f c)) s := by
  simp [modSched, modPart, vmod_vmod]

/-- The change of a step's slot is the change of the step when it is the only one. -/
theorem modAll_slot (f : OpenStep → OpenStep) (st : OpenStep) :
    modAll (fun x => x.slot == st.slot) f [st] = [f st] := by
  simp [modAll]

/-- An admission within a step puts the next sample in it and moves to the position that follows (R240). -/
theorem admitSample_eq {st : OpenStep} (h : InStep s p) (hsteps : (partOf s p).sc.steps = [st]) :
    ∃ c, admitSample p s = modSched p (fun _ => c) s
      ∧ (∃ y, c.steps = [y] ∧ y.samples = st.samples ++ [replaySample s p])
      ∧ c.next = if (partOf s p).sc.next.off + 1 < st.count then
          { (partOf s p).sc.next with off := (partOf s p).sc.next.off + 1 } else stepAfter (partOf s p) st.first := by
  unfold admitSample
  dsimp only
  rw [if_neg h.off, hsteps]
  dsimp only [List.getLast?_singleton]
  rw [newSample_replay h.replay, noteLive_replay h.replay]
  unfold refreshBoard modStep
  simp only [modSched_modSched]
  refine ⟨_, modSched_eq_const _ s, ?_, rfl⟩
  dsimp only
  rw [hsteps]
  exact ⟨_, modAll_slot _ st, rfl⟩

/-! ## Issue (R238) -/

/-- The issue of an entry that tiles run starts no unit. -/
theorem startEntry_tiles {e : Entry} (h : elsewhere (stageAt (partOf s p) e.stage).kind = false) :
    startEntry p e s = s := by
  simp only [elsewhere, unitKind, Bool.or_eq_false_iff, List.contains_eq_mem, decide_eq_false_iff_not, List.mem_cons,
    List.not_mem_nil, not_or, beq_eq_false_iff_ne] at h
  simp [startEntry, h]

/-! ## The end of a stage (R234, R235, R238) -/

/-- A change of the schedule leaves the partition working. -/
theorem modSched_keeps (g) (h : Keeps Part.working r s) : Keeps Part.working r (modSched p g s) :=
  modPart_keeps (fun _ => rfl) h

theorem fillH_keeps (d x t) (h : Keeps φ r x.2) : Keeps φ r (fillH d x t).2 := by
  unfold fillH
  split <;> exact h

theorem fillY_keeps (d x t) (h : Keeps φ r x.2) : Keeps φ r (fillY d x t).2 := by
  unfold fillY
  exact List.foldlRecOn _ _ (motive := fun a : List (Nat × List Word16) × State => Keeps φ r a.2) h fun _ ha _ _ => ha

theorem fillTokens_keeps (slot w) {g : List Token × State → Token → List Token × State}
    (hg : ∀ x t, Keeps Part.working r x.2 → Keeps Part.working r (g x t).2) (h : Keeps Part.working r s) :
    Keeps Part.working r (fillTokens p slot w g s) := by
  unfold fillTokens
  split
  · exact h
  · refine foldl_keeps (fun y x hy => ?_) h
    exact modSched_keeps _ (List.foldlRecOn x.tokens g (motive := fun a => Keeps Part.working r a.2) (b := ([], y)) hy
      fun a ha t _ => hg a t ha)

theorem returnOutputs_keeps (slot) (h : Keeps Part.working r s) : Keeps Part.working r (returnOutputs p slot s) := by
  have hh (d) := fillTokens_keeps (p := p) slot (fun _ => true) (fillH_keeps d) h
  unfold returnOutputs
  exact modSched_keeps _ (ite_keeps (fillTokens_keeps _ _ (fillY_keeps _) (hh _)) (hh _))

theorem assemble_keeps (slot) (h : Keeps Part.working r s) : Keeps Part.working r (assemble p slot s) := by
  have hin : Keeps Part.working r (if hasKind (partOf s p) 0x0D then s else returnOutputs p slot s) :=
    ite_keeps h (returnOutputs_keeps _ h)
  unfold assemble
  dsimp only
  split
  · exact hin
  · exact modSched_keeps _ hin

theorem producePerm_keeps (e) (h : Keeps Part.working r s) : Keeps Part.working r (producePerm p e s) := by
  unfold producePerm permWrite
  refine modSched_keeps _ ?_
  split
  · exact modUnits_keeps _ h
  · exact h

theorem permuteStage_keeps (e) (h : Keeps Part.working r s) : Keeps Part.working r (permuteStage p e s) := by
  unfold permuteStage
  dsimp only
  split
  · exact h
  · have hperm (k) := producePerm_keeps (p := p) k h
    exact ite_keeps h (ite_keeps (ite_keeps (hperm _) h) (ite_keeps (hperm _) h))

theorem augmentStage_keeps (e d) (h : Keeps Part.working r s) : Keeps Part.working r (augmentStage p e d s) := by
  unfold augmentStage
  split
  · exact modSched_keeps _ h
  · exact h

theorem tokeniseStage_keeps (e d) (h : Keeps Part.working r s) : Keeps Part.working r (tokeniseStage p e d s) := by
  unfold tokeniseStage
  split
  · exact modPart_keeps (fun _ => rfl) (modSched_keeps _ h)
  · exact h

theorem tileResult_keeps (e res) (h : Keeps Part.working r s) : Keeps Part.working r (tileResult p e res s) := by
  have hsched (g) := modSched_keeps (p := p) g h
  cases res with
  | planes _ | embed _ | labels _ _ _ => exact ite_keeps h (hsched _)
  | expert _ _ => exact ite_keeps (hsched _) h
  | done | skip => exact h

/-- What a stage leaves is of its step, of the window and of the counters. -/
theorem stageEffect_keeps (e res) (h : Keeps Part.working r s) : Keeps Part.working r (stageEffect p e res s) :=
  ite_keeps (augmentStage_keeps _ _ h)
    (ite_keeps (tokeniseStage_keeps _ _ h)
      (ite_keeps (ite_keeps (returnOutputs_keeps _ h) h)
        (ite_keeps (ite_keeps (assemble_keeps _ h) h)
          (ite_keeps (permuteStage_keeps _ h) (tileResult_keeps _ _ h)))))

theorem closeSamples_keeps (hheld : ∀ q l, φ { q with held := l } = φ q)
    (hsteps : ∀ q l, φ { q with sc := { q.sc with steps := l } } = φ q) (slot) (h : Keeps φ r s) :
    Keeps φ r (closeSamples p slot s) := by
  unfold closeSamples
  dsimp only
  split
  · exact h
  · exact foldl_keeps (fun _ _ hx => modPart_keeps (fun _ => hsteps _ _) (unreserveAll_keeps hheld _ hx)) h

theorem entriesDone_keeps (slot w) (h : Keeps Part.working r s) : Keeps Part.working r (entriesDone p slot w s) :=
  modSched_keeps _ (closeSamples_keeps (fun _ _ => rfl) (fun _ _ => rfl) slot (modSched_keeps _ h))

theorem transientFault_keeps (n u f k) (h : Keeps Part.working r s) : Keeps Part.working r (transientFault n u f k s) :=
  h.trans ((transientFault_logged _ _ _ _ (.refl s)).keeps fun _ => rfl)

theorem entryDone_keeps (e) (h : Keeps Part.working r s) : Keeps Part.working r (entryDone p e s) := by
  have hretry : Keeps Part.working r (groupRetryOver p e s) :=
    foldl_keeps (fun _ _ hx => transientFault_keeps _ _ _ _ (modUnits_keeps _ hx)) h
  exact entriesDone_keeps _ _ (ite_keeps hretry h)

/-- An entry keeps its number and its step while the board is brought up to date. -/
theorem refreshEntry_names (q : Part) (e : Entry) :
    (refreshEntry q e).slot = e.slot ∧ (refreshEntry q e).rel = e.rel ∧ (refreshEntry q e).no = e.no := by
  unfold refreshEntry
  split <;> exact ⟨rfl, rfl, rfl⟩

/-- What is on the board after entries left was on it and is not of those. -/
theorem mem_entriesDone {slot : Nat} {w : Entry → Bool} {x : Entry}
    (hx : x ∈ (partOf (entriesDone p slot w s) p).sc.entries) :
    ∃ e ∈ (partOf s p).sc.entries, ¬(e.slot = slot ∧ w e = true) ∧ x.slot = e.slot ∧ x.rel = e.rel ∧ x.no = e.no := by
  have hboard := closeSamples_keeps (p := p) (φ := fun q => q.sc.entries) (fun _ _ => rfl) (fun _ _ => rfl) slot
    (.refl _ (modSched p (fun c => { c with entries := c.entries.filter (fun e => !(e.slot == slot && w e)) }) s)) p
  dsimp only at hboard
  rw [entriesDone, refreshBoard, partOf_modSched] at hx
  obtain ⟨e, he, rfl⟩ := List.mem_map.1 hx
  rw [hboard, partOf_modSched] at he
  obtain ⟨hmem, hstay⟩ := List.mem_filter.1 he
  exact ⟨e, hmem, by simpa [or_iff_not_imp_left] using hstay, refreshEntry_names _ e⟩

/-- The end of an entry takes it from the board. -/
theorem not_mem_entryDone {e x : Entry} (hx : x ∈ (partOf (entryDone p e s) p).sc.entries) :
    ¬(x.slot = e.slot ∧ x.rel = e.rel ∧ x.no = e.no) := by
  obtain ⟨y, -, hy, hslot, hrel, hno⟩ := mem_entriesDone hx
  simpa [hslot, hrel, hno] using hy

/-! ## What a boundary leaves (R245, R332, R333) -/

theorem stepAfter_congr {q q' : Part} (h : q'.ld.image = q.ld.image) (c : Cursor) : stepAfter q' c = stepAfter q c := by
  have hhdr : hdrOf q' = hdrOf q := by rw [hdrOf, h, hdrOf]
  have hbody : bodyOf q' = bodyOf q := by rw [bodyOf, h, bodyOf]
  have hsteps : stepsOf q' = stepsOf q := by rw [stepsOf, hhdr, hbody, stepsOf]
  rw [stepAfter, hsteps, stepAfter]

theorem writeRecord_keeps (c l) (h : Keeps Part.working r s) : Keeps Part.working r (writeRecord p c l s) := by
  unfold writeRecord
  split
  · exact h
  · exact modSched_keeps _ (modUnits_keeps _ h)

theorem freeStep_keeps (st) (h : Keeps Part.working r s) : Keeps Part.working r (freeStep p st s) :=
  unreserveAll_keeps (fun _ _ => rfl) _ (releaseWhere_keeps _ (modSched_keeps _ h))

theorem modEx_keeps (g) (h : Keeps Part.working r s) : Keeps Part.working r (modEx p g s) :=
  modPart_keeps (fun _ => rfl) h

theorem commitCounters_keeps (st) (h : Keeps Part.working r s) : Keeps Part.working r (commitCounters p st s) :=
  ite_keeps h (modEx_keeps _ h)

theorem loadTile_keeps (n) (h : Keeps φ r s) : Keeps φ r (loadTile n s) := by
  unfold loadTile
  dsimp only
  split
  · exact h
  split
  · exact h
  · exact ite_keeps h h

theorem installPlacement_keeps (h : Keeps Part.working r s) : Keeps Part.working r (installPlacement p s) := by
  unfold installPlacement
  split
  · exact h
  · exact foldl_keeps (fun _ _ hx => foldl_keeps (fun _ _ => loadTile_keeps _) hx)
      (logEvent_keeps _ _ _ _ _ _ (modEx_keeps _ h))

theorem saveOthers_keeps (o k) (h : Keeps Part.working r s) : Keeps Part.working r (saveOthers o k s) := by
  refine h.trans fun q => ?_
  simp [saveOthers, partOf, vec_get, Part.working, Part.standing]

theorem seat_keeps (o) (h : Keeps Part.working r s) : Keeps Part.working r (seat o s) := by
  unfold seat
  split
  · exact modUnits_keeps _ (saveOthers_keeps _ _ h)
  split
  · exact h
  · exact ite_keeps h (modUnits_keeps _ (saveOthers_keeps _ _ h))

theorem wakeChurn_keeps (q) (h : Keeps Part.working r s) : Keeps Part.working r (wakeChurn q s) := by
  unfold wakeChurn
  refine ite_keeps h ?_
  split
  · exact seat_keeps _ h
  · exact ite_keeps (seat_keeps _ h) (ite_keeps (seat_keeps _ h) h)

theorem addRun_keeps (x) (h : Keeps Part.working r s) : Keeps Part.working r (addRun x s) :=
  wakeChurn_keeps _ (modPart_keeps (fun _ => rfl) h)

theorem sendProblem_keeps (a b l) (h : Keeps φ r s) : Keeps φ r (sendProblem p a b l s) :=
  foldl_keeps (fun _ _ hx => ite_keeps hx hx) h

theorem startRevision_keeps (k) (h : Keeps Part.working r s) : Keeps Part.working r (startRevision p k s) := by
  have hkept (f g a b) := logEvent_keeps p.val 0x0501 a b 2 0 (modEx_keeps (p := p) f (modEx_keeps (p := p) g h))
  unfold startRevision
  dsimp only
  split
  · exact hkept _ _ _ _
  · have hrun (f g) := modEx_keeps (p := p) f (modEx_keeps (p := p) g h)
    exact ite_keeps (hkept _ _ _ _) (addRun_keeps _ (ite_keeps (sendProblem_keeps _ _ _ (hrun _ _)) (hrun _ _)))

theorem maybeRevise_keeps (c) (h : Keeps Part.working r s) : Keeps Part.working r (maybeRevise p c s) :=
  ite_keeps (startRevision_keeps _ h) h

theorem dropBuffer_keeps (i w) (h : Keeps Part.working r s) : Keeps Part.working r (dropBuffer p i w s) := by
  unfold dropBuffer
  split
  · exact modPart_keeps (fun _ => rfl) (ite_keeps (releaseDesc_keeps _ h) h)
  · exact h

theorem sweepWins_keeps (h : Keeps Part.working r s) : Keeps Part.working r (sweepWins p s) :=
  foldl_keeps (fun _ _ hx => modPart_keeps (fun _ => rfl) (foldl_keeps (fun _ _ => dropBuffer_keeps _ _) hx)) h

theorem stopExhausted_keeps (h : Keeps Part.standing r s) : Keeps Part.standing r (stopExhausted p s) :=
  ite_keeps (beginPause_keeps _ h) h

theorem afterBoundary_keeps (h : Keeps Part.standing r s) : Keeps Part.standing r (afterBoundary p s) :=
  ite_keeps (fencePart_keeps _ (modPart_keeps (fun _ => rfl) h)) (stopExhausted_keeps (maybePaused_keeps h))

/-- A partition whose step reached its boundary: the cursor is `next`, and the step is counted (R245). -/
def Part.pastBoundary (st : OpenStep) (next : Cursor) (q : Part) : Part :=
  { q with
    ld := { q.ld with cursor := next }
    sc := { q.sc with boundaries := q.sc.boundaries + 1, perm := q.sc.perm.drop st.samples.length, idxNew := [] }
    cnt := { q.cnt with steps := satAdd 64 q.cnt.steps 1 } }

theorem closeStep_eq (st : OpenStep) (s : State) : closeStep p st s =
    afterBoundary p (sweepWins p (maybeRevise p st.first (installPlacement p (commitCounters p st
      (modPart p (Part.pastBoundary st (stepAfter (partOf s p) st.first)) (freeStep p st s)))))) := rfl

/-- The boundary of a step moves the cursor behind it and counts it (R245). -/
theorem closeStep_standing (st : OpenStep) (s : State) : (partOf (closeStep p st s) p).standing =
    { (partOf s p).standing with
      cursor := stepAfter (partOf s p) st.first, steps := satAdd 64 (partOf s p).standing.steps 1 } := by
  have hfree := (freeStep_keeps (p := p) st (.refl _ s)).standing p
  have hafter {u : State} : Keeps Part.standing u (afterBoundary p (sweepWins p (maybeRevise p st.first
      (installPlacement p (commitCounters p st u))))) :=
    afterBoundary_keeps (sweepWins_keeps (maybeRevise_keeps _ (installPlacement_keeps
      (commitCounters_keeps _ (.refl _ u))))).standing
  rw [closeStep_eq, hafter p, partOf_modPart, ← hfree]
  rfl

/-- Without a mirror a step's record is written and the step is closed. -/
theorem recordStep_standing {st : OpenStep} (h : (partOf s p).g.mirrored = false) :
    (partOf (recordStep p st s) p).standing = { (partOf s p).standing with
      cursor := stepAfter (partOf s p) st.first, steps := satAdd 64 (partOf s p).standing.steps 1 } := by
  let x := { st with record := stepRecord s (partOf s p) st }
  let u := modStep p st.slot (fun _ => x) (if st.record.isEmpty then writeRecord p st.first x.record s else s)
  have hu : Keeps Part.working s u := modSched_keeps _ (ite_keeps (writeRecord_keeps _ _ (.refl _ s)) (.refl _ s))
  have hstand := hu.standing p
  have hmirror : mirrorActive u p = false := by
    simp [mirrorActive, show (partOf u p).g.mirrored = false by rw [← h]; exact congrArg (·.g.mirrored) hstand]
  have hclose : recordStep p st s = closeStep p x u := by
    unfold recordStep
    exact if_pos (by rw [hmirror]; rfl)
  rw [hclose, closeStep_standing, hstand, stepAfter_congr (congrArg Standing.image hstand)]

end Sys2Proof.Machine

namespace Sys2Proof.Claims
open Sys2Proof.Machine

theorem admitRow_holds : admitRow := by
  intro p s st hst himage hpausing hasking hoff hlive hentries hroom hneed hsteps
  have hin : InStep s p := ⟨hst, himage, hpausing, hasking, hoff, hlive, hentries, hroom⟩
  obtain ⟨c, hadmit, ⟨y, hy, hsamples⟩, hnext⟩ := admitSample_eq hin hsteps
  refine ⟨modSched p (fun _ => c) s, congrArg Host.Outcome.next ?_, ?_, ?_, fun q hq => partOf_modPart_ne _ hq,
    rfl, rfl⟩
  · rw [doAdmission_eq hin, tryAdmit_eq hin (absurd hneed), if_pos hneed, hadmit]
  · rw [partOf_modSched]
    exact ⟨y, _, hy, hsamples, rfl, rfl⟩
  · rw [partOf_modSched]
    exact hnext

theorem admitAskRow_holds : admitAskRow := by
  intro p s hst himage hpausing hasking hoff hlive hentries hroom hneed hpool
  have hin : InStep s p := ⟨hst, himage, hpausing, hasking, hoff, hlive, hentries, hroom⟩
  refine ⟨askPool p s, congrArg Host.Outcome.next ?_, ?_⟩
  · rw [doAdmission_eq hin, tryAdmit_eq hin fun _ => hpool, if_neg hneed]
  · have hpart := partOf_modSched (s := s) p fun c => { c with asking := true, wait := .pool }
    beta_reduce
    rw [show partOf (askPool p s) p = _ from hpart]
    exact ⟨rfl, rfl, rfl, rfl, rfl, fun q hq => partOf_modPart_ne _ hq⟩

theorem issueRow_holds : issueRow := by
  intro p rel s hst
  have hrun : ((partOf s p).st != .enabled) = false := by simp [hst]
  refine ⟨fun hpick => congrArg Host.Outcome.next ?_, fun e hpick htiles => congrArg Host.Outcome.next ?_⟩
  · simp [doIssue, hrun, hpick]
  · simp only [doIssue, hrun, hpick, Bool.false_eq_true, if_false]
    exact startEntry_tiles (by rw [partOf_modSched]; exact htiles)

theorem stageCompleteRow_holds : stageCompleteRow := by
  intro p rel no res s e hfind hst hissued htiles hskip
  have hname : e.rel = rel ∧ e.no = no := by simpa using List.find?_some hfind
  have hdone : doStageComplete p rel no res s = entryDone p e (stageEffect p e res s) := by
    unfold doStageComplete
    simp only [hfind, hst, hissued, htiles]
    cases res with
    | skip => exact absurd rfl hskip
    | done | planes _ | embed _ | labels _ _ _ | expert _ _ => rfl
  have hwork := entryDone_keeps (p := p) e (stageEffect_keeps (p := p) e res (.refl _ s))
  refine ⟨_, congrArg Host.Outcome.next hdone, fun x hx => ?_, by rw [hwork.st, hst]⟩
  rw [← hname.1, ← hname.2]
  exact not_mem_entryDone hx

theorem boundaryRow_holds : boundaryRow := by
  intro p s st rest hst hsteps hmirroring hprep hready hmirror _
  have hrecord : doBoundary p s = recordStep p st s := by
    unfold doBoundary
    simp [hsteps, hst, hmirroring, hprep, hready]
  have hstand := recordStep_standing (st := st) hmirror
  refine ⟨_, congrArg Host.Outcome.next hrecord, congrArg Standing.cursor hstand, congrArg Standing.steps hstand,
    congrArg Standing.g hstand, congrArg Standing.image hstand, congrArg Standing.seed hstand⟩

theorem watchdogRow_holds : watchdogRow := by
  intro p s st rest hst hsteps hruns htd hpause hreqs
  let c := packCursor st.first
  let v := logEvent p.val 0x0007 c (c / 2 ^ 32) 500 0 s
  have hlog : s.LoggedTo v := logEvent_logged _ _ _ _ _ _ (.refl s)
  obtain ⟨u, hu, hfence⟩ := fencePart_of_no_reqs (s := v) (p := p) 0x0007 (by rw [hlog.st, hst])
    (by rw [hlog.sc, htd]) (by rw [hlog.sc, hpause]) (by rw [hlog.reqs]; exact hreqs)
  have hwork := hlog.endsWork.trans hu
  have hdog : doWatchdog p s = modPart p (Part.fencedFor 0x0007) u := by
    rw [← hfence]
    unfold doWatchdog
    simp [hsteps, hst, hruns]
    rfl
  have hcursor : (partOf (modPart p (Part.fencedFor 0x0007) u) p).ld.cursor = (partOf s p).ld.cursor := by
    rw [← hfence]
    exact congrArg Standing.cursor (fencePart_keeps 0x0007 (hlog.keeps fun _ => rfl) p)
  refine ⟨_, congrArg Host.Outcome.next hdog, ?_, ?_, hcursor, ?_, ?_, fun q hq => ?_⟩
  · rw [partOf_modPart]; rfl
  · rw [partOf_modPart]; rfl
  · rw [← hcursor, partOf_modPart]; rfl
  · rw [partOf_modPart]; rfl
  · rw [partOf_modPart_ne _ hq, hwork.st]

end Sys2Proof.Claims

namespace Sys2Proof

/-- Settles O45: an admission within a step changes its partition's schedule alone (`admitSample_eq`), the end of a
stage takes its entry from the board (`not_mem_entryDone`), a boundary moves the cursor and counts its step
(`closeStep_standing`), and a fence leaves the cursor where it stands (`fencePart_keeps`). -/
theorem stagesAndBoundaries : Obligations.StagesAndBoundaries :=
  ⟨Claims.admitRow_holds, Claims.admitAskRow_holds, Claims.issueRow_holds, Claims.stageCompleteRow_holds,
    Claims.boundaryRow_holds, Claims.watchdogRow_holds⟩

end Sys2Proof
end

/-! # Still engines: whose job a rerun marks

A rerun is written to the engine that the job's own kind and the engine's number name. An engine that runs a job of its
kind marks its own job (`stillRerun_of_kind`); one that holds a job of the other kind stays as it was, which refutes the
row. -/

section
namespace Sys2Proof.Machine
variable {r s : State} {jpeg b : Bool} {n k : Nat} {j : StillJob}

/-! ## Reading an engine -/

theorem engineOf_modEngine (g : Engine → Engine) (h : n < engineCount jpeg) :
    engineOf (modEngine jpeg n g s) jpeg n = g (engineOf s jpeg n) := by
  cases jpeg <;> exact vget_vmodN_same _ _ _ h

theorem engineOf_modEngine_ne (g : Engine → Engine) (h : k ≠ n) :
    engineOf (modEngine jpeg n g s) jpeg k = engineOf s jpeg k := by
  cases jpeg <;> exact vget_vmodN_ne _ _ _ h

theorem engineOf_modEngine_kind (g : Engine → Engine) (h : b ≠ jpeg) :
    engineOf (modEngine jpeg n g s) b k = engineOf s b k := by
  cases jpeg <;> cases b
  case true.true | false.false => exact absurd rfl h
  case true.false | false.true => rfl

/-! ## Engines that run a job (R255) -/

/-- An engine takes its next job when it runs none: every other engine stays as it is, and so does one that runs. -/
theorem engineOf_startStill (h : (engineOf s jpeg n).job.isSome = true) :
    engineOf (startStill b k s) jpeg n = engineOf s jpeg n := by
  by_cases hself : b = jpeg ∧ k = n
  · obtain ⟨rfl, rfl⟩ := hself
    rw [startStill, if_pos (by simp [h])]
  have hother (g : Engine → Engine) (u : State) : engineOf (modEngine b k g u) jpeg n = engineOf u jpeg n := by
    by_cases hb : jpeg = b
    · subst hb
      exact engineOf_modEngine_ne g fun e => hself ⟨rfl, e.symm⟩
    · exact engineOf_modEngine_kind g hb
  unfold startStill
  dsimp only
  split
  · rfl
  split
  · rfl
  split
  · rfl
  · exact hother _ _

theorem engineOf_startStills (h : (engineOf s jpeg n).job.isSome = true) :
    engineOf (startStills s) jpeg n = engineOf s jpeg n := by
  have hfold (b : Bool) (l : List Nat) (u : State) (hu : engineOf u jpeg n = engineOf s jpeg n) :
      engineOf (l.foldl (fun s i => startStill b i s) u) jpeg n = engineOf s jpeg n :=
    List.foldlRecOn l _ (motive := fun v => engineOf v jpeg n = engineOf s jpeg n) hu fun v hv _ _ =>
      (engineOf_startStill (by rw [hv, h])).trans hv
  exact hfold _ _ _ (hfold _ _ _ rfl)

/-- Partitions, host side and log are as before. -/
structure UnitsOnly (s t : State) : Prop where
  parts : t.parts = s.parts
  host : t.host = s.host
  log : t.log = s.log

theorem modEngine_unitsOnly (b : Bool) (k : Nat) (g : Engine → Engine) (s : State) : UnitsOnly s (modEngine b k g s) :=
  ⟨rfl, rfl, rfl⟩

theorem startStill_unitsOnly (h : UnitsOnly r s) : UnitsOnly r (startStill b k s) := by
  unfold startStill
  dsimp only
  split
  · exact h
  split
  · exact h
  split
  · exact h
  · exact ⟨h.parts, h.host, h.log⟩

theorem startStills_unitsOnly (h : UnitsOnly r s) : UnitsOnly r (startStills s) :=
  List.foldlRecOn _ _ (motive := UnitsOnly r)
    (List.foldlRecOn _ _ (motive := UnitsOnly r) h fun _ hx _ _ => startStill_unitsOnly hx)
    fun _ hx _ _ => startStill_unitsOnly hx

/-! ## The first failure of a run (R254, R255) -/

theorem stillFailed_first (code off : Nat) (h : j.prev = none) : stillFailed j n code off s =
    modEngine j.jpeg n (fun e => { e with job := some { j with attempt := 1, prev := some (code, off) } }) s := by
  rw [stillFailed, h]

theorem doStillTimeout_of_job (h : (engineOf s jpeg n).job = some j) :
    doStillTimeout jpeg n s = startStills (stillFailed j n stillTimeout_ 0 s) := by
  rw [doStillTimeout, h]

theorem doStillComplete_error {code off : Nat} (h : (engineOf s jpeg n).job = some j) (hcode : code ≠ 0) :
    doStillComplete jpeg n (.error code off) s = startStills (stillFailed j n code off s) := by
  simp only [doStillComplete, h, stillOut, if_neg hcode]

/-- An engine that holds a job of the other kind is no different after the job's first timeout. -/
theorem engineOf_doStillTimeout_kind (hjob : (engineOf s jpeg n).job = some j) (hprev : j.prev = none)
    (hkind : j.jpeg ≠ jpeg) : engineOf (doStillTimeout jpeg n s) jpeg n = engineOf s jpeg n := by
  have hmark (g : Engine → Engine) : engineOf (modEngine j.jpeg n g s) jpeg n = engineOf s jpeg n :=
    engineOf_modEngine_kind g hkind.symm
  rw [doStillTimeout_of_job hjob, stillFailed_first _ _ hprev, engineOf_startStills (by rw [hmark, hjob]; rfl), hmark]

/-- An inflate job, and the reset state with that job on JPEG engine 0. -/
def inflateJob : StillJob := { part := 0, slot := 0, off := 0, stage := 0, jpeg := false }
def inflateOnJpeg : State := modEngine true 0 (fun e => { e with job := some inflateJob }) State.reset

theorem inflateOnJpeg_job : (engineOf inflateOnJpeg true 0).job = some inflateJob :=
  congrArg Engine.job (engineOf_modEngine _ (by decide))

end Sys2Proof.Machine

namespace Sys2Proof.Claims
open Sys2Proof.Machine

/-- The row holds of an engine whose job is of its own kind, so only the kind is missing in its hypotheses. -/
theorem stillRerun_of_kind {jpeg : Bool} {n : Nat} {s : State} {j : StillJob} (hn : n < engineCount jpeg)
    (hjob : (engineOf s jpeg n).job = some j) (hprev : j.prev = none) (hkind : j.jpeg = jpeg) :
    (∀ code off, code ≠ 0 → Ends (.stillJobComplete jpeg n (.error code off)) s (fun t =>
      (engineOf t jpeg n).job = some { j with attempt := 1, prev := some (code, off) }
      ∧ t.parts = s.parts ∧ t.host = s.host ∧ t.log = s.log))
    ∧ Ends (.stillJobTimeout jpeg n) s (fun t =>
      (engineOf t jpeg n).job = some { j with attempt := 1, prev := some (65536, 0) }
      ∧ t.parts = s.parts ∧ t.host = s.host ∧ t.log = s.log) := by
  have hmark (code off : Nat) : (engineOf (stillFailed j n code off s) jpeg n).job
      = some { j with attempt := 1, prev := some (code, off) } := by
    rw [stillFailed_first _ _ hprev, hkind, engineOf_modEngine _ hn]
  have hrerun (code off : Nat) : (engineOf (startStills (stillFailed j n code off s)) jpeg n).job
      = some { j with attempt := 1, prev := some (code, off) } := by
    rw [engineOf_startStills (by rw [hmark]; rfl), hmark]
  have hframe (code off : Nat) : UnitsOnly s (startStills (stillFailed j n code off s)) := by
    rw [stillFailed_first _ _ hprev]
    exact startStills_unitsOnly (modEngine_unitsOnly _ _ _ s)
  refine ⟨fun code off hcode => ⟨_, congrArg Host.Outcome.next (doStillComplete_error hjob hcode), hrerun code off,
    (hframe code off).parts, (hframe code off).host, (hframe code off).log⟩,
    ⟨_, congrArg Host.Outcome.next (doStillTimeout_of_job hjob), hrerun _ 0, (hframe _ 0).parts, (hframe _ 0).host,
      (hframe _ 0).log⟩⟩

theorem not_stillRerunRows : ¬stillRerunRows := by
  intro h
  obtain ⟨-, t, hexec, hjob, -⟩ := h true 0 inflateOnJpeg inflateJob (by decide) inflateOnJpeg_job rfl
  have ht : doStillTimeout true 0 inflateOnJpeg = t := Host.Outcome.next.inj hexec
  have hsame := engineOf_doStillTimeout_kind inflateOnJpeg_job rfl (by decide)
  rw [← ht, hsame, inflateOnJpeg_job] at hjob
  exact absurd hjob (by decide)

end Sys2Proof.Claims

namespace Sys2Proof

/-- Refutes O46: its first row lets a JPEG engine hold an inflate job, and then a timeout marks the rerun on the inflate
engine of the same number (`engineOf_doStillTimeout_kind`), while the JPEG engine keeps the job unmarked. -/
theorem not_stillAndWarpEngines : ¬ Obligations.StillAndWarpEngines :=
  fun h => Claims.not_stillRerunRows h.1

end Sys2Proof
end

/-! # Camera streams: a change of one stream

A change that keeps a stream's index is what reading the stream gives afterwards (`streamOf_modStream`). -/

section
namespace Sys2Proof.Machine
variable {s : State} {p : Pid} {i : Nat}

/-- A list entry found by a key is found changed when the changes keep the key. -/
theorem find?_modAll {α : Type} {w t : α → Bool} {f : α → α} (hkey : ∀ x, w (f x) = w x) (l : List α) :
    (modAll t f l).find? w = (l.find? w).map (fun x => if t x then f x else x) := by
  have hw : (w ∘ fun x => if t x then f x else x) = w := by
    funext x
    rw [Function.comp_apply]
    split
    · exact hkey x
    · rfl
  rw [modAll, List.find?_map, hw]

theorem streamOf_modStream {g : Stream → Stream} {x : Stream} (hindex : ∀ x, (g x).index = x.index)
    (h : streamOf (partOf s p) i = some x) : streamOf (partOf (modStream p i g s) p) i = some (g x) := by
  have hi : (x.index == i) = true := List.find?_some (p := fun x : Stream => x.index == i) h
  have hfind := find?_modAll (w := fun x => x.index == i) (t := fun x => x.index == i) (f := g)
    (fun x => by rw [hindex]) (partOf s p).streams
  rw [modStream, partOf_modPart, streamOf, hfind, show List.find? _ _ = some x from h, Option.map_some, if_pos hi]

theorem streamOf_modCodec {g : CodecSt → CodecSt} {x : Stream} (h : streamOf (partOf s p) i = some x) :
    streamOf (partOf (modCodec p i g s) p) i = some { x with codec := g x.codec } :=
  streamOf_modStream (fun _ => rfl) h

end Sys2Proof.Machine
end

/-! # The video codec: segments

Free cores take waiting segments (`startSegs_starts`): a core that runs keeps its job, no core's dead tags change, and a
segment that waited still waits or runs. The end of a sample's stage leaves cores, waiting segments and streams alone
(`sampleStageDone_codec`). -/

section
namespace Sys2Proof.Machine
open State (LoggedTo)
variable {r s t : State} {p : Pid} {c k : Nat} {j : SegJob}

/-! ## Cores -/

theorem coreOf_modCore (g : Core → Core) (h : c < 24) : coreOf (modCore c g s) c = g (coreOf s c) :=
  vget_vmodN_same _ _ _ h

theorem coreOf_modCore_ne (g : Core → Core) (h : k ≠ c) : coreOf (modCore c g s) k = coreOf s k :=
  vget_vmodN_ne _ _ _ h

/-- The core that a segment may take runs nothing and is one of its partition's (R276). -/
theorem freeCore_spec (h : freeCore s j = some c) : (coreOf s c).job = none ∧ c ∈ (partOf s j.part).g.cores := by
  have hfree : (coreOf s c).job = none :=
    Option.isNone_iff_eq_none.1 (List.find?_some (p := fun c => (coreOf s c).job.isNone) h)
  have hpool := List.mem_of_find?_eq_some h
  refine ⟨hfree, ?_⟩
  have hmine (hc : c ∈ ((partOf s j.part).g.cores.foldl (fun a c => insSorted c a) []).filter
      (fun c => !(coreOf s c).fenced)) : c ∈ (partOf s j.part).g.cores := by
    simpa using mem_foldl_insSorted.1 (List.mem_filter.1 hc).1
  split at hpool
  · exact hmine hpool
  · exact hmine (List.mem_filter.1 hpool).1

/-! ## Free cores take waiting segments (R276) -/

/-- Core c takes the waiting segment j. -/
def takeSeg (c : Nat) (j : SegJob) (s : State) : State :=
  modCore c (fun k => { k with job := some j }) (modUnits (fun u => { u with segQ := u.segQ.erase j }) s)

theorem startSegs_of_none {n : Nat} (h : s.units.segQ = []) : startSegs n s = s := by
  cases n with
  | zero => rfl
  | succ n => simp [startSegs, h]

theorem startSegs_of_single {n : Nat} (hdom : domOn s 6 = true) (hq : s.units.segQ = [j])
    (hfree : freeCore s j = some c) : startSegs (n + 1) s = takeSeg c j s := by
  have hempty : (takeSeg c j s).units.segQ = [] := by simp [takeSeg, modCore, hq]
  have hstep : startSegs (n + 1) s = startSegs n (takeSeg c j s) := by
    simp [startSegs, hdom, hq, hfree, takeSeg]
  rw [hstep, startSegs_of_none hempty]

/-- Either nothing can start, or a waiting segment takes a core that is free for it. -/
theorem startSegs_succ (n : Nat) (s : State) : startSegs (n + 1) s = s ∨
    ∃ j c, freeCore s j = some c ∧ startSegs (n + 1) s = startSegs n (takeSeg c j s) := by
  rw [startSegs]
  split
  · exact .inl rfl
  split
  · exact .inl rfl
  split
  · exact .inl rfl
  case h_2 j _ _ c hc => exact .inr ⟨j, c, hc, rfl⟩

/-- What the start of waiting segments does: partitions and host side stay, dead tags stay, a core that runs goes on,
and a segment that waited waits still or runs. -/
structure Starts (s t : State) : Prop where
  parts : t.parts = s.parts
  host : t.host = s.host
  dead : ∀ k, (coreOf t k).dead = (coreOf s k).dead
  runs : ∀ k j, (coreOf s k).job = some j → (coreOf t k).job = some j
  waits : ∀ j ∈ s.units.segQ, j ∈ t.units.segQ ∨ ∃ k, k < 24 ∧ (coreOf t k).job = some j

theorem Starts.refl (s : State) : Starts s s := ⟨rfl, rfl, fun _ => rfl, fun _ _ => id, fun _ => .inl⟩

theorem Starts.trans (h : Starts r s) (k : Starts s t) : Starts r t where
  parts := k.parts.trans h.parts
  host := k.host.trans h.host
  dead := fun c => (k.dead c).trans (h.dead c)
  runs := fun c j e => k.runs c j (h.runs c j e)
  waits := fun j hj => (h.waits j hj).elim (k.waits j) fun ⟨c, hc, e⟩ => .inr ⟨c, hc, k.runs c j e⟩

theorem takeSeg_starts (hc : c < 24) (hfree : (coreOf s c).job = none) : Starts s (takeSeg c j s) := by
  have hsame : coreOf (takeSeg c j s) c = { coreOf s c with job := some j } := coreOf_modCore _ hc
  have hother (k : Nat) (h : k ≠ c) : coreOf (takeSeg c j s) k = coreOf s k := coreOf_modCore_ne _ h
  refine ⟨rfl, rfl, fun k => ?_, fun k i hi => ?_, fun i hi => ?_⟩
  · by_cases e : k = c
    · rw [e, hsame]
    · rw [hother k e]
  · by_cases e : k = c
    · rw [e, hfree] at hi
      cases hi
    · rw [hother k e, hi]
  · by_cases e : i = j
    · exact .inr ⟨c, hc, by rw [hsame, e]⟩
    · exact .inl ((List.mem_erase_of_ne e).2 hi)

theorem startSegs_starts {n : Nat} (hcores : ∀ p, ∀ k ∈ (partOf s p).g.cores, k < 24) : Starts s (startSegs n s) := by
  induction n generalizing s with
  | zero => exact .refl s
  | succ n ih =>
    rcases startSegs_succ n s with hstay | ⟨j, c, hc, hstep⟩
    · rw [hstay]
      exact .refl s
    · obtain ⟨hfree, hmine⟩ := freeCore_spec hc
      rw [hstep]
      exact (takeSeg_starts (hcores _ c hmine) hfree).trans (ih hcores)

/-! ## What the end of a sample's stage leaves -/

/-- The cores, the waiting segments and every partition's streams are as before. -/
structure CodecStays (s t : State) : Prop where
  cores : t.units.cores = s.units.cores
  segQ : t.units.segQ = s.units.segQ
  streams : Keeps Part.streams s t

theorem CodecStays.refl (s : State) : CodecStays s s := ⟨rfl, rfl, .refl _ s⟩

theorem CodecStays.trans (h : CodecStays r s) (k : CodecStays s t) : CodecStays r t :=
  ⟨k.cores.trans h.cores, k.segQ.trans h.segQ, h.streams.trans k.streams⟩

theorem CodecStays.core (h : CodecStays s t) (c : Nat) : coreOf t c = coreOf s c := by rw [coreOf, coreOf, h.cores]

theorem CodecStays.stream (h : CodecStays s t) (p : Pid) (i : Nat) :
    streamOf (partOf t p) i = streamOf (partOf s p) i := by rw [streamOf, streamOf, h.streams p]

theorem State.LoggedTo.codecStays (h : LoggedTo s t) : CodecStays s t := ⟨by rw [h.units], by rw [h.units], h.streams⟩

theorem foldl_codecStays {α : Type} {l : List α} {f : State → α → State}
    (hf : ∀ x a, CodecStays r x → CodecStays r (f x a)) (h : CodecStays r s) : CodecStays r (l.foldl f s) :=
  List.foldlRecOn l f (motive := CodecStays r) h fun x hx a _ => hf x a hx

theorem modPool_codecStays (g) (h : CodecStays r s) : CodecStays r (modPool g s) := ⟨h.cores, h.segQ, h.streams⟩
theorem modTile_codecStays (n g) (h : CodecStays r s) : CodecStays r (modTile n g s) := ⟨h.cores, h.segQ, h.streams⟩

theorem modPart_codecStays {g : Part → Part} (hg : ∀ q, (g q).streams = q.streams) (h : CodecStays r s) :
    CodecStays r (modPart p g s) := ⟨h.cores, h.segQ, modPart_keeps hg h.streams⟩

theorem modSched_codecStays (g) (h : CodecStays r s) : CodecStays r (modSched p g s) :=
  modPart_codecStays (fun _ => rfl) h

theorem poolWake_codecStays (c) (h : CodecStays r s) : CodecStays r (poolWake p c s) := by
  unfold poolWake
  exact modPool_codecStays _ h

theorem unreserve_codecStays (c n) (h : CodecStays r s) : CodecStays r (unreserve p c n s) := by
  unfold unreserve
  dsimp only
  split
  · exact h
  · exact poolWake_codecStays _ (modPart_codecStays (fun _ => rfl) h)

theorem unreserveAll_codecStays (l) (h : CodecStays r s) : CodecStays r (unreserveAll p l s) :=
  foldl_codecStays (fun _ _ => unreserve_codecStays _ _) h

theorem modSample_codecStays (slot off g) (h : CodecStays r s) : CodecStays r (modSample p slot off g s) :=
  modPart_codecStays (fun _ => rfl) h

theorem closeSamples_codecStays (slot) (h : CodecStays r s) : CodecStays r (closeSamples p slot s) := by
  unfold closeSamples
  dsimp only
  split
  · exact h
  · exact foldl_codecStays (fun _ _ hx => modSample_codecStays _ _ _ (unreserveAll_codecStays _ hx)) h

theorem entriesDone_codecStays (slot w) (h : CodecStays r s) : CodecStays r (entriesDone p slot w s) := by
  unfold entriesDone refreshBoard
  exact modSched_codecStays _ (closeSamples_codecStays _ (modSched_codecStays _ h))

theorem groupRetryOver_codecStays (e) (h : CodecStays r s) : CodecStays r (groupRetryOver p e s) :=
  foldl_codecStays (fun _ _ hx => (modTile_codecStays _ _ hx).trans
    (transientFault_logged _ _ _ _ (.refl _)).codecStays) h

theorem entryDone_codecStays (e) (h : CodecStays r s) : CodecStays r (entryDone p e s) := by
  unfold entryDone
  dsimp only
  split
  · exact entriesDone_codecStays _ _ (groupRetryOver_codecStays _ h)
  · exact entriesDone_codecStays _ _ h

theorem sampleStageDone_codecStays (slot off stage) (h : CodecStays r s) :
    CodecStays r (sampleStageDone p slot off stage s) := by
  unfold sampleStageDone
  split
  · exact entryDone_codecStays _ h
  · exact h

/-- A decoded picture counts for its stream; its hand-on leaves the codec alone (R272). -/
theorem segDecoded_codecStays (j : SegJob) (k : Nat × Nat) (ps : List Plane) (sl bits : Nat) (s : State) :
    CodecStays (modCodec j.part j.stream (fun c => { c with
      pictures := satAdd 64 c.pictures 1, slices := satAdd 64 c.slices sl, bits := satAdd 64 c.bits bits }) s)
      (segDecoded j k ps sl bits s) :=
  sampleStageDone_codecStays _ _ _ (modSample_codecStays _ _ _ (.refl _))

/-! ## The runs of a segment -/

/-- The first success of a run frees its core (R276). -/
theorem segOk_first (h : j.prev = none) : segOk c j s = modCore c (fun k => { k with job := none }) s := by
  rw [segOk, h]

/-- A segment that failed once, to run again. -/
def rerunOf (c : Nat) (j : SegJob) (code off : Nat) : SegJob :=
  { j with attempt := 1, prev := some (code, off), prevCore := some c }

/-- The first failure of a run frees its core, and the segment is the first to wait (R291). -/
theorem segFailed_first (code off ctu : Nat) (h : j.prev = none) : segFailed c j code off ctu s =
    modUnits (fun u => { u with segQ := rerunOf c j code off :: u.segQ })
      (modCore c (fun k => { k with job := none }) s) := by
  rw [segFailed, h]
  rfl

theorem doSegmentReady_eq {n seg : Nat} {x : Stream} {d : StreamDecl} {w : Win}
    (hx : streamOf (partOf s p) n = some x) (hd : declOf (partOf s p) n = some d) (hw : codingWin x = some w)
    (hdom : domOn s 6 = true) (hst : x.codec.st = 1 ∨ x.codec.st = 4) (henc : d.encode = true)
    (hready : segReady s p x d w seg = true) : doSegmentReady p n seg s = startSegs 24
      (modUnits (fun u => { u with segQ := u.segQ ++ [{ part := p, stream := n, win := w.seq, seg := seg }] }) s) := by
  have hopen : (x.codec.st == 1 || x.codec.st == 4) = true := by simpa using hst
  simp [doSegmentReady, hx, hd, hw, hdom, hopen, henc, hready]

theorem doSegmentComplete_decoded {k : Nat × Nat} (ps : List Plane) (sl bits : Nat) (hjob : (coreOf s c).job = some j)
    (hsample : j.sample = some k) : doSegmentComplete c (segTag j) (.decoded ps sl bits) s =
      startSegs 24 (segDecoded j k ps sl bits (segOk c j s)) := by
  simp [doSegmentComplete, hjob, hsample]

theorem doSegmentComplete_late {tag : Nat} (res : SegResult) (hjob : (coreOf s c).job = none)
    (hdead : tag ∈ (coreOf s c).dead) : ∃ part, doSegmentComplete c tag res s =
      lateDiscard part (coreUnit c) 8 tag (modCore c (fun k => { k with dead := k.dead.erase tag }) s) := by
  simp only [doSegmentComplete, hjob, List.contains_iff_mem.2 hdead, if_true]
  exact ⟨_, rfl⟩

/-- Core c gave up the job j at its first timeout: its tag is dead, and the segment is the first to wait (R292). -/
def timedOut (c : Nat) (j : SegJob) (s : State) : State :=
  modUnits (fun u => { u with segQ := rerunOf c j segTimeout_ 0 :: u.segQ })
    (modCore c (fun k => { k with job := none }) (modCore c (fun k => { k with dead := k.dead ++ [segTag j] }) s))

theorem doSegmentTimeout_first (hjob : (coreOf s c).job = some j) (hprev : j.prev = none) :
    doSegmentTimeout c s = startSegs 24 (timedOut c j s) := by
  rw [doSegmentTimeout, hjob, timedOut, ← segFailed_first _ _ 0 hprev]

theorem timedOut_dead (j : SegJob) (h : c < 24) : (coreOf (timedOut c j s) c).dead = (coreOf s c).dead ++ [segTag j] :=
  (congrArg Core.dead (coreOf_modCore _ h)).trans (congrArg Core.dead (coreOf_modCore (s := s) _ h))

end Sys2Proof.Machine

namespace Sys2Proof.Claims
open Sys2Proof.Machine

theorem segmentReadyRow_holds : segmentReadyRow := by
  intro p n seg c s x d w hx hd hw hdom hst henc hready hq hc hfree
  let job : SegJob := { part := p, stream := n, win := w.seq, seg := seg }
  let u := modUnits (fun u => { u with segQ := u.segQ ++ [job] }) s
  have htake : doSegmentReady p n seg s = takeSeg c job u := by
    rw [doSegmentReady_eq hx hd hw hdom hst henc hready]
    exact startSegs_of_single hdom (congrArg (· ++ [job]) hq) hfree
  refine ⟨_, congrArg Host.Outcome.next htake, ?_, ?_, fun k hk => coreOf_modCore_ne _ hk, rfl, rfl⟩
  · rw [takeSeg, coreOf_modCore _ hc]
  · simp [takeSeg, modCore, u, job, hq]

theorem segmentDoneRow_holds : segmentDoneRow := by
  intro c tag ps sl bits s j k x hc hjob htag hprev hsample hq hx
  let u := modCore c (fun k => { k with job := none }) s
  have hstays := segDecoded_codecStays j k ps sl bits u
  have hend : doSegmentComplete c tag (.decoded ps sl bits) s = segDecoded j k ps sl bits u := by
    rw [← htag, doSegmentComplete_decoded ps sl bits hjob hsample, segOk_first hprev]
    exact startSegs_of_none (hstays.segQ.trans hq)
  refine ⟨_, congrArg Host.Outcome.next hend, ?_, _, (hstays.stream _ _).trans (streamOf_modCodec hx), rfl, rfl, rfl⟩
  rw [hstays.core]
  exact congrArg Core.job (coreOf_modCore (s := s) _ hc)

theorem segmentLateRow_holds : segmentLateRow := by
  intro c tag res s hc hjob hdead
  obtain ⟨part, hlate⟩ := doSegmentComplete_late res hjob hdead
  let u := modCore c (fun k => { k with dead := k.dead.erase tag }) s
  have hlog := lateDiscard_logged part (coreUnit c) 8 tag (.refl u)
  have hcore := (hlog.codecStays.core c).trans (coreOf_modCore (s := s) _ hc)
  refine ⟨_, congrArg Host.Outcome.next hlate, congrArg Core.dead hcore, (congrArg Core.job hcore).trans hjob,
    fun p => ⟨hlog.streams p, hlog.sc p⟩⟩

theorem segmentTimeoutRow_holds : segmentTimeoutRow := by
  intro c s j hc hjob hprev hcores
  have hstarts : Starts (timedOut c j s) (startSegs 24 (timedOut c j s)) := startSegs_starts hcores
  exact ⟨_, congrArg Host.Outcome.next (doSegmentTimeout_first hjob hprev), (hstarts.dead c).trans (timedOut_dead j hc),
    hstarts.waits _ List.mem_cons_self, hstarts.parts, hstarts.host⟩

end Sys2Proof.Claims

namespace Sys2Proof

/-- Settles O47: a ready segment takes the free core (`startSegs_of_single`), a decoded picture counts for its stream
and leaves the codec alone (`segDecoded_codecStays`), a late tag is retired, and a segment that ran out of time waits or
runs again (`startSegs_starts`). -/
theorem codecSegments : Obligations.CodecSegments :=
  ⟨Claims.segmentReadyRow_holds, Claims.segmentDoneRow_holds, Claims.segmentLateRow_holds,
    Claims.segmentTimeoutRow_holds⟩

end Sys2Proof
end

/-! # Stream and port commands

A grant of a standing reservation leaves the streams alone (`Reserved`), a configured port is what its request says
(`portOf_setPort`), and a closed stream has nothing in work (`streamOf_closeStream`). -/

section
namespace Sys2Proof.Machine
variable {s t : State} {p : Pid} {i : Nat} {r : Req} {x : Stream}

/-! ## STREAM_OPEN (R294, R491, R510) -/

/-- A reservation of partition p was granted: its streams, the other partitions, the host side and the always-on side
are as before. -/
structure Reserved (p : Pid) (s t : State) : Prop where
  streams : (partOf t p).streams = (partOf s p).streams
  other : ∀ q, q ≠ p → partOf t q = partOf s q
  host : t.host = s.host
  ao : t.ao = s.ao

theorem holdAdd_reserved (p : Pid) (counts : List Nat) (s : State) : Reserved p s (holdAdd p counts s) :=
  ⟨by rw [holdAdd, partOf_modPart], fun _ hq => partOf_holdAdd_ne counts s hq, rfl, rfl⟩

theorem reserveNow_reserved {counts : List Nat} (h : reserveNow p counts s = some t) : Reserved p s t := by
  unfold reserveNow at h
  split at h
  · cases h
    exact ⟨rfl, fun _ _ => rfl, rfl, rfl⟩
  split at h
  · cases h
  split at h
  · cases h
    exact holdAdd_reserved p counts s
  · cases h

theorem Reserved.stream (h : Reserved p s t) (i : Nat) : streamOf (partOf t p) i = streamOf (partOf s p) i := by
  rw [streamOf, streamOf, h.streams]

theorem openStream_index (res : Nat) (x : Stream) : (openStream res x).index = x.index := by
  unfold openStream
  split <;> rfl

/-- A stream that was not open opens at its next window, with an IRAP picture and no block (R294, R377). -/
theorem openStream_of_closed (res : Nat) (h : streamOpen x = false) :
    (openStream res x).codec.st = 1 ∧ (openStream res x).w0 = x.nextWin ∧ (openStream res x).codec.forceIrap = true
      ∧ (openStream res x).last = none ∧ (openStream res x).blocks = [] := by
  have hclosed : ¬(decide (x.codec.st = 1) || decide (x.codec.st = 4)) = true := by simpa [streamOpen] using h
  rw [openStream, if_neg hclosed]
  exact ⟨rfl, rfl, rfl, rfl, rfl⟩

theorem streamOpenBody_granted {d : StreamDecl} (hd : declOf (partOf s r.pid) (field r.payload 0 1) = some d)
    (hx : streamOf (partOf s r.pid) (field r.payload 0 1) = some x) (hclosed : streamOpen x = false)
    (ht : reserveNow r.pid (standingFor (partOf s r.pid) x) s = some t) : streamOpenBody r s =
      (modStream r.pid (field r.payload 0 1) (openStream (nth d.standing d.windowClass)) t,
        ansOk (toLe 4 x.nextWin ++ zeros 4)) := by
  have hopened := streamOf_modStream (openStream_index (nth d.standing d.windowClass))
    (((reserveNow_reserved ht).stream _).trans hx)
  obtain ⟨-, hw0, -⟩ := openStream_of_closed (nth d.standing d.windowClass) hclosed
  simp [streamOpenBody, hd, hx, hclosed, ht, hopened, hw0]

theorem streamOpenBody_open {d : StreamDecl} (hd : declOf (partOf s r.pid) (field r.payload 0 1) = some d)
    (hx : streamOf (partOf s r.pid) (field r.payload 0 1) = some x) (hopen : streamOpen x = true) :
    streamOpenBody r s = (s, ansOk (toLe 4 x.w0 ++ zeros 4)) := by
  simp [streamOpenBody, hd, hx, hopen]

theorem streamOpenBody_short {d : StreamDecl} (hd : declOf (partOf s r.pid) (field r.payload 0 1) = some d)
    (hx : streamOf (partOf s r.pid) (field r.payload 0 1) = some x) (hclosed : streamOpen x = false)
    (hnone : reserveNow r.pid (standingFor (partOf s r.pid) x) s = none) :
    streamOpenBody r s = (s, { status := stNoBuffer, reason := 0x010B, retry := 10 }) := by
  simp [streamOpenBody, hd, hx, hclosed, hnone]

/-! ## STREAM_CLOSE (R294) -/

theorem streamOf_returnStanding (h : streamOf (partOf s p) i = some x) :
    ∃ n, streamOf (partOf (returnStanding p i s) p) i = some { x with res := n } := by
  unfold returnStanding
  dsimp only
  split
  case h_1 =>
    refine ⟨0, streamOf_modStream (fun _ => rfl) ?_⟩
    rw [(foldl_codecStays (fun _ _ => unreserve_codecStays _ _) (.refl s)).stream, h]
  case h_2 => exact ⟨x.res, h⟩

/-- A closed stream has no block and no range in work, and keeps its windows' numbers. -/
theorem streamOf_closeStream (h : streamOf (partOf s p) i = some x) :
    ∃ y, streamOf (partOf (closeStream p i s) p) i = some y ∧ y.codec.st = 0 ∧ y.codec.closing = false
      ∧ y.blocks = [] ∧ y.ranges = [] ∧ y.nextWin = x.nextWin := by
  obtain ⟨n, hn⟩ := streamOf_returnStanding (streamOf_modStream (g := fun x => { x with
    codec := { x.codec with st := 0, closing := false }, blocks := [], ranges := [], last := none }) (fun _ => rfl) h)
  exact ⟨_, hn, rfl, rfl, rfl, rfl, rfl⟩

theorem streamCloseBody_closed (hx : streamOf (partOf s r.pid) (field r.payload 0 1) = some x)
    (hclosed : streamOpen x = false) : streamCloseBody r s = (s, ansOk) := by
  simp [streamCloseBody, hx, hclosed]

theorem streamCloseBody_idle (hx : streamOf (partOf s r.pid) (field r.payload 0 1) = some x)
    (hopen : streamOpen x = true) (hidle : ∀ w ∈ x.wins, w.done = true ∧ (w.encoded = true ∨ w.uncoded = true)) :
    streamCloseBody r s = (closeStream r.pid (field r.payload 0 1) s, ansOk) := by
  have hwork : x.wins.any (fun w => !w.done || (!w.encoded && !w.uncoded)) = false := by
    rw [List.any_eq_false]
    intro w hw
    obtain ⟨hdone, hcoded⟩ := hidle w hw
    rcases hcoded with e | e <;> simp [hdone, e]
  simp [streamCloseBody, hx, hopen, hwork]

theorem streamCloseBody_busy {w : Win} (hx : streamOf (partOf s r.pid) (field r.payload 0 1) = some x)
    (hopen : streamOpen x = true) (hw : w ∈ x.wins) (hbusy : w.done = false) :
    streamCloseBody r s = (modCodec r.pid (field r.payload 0 1) (fun k => { k with closing := true }) s, ansOk) := by
  have hwork : x.wins.any (fun w => !w.done || (!w.encoded && !w.uncoded)) = true :=
    List.any_eq_true.2 ⟨w, hw, by simp [hbusy]⟩
  simp [streamCloseBody, hx, hopen, hwork]

/-! ## INGEST_PORT_CONFIG (R368, R371, R516) -/

theorem portOf_modPtp (g : PtpSt → PtpSt) (s : State) (n : Nat) : portOf (modPtp g s) n = portOf s n := rfl

theorem portOf_setPort {b : List Byte} (h : field b 0 1 < 8) :
    portOf (setPort b s) (field b 0 1) = portFrom b (portOf s (field b 0 1)) := by
  unfold setPort
  dsimp only
  split <;> rw [portOf_modPtp, portOf_modPort _ _ h]

theorem portOf_setPort_ne {b : List Byte} {k : Nat} (h : k ≠ field b 0 1) : portOf (setPort b s) k = portOf s k := by
  unfold setPort
  dsimp only
  split <;> rw [portOf_modPtp, portOf_modPort_ne _ h]

/-- The PTP clock follows the port that turns it on (R384). -/
theorem setPort_ptp {b : List Byte} (h : bit (field b 3 1) 1 = true) :
    (setPort b s).units.ptp.port = some (field b 0 1) := by
  rw [setPort, if_pos h]
  simp only [modPtp, modUnits]
  split
  case isTrue hport => exact of_decide_eq_true hport
  case isFalse => rfl

theorem setPort_regrants (b : List Byte) (s : State) (p : Pid) :
    Regrants p (partOf s p).st (partOf s p).g s (setPort b s) := by
  unfold setPort
  exact ite_regrants (modUnits_regrants _ (modUnits_regrants _ (.refl p s)))
    (modUnits_regrants _ (modUnits_regrants _ (.refl p s)))

theorem portConfigBody_own (hlen : r.payload.length = 16 + 12 * field r.payload 0x0B 1)
    (hok : portCfgOk r.payload = true) (hholder : portHolder s (field r.payload 0 1) = some r.pid)
    (hbinds : bindsAssigned (bodyOf (partOf s r.pid)) (field r.payload 0 1) (bindingsOf r.payload) = true)
    (hptp : bit (field r.payload 3 1) 1 = true →
      s.units.ptp.port = none ∨ s.units.ptp.port = some (field r.payload 0 1)) :
    portConfigBody r s = (grantsChanged r.pid (setPort r.payload s), ansOk) := by
  simp only [portConfigBody, hlen, hok, hholder, hbinds]
  cases hbit : bit (field r.payload 3 1) 1 with
  | false => simp
  | true => rcases hptp hbit with e | e <;> simp [e]

theorem portConfigBody_free (hlen : r.payload.length = 16 + 12 * field r.payload 0x0B 1)
    (hok : portCfgOk r.payload = true) (hholder : portHolder s (field r.payload 0 1) = none) :
    portConfigBody r s = (s, ansRefused 0x0901) := by
  simp [portConfigBody, ← hlen, hok, hholder]

theorem portConfigBody_other {h : Pid} (hlen : r.payload.length = 16 + 12 * field r.payload 0x0B 1)
    (hok : portCfgOk r.payload = true) (hholder : portHolder s (field r.payload 0 1) = some h) (hne : h ≠ r.pid) :
    portConfigBody r s = (s, ansNotOwner) := by
  simp [portConfigBody, ← hlen, hok, hholder, hne]

theorem portCfgOk_port {b : List Byte} (h : portCfgOk b = true) : field b 0 1 < 8 := by
  by_contra hport
  simp [portCfgOk, hport] at h

/-! ## STREAM_STATUS and INGEST_STATUS (R510, R516) -/

/-- The first 16 of the 88 bytes of R510. -/
theorem streamStatusBody_eq {d : StreamDecl} (hd : declOf (partOf s r.pid) (field r.payload 0 1) = some d)
    (hx : streamOf (partOf s r.pid) (field r.payload 0 1) = some x) :
    ∃ rest : List Byte, rest.length = 72 ∧ streamStatusBody r s = ansOk (toLe 1 x.codec.st ++ toLe 1 (!d.encode).toNat
      ++ zeros 2 ++ toLe 4 x.nextWin ++ toLe 8 x.codec.pictures ++ rest) := by
  simp only [streamStatusBody, hd, hx, List.flatMap_cons, List.append_assoc]
  exact ⟨_, by simp, rfl⟩

theorem ingestStatusBody_own (h : portHolder s (field r.payload 0 1) = some r.pid) :
    ∃ rest : List Byte, ingestStatusBody r s = ansOk (toLe 1 (linkCode (portOf s (field r.payload 0 1)).link)
      ++ toLe 1 (portOf s (field r.payload 0 1)).role ++ rest) := by
  simp only [ingestStatusBody, h, ne_eq, not_true, if_false, List.append_assoc]
  exact ⟨_, rfl⟩

end Sys2Proof.Machine

namespace Sys2Proof.Claims
open Sys2Proof.Machine

theorem streamOpenRow_holds : streamOpenRow := by
  intro i s s' r d x h _ hfields hd hx hclosed hs'
  have hres := reserveNow_reserved hs'
  have hopened := streamOf_modStream (openStream_index (nth d.standing d.windowClass)) ((hres.stream _).trans hx)
  exact ⟨_, congrArg Host.Outcome.next (h.answers rfl hfields (streamOpenBody_granted hd hx hclosed hs') (.inl rfl)),
    ⟨_, hopened, openStream_of_closed _ hclosed⟩, fun p hp => (partOf_modPart_ne _ hp).trans (hres.other p hp),
    hres.host, hres.ao⟩

theorem streamOpenElse_holds : streamOpenElse := fun _ _ _ _ _ h hfields hd hx =>
  ⟨fun hopen => congrArg Host.Outcome.next (h.answers rfl hfields (streamOpenBody_open hd hx hopen) (.inl rfl)),
    fun hclosed hnone => congrArg Host.Outcome.next
      (h.answers rfl hfields (streamOpenBody_short hd hx hclosed hnone) (.inl rfl))⟩

theorem streamCloseRow_holds : streamCloseRow := by
  intro i s r x h _ hfields hx
  refine ⟨fun hclosed => ?_, fun hopen hidle => ?_, fun hopen ⟨w, hw, hbusy⟩ => ?_⟩
  · exact congrArg Host.Outcome.next (h.answers rfl hfields (streamCloseBody_closed hx hclosed) (.inl rfl))
  · exact ⟨_, congrArg Host.Outcome.next (h.answers rfl hfields (streamCloseBody_idle hx hopen hidle) (.inl rfl)),
      streamOf_closeStream hx⟩
  · exact ⟨_, congrArg Host.Outcome.next (h.answers rfl hfields (streamCloseBody_busy hx hopen hw hbusy) (.inl rfl)),
      rfl⟩

theorem streamStatusRow_holds : streamStatusRow := by
  intro i s r d x h hfields hd hx
  obtain ⟨rest, hlen, hbody⟩ := streamStatusBody_eq hd hx
  have hread := h.reads (sel := fun _ => true) rfl hfields (congrArg Ans.pend hbody)
  rw [hbody] at hread
  exact ⟨_, congrArg Host.Outcome.next hread, by simp [hlen], List.take_left' (by simp)⟩

theorem portConfigRow_holds : portConfigRow := by
  intro i s r h _ hlen hok hholder hbinds hptp
  have hport := portOf_setPort (s := s) (portCfgOk_port hok)
  have hgrants := grantsChanged_regrants (setPort_regrants r.payload s r.pid)
  refine ⟨_, congrArg Host.Outcome.next
    (h.answers rfl rfl (portConfigBody_own hlen hok hholder hbinds hptp) (.inl rfl)), ?_, ?_, ?_, ?_, hgrants.host⟩
  · exact ⟨congrArg Port.role hport, congrArg Port.prefix_ hport, congrArg Port.addr hport, congrArg Port.binds hport,
      congrArg Port.vlan hport⟩
  · exact fun k hk => portOf_setPort_ne hk
  · exact fun hbit => setPort_ptp hbit
  · intro p
    by_cases hp : p = r.pid
    · rw [hp]
      exact ⟨hgrants.g, hgrants.st⟩
    · rw [hgrants.other p hp]
      exact ⟨rfl, rfl⟩

theorem portConfigStops_holds : portConfigStops := fun _ _ _ h hlen hok =>
  ⟨fun hfree => congrArg Host.Outcome.next (h.answers rfl rfl (portConfigBody_free hlen hok hfree) (.inl rfl)),
    fun _ hholder hne => congrArg Host.Outcome.next
      (h.answers rfl rfl (portConfigBody_other hlen hok hholder hne) (.inl rfl))⟩

theorem ingestStatusRow_holds : ingestStatusRow := by
  intro i s r h hport hzero hholder
  obtain ⟨rest, hbody⟩ := ingestStatusBody_own hholder
  have hfields : (decide (field r.payload 0 1 < 8) && zeroAt r.payload 1 3) = true := by simp [hport, hzero]
  have hread := h.reads (sel := fun _ => true)
    (fields := fun _ r => decide (field r.payload 0 1 < 8) && zeroAt r.payload 1 3) rfl hfields
    (congrArg Ans.pend hbody)
  rw [hbody] at hread
  exact ⟨_, congrArg Host.Outcome.next hread, List.take_left' (by simp)⟩

end Sys2Proof.Claims

namespace Sys2Proof

/-- Settles O50: an opened stream keeps what its reservation left (`reserveNow_reserved`), a closed one has nothing in
work (`streamOf_closeStream`), a configured port is what the request says (`portOf_setPort`), and the status commands
read. -/
theorem streamAndPortCommands : Obligations.StreamAndPortCommands :=
  ⟨Claims.streamOpenRow_holds, Claims.streamOpenElse_holds, Claims.streamCloseRow_holds, Claims.streamStatusRow_holds,
    Claims.portConfigRow_holds, Claims.portConfigStops_holds, Claims.ingestStatusRow_holds⟩

end Sys2Proof
end

/-! # Dill, and the commands that only set a field

The key schedule and the trace of Table RNG-4, DEVICE_RESET with the silence after it, and the takeover policy. -/

section
namespace Sys2Proof.Machine
variable {s t : State}

/-! ## Little-endian fields side by side -/

theorem leNat_append (a b : List Byte) : leNat (a ++ b) = leNat a + 256 ^ a.length * leNat b := by
  induction a with
  | nil => simp [leNat]
  | cons x a ih => simp only [List.cons_append, leNat, ih, List.length_cons, Nat.pow_succ]; ring

theorem padTo_succ (n : Nat) (bs : List Byte) : padTo (n + 1) bs = bs.headD 0 :: padTo n bs.tail := by
  cases bs with
  | nil => simp [padTo, zeros, List.replicate_succ]
  | cons b bs => simp [padTo]

theorem padTo_add (m n : Nat) (bs : List Byte) : padTo (m + n) bs = padTo m bs ++ padTo n (bs.drop m) := by
  induction m generalizing bs with
  | zero => simp [padTo, zeros]
  | succ m ih => rw [Nat.succ_add, padTo_succ, padTo_succ, ih, List.cons_append, List.drop_tail]

@[simp] theorem padTo_length (n : Nat) (bs : List Byte) : (padTo n bs).length = n := by
  simp only [padTo, List.length_append, List.length_take, zeros, List.length_replicate]
  omega

/-- A field is its first bytes and, above them, the rest. -/
theorem field_add (b : List Byte) (off m n : Nat) :
    field b off (m + n) = field b off m + 256 ^ m * field b (off + m) n := by
  rw [field, slice, padTo_add, leNat_append, padTo_length, List.drop_drop]
  rfl

theorem field_lt (b : List Byte) (off n : Nat) : field b off n < 256 ^ n := by
  have h : ∀ l : List Byte, leNat l < 256 ^ l.length := by
    intro l
    induction l with
    | nil => simp [leNat]
    | cons x l ih =>
      have := x.isLt
      simp only [leNat, List.length_cons, Nat.pow_succ]
      omega
  have := h (slice b off n)
  rwa [slice, padTo_length] at this

/-- A four-byte field that is a code has that code in its first byte and three reserved bytes of zero (R9). -/
theorem field_code_iff {b : List Byte} {k : Nat} (hk : k < 256) :
    field b 0 4 = k ↔ field b 0 1 = k ∧ zeroAt b 1 3 = true := by
  have hsplit : field b 0 4 = field b 0 1 + 256 ^ 1 * field b 1 3 := field_add b 0 1 3
  have hlt : field b 0 1 < 256 ^ 1 := field_lt b 0 1
  rw [zeroAt_iff]
  omega

end Sys2Proof.Machine

namespace Sys2Proof.Claims
open Sys2Proof.Machine
variable {s t : State} {i : ReqId} {r : Req} {op : Nat}

/-! ## Requests whose fields are wrong -/

/-- Check 8 of R107: a request whose turn it is and whose fields are wrong is BAD_FIELD, and a violation is counted. -/
theorem Turn.badField {sel : List Byte → Bool} {fields : State → Req → Bool} {body : Req → State → State × Option Ans}
    (h : Turn s i op r) (hsel : sel r.payload = true) (hfields : fields s r = false) :
    runCmd i op sel fields body s = finish r ansBad (violation r.fn 8 op s) := by
  simp [runCmd, h.head, h.id, h.opcode, h.ready, hsel, hfields]

/-! ## Dill (R301, R302, R307) -/

theorem dillKeys_holds : dillKeys := fun _ => rfl

/-- The state of Table RNG-4 before its rounds: after inject(1). -/
def traceState : DillSt := ⟨0, 0, 0, 0x3A5DC7B2⟩

theorem dillRounds_succ' (n : Nat) (x : DillSt) : dillRounds (n + 1) x = dillRound (dillRounds n x) := by
  induction n generalizing x with
  | zero => rfl
  | succ n ih => rw [dillRounds, ih, dillRounds]

theorem dillTrace_holds : dillTrace := by
  have hzero : dillRounds 5 (dillInject (dillKey 0) 0 ⟨0, 0, 0, 0⟩) = ⟨0, 0, 0, 0⟩ := by decide
  have hx : dillInject (dillKey 0) 1 ⟨0, 0, 0, 0⟩ = traceState := by decide
  have h1 : dillRounds 1 traceState = ⟨0x23A5DC7B, 0xD3AFC3DB, 0xDF986141, 0x17E626E4⟩ := by decide
  have h2 : dillRounds 2 traceState = ⟨0x3F789BB4, 0x2F378E4B, 0x30C649AD, 0xCA7B07B9⟩ := by
    rw [dillRounds_succ', h1]; decide
  have h3 : dillRounds 3 traceState = ⟨0x24B36102, 0x081E2D18, 0x54D2B782, 0xF5C5C90A⟩ := by
    rw [dillRounds_succ', h2]; decide
  have h4 : dillRounds 4 traceState = ⟨0x08AA7759, 0x4DA8D493, 0x5691DDE5, 0xBAAE4D4F⟩ := by
    rw [dillRounds_succ', h3]; decide
  have h5 : dillRounds 5 traceState = ⟨0x283A5CF5, 0x2192702C, 0xF6E5D310, 0x99B0082E⟩ := by
    rw [dillRounds_succ', h4]; decide
  have hend : dillInject (dillKey 0) 2 (dillRounds 5 traceState) = ⟨0x283A5CF5, 0x2192702C, 0x31439AC1, 0x99B00830⟩ := by
    rw [h5]; decide
  have hdill : dill 0 0 = 0x99B0083031439AC12192702C283A5CF5 := by
    have hword (n : Nat) : word128 0 n = 0 := by simp [word128]
    simp only [dill, hword]
    rw [hzero, hx, hend]
    decide
  simp only [dillTrace, hzero, hx]
  exact ⟨trivial, rfl, h1, h2, h3, h4, h5, hend, hdill⟩

/-! ## DEVICE_RESET (R71, R497) -/

theorem deviceResetKinds_holds : deviceResetKinds := by
  intro i s r h
  have haccept (k : Nat) (hk : k < 256) (sel : List Byte → Bool) (hsel : sel r.payload = true)
      (hkind : field r.payload 0 1 = k) (hzero : zeroAt r.payload 1 3 = true) :
      runCmd i 0x0104 sel (fun _ q => field q.payload 0 4 == k) (answering (acceptReset k)) s =
        finish r ansOk (modBoot (fun b => { b with resetKind := k }) s) :=
    h.answers hsel (by simpa using (field_code_iff hk).2 ⟨hkind, hzero⟩) rfl (.inl rfl)
  have hbad (k : Nat) (hk : k < 256) (sel : List Byte → Bool) (hsel : sel r.payload = true)
      (hnot : ¬(field r.payload 0 1 = k ∧ zeroAt r.payload 1 3 = true)) :
      runCmd i 0x0104 sel (fun _ q => field q.payload 0 4 == k) (answering (acceptReset k)) s =
        finish r ansBad (violation r.fn 8 0x0104 s) :=
    h.badField hsel (by simpa using mt (field_code_iff hk).1 hnot)
  refine ⟨fun hkind hzero => ⟨_, ?_, rfl⟩, fun hkind hzero => ⟨_, ?_, rfl⟩, fun h1 h2 => ?_, fun hkind hzero => ?_,
    fun hkind hzero => ?_⟩
  · exact congrArg Host.Outcome.next (haccept 1 (by decide) _ (by simp [hkind]) hkind hzero)
  · exact congrArg Host.Outcome.next (haccept 2 (by decide) _ (by simp [hkind]) hkind hzero)
  · exact congrArg Host.Outcome.next (hbad 1 (by decide) _ (by simp [h2]) (fun e => h1 e.1))
  · exact congrArg Host.Outcome.next (hbad 1 (by decide) _ (by simp [hkind]) (by simp [hzero]))
  · exact congrArg Host.Outcome.next (hbad 2 (by decide) _ (by simp [hkind]) (by simp [hzero]))

theorem resetSilence_holds : resetSilence := by
  intro f c s h
  simp [postCqe, h]

theorem headReq_of_reset (h : s.ao.boot.resetKind ≠ 0) : headReq s = none := by simp [headReq, h]

theorem resetEndsCommands_holds : resetEndsCommands := fun s h =>
  ⟨headReq_of_reset h, fun i op sel fields body => by rw [runCmd, headReq_of_reset h]⟩

/-! ## The takeover policy (R443, R521) -/

/-- PAIR_CONFIG is a command of the PF (Table CMD-2): of a VF it fails one of the checks 5 to 8 of R107. -/
theorem headerChecks_pairConfig_vf {f : Fn} (hf : f.val ≠ 0) (q : Bool) (len part cap : Nat) :
    ∃ k a, headerChecks s f q 0x0B02 len part cap = some (k, a) := by
  have hcaller : callerOk s f ⟨true, true, .pf, none, fun k => k == 4, 0, false, false⟩ = false := by
    have : (f.val == 0) = false := by simpa using hf
    simp [callerOk, this]
  rw [headerChecks, show cmdInfo 0x0B02 = some ⟨true, true, .pf, none, fun k => k == 4, 0, false, false⟩ from rfl]
  by_cases hlen : (!(if q then true && decide (0 ≤ cap) else true && decide (len ≤ 4064)) || !(len == 4)) = true
  · exact ⟨5, ansBadLength, if_pos hlen⟩
  · exact ⟨6, ansServiceOnly, (if_neg hlen).trans (if_pos (by rw [hcaller]; rfl))⟩

/-- A frame by fields that leaves is the newest thing sent. -/
theorem darradPut_out (flags part tag : Nat) (o : DarradHdr → Output) (h : darradUp s = true) :
    (darradPut flags part tag o s).out = o (nextHdr s flags 0 part tag) :: s.out := by
  rw [darradPut, if_pos h]
  rfl

theorem sendHello_out (h : darradUp s = true) : ∃ hdr, (sendHello s).out =
    .hello hdr s.ao.fuse.serial s.ao.fw.numerics s.ao.fw.verMin s.ao.fw.verMax (pair s).auto_.toNat :: s.out :=
  ⟨_, darradPut_out _ _ _ _ h⟩

theorem pairPolicy_holds : pairPolicy := by
  refine ⟨rfl, fun s f q len part cap hf => headerChecks_pairConfig_vf hf q len part cap, fun i s r h => ⟨fun hle hzero =>
    ⟨_, congrArg Host.Outcome.next (h.answers rfl (by simp [hle, hzero]) rfl (.inl rfl)), rfl⟩, fun hbad =>
    congrArg Host.Outcome.next (h.badField rfl ?_)⟩, fun s hup => ⟨fun hst => ⟨_, rfl, ?_⟩, _, rfl, ?_⟩⟩
  · rcases hbad with h1 | h1
    · simp [h1]
    · simp [h1]
  · have hretry : doHelloRetry s = sendHello s := by
      rw [doHelloRetry, if_pos]
      rcases hst with e | e <;> simp [hup, e]
    rw [hretry]
    exact sendHello_out hup
  · exact ⟨_, _, _, darradPut_out _ _ _ _ hup⟩

end Sys2Proof.Claims

namespace Sys2Proof

/-- Settles O42: each state of Table RNG-4 is one round (`dillRounds_succ'`) after the one before. -/
theorem dillKeysAndTrace : Obligations.DillKeysAndTrace := ⟨Claims.dillKeys_holds, Claims.dillTrace_holds⟩

/-- Settles O18: the two kinds are the only four-byte fields that pass (`field_code_iff`), and no request has its turn
once a reset is due (`headReq_of_reset`). -/
theorem deviceResetKindsAndSilence : Obligations.DeviceResetKindsAndSilence :=
  ⟨Claims.deviceResetKinds_holds, Claims.resetSilence_holds, Claims.resetEndsCommands_holds⟩

/-- Settles O56: PAIR_CONFIG sets one field, and HELLO and HEARTBEAT read it (`darradPut_out`). -/
theorem takeoverPolicy : Obligations.TakeoverPolicy := Claims.pairPolicy_holds

end Sys2Proof
end

/-! # The module: power inputs, thermal and power steps, sideband and JTAG

The fall of the rails (`railsOff_on`), a change of the steps with its record (`stepChange_logged`), and what one sample
or one window makes of a step (`thermalNext_spec`, `powerNext_spec`). -/

section
namespace Sys2Proof.Machine
variable {s t : State}

/-! ## Inputs and rails (R532 to R534, R547) -/

theorem partOf_fresh (h : s.parts = Vector.replicate 64 {}) (p : Pid) : partOf s p = {} := by
  rw [partOf, h]
  exact Claims.vec_get_replicate _ _

/-- The rails fall: a cold, stopped die whose inputs and trip are as before, and the restart latch is set. -/
theorem railsOff_on (h : s.ao.mod_.rails = true) : railsOff s =
    emit (.pwrGood false) (modModule (fun m =>
      { m with rails := false, pwrGood := false, holdOver := false, restartLatch := true }) (aoLost s)) := by
  rw [railsOff, if_neg (by simp [h])]

/-! ## Thermal and power steps (R544) -/

/-- A change of the steps writes at most a record besides. -/
theorem stepChange_logged (g : ThermSt → ThermSt) (s : State) : State.LoggedTo (modTherm g s) (stepChange g s) := by
  unfold stepChange
  dsimp only
  split
  · exact .refl _
  · exact logDev_logged _ _ _ _ _ (.refl _)

/-- What a sample leaves: the readings and the power step, and a thermal step that rises at once and falls by one after
ten cool samples. -/
theorem thermalNext_spec (tj : Int) (x : ThermSt) :
    (thermalNext tj x).temps = x.temps ∧ (thermalNext tj x).pStep = x.pStep
      ∧ (x.tStep < stepFor tj → (thermalNext tj x).tStep = stepFor tj)
      ∧ (stepFor tj ≤ x.tStep → (thermalNext tj x).tStep = x.tStep ∨
          ((thermalNext tj x).tStep + 1 = x.tStep ∧ 9 ≤ x.coolMs ∧ tj ≤ stepTemp x.tStep - 48)) := by
  unfold thermalNext
  split
  case isTrue hrise => exact ⟨rfl, rfl, fun _ => rfl, fun hle => absurd hrise (by omega)⟩
  case isFalse hstay =>
    split
    case isTrue hcool =>
      split
      case isTrue hten =>
        exact ⟨rfl, rfl, fun e => absurd e hstay, fun _ => .inr ⟨Nat.sub_add_cancel hcool.1, hten, hcool.2⟩⟩
      case isFalse => exact ⟨rfl, rfl, fun e => absurd e hstay, fun _ => .inl rfl⟩
    case isFalse => exact ⟨rfl, rfl, fun e => absurd e hstay, fun _ => .inl rfl⟩

/-- What a window leaves: the measured power, the thermal step and the limit, and a power step that rises by one near
the limit, stays below that, and falls only 40 W below it. -/
theorem powerNext_spec (mw : Nat) (x : ThermSt) :
    (powerNext mw x).powerMw = mw ∧ (powerNext mw x).tStep = x.tStep ∧ (powerNext mw x).limit = x.limit
      ∧ (x.limit * 1000 < mw + 10000 → (powerNext mw x).pStep = min 3 (x.pStep + 1))
      ∧ (mw + 10000 ≤ x.limit * 1000 → (powerNext mw x).pStep ≤ x.pStep)
      ∧ (mw + 10000 ≤ x.limit * 1000 → x.limit * 1000 ≤ mw + 40000 → (powerNext mw x).pStep = x.pStep) := by
  unfold powerNext
  dsimp only
  split
  case isTrue hhigh =>
    exact ⟨rfl, rfl, rfl, fun _ => rfl, fun e => absurd hhigh (by omega), fun e => absurd hhigh (by omega)⟩
  case isFalse hstay =>
    split
    case isTrue hlow =>
      split
      · exact ⟨rfl, rfl, rfl, fun e => absurd e hstay, fun _ => Nat.sub_le _ _, fun _ e => absurd hlow (by omega)⟩
      · exact ⟨rfl, rfl, rfl, fun e => absurd e hstay, fun _ => Nat.le_refl _, fun _ _ => rfl⟩
    case isFalse => exact ⟨rfl, rfl, rfl, fun e => absurd e hstay, fun _ => Nat.le_refl _, fun _ _ => rfl⟩

/-- A sample below 110 °C keeps its readings and moves the thermal step. -/
theorem doThermalSample_below {temps : List Int} (hpwr : s.ao.mod_.pwrGood = true)
    (hbelow : junction { s.ao.therm with temps := temps } < 1760) :
    State.LoggedTo (modTherm (fun x => thermalNext (junction { s.ao.therm with temps := temps }) { x with temps := temps })
      s) (doThermalSample temps s) := by
  have heq : doThermalSample temps s =
      stepChange (thermalNext (junction { s.ao.therm with temps := temps })) (modTherm (fun x => { x with temps := temps }) s) := by
    rw [doThermalSample, if_neg (by simp [hpwr])]
    exact if_neg (by simpa using hbelow)
  rw [heq]
  exact stepChange_logged _ _

/-! ## JTAG (R540) -/

/-- An instruction other than IDCODE shifts nothing out at once. -/
theorem doJtag_other {i : Jtag} (hpwr : s.ao.mod_.pwrGood = true) (h : tapOf s i ≠ .idcode) :
    doJtag i s = modTherm (fun t => { t with tap := tapOf s i }) s := by
  rw [doJtag, if_neg (by simp [hpwr])]
  dsimp only
  split
  · exact absurd ‹_› h
  · rfl

/-! ## GET_THERMAL_POWER (Table PHY-8) -/

theorem toTwos_lt (w : Nat) (i : Int) : toTwos w i < 2 ^ w := by
  have hpos : (0 : Int) < ((2 ^ w : Nat) : Int) := by exact_mod_cast Nat.two_pow_pos w
  have h0 := Int.emod_nonneg i hpos.ne'
  have h1 := Int.emod_lt_of_pos i hpos
  unfold toTwos
  omega

/-- The record field by field. -/
theorem thermalPower_eq (s : State) : thermalPower s =
    toLe 1 0 ++ (toLe 1 (stepInForce s.ao.therm)
      ++ (toLe 1 ((decide (0 < s.ao.therm.tStep)).toNat + 2 * (decide (0 < s.ao.therm.pStep)).toNat) ++ (zeros 2
      ++ (toLe 4 (toTwos 32 (junction s.ao.therm)) ++ (toLe 4 s.ao.therm.powerMw ++ (toLe 2 s.ao.therm.limit ++ (zeros 2
      ++ ([s.ao.mod_.fruLatch] ++ zeros 3)))))))) := by
  simp only [thermalPower, List.append_assoc]
  rfl

end Sys2Proof.Machine

namespace Sys2Proof.Claims
open Sys2Proof.Machine

theorem inputsGoodRow_holds : inputsGoodRow := by
  intro s hlatch htrip hrails
  have heq : doInputsGood s = emit (.pwrGood true) (modModule (fun m => { m with rails := true, pwrGood := true, holdOver := false })
      (coldState (modModule (fun m => { m with aux := true, main := true }) s))) := by
    simp [doInputsGood, hlatch, htrip, hrails]
  refine ⟨_, congrArg Host.Outcome.next heq, rfl, rfl, rfl, rfl, fun p => partOf_fresh rfl p, rfl, rfl, rfl, rfl, rfl⟩

theorem inputsHeld_holds : inputsHeld := by
  intro s hheld hrails
  have heq : doInputsGood s = modModule (fun m => { m with aux := true, main := true }) s := by
    rcases hheld with h | h <;> simp [doInputsGood, h]
  exact ⟨_, congrArg Host.Outcome.next heq, hrails, rfl, rfl⟩

theorem railsRows_holds : railsRows := by
  rintro c s hrails htrip (rfl | rfl | ⟨n, hn, rfl⟩)
  case inl =>
    have heq : doMainLoss s = _ := railsOff_on (s := modModule (fun m => { m with main := false }) s) hrails
    exact ⟨_, congrArg Host.Outcome.next heq, rfl, rfl, rfl, rfl, rfl, rfl, rfl, fun p => partOf_fresh rfl p, rfl,
      by simp [aoLost, coldState], by simp [aoLost, coldState], rfl⟩
  case inr.inl =>
    have heq : doAuxRemoved s = modModule (fun m => { m with restartLatch := false, thermtrip := false })
        (railsOff (modModule (fun m => { m with aux := false }) s)) := by simp [doAuxRemoved, htrip]
    rw [railsOff_on (s := modModule (fun m => { m with aux := false }) s) hrails] at heq
    exact ⟨_, congrArg Host.Outcome.next heq, rfl, rfl, rfl, rfl, rfl, rfl, rfl, fun p => partOf_fresh rfl p, rfl,
      by simp [aoLost, coldState], by simp [aoLost, coldState], rfl⟩
  case inr.inr =>
    have heq : doRailOut n s = railsOff s := if_pos (by simp [hn])
    rw [railsOff_on hrails] at heq
    exact ⟨_, congrArg Host.Outcome.next heq, rfl, rfl, rfl, rfl, rfl, rfl, rfl, fun p => partOf_fresh rfl p, rfl,
      by simp [aoLost, coldState], by simp [aoLost, coldState], rfl⟩

theorem latchReleaseRow_holds : latchReleaseRow := by
  intro s hmain
  exact congrArg Host.Outcome.next (if_neg (by simp [hmain]))

theorem holdExpiryRow_holds : holdExpiryRow := by
  intro s hpwr hhold
  have heq : doHoldExpiry s = if s.ao.mod_.perst then modModule (fun m => { m with holdOver := true }) s
      else bootStart (modModule (fun m => { m with holdOver := true }) s) := if_neg (by simp [hpwr, hhold])
  refine ⟨_, congrArg Host.Outcome.next heq, ?_⟩
  split
  · exact ⟨rfl, rfl, rfl, rfl, rfl, rfl⟩
  · exact ⟨rfl, rfl, rfl, rfl, rfl, rfl⟩

theorem thermalRow_holds : thermalRow := by
  intro temps s hpwr hbelow
  have h := doThermalSample_below hpwr hbelow
  obtain ⟨htemps, hpstep, hrise, hfall⟩ :=
    thermalNext_spec (junction { s.ao.therm with temps := temps }) { s.ao.therm with temps := temps }
  refine ⟨_, rfl, ?_, h.mod_, ?_, h.units, h.reqs, ?_, ?_⟩
  · rw [h.therm]; exact htemps
  · rw [h.therm]; exact hpstep
  · rw [h.therm]; exact hrise
  · rw [h.therm]; exact hfall

theorem thermtripRow_holds : thermtripRow := by
  intro temps s hpwr hrails hhot
  have heq : doThermalSample temps s = thermTrip (modTherm (fun t => { t with temps := temps }) s) := by
    rw [doThermalSample, if_neg (by simp [hpwr])]
    exact if_pos hhot
  have hfall : thermTrip (modTherm (fun t => { t with temps := temps }) s) = _ := railsOff_on hrails
  exact ⟨_, congrArg Host.Outcome.next (heq.trans hfall), rfl, rfl, rfl, rfl, rfl, rfl, rfl⟩

theorem powerWindowRow_holds : powerWindowRow := by
  intro mw s hpwr
  have heq : doPowerWindow mw s = stepChange (powerNext mw) s := if_neg (by simp [hpwr])
  have h := stepChange_logged (powerNext mw) s
  refine ⟨_, congrArg Host.Outcome.next heq, ?_⟩
  simp only [h.therm, h.units, h.mod_]
  obtain ⟨hmw, htstep, hlimit, hrise, hfall, hstay⟩ := powerNext_spec mw s.ao.therm
  exact ⟨hmw, htstep, hlimit, rfl, rfl, hrise, hfall, hstay⟩

theorem setPowerLimitRow_holds : setPowerLimitRow := by
  intro w s hpwr
  have hpwr' (g : ThermSt → ThermSt) (b : List Byte) : sideband b (modTherm g s) = emit (.smbus b) (modTherm g s) := if_pos hpwr
  refine ⟨fun hw => congrArg Host.Outcome.next ?_, fun hw => congrArg Host.Outcome.next ?_⟩
  · rw [doSetPowerLimit, if_neg (by simp [hpwr]), if_pos hw, hpwr']
  · rw [doSetPowerLimit, if_neg (by simp [hpwr]), if_neg (by omega), sideband, if_pos hpwr]

theorem sidebandRows_holds : sidebandRows := by
  intro s hpwr
  have hside (b : List Byte) : sideband b s = emit (.smbus b) s := if_pos hpwr
  refine ⟨congrArg Host.Outcome.next (hside _), congrArg Host.Outcome.next (hside _), fun eid h0 h1 =>
    congrArg Host.Outcome.next ?_, congrArg Host.Outcome.next ?_, fun cmd arg h1 h2 h4 h5 h6 =>
    congrArg Host.Outcome.next ?_⟩
  · have hmod : eid % 256 = eid := Nat.mod_eq_of_lt (by omega)
    simp [doMctp, hpwr, hmod, show ¬eid = 0 by omega, show ¬eid = 255 by omega, sideband]
  · simp [doMctp, hpwr, hside]
  · simp [doMctp, hpwr, h1, h2, h4, h5, h6, hside]

theorem thermalPowerFields_holds : thermalPowerFields := by
  intro s ht hp hmw hlim
  have hstep : stepInForce s.ao.therm < 256 := by unfold stepInForce; omega
  have hj : toTwos 32 (junction s.ao.therm) < 2 ^ 32 := toTwos_lt 32 _
  rw [thermalPower_eq]
  refine ⟨by simp, ?_, ?_, ?_, ?_, ?_⟩
  · simp [field_append_left, field_toLe]
  · simpa [field_append_right, field_append_left, field_toLe, stepInForce] using hstep
  · simpa [field_append_right, field_append_left, field_toLe] using hj
  · simpa [field_append_right, field_append_left, field_toLe] using hmw
  · simpa [field_append_right, field_append_left, field_toLe] using hlim

theorem fruRow_holds : fruRow := by
  intro v s haux
  exact ⟨congrArg Host.Outcome.next (if_pos (by simp [haux])), fun hv =>
    congrArg Host.Outcome.next (if_neg (by simpa using fun _ => hv))⟩

theorem jtagRow_holds : jtagRow := by
  intro s hpwr
  have hid : doJtag .idcode s = emit (.tdo 0x18192B3F) (modTherm (fun t => { t with tap := .idcode }) s) :=
    if_neg (by simp [hpwr])
  refine ⟨⟨_, congrArg Host.Outcome.next hid, rfl, rfl⟩, ⟨_, congrArg Host.Outcome.next
    (doJtag_other (i := .extest) hpwr ?_), rfl, rfl⟩, ⟨_, congrArg Host.Outcome.next
    (doJtag_other (i := .privateInstr) hpwr ?_), rfl, rfl⟩⟩
  · cases hperst : s.ao.mod_.perst <;> simp [tapOf, hperst]
  · cases hoff : s.ao.fuse.privateTapOff <;> simp [tapOf, hoff]

end Sys2Proof.Claims

namespace Sys2Proof

/-- Settles O20: the rails fall into a cold, stopped die (`railsOff_on`), and the sequencer starts from one. -/
theorem moduleInputsAndRails : Obligations.ModuleInputsAndRails :=
  ⟨Claims.inputsGoodRow_holds, Claims.inputsHeld_holds, Claims.railsRows_holds, Claims.latchReleaseRow_holds,
    Claims.holdExpiryRow_holds⟩

/-- Settles O26: one sample and one window move a step as `thermalNext_spec` and `powerNext_spec` say, and the sideband
and the TAP answer by their own state. -/
theorem thermalPowerAndSideband : Obligations.ThermalPowerAndSideband :=
  ⟨Claims.thermalRow_holds, Claims.thermtripRow_holds, Claims.powerWindowRow_holds, Claims.setPowerLimitRow_holds,
    Claims.sidebandRows_holds, Claims.thermalPowerFields_holds, Claims.fruRow_holds, Claims.jtagRow_holds⟩

end Sys2Proof
end

/-! # The host link, D3hot and VF enable

A function in D3hot cannot use the link (`canDma_of_d3`), so that what becomes ready waits (`postCqe_waits`). -/

section
namespace Sys2Proof.Machine
variable {s : State} {f : Fn}

theorem canDma_of_d3 (h : (fnOf s f).d3 = true) : canDma s f = false := by simp [canDma, h]

/-- A completion that cannot leave joins the hold queue while that has room (R100, R418). -/
theorem postCqe_waits {c : Cqe} (hreset : s.ao.boot.resetKind = 0) (hcq : (fnOf s f).ring.cqEn = true)
    (hdma : canDma s f = false) (hlen : (fnOf s f).ring.hold.length < 256) :
    postCqe f c s = modRing f (fun r => { r with hold := r.hold ++ [c] }) s := by
  simp [postCqe, hreset, hcq, hdma, hlen]

/-- With nothing held, draining only ends the stall. -/
theorem drainHold_nil (n : Nat) (h : (fnOf s f).ring.hold = []) :
    drainHold f (n + 1) s = modRing f (fun r => { r with stall := false }) s := by
  rw [drainHold]
  dsimp only
  rw [h]

/-- The VFs that a new NumVFs takes away. -/
theorem gone_of_le {n m : Nat} (h : m ≤ n) :
    allFns.filter (fun f => decide (n < f.val) && decide (f.val ≤ m)) = [] := by
  rw [List.filter_eq_nil_iff]
  intro f _
  simp only [Bool.and_eq_true, decide_eq_true_eq, not_and]
  omega

end Sys2Proof.Machine

namespace Sys2Proof.Claims
open Sys2Proof.Machine

theorem tlpReplayRow_holds : tlpReplayRow := fun s => ⟨_, rfl, rfl, modHost_hostOnly _ s⟩

theorem configRow_holds : configRow := by
  intro f s hup hf
  have heq : doConfigRequest f s = emit (.cfg f s.host.link.rrs) s := if_pos (by simp [hup, hf])
  exact ⟨_, congrArg Host.Outcome.next heq, rfl, rfl, ⟨rfl, rfl, rfl, rfl⟩, rfl⟩

theorem hostLinkUpRow_holds : hostLinkUpRow := by
  intro rate width s hdom hclk hfenced
  have heq : doHostLinkUp rate width s = modHost (fun h =>
      { h with link := { h.link with up := true, rate := rate % 16, width := width % 32 } }) s :=
    if_pos (by simp [hdom, hclk, hfenced])
  exact ⟨_, congrArg Host.Outcome.next heq, rfl, modHost_hostOnly _ s, rfl⟩

theorem d3Row_holds : d3Row := by
  intro f s hf
  have heq : doD3 f s = modFn f (fun x => { x with d3 := true }) s := if_pos hf
  have hfn := fnOf_modFn (s := s) f (fun x => { x with d3 := true })
  exact ⟨_, congrArg Host.Outcome.next heq, hfn, canDma_of_d3 (by rw [hfn]), modFn_otherFns _ _ _, rfl, rfl,
    modHost_hostOnly _ s⟩

theorem d0Row_holds : d0Row := by
  intro f s hd3 hhold
  have hfn := fnOf_modFn (s := s) f (fun x => { x with d3 := false })
  have heq : doD0 f s = modFn f (fun x =>
      { x with d3 := false, ring := { x.ring with stall := x.ring.stall && !(fnOf s f).ring.cqEn } }) s := by
    rw [doD0, if_pos hd3]
    dsimp only
    rw [hfn]
    cases hcq : (fnOf s f).ring.cqEn
    case false => simp
    case true =>
      rw [if_pos rfl, drainHold_nil _ (by rw [hfn]; exact hhold), modRing, modFn_modFn]
      simp
  exact ⟨_, congrArg Host.Outcome.next heq, fnOf_modFn _ _, modFn_otherFns _ _ _, rfl, modHost_hostOnly _ s⟩

theorem d3Holds_holds : d3Holds := by
  intro f c s hd3 hreset hcq hlen
  rw [postCqe_waits hreset hcq (canDma_of_d3 hd3) hlen]
  exact ⟨(modRing_row f _ s).1, rfl⟩

theorem d3NoMessage_holds : d3NoMessage := by
  intro f v s hd3
  rw [sendMsix]
  exact congrArg State.out (if_pos (by rw [canDma_of_d3 hd3]; rfl))

/-- VF_ENABLE_SET of an answering device ends with NumVFs set. -/
theorem doVfEnableSet_eq {n : Nat} {s : State} (hup : s.host.link.up = true) (hrrs : s.host.link.rrs = false) :
    doVfEnableSet n s = modHost (fun h =>
        { h with link := { h.link with vfEnable := min n 64 != 0, numVfs := min n 64 } })
      ((allFns.filter (fun f => decide (min n 64 < f.val) && decide (f.val ≤ s.host.link.numVfs))).foldl
        (fun s f => resetFn f s) s) := if_neg (by simp [hup, hrrs])

theorem vfEnableRow_holds : vfEnableRow := by
  intro n s hup hrrs hn hle
  have heq := doVfEnableSet_eq (n := n) hup hrrs
  rw [Nat.min_eq_left hn, gone_of_le hle] at heq
  exact ⟨_, congrArg Host.Outcome.next heq, rfl, modHost_hostOnly _ s⟩

theorem vfBeyond_holds : vfBeyond := by
  intro n s t f hup hrrs hf hstep hbeyond
  have ht : t = doVfEnableSet n s := (Host.Outcome.next.inj hstep).symm
  rw [ht, doVfEnableSet_eq hup hrrs]
  have hnot : ¬f.val ≤ min n 64 := Nat.not_le.2 hbeyond
  simp [fnExists, hf, hnot]

end Sys2Proof.Claims

namespace Sys2Proof

/-- Settles O14: a function in D3hot uses no link (`canDma_of_d3`), D0 only ends a stall (`drainHold_nil`), and a
greater NumVFs takes no VF away (`gone_of_le`). -/
theorem hostLinkAndFunctions : Obligations.HostLinkAndFunctions :=
  ⟨Claims.tlpReplayRow_holds, Claims.configRow_holds, Claims.hostLinkUpRow_holds, Claims.d3Row_holds, Claims.d0Row_holds,
    Claims.d3Holds_holds, Claims.d3NoMessage_holds, Claims.vfEnableRow_holds, Claims.vfBeyond_holds⟩

end Sys2Proof
end

/-! # Partition status, region transfers and PIPELINE_LOAD

A transfer whose turn it is stays open (`Turn.staysOpen`), and what a loaded image leaves besides the partition's own
load stands (`commitLoad_regrants`, `commitLoad_loading`). -/

section
namespace Sys2Proof.Claims
open Sys2Proof.Machine
variable {s t : State} {i : ReqId} {r : Req} {op : Nat}

/-- A row whose body leaves the request open. -/
theorem Turn.staysOpen {sel : List Byte → Bool} {fields : State → Req → Bool} {body : Req → State → State × Option Ans}
    (h : Turn s i op r) (hsel : sel r.payload = true) (hfields : fields s r = true) (hbody : body r s = (t, none)) :
    runCmd i op sel fields body s = t := by
  simp [runCmd, h.head, h.id, h.opcode, h.ready, h.state, h.noConflict, h.noStall, hsel, hfields, hbody]

end Sys2Proof.Claims

namespace Sys2Proof.Machine
open Claims (Turn Reads Answers Behind)
variable {s t x : State} {p : Pid} {r : Req} {i : ReqId}

theorem pid_val (h : r.part < 64) : r.pid.val = r.part := Nat.mod_eq_of_lt h

/-! ## The first of a list -/

/-- Changing the first match of t, where that match passes w and keeps passing it, is the same inside the sublist. -/
theorem filter_modFirst {α : Type} {w t : α → Bool} {g : α → α} {a : α} (hg : ∀ x, w (g x) = w x) {l : List α}
    (hfind : l.find? t = some a) (hw : w a = true) : (modFirst t g l).filter w = modFirst t g (l.filter w) := by
  induction l with
  | nil => rfl
  | cons b l ih =>
    by_cases hb : t b = true
    · have : b = a := by simpa [hb] using hfind
      subst this
      simp [modFirst, hb, hw, hg]
    · have hfind' : l.find? t = some a := by simpa [hb] using hfind
      by_cases hwb : w b = true
      · simp [modFirst, hb, hwb, ih hfind']
      · simp [modFirst, hb, hwb, ih hfind']

/-! ## Region transfers (R116, R198, R506) -/

/-- A REGION_READ request that waits for its granules. -/
def Req.waiting (q : Req) : Req := { q with phase := .moving, left := 1 }

/-- A waiting REGION_READ of zero granules sends the bytes of the window. -/
theorem serviceTransfer_read (hop : r.opcode = 0x0207) (hmoving : r.phase = .moving) (hleft : r.left = 1)
    (hzero : rangeZero (partOf s r.pid).g.win (field r.payload 0 8) (field r.payload 16 8) = true) :
    serviceTransfer s r = issueDma r.fn (.bulkOut r.id) (field r.payload 8 8)
      (winRead s r.pid (field r.payload 0 8) (field r.payload 16 8)) (field r.payload 16 8)
      (modReq r.id (fun q => { q with left := 0 }) s) := by
  simp [serviceTransfer, hop, hmoving, hleft, hzero]

/-- The only transfer of a partition is serviced alone. -/
theorem serviceTransfers_single (hmem : [0x0206, 0x0207, 0x0301].contains r.opcode = true)
    (honly : s.host.reqs.filter (fun q => q.part == p.val) = [r]) : serviceTransfers p s = serviceTransfer s r := by
  have hfilter : s.host.reqs.filter (fun q => q.part == p.val && [0x0206, 0x0207, 0x0301].contains q.opcode) = [r] := by
    rw [← List.filter_filter, List.filter_comm, honly, List.filter_eq_self]
    simpa using hmem
  rw [serviceTransfers, hfilter]
  rfl

/-! ## PIPELINE_LOAD (R231) -/

/-- What a load sets besides the image's streams, its runs and its placement. -/
def Part.loading (q : Part) : Loaded × Sched := (q.ld, q.sc)

section Frame
variable {α : Type} {φ : Part → α}

theorem darradSend_keeps (a b c d e) (h : Keeps φ s x) : Keeps φ s (darradSend a b c d e x) := ite_keeps h h
theorem darradPut_keeps (a b c d) (h : Keeps φ s x) : Keeps φ s (darradPut a b c d x) := ite_keeps h h

theorem seedFrames_keeps (c : Nat) (last : Bool) (n : Nat) : ∀ (a : Nat) (bs : List Byte) {x : State},
    Keeps φ s x → Keeps φ s (seedFrames p c a last n bs x) := by
  induction n with
  | zero => exact fun _ _ _ h => h
  | succ n ih => exact fun _ _ _ h => ite_keeps h (ih _ _ (darradSend_keeps _ _ _ _ _ h))

theorem seedRegions_keeps (c : Nat) (l : List Region) : ∀ {x : State}, Keeps φ s x → Keeps φ s (seedRegions p c l x) := by
  induction l with
  | nil => exact fun h => h
  | cons a l ih => exact fun h => ih (seedFrames_keeps _ _ _ _ _ h)

end Frame

theorem sendMirror_loading (a b) (h : Keeps Part.loading s x) : Keeps Part.loading s (sendMirror p a b x) := by
  unfold sendMirror putMirror
  dsimp only
  split
  · exact darradPut_keeps _ _ _ _ (modPart_keeps (fun _ => rfl) h)
  · exact darradPut_keeps _ _ _ _ (modPart_keeps (fun _ => rfl) h)
  · exact modPart_keeps (fun _ => rfl) h

theorem mirrorGrantOf_loading (h : Keeps Part.loading s x) : Keeps Part.loading s (mirrorGrantOf p x) :=
  ite_keeps (sendMirror_loading _ _ h) h

theorem reseed_loading (wa n : Nat) (h : Keeps Part.loading s x) : Keeps Part.loading s (reseed p wa n x) :=
  ite_keeps (ite_keeps h (seedRegions_keeps _ _ (modUnits_keeps _ (modPart_keeps (fun _ => rfl) h)))) h

theorem loadTiles_loading (h : Keeps Part.loading s x) : Keeps Part.loading s (loadTiles p x) :=
  foldl_keeps (fun _ _ h => foldl_keeps (fun _ _ h => loadTile_keeps _ h) h) h

theorem loadTile_regrants {st g} (n : Nat) (h : Regrants p st g s x) : Regrants p st g s (loadTile n x) := by
  unfold loadTile
  dsimp only
  split
  · exact h
  split
  · exact h
  · exact ite_regrants h ⟨h.host, h.ao, h.st, h.g, h.other⟩

theorem loadTiles_regrants {st g} (h : Regrants p st g s x) : Regrants p st g s (loadTiles p x) :=
  foldl_regrants (fun _ _ h => foldl_regrants (fun _ _ h => loadTile_regrants _ h) h) h

/-- The load that a PIPELINE_LOAD request makes of an image. -/
def loadOf (r : Req) (m : Image) (s : State) : Loaded :=
  { image := some m
    recreate := field r.payload 24 1 == 1
    records := if field r.payload 24 1 = 1 then
        suppliedRecords (winWrite r.pid m.hdr.copyAddress r.bulk s) r.pid m.body (field r.payload 28 4) else []
    recCount := field r.payload 28 4
    cursor := unpackCursor (field r.payload 16 8)
    loadedInPause := (partOf s r.pid).st == .paused
    recheck := (partOf s r.pid).st == .paused
    placement := (choosePlacement m.body (partOf s r.pid).g.clusters.length).getD 0xFF }

/-- The partition with the load, before its tiles. -/
def loadCommitted (r : Req) (m : Image) (s : State) : State :=
  modPart r.pid (fun q =>
    { q with
      ld := loadOf r m s
      sc := { next := unpackCursor (field r.payload 16 8), boundaries := q.sc.boundaries }
      ex := { placement := m.body.placement0 }
      streams := freshStreams m.body
      runs := q.runs.filter (fun x => x.kind != 1) }) (winWrite r.pid m.hdr.copyAddress r.bulk s)

theorem commitLoad_eq (r : Req) (m : Image) (s : State) : commitLoad r m s =
    reseed r.pid m.hdr.copyAddress m.hdr.length (mirrorGrantOf r.pid
      (if (partOf s r.pid).g.clusters.isEmpty then loadCommitted r m s else loadTiles r.pid (loadCommitted r m s))) := rfl

theorem commitLoad_regrants (r : Req) (m : Image) (s : State) :
    Regrants r.pid (partOf s r.pid).st (partOf s r.pid).g s (commitLoad r m s) := by
  have h : Regrants r.pid (partOf s r.pid).st (partOf s r.pid).g s (loadCommitted r m s) :=
    modPart_regrants (modMem_regrants _ (Regrants.refl r.pid s)) rfl rfl
  exact reseed_regrants _ _ (mirrorGrantOf_regrants (ite_regrants h (loadTiles_regrants h)))

/-- After the commit the partition has the load and no step. -/
theorem commitLoad_loading (r : Req) (m : Image) (s : State) :
    (partOf (commitLoad r m s) r.pid).ld = loadOf r m s ∧ (partOf (commitLoad r m s) r.pid).sc.steps = [] := by
  have h : Keeps Part.loading (loadCommitted r m s) (commitLoad r m s) :=
    reseed_loading _ _ (mirrorGrantOf_loading (ite_keeps (fun _ => rfl) (loadTiles_loading fun _ => rfl)))
  have hp := h r.pid
  rw [loadCommitted, partOf_modPart] at hp
  exact ⟨congrArg Prod.fst hp, congrArg (fun y => y.2.steps) hp⟩

end Sys2Proof.Machine

namespace Sys2Proof.Claims
open Sys2Proof.Machine

theorem partitionReads_holds : partitionReads := by
  intro i s r hpart
  have hff : ¬r.part = 0xFF := by omega
  refine ⟨fun h hzero => ?_, fun h x k hx hk hlt hpos => ?_, fun h hnone => ?_⟩
  · have hread {k : Nat} (hk : field r.payload 0 1 = k) (hle : k ≤ 3) {a : Ans} (ha : statusBody r s = a)
        (hpend : a.pend = false) : Reads (.partitionStatus i) s r a := by
      rw [← ha] at hpend ⊢
      exact congrArg Host.Outcome.next (h.reads rfl (by simp [hk, hle, hzero, hff]) hpend)
    refine ⟨fun e => hread e (by decide) ?_ rfl, fun e => hread e (by decide) ?_ rfl,
      fun e => hread e (by decide) ?_ rfl, fun e => hread e (by decide) ?_ rfl⟩
    · simp [statusBody, hff, e]
    · simp [statusBody, hff, e]
    · simp [statusBody, hff, e]
    · simp [statusBody, hff, e]
  · have hbody : digestBody r s = ansOk (winRead s r.pid
        (x.addr + 128 * (((partOf s r.pid).sc.recTotal - (partOf s r.pid).sc.recRing.length + k) % x.entries)) 128) := by
      rw [digestBody]
      simp only [hx, ← hk, if_pos hlt, Nat.max_eq_right hpos]
    rw [← hbody]
    exact congrArg Host.Outcome.next (h.reads rfl rfl (by rw [hbody]; rfl))
  · have hbody : digestBody r s = ansBad := by
      have hge : ¬(partOf s r.pid).sc.recRing.findIdx (fun e => packCursor e.1 == field r.payload 0 8) <
          (partOf s r.pid).sc.recRing.length := by
        rw [List.findIdx_lt_length, ← List.any_eq_true, hnone]
        exact Bool.false_ne_true
      rw [digestBody]
      dsimp only
      split
      · rfl
      · exact if_neg hge
    rw [← hbody]
    exact congrArg Host.Outcome.next (h.reads rfl rfl (by rw [hbody]; rfl))

theorem regionLoadRow_holds : regionLoadRow := by
  intro i s r h hfields
  have hid := h.id
  subst hid
  refine ⟨_, congrArg Host.Outcome.next (h.staysOpen rfl hfields rfl), ?_, ?_, issueDma_read_out rfl _ _ _ _ _, ?_,
    issueDma_behind _ _ _ _ _ _⟩
  · rw [issueDma_host]; rfl
  · rw [issueDma_host]; rfl
  · rw [issueDma_host]; rfl

theorem regionReadRow_holds : regionReadRow := by
  intro i s r h hpart hfields hfind honly hzero
  have hid := h.id
  subst hid
  have hmatch : reqMatches r.id r = true := List.find?_some hfind
  have honly' : (modReq r.id Req.waiting s).host.reqs.filter (fun q => q.part == r.pid.val) = [r.waiting] := by
    show (modFirst (reqMatches r.id) Req.waiting s.host.reqs).filter (fun q => q.part == r.pid.val) = [r.waiting]
    rw [pid_val hpart, filter_modFirst (g := Req.waiting) (fun _ => rfl) hfind (by simp), honly, modFirst, if_pos hmatch]
  have hbody : regionRead r s = (serviceTransfer (modReq r.id Req.waiting s) r.waiting, none) :=
    congrArg (·, none) (serviceTransfers_single (by simp [Req.waiting, h.opcode]) honly')
  rw [serviceTransfer_read (s := modReq r.id Req.waiting s) (r := r.waiting) h.opcode rfl rfl hzero] at hbody
  refine ⟨_, congrArg Host.Outcome.next (h.staysOpen rfl hfields hbody), ?_, rfl, rfl, rfl⟩
  rw [issueDma_host]
  rfl

theorem regionOutside_holds : regionOutside := fun _ _ _ hfields =>
  ⟨fun h => congrArg Host.Outcome.next (h.badField rfl hfields), fun h => congrArg Host.Outcome.next (h.badField rfl hfields)⟩

theorem loadFetch_holds : loadFetch := by
  intro i s r h hfields hopen hlen hbulk
  have hid := h.id
  subst hid
  have hbody : loadBody r s = (issueDma r.fn (.bulkIn r.id) (field r.payload 0 8) [] (field r.payload 8 8)
      (modReq r.id (fun x => { x with phase := .moving }) s), none) := by simp [loadBody, hopen, hlen, hbulk]
  refine ⟨_, congrArg Host.Outcome.next (h.staysOpen rfl hfields hbody), ?_, ?_, issueDma_behind _ _ _ _ _ _⟩
  · rw [issueDma_host]; rfl
  · rw [issueDma_host]; rfl

theorem loadRow_holds : loadRow := by
  intro i s r m x h hpart hfields hopen hlen hbulk hread hversion huniform hx hexcess hzero
  have hmin : (m.hdr.uniform && (List.range 5).any (fun c => c != m.hdr.uniformClass && nth (partOf s r.pid).g.min c != 0)) =
      false := by
    cases hu : m.hdr.uniform
    case false => rfl
    case true =>
      rw [Bool.true_and, List.any_eq_false]
      intro c hc
      by_cases hne : c = m.hdr.uniformClass
      · simp [hne]
      · simp [huniform hu c (List.mem_range.1 hc) hne]
  have hbody : ∃ k, loadBody r s = (commitLoad r m s,
      some { payload := toLe 1 k ++ zeros 7 ++ m.hdr.hash, resHi := ceilDiv (field r.payload 8 8) 64 }) := by
    refine ⟨if (partOf s r.pid).g.clusters.isEmpty then 0xFF else (partOf (commitLoad r m s) r.pid).ld.placement, ?_⟩
    simp [loadBody, hopen, hlen, hbulk, hread, hversion, hmin, hx, hexcess, hzero]
  obtain ⟨k, hbody⟩ := hbody
  have hregrants := commitLoad_regrants r m s
  obtain ⟨hld, hsteps⟩ := commitLoad_loading r m s
  refine ⟨_, ?_, ?_, _, congrArg Host.Outcome.next (h.runCmd_eq rfl hfields hbody (.inl rfl)), ?_⟩
  · rfl
  · simp [zeros, toLe]
  · simp only [hld]
    exact ⟨rfl, rfl, rfl, rfl, hregrants.st, hregrants.g, hsteps, hregrants.other, hregrants.host⟩

theorem loadRefused_holds : loadRefused := by
  intro i s r h hfields hopen hlen hbulk hread
  have hbody : loadBody r s = (s, some (ansRefused 0x0202)) := by simp [loadBody, hopen, hlen, hbulk, hread]
  exact congrArg Host.Outcome.next (h.runCmd_eq rfl hfields hbody (.inl rfl))

end Sys2Proof.Claims

namespace Sys2Proof

/-- Settles O31: the reads change nothing, a transfer stays open until its bytes move (`Turn.staysOpen`,
`serviceTransfer_read`), and a load changes the partition's own load alone (`commitLoad_regrants`, `commitLoad_loading`).
-/
theorem statusRegionsAndLoad : Obligations.StatusRegionsAndLoad :=
  ⟨Claims.partitionReads_holds, Claims.regionLoadRow_holds, Claims.regionReadRow_holds, Claims.regionOutside_holds,
    Claims.loadFetch_holds, Claims.loadRow_holds, Claims.loadRefused_holds⟩

end Sys2Proof
end

/-! # Expert routing: placements, route counts and step lists

What a view of a step keeps through the work on its samples (`stepView`), what a revision leaves besides Churn's runs
(`startRevision_cases`), and the order of routing keys. -/

section
namespace Sys2Proof.Machine
open State (LoggedTo)
variable {α β : Type} {φ : Part → α} {r s t x : State} {p : Pid} {slot k : Nat} {ψ : OpenStep → β} {g : OpenStep → OpenStep}

/-! ## A step of a partition -/

/-- What ψ reads of the step in a slot. -/
def stepView (slot : Nat) (ψ : OpenStep → β) (q : Part) : Option β := (stepIn q slot).map ψ

theorem modStep_stepView (hslot : ∀ x, (g x).slot = x.slot) (hψ : ∀ x, ψ (g x) = ψ x) (h : Keeps (stepView k ψ) r s) :
    Keeps (stepView k ψ) r (modStep p slot g s) := by
  refine modPart_keeps (fun q => ?_) h
  rw [stepView, stepIn, find?_modAll (fun x => by rw [hslot]), Option.map_map, stepView, stepIn]
  congr 1
  funext x
  rw [Function.comp_apply]
  split
  · exact hψ x
  · rfl

/-- The step in a slot after a change of that slot's steps. -/
theorem stepIn_modStep (hslot : ∀ x, (g x).slot = x.slot) :
    stepIn (partOf (modStep p slot g s) p) slot = (stepIn (partOf s p) slot).map g := by
  rw [modStep, partOf_modSched, stepIn, find?_modAll (fun x => by rw [hslot])]
  cases hfind : stepIn (partOf s p) slot
  case none =>
    rw [stepIn] at hfind
    rw [hfind]
    rfl
  case some st =>
    rw [stepIn] at hfind
    have hst : (st.slot == slot) = true := List.find?_some (p := fun x : OpenStep => x.slot == slot) hfind
    rw [hfind, Option.map_some, Option.map_some, if_pos hst]

theorem modStep_regrants {st : PSt} {gr : Grants} (h : Regrants p st gr s x) : Regrants p st gr s (modStep p slot g x) :=
  modPart_regrants h h.st h.g

theorem fillH_fold (d : Nat) (l : List Token) (s : State) : ∃ n ts, l.foldl (fillH d) ([], s) = (ts, { s with freeCtr := n }) := by
  refine List.foldlRecOn l (fillH d) (motive := fun a => ∃ n ts, a = (ts, { s with freeCtr := n })) ⟨s.freeCtr, [], rfl⟩ ?_
  rintro a ⟨n, ts, rfl⟩ t _
  unfold fillH freshWords
  split
  · exact ⟨n, _, rfl⟩
  · exact ⟨_, _, rfl⟩

/-- Filling in tokens changes samples of the step and takes free values. -/
theorem fillTokens_induction {motive : State → Prop} {pick : Sample → Bool} (d : Nat)
    (hfree : ∀ y n, motive y → motive { y with freeCtr := n })
    (hsample : ∀ y off f, motive y → motive (modSample p slot off f y)) (h : motive s) :
    motive (fillTokens p slot pick (fillH d) s) := by
  unfold fillTokens
  split
  · exact h
  · refine List.foldlRecOn _ _ (motive := motive) h fun y hy a _ => ?_
    obtain ⟨n, ts, hfill⟩ := fillH_fold d a.tokens y
    simp only [hfill]
    exact hsample _ _ _ (hfree _ _ hy)

/-- What the scoring of a home cluster leaves alone: all of a step but its samples, and all else but the partition. -/
theorem scoreHome_stepView {rel : Nat} (hψ : ∀ x l, ψ { x with samples := l } = ψ x) (h : Keeps (stepView k ψ) r s) :
    Keeps (stepView k ψ) r (scoreHome p slot rel s) := by
  have hstep (y : State) (f : OpenStep → List Sample) (hy : Keeps (stepView k ψ) r y) :
      Keeps (stepView k ψ) r (modStep p slot (fun st => { st with samples := f st }) y) :=
    modStep_stepView (fun _ => rfl) (fun _ => hψ _ _) hy
  exact hstep _ _ (fillTokens_induction (motive := Keeps (stepView k ψ) r) _ (fun _ _ hy => hy)
    (fun _ _ _ hy => hstep _ _ hy) h)

theorem scoreHome_regrants {st : PSt} {gr : Grants} {rel : Nat} (h : Regrants p st gr r s) :
    Regrants p st gr r (scoreHome p slot rel s) :=
  modStep_regrants (fillTokens_induction (motive := Regrants p st gr r) _
    (fun _ _ hy => ⟨hy.host, hy.ao, hy.st, hy.g, hy.other⟩) (fun _ _ _ hy => modStep_regrants hy) h)

/-! ## The reports of a step (R243, R320) -/

/-- What the list builder needs of a step: who has reported, where it began, and whether it has its lists. -/
def OpenStep.listing (st : OpenStep) : List Nat × Cursor × Bool := (st.reported, st.first, st.lists)

/-- The step once a home cluster was scored and has reported. -/
def reportHome (p : Pid) (slot rel : Nat) (s : State) : State :=
  modStep p slot (fun st => { st with reported := insSorted rel st.reported }) (scoreHome p slot rel s)

/-- The step once every home cluster has reported: its choice stands, and it waits for the list builder. -/
def askLists (p : Pid) (slot : Nat) (b : ImgBody) (s : State) : State :=
  modCtrl (fun c => { c with lists := c.lists ++ [(p, slot)] }) (modStep p slot (chooseTokens b) s)

theorem reportHome_step {rel : Nat} {st : OpenStep} (h : stepIn (partOf s p) slot = some st) :
    stepView slot OpenStep.listing (partOf (reportHome p slot rel s) p) =
      some (insSorted rel st.reported, st.first, st.lists) := by
  have hkeep := scoreHome_stepView (rel := rel) (p := p) (slot := slot) (ψ := OpenStep.listing) (k := slot)
    (fun _ _ => rfl) (fun _ => rfl : Keeps _ s s) p
  rw [stepView, stepView, h, Option.map_some] at hkeep
  obtain ⟨y, hy, hlist⟩ := Option.map_eq_some_iff.1 hkeep
  obtain ⟨hreported, hrest⟩ := Prod.mk.inj hlist
  obtain ⟨hfirst, hlists⟩ := Prod.mk.inj hrest
  rw [reportHome, stepView, stepIn_modStep (by exact fun _ => rfl), hy, Option.map_some, Option.map_some]
  show some (insSorted rel y.reported, y.first, y.lists) = _
  rw [hreported, hfirst, hlists]

theorem reportHome_regrants (p : Pid) (slot rel : Nat) (s : State) :
    Regrants p (partOf s p).st (partOf s p).g s (reportHome p slot rel s) :=
  modStep_regrants (scoreHome_regrants (.refl p s))

theorem askLists_stepView (b : ImgBody) (s : State) (q : Part) (h : q = partOf s p) :
    stepView slot OpenStep.listing (partOf (askLists p slot b s) p) = stepView slot OpenStep.listing q := by
  subst h
  exact modStep_stepView (p := p) (slot := slot) (r := s) (g := chooseTokens b) (fun _ => rfl) (fun _ => rfl) (fun _ => rfl) p

/-! ## The list builder (R243) -/

theorem closeSamples_stepView {slot' : Nat} (hψ : ∀ x l, ψ { x with samples := l } = ψ x) (h : Keeps (stepView k ψ) r s) :
    Keeps (stepView k ψ) r (closeSamples p slot' s) := by
  unfold closeSamples
  dsimp only
  split
  · exact h
  · exact foldl_keeps (fun _ _ hx => modStep_stepView (by exact fun _ => rfl) (fun _ => hψ _ _)
      (unreserveAll_keeps (fun _ _ => rfl) _ hx)) h

theorem unreserveAll_ao (l : List Nat) (s : State) : (unreserveAll p l s).ao = s.ao :=
  List.foldlRecOn _ _ (motive := fun y : State => y.ao = s.ao) rfl fun y hy c _ => by
    unfold unreserve
    dsimp only
    split
    · exact hy
    · exact hy

theorem closeSamples_ao (slot : Nat) (s : State) : (closeSamples p slot s).ao = s.ao := by
  unfold closeSamples
  dsimp only
  split
  · rfl
  · exact List.foldlRecOn _ _ (motive := fun y : State => y.ao = s.ao) rfl fun y hy a _ => (unreserveAll_ao _ y).trans hy

theorem entriesDone_stepView {w : Entry → Bool} {slot' : Nat} (hψ : ∀ x l, ψ { x with samples := l } = ψ x)
    (h : Keeps (stepView k ψ) r s) : Keeps (stepView k ψ) r (entriesDone p slot' w s) :=
  modPart_keeps (fun _ => rfl) (closeSamples_stepView hψ (modPart_keeps (fun _ => rfl) h))

theorem entriesDone_ao (slot : Nat) (w : Entry → Bool) (s : State) : (entriesDone p slot w s).ao = s.ao :=
  closeSamples_ao _ _

theorem doListBuild_nil (h : s.ao.ctrl.lists = []) : doListBuild s = s := by
  rw [doListBuild]
  simp [h]

/-- The builder serves the request in front: what it writes into the window leaves every partition alone. -/
theorem doListBuild_cons {rest : List (Pid × Nat)} {st : OpenStep} (h : s.ao.ctrl.lists = (p, slot) :: rest)
    (hst : stepIn (partOf s p) slot = some st) :
    ∃ w y, doListBuild s = entriesDone p slot w (modStep p slot (fun st => { st with lists := true }) y)
      ∧ y.parts = s.parts ∧ y.ao.ctrl.lists = rest := by
  have hst' : stepIn (partOf (modCtrl (fun c => { c with lists := rest }) s) p) slot = some st := hst
  unfold doListBuild
  rw [h]
  dsimp only
  rw [hst']
  refine ⟨_, _, rfl, ?_⟩
  split
  · exact ⟨modMem_parts _ _, congrArg (fun a : AoSt => a.ctrl.lists) (modMem_ao _ _)⟩
  · exact ⟨modCtrl_parts _ _, congrArg (fun a : AoSt => a.ctrl.lists) (modCtrl_ao _ _)⟩

/-- What the list builder leaves of a step: its lists, and where it began. -/
def OpenStep.served (st : OpenStep) : Bool × Cursor := (st.lists, st.first)

/-! ## Revisions (R332) -/

/-- What a change of runs leaves of a partition's placement and grants. -/
def Part.placing (q : Part) : Experts × Grants := (q.ex, q.g)

/-- φ reads nothing of whether the state of a started run is saved. -/
def Saves (φ : Part → α) : Prop := ∀ (q : Part) (w : Run → Bool),
  φ { q with runs := q.runs.map (fun r => if r.started && w r then { r with saved := true } else r) } = φ q

theorem saveOthers_saves (hφ : Saves φ) (o k) (h : Keeps φ r s) : Keeps φ r (saveOthers o k s) := fun q => by
  rw [← h q]
  show φ ((saveOthers o k s).parts.get q) = φ (s.parts.get q)
  simp only [saveOthers, vec_get, Vector.getElem_mapFinIdx]
  exact hφ _ _

theorem seat_saves (hφ : Saves φ) (o) (h : Keeps φ r s) : Keeps φ r (seat o s) := by
  unfold seat
  split
  · exact modUnits_keeps _ (saveOthers_saves hφ _ _ h)
  split
  · exact h
  · exact ite_keeps h (modUnits_keeps _ (saveOthers_saves hφ _ _ h))

theorem wakeChurn_saves (hφ : Saves φ) (q) (h : Keeps φ r s) : Keeps φ r (wakeChurn q s) := by
  unfold wakeChurn
  refine ite_keeps h ?_
  split
  · exact seat_saves hφ _ h
  · exact ite_keeps (seat_saves hφ _ h) (ite_keeps (seat_saves hφ _ h) h)

/-- A revision that is counted, with cleared window counters. -/
def Experts.counted (e : Experts) : Experts := { e with revisions := e.revisions + 1, window := [] }

/-- A counted revision either keeps the placement, which is counted too, or has a run going. -/
theorem startRevision_cases (p : Pid) (epoch : Nat) (s : State) :
    Keeps Part.placing (modEx p (fun e => { e with kept := e.kept + 1 }) (modEx p Experts.counted s)) (startRevision p epoch s)
    ∨ Keeps Part.placing (modEx p (fun e => { e with running := true }) (modEx p Experts.counted s))
        (startRevision p epoch s) := by
  have hlog (a b : Nat) (y : State) : Keeps Part.placing y (logEvent p.val 0x0501 a b 2 0 y) :=
    (logEvent_logged _ _ _ _ _ _ (.refl y)).keeps fun _ => rfl
  unfold startRevision
  dsimp only
  split
  · exact .inl (hlog _ _ _)
  split
  · exact .inl (hlog _ _ _)
  · exact .inr (wakeChurn_saves (fun _ _ => rfl) _ (modPart_keeps (fun _ => rfl) (ite_keeps (sendProblem_keeps _ _ _ fun _ => rfl) fun _ => rfl)))

/-! ## Routing keys (R318) -/

theorem routeKey_eq {v : Word32} (h : v.toNat < 2 ^ 31) (i : Nat) :
    routeKey v i = v.toNat * 2 ^ 40 + (2 ^ 40 - 1 - i) := by
  rw [routeKey, Nat.mod_eq_of_lt h]

end Sys2Proof.Machine

namespace Sys2Proof.Claims
open Sys2Proof.Machine

theorem reviseNowRow_holds : reviseNowRow := by
  intro i s r h hpart hlen hmode hzero hrunning hslices
  have hslices' : (partOf s r.pid).g.churn.isEmpty = false := by simpa using hslices
  have hbody : reviseBody r s = (startRevision r.pid (partOf s r.pid).ld.cursor.epoch s,
      ansOk (toLe 4 (partOf s r.pid).ex.version)) := by
    simp only [reviseBody, hlen, hrunning, hslices']
    rfl
  refine ⟨_, congrArg Host.Outcome.next (h.answers (by simp [hmode]) (by simp [hmode, hzero]) hbody (.inl rfl)), ?_⟩
  rcases startRevision_cases r.pid (partOf s r.pid).ld.cursor.epoch s with hk | hk
  · obtain ⟨hex, hg⟩ := Prod.mk.inj (hk r.pid)
    simp only [hex, hg, partOf_modEx]
    exact ⟨rfl, rfl, rfl, rfl, .inr rfl, trivial⟩
  · obtain ⟨hex, hg⟩ := Prod.mk.inj (hk r.pid)
    simp only [hex, hg, partOf_modEx]
    exact ⟨rfl, rfl, rfl, rfl, .inl trivial, trivial⟩

theorem reviseNowStops_holds : reviseNowStops := by
  intro i s r h hlen hmode hzero
  refine ⟨fun hrunning => congrArg Host.Outcome.next (h.answers (by simp [hmode]) (by simp [hmode, hzero]) ?_ (.inl rfl)),
    fun hrunning hslices =>
      congrArg Host.Outcome.next (h.answers (by simp [hmode]) (by simp [hmode, hzero]) ?_ (.inl rfl))⟩
  · simp [reviseBody, hlen, hrunning]
  · simp [reviseBody, hlen, hrunning, hslices]

theorem placeSetRow_holds : placeSetRow := by
  intro i s r pl h hpart hlen hmode hzero hfields hentries hpl hfail hwhey hruns
  have hnone : (partOf s r.pid).runs.find? (fun x => x.kind == 1) = none := by
    rw [List.find?_eq_none]
    exact fun x hx => by simpa using hruns x hx
  have hundeclared : (setEntries r.payload).any (fun x =>
      x.2.1 != 0 && !(bodyOf (partOf s r.pid)).experts.any (fun e => e.id == x.1)) = false := by
    rw [List.any_eq_false]
    intro x hx
    by_cases hzero : x.2.1 = 0
    · simp [hzero]
    · simp [(hentries x hx).2 hzero]
  have hfour : (setEntries r.payload).any (fun x => decide (4 < x.2.1)) = false := by
    rw [List.any_eq_false]
    exact fun x hx => by simpa using (hentries x hx).1
  have hwhey' : pl.any (fun x => x.2.contains (bodyOf (partOf s r.pid)).wheyGroup) = false := by
    rw [List.any_eq_false]
    exact fun x hx => by simpa using hwhey x hx
  have hbody : setBody r s = (modEx r.pid (fun e => { e with running := false, ready := some pl, readyKind := 1 }) s,
      ansOk (toLe 4 ((partOf s r.pid).ex.version + 1))) := by
    unfold setBody
    simp only [← hpl, hlen, hundeclared, hfour, hfail, hwhey', hnone]
    rfl
  exact ⟨_, congrArg Host.Outcome.next
    (h.answers (by simp [hmode]) (by simp [hzero, hfields]) hbody (.inl rfl)), rfl⟩

theorem countersRow_holds : countersRow := fun _ _ _ h => congrArg Host.Outcome.next (h.reads rfl rfl rfl)

theorem routeCountsRow_holds : routeCountsRow := by
  intro p slot rel s st hst hena hhome hnew hkind hprep hcount hboard hdone
  have hlen : ¬st.samples.length < st.count := Nat.not_lt.2 hcount
  have heq : doRouteCounts p slot rel s =
      if (homeRels (partOf s p)).length ≤ st.reported.length + 1 then
        askLists p slot (bodyOf (partOf s p)) (reportHome p slot rel s)
      else reportHome p slot rel s := by
    rw [doRouteCounts]
    dsimp only
    rw [hst]
    exact if_neg (by simp only [hena, hhome, hnew, hkind, hprep, hlen, hboard, hdone]; decide)
  have hregrants := reportHome_regrants p slot rel s
  have hview := reportHome_step (rel := rel) hst
  refine ⟨_, congrArg Host.Outcome.next heq, ?_⟩
  split
  case isTrue hlast =>
    rw [← askLists_stepView (bodyOf (partOf s p)) _ _ rfl] at hview
    obtain ⟨x, hx, hlist⟩ := Option.map_eq_some_iff.1 hview
    obtain ⟨hreported, hrest⟩ := Prod.mk.inj hlist
    obtain ⟨hfirst, hlists⟩ := Prod.mk.inj hrest
    refine ⟨⟨x, hx, hreported, hfirst, hlists⟩, fun _ => ?_, fun hlt => absurd hlast (by omega), fun q hq => ?_, hregrants.host⟩
    · exact congrArg (fun a : AoSt => a.ctrl.lists ++ [(p, slot)]) hregrants.ao
    · exact (partOf_modPart_ne _ hq).trans (hregrants.other q hq)
  case isFalse hmore =>
    obtain ⟨x, hx, hlist⟩ := Option.map_eq_some_iff.1 hview
    obtain ⟨hreported, hrest⟩ := Prod.mk.inj hlist
    obtain ⟨hfirst, hlists⟩ := Prod.mk.inj hrest
    exact ⟨⟨x, hx, hreported, hfirst, hlists⟩, fun hle => absurd hle hmore,
      fun _ => congrArg (fun a : AoSt => a.ctrl.lists) hregrants.ao, hregrants.other, hregrants.host⟩

theorem listBuildRow_holds : listBuildRow := by
  intro s
  refine ⟨fun h => congrArg Host.Outcome.next (doListBuild_nil h), fun p slot rest st h hst => ?_⟩
  obtain ⟨w, y, heq, hparts, hlists⟩ := doListBuild_cons h hst
  refine ⟨_, congrArg Host.Outcome.next heq, ?_, ?_⟩
  · rw [entriesDone_ao]
    exact hlists
  · have hview := entriesDone_stepView (p := p) (w := w) (k := slot) (slot' := slot) (ψ := OpenStep.served) (fun _ _ => rfl)
      (fun _ => rfl : Keeps _ (modStep p slot (fun st => { st with lists := true }) y) _) p
    have hy : stepIn (partOf y p) slot = some st := by rw [partOf, hparts]; exact hst
    rw [stepView, stepView, stepIn_modStep (by exact fun _ => rfl), hy] at hview
    obtain ⟨x, hx, hserved⟩ := Option.map_eq_some_iff.1 hview
    exact ⟨x, hx, congrArg Prod.fst hserved, congrArg Prod.snd hserved⟩

theorem routeKeys_holds : routeKeys := by
  intro v w i j hi hj hv hw
  rw [routeKey_eq hv, routeKey_eq hw, routeKey_eq hv]
  refine ⟨fun hlt => ?_, fun hlt => ?_, fun he => ?_, ?_, ?_, ?_⟩
  · omega
  · omega
  · exact ⟨BitVec.eq_of_toNat_eq (by omega), by omega⟩
  · omega
  · omega
  · omega

end Sys2Proof.Claims

namespace Sys2Proof

/-- Settles O44: a revision is counted and either runs or keeps the placement (`startRevision_cases`), a report and a list
build change only their step (`reportHome_step`, `doListBuild_cons`), and a key orders by score, then by index. -/
theorem expertRouting : Obligations.ExpertRouting :=
  ⟨Claims.reviseNowRow_holds, Claims.reviseNowStops_holds, Claims.placeSetRow_holds, Claims.countersRow_holds,
    Claims.routeCountsRow_holds, Claims.listBuildRow_holds, Claims.routeKeys_holds⟩

end Sys2Proof
end

/-! # Churn: runs, slices, and their ends

Churn changes hands without a change of anything but whether runs are saved (`Seats`, `Saves`), and completions leave what
a partition has besides its schedule and its counters (`Quiet`). -/

section
namespace Sys2Proof.Machine
open State (LoggedTo)
variable {α β : Type} {φ : Part → α} {r s t x : State} {p : Pid} {run : Run}

/-! ## Completions and records -/

/-- φ reads neither the schedule nor the counters of a partition. -/
structure Quiet (φ : Part → α) : Prop where
  sc : ∀ q c, φ { q with sc := c } = φ q
  cnt : ∀ q c, φ { q with cnt := c } = φ q

theorem Quiet.logged (hφ : Quiet φ) (h : LoggedTo s t) : Keeps φ s t := h.keeps fun q => hφ.cnt q _

theorem Quiet.log (hφ : Quiet φ) (n c a0 a1 a2 a3) (h : Keeps φ r s) : Keeps φ r (logEvent n c a0 a1 a2 a3 s) :=
  h.trans (hφ.logged (logEvent_logged _ _ _ _ _ _ (.refl s)))

theorem Quiet.limited (hφ : Quiet φ) {a b c d e : Nat} (key iv n) (h : Keeps φ r s) :
    Keeps φ r (limited key iv (fun k => logEvent a b c k d e) n s) :=
  h.trans (hφ.logged (limited_logged _ _ _ _ (fun _ _ hx => logEvent_logged _ _ _ _ _ _ hx) (.refl s)))

theorem postCqe_quiet (hφ : Quiet φ) (f c) (h : Keeps φ r s) : Keeps φ r (postCqe f c s) := by
  have hlate := hφ.logged (lateDiscard_logged (fnPart f) (unitId 0x0F f.val) 10 c.seq
    (.refl (modCnt f (fun k => { k with late := satAdd 32 k.late 1 }) s)))
  have hfull (a : Nat) := hφ.log (fnPart f) 0x0106 f.val a 0 0
    (modHost_keeps (s := s) (fun y => { y with fns := vmod y.fns f (fun x =>
      { x with cnt := { x.cnt with dropped := satAdd 32 x.cnt.dropped 1 } }) }) h)
  unfold postCqe
  exact ite_keeps h (ite_keeps (h.trans hlate) (ite_keeps (writeCqe_keeps _ _ h) (ite_keeps h
    (ite_keeps (modPartN_keeps (fun _ => hφ.sc _ _) (hfull _)) (hfull _)))))

theorem postRing_quiet (hφ : Quiet φ) (q b c) (h : Keeps φ r s) : Keeps φ r (postRing q b c s) :=
  ite_keeps (postCqe_quiet hφ _ _ h) (ite_keeps (postCqe_quiet hφ _ _ h) (issueDma_keeps _ _ _ _ _ h))

theorem complete_quiet (hφ : Quiet φ) (i a b c l) (h : Keeps φ r s) : Keeps φ r (complete i a b c l s) := by
  unfold complete
  split
  · exact h
  · have hreq : Keeps φ r (if l then dropReq i s else s) := ite_keeps h h
    exact ite_keeps (ite_keeps (postRing_quiet hφ _ _ _ hreq) hreq) (postCqe_quiet hφ _ _ hreq)

theorem completeOpt_quiet (hφ : Quiet φ) (i a b c) (h : Keeps φ r s) : Keeps φ r (completeOpt i a b c s) := by
  cases i with
  | none => exact h
  | some i => exact complete_quiet hφ _ _ _ _ _ h

/-- A completed request is gone, and a completion changes no unit. -/
theorem completeOpt_spec (o : Option ReqId) (a b c : Nat) (s : State) :
    (completeOpt o a b c s).units = s.units ∧ ∀ i, o = some i → findReq (completeOpt o a b c s) i = none := by
  cases o with
  | none => exact ⟨rfl, fun _ h => nomatch h⟩
  | some j =>
    have h := complete_posts j a b c s
    refine ⟨h.units, fun i hi => ?_⟩
    cases hi
    rw [completeOpt, findReq, h.reqs]
    exact findReq_dropReq j s

/-! ## Churn changes hands (R350 to R352) -/

/-- What a change of the run on Churn leaves: the host side, the always-on side, near memory, and the slices. -/
structure Seats (s t : State) : Prop where
  host : t.host = s.host
  ao : t.ao = s.ao
  mem : t.units.mem = s.units.mem
  slice : t.units.churn.slice = s.units.churn.slice
  owners : t.units.churn.owners = s.units.churn.owners

theorem Seats.refl (s : State) : Seats s s := ⟨rfl, rfl, rfl, rfl, rfl⟩

theorem ite_seats {c : Prop} [Decidable c] {a b : State} (ha : Seats s a) (hb : Seats s b) :
    Seats s (if c then a else b) := by
  split
  · exact ha
  · exact hb

theorem seat_seats (o : Option Pid) (s : State) : Seats s (seat o s) := by
  unfold seat
  split
  · exact ⟨rfl, rfl, rfl, rfl, rfl⟩
  split
  · exact .refl s
  · exact ite_seats (.refl s) ⟨rfl, rfl, rfl, rfl, rfl⟩

theorem passOn_seats (s : State) : Seats s (passOn s) := ite_seats (seat_seats _ _) (.refl s)

theorem passOn_saves (hφ : Saves φ) (h : Keeps φ r s) : Keeps φ r (passOn s) := ite_keeps (seat_saves hφ _ h) h

theorem wakeChurn_seats (q : Pid) (s : State) : Seats s (wakeChurn q s) := by
  unfold wakeChurn
  refine ite_seats (.refl s) ?_
  split
  · exact seat_seats _ _
  · exact ite_seats (seat_seats _ _) (ite_seats (seat_seats _ _) (.refl s))

/-- The next slice has begun; the owners of a frame are those of the grants (R349, R366). -/
def sliceBegun (s : State) : State :=
  modChurn (fun c => { c with
    slice := (s.units.churn.slice + 1) % 100
    owners := if (s.units.churn.slice + 1) % 100 = 0 then churnOwners s else c.owners }) s

/-! ## Which runs a partition has -/

/-- What tells runs apart. -/
def Run.key (r : Run) : Nat × Nat × Nat × Option ReqId := (r.kind, r.slot, r.tag, r.req)

theorem sameRun_iff {a b : Run} : sameRun a b = true ↔ a.key = b.key := by
  simp [sameRun, Run.key, and_assoc]

def Part.runKeys (q : Part) : List (Nat × Nat × Nat × Option ReqId) := q.runs.map Run.key

theorem map_saved {β : Type} {f : Run → β} (hf : ∀ r, f { r with saved := true } = f r) (w : Run → Bool) (l : List Run) :
    (l.map (fun r => if r.started && w r then { r with saved := true } else r)).map f = l.map f := by
  rw [List.map_map]
  refine List.map_congr_left fun a _ => ?_
  rw [Function.comp_apply]
  split
  · exact hf a
  · rfl

theorem runKeys_saves : Saves Part.runKeys := fun q w => map_saved (fun _ => rfl) w q.runs

/-- The runs that have not started; what is saved is one that has. -/
def Part.fresh (q : Part) : List Run := q.runs.filter (fun r => !r.started)

theorem fresh_saves : Saves Part.fresh := by
  intro q w
  show List.filter _ (List.map _ q.runs) = List.filter _ q.runs
  induction q.runs with
  | nil => rfl
  | cons a l ih =>
    cases ha : a.started
    · simp only [List.map_cons, List.filter_cons, ha, Bool.false_and, Bool.false_eq_true, if_false, Bool.not_false, if_true, ih]
    · have hsaved : (if a.started && w a then { a with saved := true } else a).started = true := by split <;> exact ha
      rw [List.map_cons, List.filter_cons_of_neg (by simpa using hsaved), ih, List.filter_cons_of_neg (by simp [ha])]

/-- No run of the partition is the one. -/
def Ended (run : Run) (q : Part) : Prop := ∀ x ∈ q.runs, sameRun run x = false

theorem ended_iff {q : Part} : Ended run q ↔ run.key ∉ q.runKeys := by
  simp only [Ended, Part.runKeys, List.mem_map, not_exists, not_and, ← Bool.not_eq_true, sameRun_iff]
  exact forall₂_congr fun _ _ => ⟨fun h e => h e.symm, fun h e => h e.symm⟩

theorem Ended.keeps (h : Ended run (partOf s p)) (hk : Keeps Part.runKeys s t) : Ended run (partOf t p) := by
  rw [ended_iff] at h ⊢
  rwa [hk p]

theorem dropRun_ended (p : Pid) (run : Run) (s : State) : Ended run (partOf (dropRun p run s) p) := by
  intro x hx
  rw [dropRun, partOf_modPart] at hx
  simpa using (List.mem_filter.1 hx).2

theorem runKeys_quiet : Quiet Part.runKeys := ⟨fun _ _ => rfl, fun _ _ => rfl⟩

/-! ## Packing ends (R357, R358) -/

/-- What packing leaves of a partition: its state, its routing and its runs. -/
def Part.unpacked (q : Part) : PSt × Experts × List Run := (q.st, q.ex, q.runs)

theorem unpacked_quiet : Quiet Part.unpacked := ⟨fun _ _ => rfl, fun _ _ => rfl⟩

theorem entriesDone_unpacked (slot w) (h : Keeps Part.unpacked r s) : Keeps Part.unpacked r (entriesDone p slot w s) :=
  modPart_keeps (fun _ => rfl) (closeSamples_keeps (fun _ _ => rfl) (fun _ _ => rfl) _ (modPart_keeps (fun _ => rfl) h))

theorem logOverflow_unpacked (st a) (h : Keeps Part.unpacked r s) : Keeps Part.unpacked r (logOverflow p st a s) :=
  foldl_keeps (fun _ _ hx => unpacked_quiet.log _ _ _ _ _ _ (modPart_keeps (fun _ => rfl) hx)) h

theorem packAnnealed_unpacked (slot c a) (h : Keeps Part.unpacked r s) : Keeps Part.unpacked r (packAnnealed p slot c a s) :=
  entriesDone_unpacked _ _ (modPart_keeps (fun _ => rfl) (modPart_keeps (fun _ => rfl) h))

theorem packGreedy_unpacked (slot cause) (h : Keeps Part.unpacked r s) : Keeps Part.unpacked r (packGreedy p slot cause s) := by
  unfold packGreedy
  dsimp only
  split
  · have hcounted (f g) : Keeps Part.unpacked r (modPCnt p f (modStep p slot g s)) :=
      modPart_keeps (fun _ => rfl) (modPart_keeps (fun _ => rfl) h)
    exact entriesDone_unpacked _ _ (logOverflow_unpacked _ _
      (ite_keeps (hcounted _ _) (unpacked_quiet.limited _ _ _ (hcounted _ _))))
  · exact h

theorem packOutcome_unpacked (n) (h : Keeps Part.unpacked r s) : Keeps Part.unpacked r (packOutcome p run n s) := by
  unfold packOutcome
  dsimp only
  split
  · exact ite_keeps (packAnnealed_unpacked _ _ _ h) (packGreedy_unpacked _ _ h)
  · exact h

/-- Churn without a run to move. -/
def unseated (s : State) : State := modChurn (fun c => { c with moving := false, moveRetried := false }) s

theorem passOn_unseated (hφ : Saves φ) (s : State) : Keeps φ s (passOn (unseated s)) := passOn_saves hφ fun _ => rfl

/-- What a run that ends leaves of a partition besides its runs. -/
def Part.unrun (q : Part) : PSt × Experts := (q.st, q.ex)

theorem unrun_saves : Saves Part.unrun := fun _ _ => rfl

/-- The packing run of the older step that its budget ends, with what its step then gets. -/
theorem doPackBudget_spec {k : Nat} (h : (partOf s p).sc.steps.findSome? (fun st => (partOf s p).runs.find? (fun r =>
    r.kind == 0 && r.slot == st.slot && r.exact.isNone)) = some run) :
    ∃ y, Keeps Part.unpacked (dropRun p run s) y ∧ (doPackBudget p k s = y
      ∨ doPackBudget p k s = passOn (unseated y)) := by
  refine ⟨if !churnUp (dropRun p run s) then packGreedy p run.slot 3 (dropRun p run s)
    else packOutcome p run (if run.started then min k (schedSweeps run.sched) else 0) (dropRun p run s),
    ite_keeps (packGreedy_unpacked _ _ (.refl _ _)) (packOutcome_unpacked _ (.refl _ _)), ?_⟩
  unfold doPackBudget
  dsimp only
  rw [h]
  dsimp only
  generalize (decide (s.units.churn.holder = some p) && _) = held
  cases held
  · exact .inl rfl
  · exact .inr rfl

/-! ## A revision's budget (R332, R363) -/

/-- A revision whose run cannot go on keeps the placement. -/
def revisionKept (p : Pid) (run : Run) (s : State) : State :=
  logEvent p.val 0x0501 (partOf (dropRun p run s) p).ex.version run.tag 2 0
    (modEx p (fun e => { e with running := false, kept := e.kept + 1 }) (dropRun p run s))

theorem doPlaceBudget_spec (h : (partOf s p).runs.find? (fun r => r.kind == 1) = some run) :
    doPlaceBudget p s = revisionKept p run s
      ∨ doPlaceBudget p s = passOn (unseated (revisionKept p run s)) := by
  have hkind : run.kind = 1 := by simpa using List.find?_some h
  have habandon : abandonRun p run s = revisionKept p run s := by rw [abandonRun, if_pos hkind]; rfl
  unfold doPlaceBudget
  rw [h]
  dsimp only
  rw [habandon]
  generalize (decide (s.units.churn.holder = some p) && _) = held
  cases held
  · exact .inl rfl
  · exact .inr rfl

/-! ## CHURN_RUN (R364) -/

/-- The run that a CHURN_RUN request asks for. -/
def hostRun (r : Req) (pr : Prob) (sched : List SchedStage) (tr : Bool) : Run :=
  { kind := 2, part := r.pid, tag := field r.payload 48 8, slot := tr.toNat, prob := pr, sched := sched
    seed := BitVec.ofNat 128 (field r.payload 32 16), epoch := 0, sample := 2 ^ 39 + field r.payload 48 8 % 2 ^ 32
    op := 0x2000, req := some r.id, resultAddr := field r.payload 8 8, traceAddr := field r.payload 16 8
    traceLen := field r.payload 24 8 }

/-- A run that was added is among the partition's, not started. -/
theorem addRun_mem (h : run.started = false) (s : State) : run ∈ (partOf (addRun run s) run.part).runs := by
  have hfresh := wakeChurn_saves fresh_saves run.part
    (Keeps.refl _ (modPart run.part (fun q => { q with runs := q.runs ++ [run] }) s)) run.part
  rw [partOf_modPart] at hfresh
  have hmem : run ∈ Part.fresh { partOf s run.part with runs := (partOf s run.part).runs ++ [run] } := by
    simp [Part.fresh, h]
  rw [← hfresh] at hmem
  exact (List.mem_filter.1 hmem).1

theorem addRun_seats (run : Run) (s : State) : Seats s (addRun run s) :=
  have h := wakeChurn_seats run.part (modPart run.part (fun q => { q with runs := q.runs ++ [run] }) s)
  ⟨h.host, h.ao, h.mem, h.slice, h.owners⟩

/-! ## The end of a host's run (R347, R364) -/

theorem hostOutcome_spec (h : run.slot = 0) (s : State) : hostOutcome p run s = completeOpt run.req 0 0
    (runAt run (schedSweeps run.sched)).sweeps (winWrite p run.resultAddr
      (resultBytes run.tag 0 run.prob.k (runAt run (schedSweeps run.sched))) s) := by
  simp [hostOutcome, h]

theorem winWrite_mem (p : Pid) (wa : Nat) (bs : List Byte) (s : State) :
    (winWrite p wa bs s).units.mem = winWriteAt (partOf s p).g.win wa bs s.units.mem := rfl

theorem winWrite_keeps (q : Pid) (wa bs) (h : Keeps φ r s) : Keeps φ r (winWrite q wa bs s) := h

/-- The partition without the run, and with its record if it had been retried. -/
def runDropped (p : Pid) (run : Run) (s : State) : State :=
  dropRun p run (if run.retried then transientFault p.val churnUnit 0x0002 (runTag run) s else s)

theorem runDropped_frame (p : Pid) (run : Run) (s : State) :
    (runDropped p run s).units = s.units ∧ (partOf (runDropped p run s) p).g = (partOf s p).g := by
  unfold runDropped
  rw [dropRun, partOf_modPart]
  split
  · have h := transientFault_logged p.val churnUnit 0x0002 (runTag run) (.refl s)
    exact ⟨h.units, h.g p⟩
  · exact ⟨rfl, rfl⟩

end Sys2Proof.Machine

namespace Sys2Proof.Claims
open Sys2Proof.Machine

theorem Turn.pends {s t : State} {i : ReqId} {r : Req} {op : Nat} {sel : List Byte → Bool} {fields : State → Req → Bool}
    {body : Req → State → State × Ans} {a : Ans} (h : Turn s i op r) (hcan : CanPend s r) (hsel : sel r.payload = true)
    (hfields : fields s r = true) (hbody : body r s = (t, a)) : runCmd i op sel fields (answering body) s = finish r a t := by
  have hp : (a.pend && !r.ring && !(fnOf s r.fn).ring.cqEn) = false := by rcases hcan with e | e <;> simp [e]
  simp only [runCmd, h.head, h.id, h.opcode, h.ready, h.state, h.noConflict, h.noStall, hsel, hfields, answering, hbody, hp]
  simp

theorem churnRunRow_holds : churnRunRow := by
  intro i s r pr sched tr h hpart hcan hfields hslices hon hfenced hready hresult hsmall hwin hread
  have hbody : churnRunBody r s = (addRun (hostRun r pr sched tr) s, ansPend) := by
    simp [churnRunBody, hslices, hon, hfenced, hready, hresult, hsmall, hwin, hread]
    rfl
  have hseats := addRun_seats (hostRun r pr sched tr) s
  refine ⟨_, congrArg Host.Outcome.next (h.pends hcan rfl hfields hbody),
    ⟨_, addRun_mem (run := hostRun r pr sched tr) rfl s, rfl, rfl, rfl, rfl, rfl, rfl, rfl⟩, hseats.mem, hseats.host, ?_⟩
  exact wakeChurn_saves (φ := Part.g) (fun _ _ => rfl) _ (modPart_keeps (fun _ => rfl) (.refl _ _))

theorem churnRunStops_holds : churnRunStops := by
  intro i s r h hfields
  refine ⟨fun hoff => congrArg Host.Outcome.next (h.answers rfl hfields ?_ (.inl rfl)), fun hslices hon hfenced =>
    congrArg Host.Outcome.next (h.answers rfl hfields ?_ (.inl rfl))⟩
  · rcases hoff with e | e <;> simp [churnRunBody, e]
  · simp [churnRunBody, hslices, hon, hfenced]

theorem sliceRow_holds : sliceRow := by
  intro s hon
  have heq : doSliceStart s = passOn (sliceBegun s) := if_neg (by simp [hon])
  have hseats := passOn_seats (sliceBegun s)
  have hlen : Saves (fun q => (q.g, q.runs.length)) := fun q w => by simp
  refine ⟨_, congrArg Host.Outcome.next heq, hseats.slice, hseats.owners, fun p => ?_, hseats.host, hseats.ao⟩
  exact Prod.mk.inj (passOn_saves hlen (Keeps.refl _ (sliceBegun s)) p)

theorem saveLoadRow_holds : saveLoadRow := by
  intro s p r hholder hmoving hup htop hretried
  have heq (ok : Bool) : doSaveLoad ok s = if ok then modRun p r (fun r => { r with started := true, saved := false })
      (modChurn (fun c => { c with moving := false, moveRetried := false }) s)
      else modChurn (fun c => { c with moveRetried := true }) s := by
    simp [doSaveLoad, hholder, hmoving, hup, htop, hretried]
  exact ⟨congrArg Host.Outcome.next (heq true), congrArg Host.Outcome.next (heq false)⟩

theorem runEndRow_holds : runEndRow := by
  intro s p r hholder hmoving hup htop hstarted hsaved hkind hslot
  have heq : doRunEnd s = passOn (hostOutcome p r (runDropped p r s)) := by
    simp [doRunEnd, hholder, hmoving, hup, htop, hstarted, hsaved, runEnds, hkind]
    rfl
  rw [hostOutcome_spec hslot] at heq
  obtain ⟨hunits, hreq⟩ := completeOpt_spec r.req 0 0 (runAt r (schedSweeps r.sched)).sweeps (winWrite p r.resultAddr
    (resultBytes r.tag 0 r.prob.k (runAt r (schedSweeps r.sched))) (runDropped p r s))
  obtain ⟨hmem, hg⟩ := runDropped_frame p r s
  have hpass := passOn_seats (completeOpt r.req 0 0 (runAt r (schedSweeps r.sched)).sweeps (winWrite p r.resultAddr
    (resultBytes r.tag 0 r.prob.k (runAt r (schedSweeps r.sched))) (runDropped p r s)))
  refine ⟨_, congrArg Host.Outcome.next heq, ?_, ?_, fun i hi => ?_⟩
  · exact (dropRun_ended p r _).keeps (passOn_saves runKeys_saves (completeOpt_quiet runKeys_quiet _ _ _ _
      (winWrite_keeps _ _ _ (.refl _ _))))
  · rw [hpass.mem, hunits, winWrite_mem, winWrite_mem, hg, hmem]
  · rw [findReq, hpass.host]
    exact hreq i hi

theorem packBudgetRow_holds : packBudgetRow := by
  intro p k s r h
  obtain ⟨y, hy, heq⟩ := doPackBudget_spec (k := k) h
  have hended : Ended r (partOf y p) := by
    intro x hx
    rw [show (partOf y p).runs = _ from congrArg (fun z => z.2.2) (hy p)] at hx
    exact dropRun_ended p r s x hx
  have hrest : Keeps Part.unrun s y := fun q => by
    have hq := congrArg (fun z => (z.1, z.2.1)) (hy q)
    have hdrop : Keeps Part.unrun s (dropRun p r s) := modPart_keeps (fun _ => rfl) (.refl _ s)
    exact hq.trans (hdrop q)
  rcases heq with heq | heq
  · obtain ⟨hst, hex⟩ := Prod.mk.inj (hrest p)
    exact ⟨_, congrArg Host.Outcome.next heq, hended, hst, hex⟩
  · obtain ⟨hst, hex⟩ := Prod.mk.inj ((hrest.trans (passOn_unseated unrun_saves y)) p)
    exact ⟨_, congrArg Host.Outcome.next heq, hended.keeps (passOn_unseated runKeys_saves y), hst, hex⟩

theorem placeBudgetRow_holds : placeBudgetRow := by
  intro p s r h
  have hlog : Keeps Part.unpacked (modEx p (fun e => { e with running := false, kept := e.kept + 1 }) (dropRun p r s))
      (revisionKept p r s) := unpacked_quiet.logged (logEvent_logged _ _ _ _ _ _ (.refl _))
  have hended : Ended r (partOf (revisionKept p r s) p) := by
    intro x hx
    rw [show (partOf (revisionKept p r s) p).runs = _ from congrArg (fun z => z.2.2) (hlog p), partOf_modEx] at hx
    exact dropRun_ended p r s x hx
  have hrest : Part.unrun (partOf (revisionKept p r s) p) =
      ((partOf s p).st, { (partOf s p).ex with running := false, kept := (partOf s p).ex.kept + 1 }) := by
    have hp := congrArg (fun z => (z.1, z.2.1)) (hlog p)
    rw [partOf_modEx, dropRun, partOf_modPart] at hp
    exact hp
  rcases doPlaceBudget_spec h with heq | heq
  · obtain ⟨hst, hex⟩ := Prod.mk.inj hrest
    exact ⟨_, congrArg Host.Outcome.next heq, hended, by rw [hex], by rw [hex], by rw [hex], hst⟩
  · obtain ⟨hst, hex⟩ := Prod.mk.inj ((passOn_unseated unrun_saves _ p).trans hrest)
    exact ⟨_, congrArg Host.Outcome.next heq, hended.keeps (passOn_unseated runKeys_saves _), by rw [hex], by rw [hex],
      by rw [hex], hst⟩

theorem churnSramRow_holds : churnSramRow := by
  intro s p r hholder hup htop hstarted hsaved hretried
  have heq : doChurnSram s = modChurn (fun c => { c with moving := true, moveRetried := false })
      (modRun p r (fun r => { r with retried := true, started := false, stage := 0, chain := none }) s) := by
    simp [doChurnSram, hholder, hup, htop, hstarted, hsaved, hretried]
  exact congrArg Host.Outcome.next heq

end Sys2Proof.Claims

namespace Sys2Proof

/-- Settles O48: a run joins or leaves its partition (`addRun_mem`, `dropRun_ended`), and Churn changes hands without
touching the rest (`passOn_seats`, `passOn_saves`). -/
theorem churnRuns : Obligations.ChurnRuns :=
  ⟨Claims.churnRunRow_holds, Claims.churnRunStops_holds, Claims.sliceRow_holds, Claims.saveLoadRow_holds,
    Claims.runEndRow_holds, Claims.packBudgetRow_holds, Claims.placeBudgetRow_holds, Claims.churnSramRow_holds⟩

end Sys2Proof
end

/-! # Camera packets

What a change of a stream's windows leaves of the stream (`Stream.frame`, `updateWin_stays`), what the rest of an
accepted packet's work leaves of its block (`acceptPacket_stays`), and how a packet of a known block comes in. -/

section
namespace Sys2Proof.Machine
open State (LoggedTo)
variable {α β : Type} {r s t : State} {p : Pid} {i n uid : Nat} {d : StreamDecl} {x : Stream} {ψ : Stream → α}

/-! ## What is kept of a stream -/

/-- What ψ reads of a stream of a partition. -/
def streamView (n : Nat) (ψ : Stream → α) (q : Part) : Option α := (streamOf q n).map ψ

/-- The ports, the states of the partitions and what ψ reads of the streams with index n are as before. -/
structure StreamStays (n : Nat) (ψ : Stream → α) (s t : State) : Prop where
  ports : PortsStay s t
  view : Keeps (streamView n ψ) s t

theorem StreamStays.refl (n : Nat) (ψ : Stream → α) (s : State) : StreamStays n ψ s s := ⟨.refl s, .refl _ s⟩

theorem StreamStays.trans (h : StreamStays n ψ r s) (k : StreamStays n ψ s t) : StreamStays n ψ r t :=
  ⟨h.ports.trans k.ports, h.view.trans k.view⟩

theorem StreamStays.map (h : StreamStays n ψ s t) (f : α → β) : StreamStays n (fun x => f (ψ x)) s t := by
  have hview : streamView n (fun x => f (ψ x)) = fun q => (streamView n ψ q).map f :=
    funext fun q => (Option.map_map f ψ _).symm
  exact ⟨h.ports, hview ▸ h.view.comp (Option.map f)⟩

/-- The stream that stays. -/
theorem StreamStays.stream (h : StreamStays n ψ s t) (hx : streamOf (partOf s p) n = some x) :
    ∃ y, streamOf (partOf t p) n = some y ∧ ψ y = ψ x := by
  have hview := h.view p
  rw [streamView, streamView, hx, Option.map_some] at hview
  exact Option.map_eq_some_iff.1 hview

theorem State.LoggedTo.streamStays (h : LoggedTo s t) : StreamStays n ψ s t := ⟨h.portsStay, h.keeps fun _ => rfl⟩

theorem ite_streamStays {c : Prop} [Decidable c] {a b : State} (ha : StreamStays n ψ r a) (hb : StreamStays n ψ r b) :
    StreamStays n ψ r (if c then a else b) := by
  split
  · exact ha
  · exact hb

theorem foldl_streamStays {l : List β} {f : State → β → State}
    (hf : ∀ y a, StreamStays n ψ r y → StreamStays n ψ r (f y a)) (h : StreamStays n ψ r s) :
    StreamStays n ψ r (l.foldl f s) :=
  List.foldlRecOn l f (motive := StreamStays n ψ r) h fun y hy a _ => hf y a hy

theorem logEvent_streamStays (k c a0 a1 a2 a3) (h : StreamStays n ψ r s) :
    StreamStays n ψ r (logEvent k c a0 a1 a2 a3 s) :=
  h.trans (logEvent_logged _ _ _ _ _ _ (.refl s)).streamStays

theorem modPart_streamStays {g : Part → Part} (hst : ∀ q, (g q).st = q.st) (hg : ∀ q, (g q).streams = q.streams)
    (h : StreamStays n ψ r s) : StreamStays n ψ r (modPart p g s) :=
  ⟨modPart_portsStay hst h.ports, modPart_keeps (fun q => by rw [streamView, streamOf, hg]; rfl) h.view⟩

theorem modStream_streamStays {g : Stream → Stream} (hindex : ∀ x, (g x).index = x.index) (hψ : ∀ x, ψ (g x) = ψ x)
    (h : StreamStays n ψ r s) : StreamStays n ψ r (modStream p i g s) := by
  refine ⟨modStream_portsStay _ _ _ h.ports, modPart_keeps (fun q => ?_) h.view⟩
  rw [streamView, streamOf, find?_modAll (fun x => by rw [hindex]), Option.map_map, streamView, streamOf]
  congr 1
  funext x
  rw [Function.comp_apply]
  split
  · exact hψ x
  · rfl

/-! ## Windows -/

/-- A block of a stream while it is the newest one: the windows that are dropped never take it along. -/
def Stream.newest (uid : Nat) (x : Stream) : Option Block :=
  if x.nextBlk ≤ uid + 1 then x.blocks.find? (fun b => b.uid == uid) else none

theorem Stream.newest_eq (h : x.nextBlk ≤ uid + 1) : x.newest uid = x.blocks.find? (fun b => b.uid == uid) := if_pos h

/-- A stream without its windows, its records, its count of misaligned sets and its older blocks. -/
structure StreamFrame where
  st : Nat
  last : Option (Nat × Nat)
  nextBlk : Nat
  ranges : List Range
  cnt : IngCnt
  block : Option Block

def Stream.frame (uid : Nat) (x : Stream) : StreamFrame :=
  ⟨x.codec.st, x.last, x.nextBlk, x.ranges, { x.cnt with misaligned := 0 }, x.newest uid⟩

theorem modWin_streamStays {w : Nat} {g : Win → Win} (h : StreamStays n (Stream.frame uid) r s) :
    StreamStays n (Stream.frame uid) r (modWin p i w g s) := modStream_streamStays (fun _ => rfl) (fun _ => rfl) h

/-- A released buffer changes its partition's counts of buffers alone. -/
theorem releaseDesc_frame {φ : Part → α} (hφ : ∀ q l m, φ { q with held := l, drawn := m } = φ q) (e : Desc)
    (h : Keeps φ r s) : Keeps φ r (releaseDesc e s) := by
  unfold releaseDesc
  dsimp only
  split
  · exact modUnits_keeps _ (modPart_keeps (fun _ => hφ _ _ _) h)
  · exact h

theorem releaseDesc_streamStays (e : Desc) (h : StreamStays n ψ r s) : StreamStays n ψ r (releaseDesc e s) :=
  ⟨releaseDesc_portsStay _ h.ports, releaseDesc_frame (fun _ _ _ => rfl) _ h.view⟩

theorem dropBuffer_streamStays (w) (h : StreamStays n (Stream.frame uid) r s) :
    StreamStays n (Stream.frame uid) r (dropBuffer p i w s) := by
  unfold dropBuffer
  split
  · exact modWin_streamStays (ite_streamStays (releaseDesc_streamStays _ h) h)
  · exact h

theorem sweepWins_streamStays (h : StreamStays n (Stream.frame uid) r s) :
    StreamStays n (Stream.frame uid) r (sweepWins p s) :=
  foldl_streamStays (fun _ _ hy => modStream_streamStays (fun _ => rfl) (fun _ => rfl)
    (foldl_streamStays (fun _ _ => dropBuffer_streamStays _) hy)) h

theorem joinBacklog_streamStays (w) (h : StreamStays n (Stream.frame uid) r s) :
    StreamStays n (Stream.frame uid) r (joinBacklog p i w s) := by
  unfold joinBacklog
  dsimp only
  split
  · exact h
  refine sweepWins_streamStays (modPart_streamStays (fun _ => rfl) (fun _ => rfl) ?_)
  split
  · exact ite_streamStays (modPart_streamStays (fun _ => rfl) (fun _ => rfl)
      (modPart_streamStays (fun _ => rfl) (fun _ => rfl) (logEvent_streamStays _ _ _ _ _ _ h))) h
  · exact h

theorem refreshRecord_streamStays (w) (h : StreamStays n (Stream.frame uid) r s) :
    StreamStays n (Stream.frame uid) r (refreshRecord p i w s) := by
  unfold refreshRecord
  split
  · exact modStream_streamStays (fun _ => rfl) (fun _ => rfl) h
  · exact h

theorem compareSet_streamStays (w set) (h : StreamStays n (Stream.frame uid) r s) :
    StreamStays n (Stream.frame uid) r (compareSet p w set s) := by
  unfold compareSet
  dsimp only
  split
  · exact h
  have hset {y : State} (f : Win → Win) (k : Nat) (hy : StreamStays n (Stream.frame uid) r y) {c : Prop} [Decidable c] :
      StreamStays n (Stream.frame uid) r (refreshRecord p k w (if c then
        modIng p k (fun c => { c with misaligned := satAdd 64 c.misaligned 1 }) (modWin p k w f y) else modWin p k w f y)) :=
    refreshRecord_streamStays _ (ite_streamStays
      (modStream_streamStays (fun _ => rfl) (fun _ => rfl) (modWin_streamStays hy)) (modWin_streamStays hy))
  refine ite_streamStays (.trans ?_ (limited_logged _ _ _ _ (fun _ _ hy => logEvent_logged _ _ _ _ _ _ hy)
    (.refl _)).streamStays) ?_
  · exact foldl_streamStays (fun _ _ hy => hset _ _ hy) h
  · exact foldl_streamStays (fun _ _ hy => hset _ _ hy) h

/-- Dropping older blocks leaves the newest. -/
theorem dropBlocks_frame (x : Stream) (k : Nat) :
    Stream.frame uid { x with blocks := x.blocks.filter (fun b => decide (x.nextBlk < b.uid + 256 + k)) } =
      Stream.frame uid x := by
  have hnewest : Stream.newest uid { x with blocks := x.blocks.filter (fun b => decide (x.nextBlk < b.uid + 256 + k)) } =
      x.newest uid := by
    unfold Stream.newest
    dsimp only
    split
    · rw [List.find?_filter]
      congr 1
      funext b
      rw [Bool.eq_iff_iff, decide_eq_true_iff, decide_eq_true_iff, beq_iff_eq]
      omega
    · rfl
  rw [Stream.frame, hnewest, Stream.frame]

theorem finishWindow_streamStays (y gap) (h : StreamStays n (Stream.frame uid) r s) :
    StreamStays n (Stream.frame uid) r (finishWindow p i d y gap s) := by
  unfold finishWindow
  dsimp only
  refine sweepWins_streamStays (modStream_streamStays (fun _ => rfl) (fun x => dropBlocks_frame x _) ?_)
  have hlog {f : Win → Win} {c : Bool} : StreamStays n (Stream.frame uid) r
      (if c then logGap p i y.seq y.seq (modWin p i y.seq f s) else modWin p i y.seq f s) :=
    ite_streamStays (logEvent_streamStays _ _ _ _ _ _ (modWin_streamStays h)) (modWin_streamStays h)
  refine ite_streamStays ?_ (joinBacklog_streamStays _ ?_)
  all_goals
    split
    · exact compareSet_streamStays _ _ hlog
    · exact hlog

theorem updateWin_streamStays (w) (h : StreamStays n (Stream.frame uid) r s) :
    StreamStays n (Stream.frame uid) r (updateWin p i d w s) := by
  unfold updateWin
  split
  · exact h
  split
  · exact h
  · exact ite_streamStays h
      (ite_streamStays (finishWindow_streamStays _ _ (modWin_streamStays h)) (modWin_streamStays h))

/-! ## Packets -/

/-- What stays of a block that has taken a packet: the packets that are here, and the times of its leader. -/
structure BlockTaken where
  got : List Nat
  cameraTime : Nat
  deviceTime : Nat
  unsync : Bool
  led : Bool

def Block.taken (b : Block) : BlockTaken := ⟨b.got, b.cameraTime, b.deviceTime, b.unsync, b.led⟩

/-- What stays of its stream: the counters that no lost or repeated packet touches, and the newest block. -/
structure StreamTaken where
  nextBlk : Nat
  packets : Nat
  violations : Nat
  blocks : Nat
  block : Option BlockTaken

def StreamFrame.taken (y : StreamFrame) : StreamTaken :=
  ⟨y.nextBlk, y.cnt.packets, y.cnt.violations, y.cnt.blocks, y.block.map Block.taken⟩

/-- An element found by a test that a change keeps, read where the change keeps it too. -/
theorem map_find?_modFirst {γ : Type} {v w : γ → Bool} {g : γ → γ} {κ : γ → β} (hv : ∀ a, v (g a) = v a)
    (hκ : ∀ a, κ (g a) = κ a) (l : List γ) : ((modFirst w g l).find? v).map κ = (l.find? v).map κ := by
  induction l with
  | nil => rfl
  | cons a l ih =>
    rw [modFirst]
    split
    · cases ha : v a <;> simp [hv, ha, hκ]
    · cases ha : v a <;> simp [ha, ih]

/-- A change of a block that φ does not see. -/
theorem modBlock_streamStays {φ : StreamFrame → α} {k : Nat} {g : Block → Block}
    (hφ : ∀ x : Stream, φ (Stream.frame uid { x with blocks := modFirst (fun b => b.uid == k) g x.blocks }) =
      φ (Stream.frame uid x))
    (h : StreamStays n (fun x => φ (Stream.frame uid x)) r s) :
    StreamStays n (fun x => φ (Stream.frame uid x)) r (modBlock p i k g s) :=
  modStream_streamStays (fun _ => rfl) hφ h

theorem taken_modFirst {k : Nat} {g : Block → Block} (huid : ∀ b, (g b).uid = b.uid)
    (htaken : ∀ b, Block.taken (g b) = b.taken) (x : Stream) :
    (Stream.frame uid { x with blocks := modFirst (fun b => b.uid == k) g x.blocks }).taken = (x.frame uid).taken := by
  have hnewest : (Stream.newest uid { x with blocks := modFirst (fun b => b.uid == k) g x.blocks }).map Block.taken =
      (x.newest uid).map Block.taken := by
    unfold Stream.newest
    dsimp only
    split
    · exact map_find?_modFirst (fun b => by rw [huid]) htaken _
    · rfl
  simp only [StreamFrame.taken, Stream.frame, hnewest]

theorem checkBlock_streamStays {φ : StreamFrame → α}
    (hφ : ∀ (x : Stream) (k : Nat) (m : Block → Nat), φ (Stream.frame uid { x with
      blocks := modFirst (fun b => b.uid == k) (fun b => { b with st := m b }) x.blocks }) = φ (Stream.frame uid x))
    (k) (h : StreamStays n (fun x => φ (Stream.frame uid x)) r s) :
    StreamStays n (fun x => φ (Stream.frame uid x)) r (checkBlock p i d k s) := by
  unfold checkBlock
  split
  · exact (ite_streamStays (modBlock_streamStays (fun x => hφ x _ (fun b => if linesWhole d b then 1 else 2)) h) h).trans
      ((updateWin_streamStays _ (.refl ..)).map φ)
  · exact h

theorem modBlock_taken {k : Nat} {g : Block → Block} (huid : ∀ b, (g b).uid = b.uid)
    (htaken : ∀ b, Block.taken (g b) = b.taken) (h : StreamStays n (fun x => (Stream.frame uid x).taken) r s) :
    StreamStays n (fun x => (Stream.frame uid x).taken) r (modBlock p i k g s) :=
  modBlock_streamStays (taken_modFirst huid htaken) h

theorem checkBlock_taken (k) (h : StreamStays n (fun x => (Stream.frame uid x).taken) r s) :
    StreamStays n (fun x => (Stream.frame uid x).taken) r (checkBlock p i d k s) :=
  checkBlock_streamStays (fun x _ _ => taken_modFirst (by exact fun _ => rfl) (by exact fun _ => rfl) x) k h

theorem openRange_taken (k ids) (h : StreamStays n (fun x => (Stream.frame uid x).taken) r s) :
    StreamStays n (fun x => (Stream.frame uid x).taken) r (openRange p i d k ids s) := by
  unfold openRange
  split
  · exact h
  have hnxt {g : Block → Block} (huid : ∀ b, (g b).uid = b.uid) (htaken : ∀ b, Block.taken (g b) = b.taken) :=
    modBlock_taken (p := p) (i := i) (k := k) huid htaken h
  refine ite_streamStays (checkBlock_taken _ h) (ite_streamStays (checkBlock_taken _ ?_) ?_)
  · exact modStream_streamStays (fun _ => rfl) (fun _ => rfl)
      (modBlock_taken (fun _ => rfl) (fun _ => rfl) (hnxt (fun _ => rfl) (fun _ => rfl)))
  · exact modStream_streamStays (fun _ => rfl) (fun _ => rfl) (hnxt (fun _ => rfl) (fun _ => rfl))

theorem rangeReceived_taken (k a) (h : StreamStays n (fun x => (Stream.frame uid x).taken) r s) :
    StreamStays n (fun x => (Stream.frame uid x).taken) r (rangeReceived p i k a s) := by
  have hclose : StreamStays n (fun x => (Stream.frame uid x).taken) r (closeRange p i a.id s) :=
    modStream_streamStays (fun _ => rfl) (fun _ => rfl) h
  unfold rangeReceived
  dsimp only
  refine ite_streamStays hclose (ite_streamStays (modStream_streamStays (fun _ => rfl) (fun _ => rfl) hclose) (.trans ?_
    (limited_logged _ _ _ _ (fun _ _ hy => logEvent_logged _ _ _ _ _ _ hy) (cntFaults_logged _ _ (.refl _))).streamStays))
  exact modStream_streamStays (fun _ => rfl) (fun _ => rfl) hclose

theorem modWin_taken (w g) (h : StreamStays n (fun x => (Stream.frame uid x).taken) r s) :
    StreamStays n (fun x => (Stream.frame uid x).taken) r (modWin p i w g s) :=
  modStream_streamStays (fun _ => rfl) (fun _ => rfl) h

/-- A block once its leader has come: the camera's time, the device time, and whether the clock was off (R380, R385). -/
def Block.timed (ts now : Nat) (un : Bool) (b : Block) : Block :=
  { b with cameraTime := ts, deviceTime := now, unsync := un, led := true }

/-- A packet that came: its block has it, and its stream has counted it. -/
def gotPacket (p : Pid) (i uid k : Nat) (s : State) : State :=
  modIng p i (fun c => { c with packets := satAdd 64 c.packets 1 })
    (modBlock p i uid (fun b => { b with got := b.got ++ [k] }) s)

/-- Once a packet is counted, the rest of its work leaves the packets and the times of the newest block. -/
theorem acceptPacket_streamStays (p : Pid) (i n uid : Nat) (d : StreamDecl) (b : Block) (k : Nat) (payload : Bool) (s : State) :
    StreamStays n (fun x => (Stream.frame uid x).taken) (gotPacket p i b.uid k s) (acceptPacket p i d b k payload s) := by
  have hgot := StreamStays.refl n (fun x => (Stream.frame uid x).taken) (gotPacket p i b.uid k s)
  have hask := ite_streamStays (c := b.asked.contains k = true)
    (modWin_taken (p := p) (i := i) b.win (fun y => { y with resent := y.resent + 1 }) hgot) hgot
  have hopen := ite_streamStays (c := (payload && decide (b.nxt < k)) = true)
    (openRange_taken (p := p) (i := i) (d := d) b.uid ((List.range k).drop b.nxt) hask) hask
  have hnext := ite_streamStays (c := k ≤ packetsOf d) (modBlock_taken (p := p) (i := i) (k := b.uid)
    (g := fun b => { b with nxt := max b.nxt (k + 1) }) (fun _ => rfl) (fun _ => rfl) hopen) hopen
  unfold acceptPacket
  dsimp only
  split
  · have hranges {y : State} (l : List Range) (hy : StreamStays n (fun x => (Stream.frame uid x).taken) (gotPacket p i b.uid k s) y) :=
      foldl_streamStays (l := l) (fun _ a => rangeReceived_taken (p := p) (i := i) b.blockId a) hy
    refine ite_streamStays ?_ (checkBlock_taken _ (hranges _ hnext))
    have hdone {y : State} (hy : StreamStays n (fun x => (Stream.frame uid x).taken) (gotPacket p i b.uid k s) y) :=
      modBlock_taken (p := p) (i := i) (k := b.uid) (g := fun b => { b with st := 1 }) (fun _ => rfl) (fun _ => rfl)
        (modStream_streamStays (p := p) (i := i)
          (g := fun x => { x with ranges := x.ranges.filter (fun r => r.block != b.uid) }) (fun _ => rfl) (fun _ => rfl) hy)
    exact (ite_streamStays (modWin_taken _ _ (hdone (hranges _ hnext))) (hdone (hranges _ hnext))).trans
      ((updateWin_streamStays _ (.refl ..)).map _)
  · exact hnext

/-! ## What comes before a packet is taken -/

theorem blockAt_of_stream {s : State} (h : streamOf (partOf s p) n = some x) (k : Nat) :
    blockAt s p n k = x.blocks.find? (fun b => b.uid == k) := by
  rw [blockAt, h, Option.bind_some]

/-- The stream whose block was changed. -/
theorem streamOf_modBlock {k : Nat} {g : Block → Block} (h : streamOf (partOf s p) n = some x) :
    streamOf (partOf (modBlock p n k g s) p) n = some { x with blocks := modFirst (fun b => b.uid == k) g x.blocks } :=
  streamOf_modStream (fun _ => rfl) h

/-- A range that opens: its block goes on after its last packet, and it waits at the end. -/
theorem openRange_stream {ids : List Nat} (h : streamOf (partOf s p) n = some x) (hids : ids ≠ [])
    (hlen : x.ranges.length < 256) : streamOf (partOf (openRange p n d uid ids s) p) n = some { x with
      blocks := modFirst (fun b => b.uid == uid) (fun b => { b with nxt := max b.nxt (ids.getLastD 0 + 1) }) x.blocks
      ranges := x.ranges ++ [⟨x.nextRange, uid, ids, 0⟩]
      nextRange := x.nextRange + 1 } := by
  unfold openRange
  simp only [h]
  rw [if_neg (by simpa using hids), if_neg (by omega)]
  exact streamOf_modStream (by exact fun _ => rfl) (streamOf_modBlock h)

theorem newest_modBlock {g : Block → Block} {b : Block} (huid : ∀ b, (g b).uid = b.uid) (h : x.newest uid = some b) :
    Stream.newest uid { x with blocks := modFirst (fun b => b.uid == uid) g x.blocks } = some (g b) := by
  unfold Stream.newest at h ⊢
  dsimp only
  split at h
  next hnew => rw [if_pos hnew, find?_modFirst (fun b hb => by rw [huid]; exact hb), h, Option.map_some]
  next => exact absurd h (by simp)

theorem newest_uid {b : Block} (h : x.newest uid = some b) : b ∈ x.blocks ∧ b.uid = uid := by
  unfold Stream.newest at h
  split at h
  · exact ⟨List.mem_of_find?_eq_some h, by simpa using List.find?_some (p := fun b : Block => b.uid == uid) h⟩
  · exact absurd h (by simp)

theorem bufPutN_stays (e : Desc) (bs : List Byte) : ∀ (off : Nat) (s : State), StreamStays n ψ s (bufPutN e off bs s) := by
  induction bs with
  | nil => exact fun _ s => .refl n ψ s
  | cons b bs ih =>
    intro off s
    have hput : StreamStays n ψ s (bufPut e off b s) := ⟨⟨rfl, fun _ => rfl⟩, fun _ => rfl⟩
    exact hput.trans (ih (off + 1) (bufPut e off b s))

theorem bufWrite_stays (e : Desc) (off : Nat) (bs : List Byte) (h : StreamStays n ψ r s) :
    StreamStays n ψ r (bufWrite e off bs s) := by
  have hclear (ks : List Nat) : StreamStays n ψ r (clearSectors e ks s) :=
    foldl_streamStays (fun y a hy => hy.trans (bufPutN_stays e _ _ y)) h
  have hput (ks : List Nat) := (hclear ks).trans (bufPutN_stays e bs off _)
  rw [bufWrite_eq]
  exact (hput _).trans ⟨⟨rfl, fun _ => rfl⟩, fun _ => rfl⟩

theorem writePayload_stays (b : Block) (k : Nat) (bs : List Byte)
    (h : StreamStays n (fun x => (Stream.frame uid x).taken) r s) :
    StreamStays n (fun x => (Stream.frame uid x).taken) r (writePayload p i d b k bs s) := by
  unfold writePayload
  refine modBlock_taken (fun _ => rfl) (fun _ => rfl) ?_
  split
  · exact ite_streamStays h (bufWrite_stays _ _ _ h)
  · exact h

theorem cameraViolation_stream (row : Nat) (h : streamOf (partOf s p) n = some x) :
    ∃ y, streamOf (partOf (cameraViolation p n row s) p) n = some y
      ∧ y = { x with cnt := { x.cnt with violations := satAdd 64 x.cnt.violations 1 } } := by
  have hkeep : Keeps (streamView n id) (modStream p n (fun x => { x with cnt := { x.cnt with
      violations := satAdd 64 x.cnt.violations 1 } }) s) (cameraViolation p n row s) := by
    unfold cameraViolation
    exact (partnerViolation_logged _ _ _ _ _ _ (.refl _)).keeps fun _ => rfl
  have hview := hkeep p
  rw [streamView, streamView, streamOf_modStream (by exact fun _ => rfl) h, Option.map_some] at hview
  exact Option.map_eq_some_iff.1 hview

end Sys2Proof.Machine

namespace Sys2Proof.Claims
open Sys2Proof.Machine
variable {s : State} {p : Pid} {n bid packet : Nat} {d : StreamDecl} {x : Stream} {b : Block}

/-- The state once the port has counted the packet. -/
def framed (d : StreamDecl) (s : State) : State := modPort d.port (fun y => { y with frames := satAdd 64 y.frames 1 }) s

/-- A packet of a known block that is good enough comes to its block. -/
theorem Takes.enter (h : Takes s p n d x b bid packet) {ext ok : Bool} (hext : ext = d.extId) (hok : ok = true) :
    gvspEnter p n bid packet ext ok false s = (framed d s, some (d, b)) := by
  have hid : (!ok || (!d.extId && (bid == 0 || decide (65535 < bid)))) = false := by
    rcases h.id with hid | ⟨hlo, hhi⟩
    · simp [hok, hid]
    · have h0 : (bid == 0) = false := by simpa using (by omega : bid ≠ 0)
      have h1 : decide (65535 < bid) = false := by simpa using hhi
      simp [hok, h0, h1]
  have hknown : (streamOf (partOf (framed d s) p) n).bind (fun x => x.blocks.findRev? (fun b => b.blockId == bid)) =
      some b := by
    rw [show partOf (framed d s) p = partOf s p from rfl, h.stream, Option.bind_some, h.known]
  rw [framed] at hknown
  unfold gvspEnter
  simp only [h.decl, h.stream]
  rw [if_neg (by simp [h.reach]), if_neg (by simp [hext]), if_neg (by rw [hid]; simp)]
  simp only [hknown]
  rfl

theorem Takes.pass (h : Takes s p n d x b bid packet) (t : State) : gvspFilter p n b packet t = (t, true) := by
  unfold gvspFilter
  rw [if_neg (by rw [h.open_]; decide), if_neg (by rw [h.kept]; decide), if_neg (by rw [h.fresh]; decide)]

theorem Takes.block (h : Takes s p n d x b bid packet) : x.newest b.uid = some b := by
  rw [Stream.newest_eq h.newest, ← blockAt_of_stream h.stream]
  exact h.first

theorem Takes.frame (h : Takes s p n d x b bid packet) : (Stream.frame b.uid x).taken =
    ⟨x.nextBlk, x.cnt.packets, x.cnt.violations, x.cnt.blocks, some b.taken⟩ := by
  rw [Stream.frame, h.block]
  rfl

/-- A packet is taken in a state that has counted its frame and changed no more of its block than the leader's times. -/
theorem Takes.taken (h : Takes s p n d x b bid packet) {t : State} {y : Stream} {z : BlockTaken} {payload : Bool}
    {P : Block → Prop} (hports : PortsStay (framed d s) t) (hy : streamOf (partOf t p) n = some y)
    (hframe : (Stream.frame b.uid y).taken = ⟨x.nextBlk, x.cnt.packets, x.cnt.violations, x.cnt.blocks, some z⟩)
    (hgot : z.got = b.got) (hP : ∀ c : Block, c.taken = { z with got := b.got ++ [packet] } → P c) :
    Taken s (acceptPacket p n d b packet payload t) p n d x b packet P := by
  have hstay := acceptPacket_streamStays p n n b.uid d b packet payload t
  obtain ⟨hnext, hpackets, hviolations, hblocks, hblock⟩ := StreamTaken.mk.inj hframe
  obtain ⟨c, hc, hcz⟩ := Option.map_eq_some_iff.1 hblock
  have hport : portOf (acceptPacket p n d b packet payload t) d.port =
      { portOf s d.port with frames := satAdd 64 (portOf s d.port).frames 1 } := by
    rw [hstay.ports.port, show portOf (gotPacket p n b.uid packet t) d.port = portOf t d.port from rfl, hports.port,
      framed, portOf_modPort _ _ h.port]
  obtain ⟨w, hw, hwview⟩ := hstay.stream (streamOf_modStream (by exact fun _ => rfl) (streamOf_modBlock hy))
  have hnewest : Stream.newest b.uid y = some c := hc
  have hc' := newest_modBlock (g := fun b => { b with got := b.got ++ [packet] }) (fun _ => rfl) hnewest
  obtain ⟨hnext', hpackets', hviolations', hblocks', hblock'⟩ := StreamTaken.mk.inj hwview
  refine ⟨by rw [hport], by rw [hport], w, hw, hpackets'.trans (congrArg (satAdd 64 · 1) hpackets),
    hviolations'.trans hviolations, hblocks'.trans hblocks, ?_⟩
  obtain ⟨c', hc', hcz'⟩ := Option.map_eq_some_iff.1 (hblock'.trans (congrArg (Option.map Block.taken) hc'))
  obtain ⟨hmem, huid⟩ := newest_uid hc'
  have hgot' : c.got = b.got := by rw [← hgot, ← hcz]; rfl
  refine ⟨c', hmem, huid, ?_, hP _ ?_⟩
  · rw [show c'.got = c'.taken.got from rfl, hcz', ← hgot']
    rfl
  · rw [hcz', ← hcz, ← hgot']
    rfl

theorem Takes.framed_stream (h : Takes s p n d x b bid packet) : streamOf (partOf (framed d s) p) n = some x := h.stream

/-- The leader's times stand in its block. -/
theorem Takes.leader (h : Takes s p n d x b bid packet) (ts : Nat) :
    PortsStay (framed d s) (leaderTimes p n b ts (framed d s))
      ∧ ∃ y, streamOf (partOf (leaderTimes p n b ts (framed d s)) p) n = some y
        ∧ (Stream.frame b.uid y).taken = ⟨x.nextBlk, x.cnt.packets, x.cnt.violations, x.cnt.blocks,
          some ⟨b.got, ts, s.time, !s.units.ptp.locked, true⟩⟩ := by
  have hblock := newest_modBlock (g := Block.timed ts s.time (!s.units.ptp.locked)) (fun _ => rfl) h.block
  have hstay : StreamStays n (fun x => (Stream.frame b.uid x).taken)
      (modBlock p n b.uid (Block.timed ts s.time (!s.units.ptp.locked)) (framed d s)) (leaderTimes p n b ts (framed d s)) :=
    ite_streamStays (modWin_taken _ _ (.refl ..)) (.refl ..)
  obtain ⟨y, hy, hview⟩ := hstay.stream (streamOf_modBlock h.framed_stream)
  refine ⟨(modStream_portsStay _ _ _ (.refl _)).trans hstay.ports, y, hy, hview.trans ?_⟩
  rw [Stream.frame, hblock]
  rfl

theorem leaderRow_holds : leaderRow := by
  intro p n l s d x b h hext hok hgone hin htype hpix hptype hpfmt hsx hsy hpad
  obtain ⟨hports, y, hy, hframe⟩ := h.leader l.timestamp
  refine ⟨_, congrArg Host.Outcome.next ?_, h.taken (payload := false) hports hy hframe rfl ?_⟩
  · have hknown : (l.allIn || !([1, 0x4001].contains l.payloadType) || decide (2 < l.pixelFormat)) = false := by
      have hpix : decide (2 < l.pixelFormat) = false := by simpa using hpix
      rcases htype with e | e <;> simp [e, hin, hpix]
    unfold doLeader
    rw [hgone, h.enter hext hok]
    simp only [h.pass]
    rw [if_neg (by rw [hknown]; decide), if_neg (by simp [hptype, hpfmt, hsx, hsy, hpad])]
  · exact fun c hc => (BlockTaken.mk.inj hc).2

/-- A block that is rejected has its violation counted, and is not taken. -/
theorem Takes.reject (h : Takes s p n d x b bid packet) (row : Nat) :
    ∃ y, streamOf (partOf (rejectBlock p n d b row (framed d s)) p) n = some y
      ∧ y.cnt.violations = satAdd 64 x.cnt.violations 1 ∧ y.cnt.packets = x.cnt.packets
      ∧ ∃ z ∈ y.blocks, z.uid = b.uid ∧ z.st = 3 := by
  obtain ⟨y, hy, rfl⟩ := cameraViolation_stream row h.framed_stream
  have hranges := streamOf_modStream
    (g := fun x => { x with ranges := x.ranges.filter (fun r => r.block != b.uid) }) (fun _ => rfl) hy
  obtain ⟨z, hz, hframe⟩ := (updateWin_streamStays (uid := b.uid) (p := p) (i := n) (d := d) b.win (.refl n _ _)).stream
    (streamOf_modBlock (k := b.uid) (g := fun b => { b with st := 3 }) hranges)
  have hnewest : z.newest b.uid = some { b with st := 3 } :=
    (congrArg StreamFrame.block hframe).trans (newest_modBlock (g := fun b => { b with st := 3 }) (fun _ => rfl) h.block)
  obtain ⟨hmem, huid⟩ := newest_uid hnewest
  exact ⟨z, hz, congrArg (fun f => f.cnt.violations) hframe, congrArg (fun f => f.cnt.packets) hframe, _, hmem, huid, rfl⟩

theorem leaderRejected_holds : leaderRejected := by
  intro p n l s d x b h hext hok hgone hsx
  have heq : ∃ row, doLeader p n l s = rejectBlock p n d b row (framed d s) := by
    unfold doLeader
    rw [hgone, h.enter hext hok]
    simp only [h.pass]
    split
    · exact ⟨5, rfl⟩
    · exact ⟨6, if_pos (by simp [hsx])⟩
  obtain ⟨row, heq⟩ := heq
  exact ⟨_, congrArg Host.Outcome.next heq, h.reject row⟩

theorem payloadRow_holds : payloadRow := by
  intro p n k s d x b h hext hok hlo hhi hlen
  have hstay := writePayload_stays (uid := b.uid) (p := p) (i := n) (d := d) b k.packetId k.bytes (.refl n _ (framed d s))
  obtain ⟨y, hy, hview⟩ := hstay.stream h.framed_stream
  refine ⟨_, congrArg Host.Outcome.next ?_, h.taken (payload := true) hstay.ports hy (hview.trans h.frame) rfl
    fun _ _ => trivial⟩
  have h0 : (k.packetId == 0) = false := by simpa using (by omega : k.packetId ≠ 0)
  unfold doPayload
  rw [h.enter hext hok]
  simp only [h.pass]
  rw [if_neg (by simp [h0, hhi, hlen])]

theorem payloadBad_holds : payloadBad := by
  intro p n k s d x b h hext hok hlen
  obtain ⟨y, hy, rfl⟩ := cameraViolation_stream 7 h.framed_stream
  refine ⟨_, congrArg Host.Outcome.next ?_, _, hy, rfl, rfl, rfl, rfl⟩
  unfold doPayload
  rw [h.enter hext hok]
  exact if_pos (by simp [h.open_, hlen])

theorem trailerRow_holds : trailerRow := by
  intro p n k s d x b h hext hgone hid
  refine ⟨_, congrArg Host.Outcome.next ?_, h.taken (payload := false) (.refl _) h.framed_stream h.frame rfl
    fun _ _ => trivial⟩
  unfold doTrailer
  rw [hgone, h.enter hext rfl]
  simp only [h.pass]
  rw [if_neg (by simp [hid])]

/-! ## Timers of blocks, streams and ranges -/

theorem blockTimeoutRow_holds : blockTimeoutRow := by
  intro p n s d x b hdecl hx hb hat hlen hids
  have hopen : (b.tail || b.st != 0) = false := by
    have hb' := List.find?_some (p := fun b : Block => b.st == 0 && !b.tail) hb
    rw [Bool.and_eq_true, beq_iff_eq, Bool.not_eq_true'] at hb'
    simp [hb'.1, hb'.2]
  have hrange := openRange_stream (uid := b.uid) (d := d)
    (streamOf_modBlock (k := b.uid) (g := fun b => { b with tail := true }) hx) hids hlen
  refine ⟨_, congrArg Host.Outcome.next (?_ : doBlockTimeout p n s = _), _, hrange, rfl, rfl, rfl, ?_⟩
  · unfold doBlockTimeout
    simp only [hx, hdecl, hb]
    unfold openTail
    simp only [hat, hopen]
    exact if_neg (by decide)
  · have hfind := (find?_modFirst (w := fun c : Block => c.uid == b.uid) (f := fun b => { b with tail := true })
      (fun _ hc => hc) x.blocks).trans (congrArg _ ((blockAt_of_stream hx b.uid).symm.trans hat))
    exact ⟨_, List.mem_of_find?_eq_some ((find?_modFirst (by exact fun _ hc => hc) _).trans (congrArg _ hfind)), rfl, rfl⟩

theorem streamTimeoutRow_holds : streamTimeoutRow := by
  intro p n s d x hdecl hx hst hcam
  have hstall := streamOf_modStream (g := fun x : Stream => { x with
    codec := { x.codec with st := 4 }, last := none
    wins := x.wins.map (fun w => if w.done then w else { w with cut := true }) }) (fun _ => rfl) hx
  have hstay (l : List Win) (a : Nat) {r : State} : StreamStays n (Stream.frame 0) r
      (l.foldl (fun s w => updateWin p n d w.seq s) (logEvent p.val 0x0901 (streamUnit n) a 0 0 r)) :=
    foldl_streamStays (fun _ _ => updateWin_streamStays _) (logEvent_streamStays _ _ _ _ _ _ (.refl ..))
  obtain ⟨y, hy, hframe⟩ := (hstay (x.wins.filter (fun w => !w.done)) (x.nextWin - 1)).stream hstall
  refine ⟨_, congrArg Host.Outcome.next (?_ : doStreamTimeout p n s = _), y, hy, congrArg StreamFrame.st hframe,
    congrArg StreamFrame.last hframe, ?_⟩
  · unfold doStreamTimeout
    simp only [hx, hdecl]
    exact if_neg (by simp [hst, hcam])
  · exact ((modStream_portsStay _ _ _ (.refl s)).trans (hstay _ _).ports).st p

/-- A range that is asked for: one request for each run of its missing packets. -/
theorem requestRange_stream {r : Range} (h : streamOf (partOf s p) n = some x) (hb : blockAt s p n r.block = some b) :
    ∃ y, streamOf (partOf (requestRange p n d r s) p) n = some y
      ∧ y.ranges = modFirst (fun y => y.id == r.id) (fun y => { y with tries := y.tries + 1 }) x.ranges
      ∧ y.cnt.requests = satAdd 64 x.cnt.requests (runsOf (r.ids.filter (fun n => !b.got.contains n))).length
      ∧ y.cnt.lost = x.cnt.lost := by
  have hsend (l : List (Nat × Nat)) (f : Nat × Nat → Output) : streamOf (partOf (l.foldl (fun s k => emit (f k) s) s) p) n = some x :=
    List.foldlRecOn l _ (motive := fun y : State => streamOf (partOf y p) n = some x) h fun _ hy _ _ => hy
  unfold requestRange
  simp only [hb]
  exact ⟨_, streamOf_modStream (by exact fun _ => rfl) (streamOf_modStream (by exact fun _ => rfl)
    (streamOf_modBlock (hsend _ _))), rfl, rfl, rfl⟩

theorem resendRows_holds : resendRows := by
  intro p n k s d x r b hdecl hx hr hb
  have hid : r.id = k := by simpa using List.find?_some (p := fun r : Range => r.id == k) hr
  have hask := requestRange_stream (d := d) hx hb
  rw [hid] at hask
  have htimer (first : Bool) (h : r.tries = if first then 0 else 1) : rangeTimer p n k first s = requestRange p n d r s := by
    unfold rangeTimer
    simp only [hx, hdecl, hr]
    cases first <;> simp [h]
  exact ⟨fun h => ⟨_, congrArg Host.Outcome.next (htimer true h), hask⟩,
    fun h => ⟨_, congrArg Host.Outcome.next (htimer false h), hask⟩⟩

theorem rangeLost_holds : rangeLost := by
  intro p n k s d x r hdecl hx hr htries
  have hid : r.id = k := by simpa using List.find?_some (p := fun r : Range => r.id == k) hr
  have hlost := streamOf_modStream (g := fun x : Stream => { x with cnt := { x.cnt with lost := satAdd 64 x.cnt.lost 1 } })
    (fun _ => rfl) (streamOf_modBlock (k := r.block)
      (g := fun b => { b with lost := b.lost ++ r.ids.filter (fun n => !b.got.contains n) })
      (streamOf_modStream (g := fun x => { x with ranges := x.ranges.filter (fun a => a.id != r.id) }) (fun _ => rfl) hx))
  have hcheck {y : State} := checkBlock_streamStays (p := p) (i := n) (d := d) (uid := 0)
    (φ := fun f => (f.ranges, f.cnt.lost)) (fun _ _ _ => rfl) r.block (.refl n _ y)
  obtain ⟨y, hy, hview⟩ := hcheck.stream hlost
  obtain ⟨hranges, hcnt⟩ := Prod.mk.inj hview
  change y.ranges = x.ranges.filter (fun a => a.id != r.id) at hranges
  refine ⟨_, congrArg Host.Outcome.next (?_ : rangeTimer p n k false s = _), y, hy, hcnt, fun z hz => ?_⟩
  · unfold rangeTimer
    simp only [hx, hdecl, hr]
    rw [if_neg (by decide), if_neg (by omega), if_pos htries]
    rfl
  · rw [hranges] at hz
    simpa [hid] using (List.mem_filter.1 hz).2

end Sys2Proof.Claims

namespace Sys2Proof

/-- Settles O49: a packet's work on its block leaves the packets and times that are there (`acceptPacket_streamStays`),
and the windows it completes leave the stream's blocks, ranges and counters (`updateWin_streamStays`). -/
theorem cameraPackets : Obligations.CameraPackets :=
  ⟨Claims.leaderRow_holds, Claims.leaderRejected_holds, Claims.payloadRow_holds, Claims.payloadBad_holds,
    Claims.trailerRow_holds, Claims.blockTimeoutRow_holds, Claims.streamTimeoutRow_holds, Claims.resendRows_holds,
    Claims.rangeLost_holds⟩

end Sys2Proof
end

/-! # The PTP clock and Ethernet frames -/

section
namespace Sys2Proof.Machine
open State (LoggedTo)
variable {s t : State} {n : Nat}

/-- A port that takes frames is one of the eight. -/
theorem portTakes_lt (h : portTakes s n = true) : n < 8 := by
  by_contra hn
  have hport : portOf s n = {} := by
    simp [portOf, vget, Vector.getElem?_eq_none (by omega : 8 ≤ n)]
  simp [portTakes, hport] at h

/-- A violation at a port: the port counts it, and its link and the partitions' states stay. -/
theorem countedViolation (h : n < 8) {key : LimKey} {u k w d part : Nat} (ht : t = partnerViolation key part u k w d
      (modPort n (fun x => { x with violations := satAdd 64 x.violations 1 }) (countFrame n s))) :
    (portOf t n).violations = satAdd 64 (portOf s n).violations 1
      ∧ (portOf t n).frames = satAdd 64 (portOf s n).frames 1 ∧ (portOf t n).link = (portOf s n).link
      ∧ ∀ p, (partOf t p).st = (partOf s p).st := by
  have hlog := (partnerViolation_logged key part u k w d (.refl (modPort n (fun x => { x with
    violations := satAdd 64 x.violations 1 }) (countFrame n s)))).portsStay
  subst ht
  rw [hlog.port, portOf_modPort _ _ h, countFrame, portOf_modPort _ _ h]
  exact ⟨rfl, rfl, rfl, hlog.st⟩

end Sys2Proof.Machine

namespace Sys2Proof.Claims
open Sys2Proof.Machine
open State (LoggedTo)
variable {s : State} {n : Nat}

/-! ## The clock (R384) -/

/-- A locked clock follows an offset. -/
theorem followed_units (c : Prop) [Decidable c] (off : Int) (y : State) :
    (if c then shiftTime off y else y).units = y.units
      ∧ (if c then shiftTime off y else y).time = if c then (Int.ofNat y.time - off).toNat else y.time := by
  split
  · exact ⟨rfl, rfl⟩
  · exact ⟨rfl, rfl⟩

theorem ptpOffset_rule (diff : Int) (s : State) : ptpRule (diff - s.units.ptp.delay) s (ptpOffset diff s) := by
  unfold ptpOffset
  dsimp only
  split
  next hfar =>
    have hlog (part v w : Nat) := logEvent_logged part 0x0903 v w 0 0 (.refl (modPtp (fun x => { x with
      offset := diff - s.units.ptp.delay, syncDiff := diff, waiting := none }) s))
    have hptp {part v w} : (logEvent part 0x0903 v w 0 0 (modPtp (fun x => { x with
        offset := diff - s.units.ptp.delay, syncDiff := diff, waiting := none }) s)).units.ptp =
        { s.units.ptp with offset := diff - s.units.ptp.delay, syncDiff := diff, waiting := none } :=
      congrArg UnitSt.ptp (hlog part v w).units
    refine ⟨?_, ?_, ?_, fun _ => ⟨rfl, rfl, ?_⟩, fun hle => absurd hle (by omega)⟩
    · exact congrArg PtpSt.offset hptp
    · exact congrArg PtpSt.waiting hptp
    · exact (congrArg PtpSt.delay hptp :)
    · exact congrArg (fun n => (Int.ofNat n - (diff - s.units.ptp.delay)).toNat) (hlog _ _ _).time
  next hnear =>
    obtain ⟨hunits, htime⟩ := followed_units ((modPtp (fun x => { x with
      good := if (diff - s.units.ptp.delay).natAbs < 100 then min 16 (x.good + 1) else 0
      locked := x.locked || decide (16 ≤ if (diff - s.units.ptp.delay).natAbs < 100 then min 16 (x.good + 1) else 0) })
      (modPtp (fun x => { x with offset := diff - s.units.ptp.delay, syncDiff := diff, waiting := none }) s)).units.ptp.locked
        = true) (diff - s.units.ptp.delay) _
    refine ⟨?_, ?_, ?_, fun hgt => absurd hgt hnear, fun _ => ⟨?_, ?_, ?_⟩⟩
    · rw [hunits]; rfl
    · rw [hunits]; rfl
    · rw [hunits]; rfl
    · rw [hunits]; rfl
    · rw [hunits]; rfl
    · rw [htime, hunits]; rfl

theorem ptpSyncRows_holds : ptpSyncRows := by
  intro n origin rx s h
  have hone : doPtpSync n origin rx false s = emit (.ptpDelayReq n) (ptpOffset (rx - origin) (countFrame n s)) := by
    simp [doPtpSync, h]
  have htwo : doPtpSync n origin rx true s =
      emit (.ptpDelayReq n) (modPtp (fun x => { x with waiting := some rx }) (countFrame n s)) := by
    simp [doPtpSync, h]
  refine ⟨⟨_, congrArg Host.Outcome.next hone, ptpOffset_rule (rx - origin) (countFrame n s)⟩,
    ⟨_, congrArg Host.Outcome.next htwo, rfl, rfl, rfl⟩, fun hwait => ?_⟩
  have hfollow : doFollowUp n origin s = ptpOffset (rx - origin) (countFrame n s) := by
    simp [doFollowUp, h, hwait]
  exact ⟨_, congrArg Host.Outcome.next hfollow, ptpOffset_rule (rx - origin) (countFrame n s)⟩

theorem ptpDelayRow_holds : ptpDelayRow := by
  intro n rx tx s h
  have heq : doDelayResp n rx tx s =
      modPtp (fun x => { x with delay := (x.syncDiff + (rx - tx)).tdiv 2 }) (countFrame n s) := by
    simp [doDelayResp, h]
  exact ⟨_, congrArg Host.Outcome.next heq, rfl, rfl, rfl, rfl⟩

theorem ptpAnnounceRow_holds : ptpAnnounceRow := by
  intro n m q s h
  refine ⟨fun hnone => ⟨_, rfl, ?_, ?_⟩, fun m' q' hsome hq => ⟨_, rfl, ?_, ?_⟩⟩
  · simp [doAnnounce, h, modPtp, hnone, countFrame]
  · simp [doAnnounce, h, modPtp, countFrame]
  · have hworse : ¬(q < q' ∨ q = q' ∧ m < m') := by omega
    simp [doAnnounce, h, modPtp, countFrame, hsome, hworse]
  · simp [doAnnounce, h, modPtp, countFrame]

theorem ptpTimeoutRow_holds : ptpTimeoutRow := fun _ => rfl

/-! ## Frames -/

theorem frameDropRow_holds : frameDropRow := by
  intro n f s h
  have hdrop (hwhy : f.fcsOk = false ∨ f.toUs = false ∨ (f.size ≤ 9216 ∧ f.vlan = none ∧ f.ether ≠ 0)) :
      doEthFrame n f s = dropFrame n (countFrame n s) := by
    unfold doEthFrame
    rw [if_neg (by simp [h])]
    rcases hwhy with hfcs | hto | ⟨hsize, hvlan, hether⟩
    · exact if_pos (by simp [hfcs])
    · exact if_pos (by simp [hto])
    · dsimp only
      split
      · rfl
      · rw [if_neg (by simp [hsize, hvlan, hether]), if_pos (by simp [hether])]
  exact ⟨fun hbad => congrArg Host.Outcome.next (hdrop (hbad.imp_right .inl)),
    fun _ _ hsize hvlan hether => congrArg Host.Outcome.next (hdrop (.inr (.inr ⟨hsize, hvlan, hether⟩)))⟩

theorem frameViolationRows_holds : frameViolationRows := by
  intro n f s hn h
  refine ⟨fun hfcs hto hsize => ?_, fun hrole => ?_⟩
  · have heq : doEthFrame n f s = if (portOf s n).role = 1 then portViolation n 1 (countFrame n s)
        else deliveryPortViolation n 1 (countFrame n s) := by
      unfold doEthFrame
      rw [if_neg (by simp [h])]
      dsimp only
      rw [if_neg (by simp [hfcs, hto]), if_pos (by simp [hsize])]
    refine ⟨_, congrArg Host.Outcome.next heq, ?_⟩
    split
    · exact countedViolation hn rfl
    · exact countedViolation hn rfl
  · have heq : doGvcp n s = portViolation n 10 (countFrame n s) := if_pos (by simp [h, hrole])
    exact ⟨_, congrArg Host.Outcome.next heq, countedViolation hn rfl⟩

theorem frameAnswerRows_holds : frameAnswerRows := by
  intro n sender body m s h
  have haddr : (portOf (countFrame n s) n).addr = (portOf s n).addr := by
    rw [countFrame, portOf_modPort _ _ (portTakes_lt h)]
  refine ⟨congrArg Host.Outcome.next ?_, fun a ha => congrArg Host.Outcome.next ?_, congrArg Host.Outcome.next (if_pos h),
    congrArg Host.Outcome.next (if_pos h)⟩
  · simp [doArp, h, haddr]
  · simp [doArp, h, haddr, ha]

theorem portDeaf_holds : portDeaf := by
  intro n a b body f m s h
  refine ⟨congrArg Host.Outcome.next (if_pos (by simp [h])), congrArg Host.Outcome.next (if_pos (by simp [h])),
    congrArg Host.Outcome.next (if_neg (by simp [h])), congrArg Host.Outcome.next (if_neg (by simp [h])),
    congrArg Host.Outcome.next (if_neg (by simp [h]))⟩

end Sys2Proof.Claims

namespace Sys2Proof

/-- Settles O51: what an offset does to the clock (`ptpOffset_rule`), and where each frame goes. -/
theorem ptpAndEthernetFrames : Obligations.PtpAndEthernetFrames :=
  ⟨Claims.ptpSyncRows_holds, Claims.ptpDelayRow_holds, Claims.ptpAnnounceRow_holds, Claims.ptpTimeoutRow_holds,
    Claims.frameDropRow_holds, Claims.frameViolationRows_holds, Claims.frameAnswerRows_holds, Claims.portDeaf_holds⟩

end Sys2Proof
end

/-! # Delivery sessions

A session's own record after a change of it (`targetOf_modTarget`), after it sends (`pump_frame`) and once it is closed
(`closeSession_closed`). -/

section
namespace Sys2Proof.Machine
open State (LoggedTo)
variable {α β : Type} {r s t : State} {p : Pid} {n k : Nat} {x : Target} {ψ : Target → α} {g : Target → Target}

/-! ## A target of a partition -/

/-- What ψ reads of a target of a partition. -/
def targetView (n : Nat) (ψ : Target → α) (q : Part) : Option α := (targetOf q n).map ψ

theorem targetOf_id {q : Part} (h : targetOf q n = some x) : x.id = n := by
  simpa using List.find?_some (p := fun x : Target => x.id == n) h

/-- The target that was changed. -/
theorem targetOf_modTarget (hid : ∀ x, (g x).id = x.id) (h : targetOf (partOf s p) n = some x) :
    targetOf (partOf (modTarget p n g s) p) n = some (g x) := by
  rw [modTarget, partOf_modPart, targetOf, find?_modFirst (fun x hx => by rw [hid]; exact hx),
    show List.find? _ _ = some x from h, Option.map_some]

theorem modTarget_keeps (hid : ∀ x, (g x).id = x.id) (hψ : ∀ x, ψ (g x) = ψ x) (h : Keeps (targetView k ψ) r s) :
    Keeps (targetView k ψ) r (modTarget p n g s) :=
  modPart_keeps (fun q => map_find?_modFirst (v := fun x : Target => x.id == k) (fun x => by rw [hid]) hψ q.targets) h

/-- The target that a run of changes leaves, as ψ reads it. -/
theorem Keeps.target (h : Keeps (targetView n ψ) s t) (hx : targetOf (partOf s p) n = some x) :
    ∃ y, targetOf (partOf t p) n = some y ∧ ψ y = ψ x := by
  have hview := h p
  rw [targetView, targetView, hx, Option.map_some] at hview
  exact Option.map_eq_some_iff.1 hview

/-- Logging changes no target. -/
theorem State.LoggedTo.target (h : LoggedTo s t) (hx : targetOf (partOf s p) n = some x) :
    targetOf (partOf t p) n = some x := by
  obtain ⟨y, hy, hyx⟩ := (h.keeps fun _ => rfl : Keeps (targetView n id) s t).target hx
  rw [hy, show y = x from hyx]

/-! ## Close (R409) -/

/-- A session that closes: what was sent stays, with its sequences. -/
theorem closeSession_closed (cause : Nat) (notice : Bool) (h : targetOf (partOf s p) n = some x) (hlive : x.live = true) :
    Claims.Closed (closeSession p n cause notice s) p n cause x := by
  have hclose (y : State) (hy : targetOf (partOf y p) n = some x) (m : Nat) :
      targetOf (partOf (modTarget p n (fun x => { x with
        st := 3, cause := cause, closedAt := m, sent := x.sent.map (fun b => { b with timer := false }) }) y) p) n =
        some { x with st := 3, cause := cause, closedAt := m, sent := x.sent.map (fun b => { b with timer := false }) } :=
    targetOf_modTarget (fun _ => rfl) hy
  unfold closeSession
  simp only [h, hlive]
  rw [if_neg (by decide)]
  refine ⟨_, (logEvent_logged _ _ _ _ _ _ (.refl _)).target (hclose _ ?_ _), rfl, rfl, rfl, rfl, rfl, ?_⟩
  · split
    · exact h
    · exact h
  · rw [List.map_map]
    rfl

/-! ## Open (R395, R410) -/

/-- An OPENING session sends HELLO at most. -/
theorem pump_opening (h : targetOf (partOf s p) n = some x) (hst : x.st = 1) :
    ∃ b, targetOf (partOf (pump p n s) p) n = some { x with helloSent := b } := by
  rw [pump, pumpTarget]
  simp only [h]
  split
  · exact ⟨x.helloSent, h⟩
  split
  · exact ⟨x.helloSent, h⟩
  · exact ⟨true, targetOf_modTarget (fun _ => rfl) h⟩

/-- A partition whose target takes its place among the targets. -/
def Part.place (n : Nat) (x : Target) (q : Part) : Part :=
  { q with targets := q.targets.filter (fun y => decide (y.id < n)) ++ [x] ++ q.targets.filter (fun y => decide (n < y.id)) }

theorem targetOf_place (hid : x.id = n) : targetOf (partOf (modPart p (Part.place n x) s) p) n = some x := by
  have hlow (l : List Target) : (l.filter (fun y => decide (y.id < n))).find? (fun x => x.id == n) = none :=
    List.find?_eq_none.2 fun y hy => by
      have hlt : y.id < n := by simpa using (List.mem_filter.1 hy).2
      simpa using (by omega : y.id ≠ n)
  rw [partOf_modPart, targetOf, Part.place, List.append_assoc, List.find?_append, hlow, List.singleton_append,
    List.find?_cons_of_pos (by simp [hid])]
  rfl

/-- A target's record once its session is opened. -/
def Target.opened (par : SessPar) (qpn psn : Nat) (old : Target) : Target :=
  { old with
    st := if par.p2p then 2 else 1, cause := 0, par := par, devQpn := BitVec.ofNat 32 qpn, devPsn := BitVec.ofNat 32 psn
    sent := old.sent.map (fun k => { k with resent := false, naked := false, timer := false })
    acked := seqPred (firstUnacked old), released := seqPred (firstUnacked old)
    rate := 200000000000, helloSent := false, helloResent := false, rcTried := false, rnrTried := false
    rqLeft := 16, rqTime := 0, nakCount := 0, pollTried := false }

theorem firstUnacked_opened (par : SessPar) (qpn psn : Nat) (old : Target) :
    firstUnacked (old.opened par qpn psn) = firstUnacked old := by
  unfold firstUnacked Target.opened
  cases old.sent <;> rfl

/-- A target that has had no session: both of the trainer's sequences are one before the first (R398). -/
def Target.unopened (n seq : Nat) : Target := { id := n, nextSeq := seq, acked := seqPred seq, released := seqPred seq }

/-- What a target was before its session is opened. -/
def formerTarget (s : State) (p : Pid) (b : List Byte) : Target :=
  (targetOf (partOf s p) (field b 0 1)).getD (.unopened (field b 0 1) (field b 0x58 8))

theorem formerTarget_id (s : State) (p : Pid) (b : List Byte) : (formerTarget s p b).id = field b 0 1 := by
  unfold formerTarget
  cases hold : targetOf (partOf s p) (field b 0 1)
  case none => rfl
  case some x => exact targetOf_id hold

/-- The parameters of a session, and the numbers of its queue pair: free values, but for a peer-to-peer one. -/
def sessionPar (s : State) (p : Pid) (b : List Byte) : SessPar := { parOf b with reqFn := requesterOf s p }
def sessionNumber (b : List Byte) (k : Nat) : Nat := if (parOf b).p2p then 0 else Config.freeNat k % 2 ^ 24

theorem openTarget_eq (p : Pid) (b : List Byte) (s : State) : openTarget p b s =
    (pump p (field b 0 1) (modPart p (Part.place (field b 0 1) ((formerTarget s p b).opened (sessionPar s p b)
        (sessionNumber b s.freeCtr) (sessionNumber b (s.freeCtr + 1)))) { s with freeCtr := s.freeCtr + 1 + 1 }),
      ansOk (toLe 4 (sessionNumber b s.freeCtr) ++ toLe 4 (sessionNumber b (s.freeCtr + 1)) ++ toLe 8 (firstUnacked
        ((formerTarget s p b).opened (sessionPar s p b) (sessionNumber b s.freeCtr) (sessionNumber b (s.freeCtr + 1)))))) :=
  rfl

/-- A RoCEv2 session that is opened, on what the target was before. -/
theorem openTarget_roce {b : List Byte} (hroce : (parOf b).p2p = false) : ∃ t qpn psn hello,
    openTarget p b s = (t, ansOk (toLe 4 qpn ++ toLe 4 psn ++ toLe 8 (firstUnacked (formerTarget s p b))))
      ∧ targetOf (partOf t p) (field b 0 1) =
        some { (formerTarget s p b).opened (sessionPar s p b) qpn psn with helloSent := hello } := by
  rw [openTarget_eq, firstUnacked_opened]
  have hplaced := targetOf_place (p := p) (s := { s with freeCtr := s.freeCtr + 1 + 1 }) (n := field b 0 1)
    (x := (formerTarget s p b).opened (sessionPar s p b) (sessionNumber b s.freeCtr) (sessionNumber b (s.freeCtr + 1)))
    (formerTarget_id s p b)
  obtain ⟨hello, hpump⟩ := pump_opening hplaced (if_neg (by simp [sessionPar, hroce]))
  exact ⟨_, _, _, hello, rfl, hpump⟩

end Sys2Proof.Machine

namespace Sys2Proof.Claims
open Sys2Proof.Machine

/-- The body of a DELIVERY_OPEN that nothing turns away. -/
theorem deliveryOpenBody_open {s : State} {r : Req} (hroce : (parOf r.payload).p2p = false)
    (hholder : portHolder s (parOf r.payload).port = some r.pid) (hrole : (portOf s (parOf r.payload).port).role = 2)
    (hfree : ∀ x, targetOf (partOf s r.pid) (field r.payload 0 1) = some x → x.live = false)
    (hsub : onSubnet (portOf s (parOf r.payload).port) (parOf r.payload).addr = true)
    (hfit : slotsFit (partOf s r.pid) (field r.payload 0 1) (parOf r.payload) = true) :
    deliveryOpenBody r s = openTarget r.pid r.payload s := by
  unfold deliveryOpenBody
  simp only [hholder]
  rw [if_neg (by simp), if_neg (by simp), if_neg (by simp [hrole])]
  cases hold : targetOf (partOf s r.pid) (field r.payload 0 1)
  case none => simp [hroce, hsub, hfit]
  case some x => simp [hroce, hsub, hfit, hfree x hold]

theorem drop_numbers (qpn psn : Nat) (l : List Byte) : (toLe 4 qpn ++ toLe 4 psn ++ l).drop 8 = l :=
  List.drop_left' (by simp)

theorem deliveryOpenRow_holds : deliveryOpenRow := by
  intro i s r h hpart hfields hroce hholder hrole hnone hsub hfit
  have hformer : formerTarget s r.pid r.payload = .unopened (field r.payload 0 1) (field r.payload 0x58 8) := by
    rw [formerTarget, hnone]
    rfl
  obtain ⟨t, qpn, psn, hello, hopen, ht⟩ := openTarget_roce (s := s) (p := r.pid) hroce
  rw [hformer] at hopen ht
  have hbody := (deliveryOpenBody_open hroce hholder hrole (by simp [hnone]) hsub hfit).trans hopen
  exact ⟨_, rfl, rfl, drop_numbers _ _ _, t, congrArg Host.Outcome.next (h.answers rfl hfields hbody (.inl rfl)), _, ht,
    if_neg (by simp [sessionPar, hroce]), rfl, rfl, rfl, rfl, rfl, rfl, rfl⟩

theorem deliveryReopen_holds : deliveryReopen := by
  intro i s r x h hpart hfields hroce hholder hrole hx hclosed hsub hfit
  have hformer : formerTarget s r.pid r.payload = x := by
    rw [formerTarget, hx]
    rfl
  obtain ⟨t, qpn, psn, hello, hopen, ht⟩ := openTarget_roce (s := s) (p := r.pid) hroce
  rw [hformer] at hopen ht
  have hfree (y) (hy : targetOf (partOf s r.pid) (field r.payload 0 1) = some y) : y.live = false := by
    rwa [← Option.some.inj (hx.symm.trans hy)]
  have hbody := (deliveryOpenBody_open hroce hholder hrole hfree hsub hfit).trans hopen
  refine ⟨_, rfl, drop_numbers _ _ _, t, congrArg Host.Outcome.next (h.answers rfl hfields hbody (.inl rfl)), _, ht,
    if_neg (by simp [sessionPar, hroce]), rfl, rfl, rfl, ?_⟩
  exact List.map_map

theorem deliveryOpenStops_holds : deliveryOpenStops := by
  intro i s r h hfields hroce
  have hread {a : Ans} (hpend : a.pend = false) (hbody : deliveryOpenBody r s = (s, a)) : Reads (.deliveryOpen i) s r a :=
    congrArg Host.Outcome.next (h.answers rfl hfields hbody (.inl hpend))
  refine ⟨fun q hq hne => hread rfl ?_, fun hnone => hread rfl ?_, fun hown hrole => hread rfl ?_,
    fun x hown hrole hx hlive => hread rfl ?_⟩
  · simp [deliveryOpenBody, hroce, hq, hne]
  · simp [deliveryOpenBody, hroce, hnone]
  · simp [deliveryOpenBody, hroce, hown, hrole]
  · simp [deliveryOpenBody, hroce, hown, hrole, hx, hlive]

theorem deliveryCloseRow_holds : deliveryCloseRow := by
  intro i s r h hpart hzero
  refine ⟨fun x hx hlive => ?_, fun hnone => ?_⟩
  · exact ⟨_, congrArg Host.Outcome.next (h.answers rfl (by simp [hzero, hx, hlive]) rfl (.inl rfl)),
      closeSession_closed 1 true hx hlive⟩
  · exact congrArg Host.Outcome.next (h.badField rfl (by simp [hnone]))

theorem deliveryStatusRow_holds : deliveryStatusRow := by
  intro i s r h hcount hlast hzero
  exact congrArg Host.Outcome.next (h.reads rfl (by simp [hcount, hlast, hzero]) rfl)

end Sys2Proof.Claims

namespace Sys2Proof

/-- Settles O52: a session that is opened goes on from what its target was (`openTarget_roce`), and one that is closed
keeps what is not acknowledged (`closeSession_closed`). -/
theorem deliverySessions : Obligations.DeliverySessions :=
  ⟨Claims.deliveryOpenRow_holds, Claims.deliveryReopen_holds, Claims.deliveryOpenStops_holds,
    Claims.deliveryCloseRow_holds, Claims.deliveryStatusRow_holds⟩

end Sys2Proof
end

/-! # Delivery messages

What a session keeps while it sends and while batches are acknowledged (`pump_frame`, `ackBatch_frame`), what a trainer's
two sequences leave (`applySeqs_spec`), and how a message that is heard comes in (`Heard.send`). -/

section
namespace Sys2Proof.Machine
open State (LoggedTo)
variable {α : Type} {φ : Part → α} {r s t : State} {p : Pid} {n k : Nat} {x y : Target}

/-! ## What a session keeps -/

/-- A session's state, the trainer's sequences, its violations, its poll of a status record, and the batches that are
marked for their rewrite. -/
structure TargetFrame where
  st : Nat
  acked : Nat
  released : Nat
  cnViol : Nat
  pollTried : Bool
  nakCount : Nat
  marked : Nat → Bool

def Target.frame (x : Target) : TargetFrame :=
  ⟨x.st, x.acked, x.released, x.cnViol, x.pollTried, x.nakCount, fun k => x.sent.any (fun b => b.seq == k && b.naked)⟩

theorem any_modFirst {β : Type} {v w : β → Bool} {g : β → β} (hv : ∀ a, v (g a) = v a) (l : List β) :
    (modFirst w g l).any v = l.any v := by
  induction l with
  | nil => rfl
  | cons a l ih =>
    rw [modFirst]
    split
    · rw [List.any_cons, List.any_cons, hv]
    · rw [List.any_cons, List.any_cons, ih]

theorem modSent_frame {j q : Nat} {g : Sent → Sent} (hseq : ∀ b, (g b).seq = b.seq) (hnaked : ∀ b, (g b).naked = b.naked)
    (h : Keeps (targetView n Target.frame) r s) : Keeps (targetView n Target.frame) r (modSent p j q g s) := by
  refine modTarget_keeps (by exact fun _ => rfl) (fun x => ?_) h
  rw [Target.frame, Target.frame]
  congr 1
  funext k
  exact any_modFirst (fun b => by rw [hseq, hnaked]) _

/-! ### Sending -/

theorem sessWrite_keeps (x a b) (h : Keeps φ r s) : Keeps φ r (sessWrite p x a b s) := by
  unfold sessWrite
  refine ite_keeps h ?_
  split
  · exact issueDma_keeps _ _ _ _ _ h
  · exact h

theorem sessReady_keeps (x q m) (h : Keeps φ r s) : Keeps φ r (sessReady p x q m s) := by
  unfold sessReady
  split
  · exact ite_keeps (sessWrite_keeps _ _ _ h) (sessWrite_keeps _ _ _ (sessWrite_keeps _ _ _ h))
  · exact h

theorem sessBatch_frame (x b m) (h : Keeps (targetView n Target.frame) r s) :
    Keeps (targetView n Target.frame) r (sessBatch p x b m s) :=
  sessReady_keeps _ _ _ (modTarget_keeps (fun _ => rfl) (fun _ => rfl) (sessWrite_keeps _ _ _ (sessWrite_keeps _ _ _ h)))

theorem pumpTarget_frame (j m : Nat) : ∀ {s}, Keeps (targetView n Target.frame) r s →
    Keeps (targetView n Target.frame) r (pumpTarget p j m s) := by
  induction m with
  | zero => exact fun h => h
  | succ m ih =>
    intro s h
    rw [pumpTarget]
    dsimp only
    split
    · exact h
    refine ite_keeps h (ite_keeps (ite_keeps h (modTarget_keeps (fun _ => rfl) (fun _ => rfl) h)) ?_)
    split
    · exact ite_keeps h (ih (modTarget_keeps (fun _ => rfl) (fun _ => rfl)
        (sessBatch_frame _ _ _ (modSent_frame (fun _ => rfl) (fun _ => rfl) h))))
    · split
      · exact h
      · refine ite_keeps h (ih (sessBatch_frame _ _ _ (modTarget_keeps (fun _ => rfl) (fun x => ?_)
          (modPart_keeps (fun _ => rfl) h))))
        simp [Target.frame]

theorem pump_frame (j : Nat) (h : Keeps (targetView n Target.frame) r s) :
    Keeps (targetView n Target.frame) r (pump p j s) := pumpTarget_frame _ _ h

/-! ### Acknowledgement -/

theorem bdpTransient_frame (x f q) (h : Keeps (targetView n Target.frame) r s) :
    Keeps (targetView n Target.frame) r (bdpTransient p x f q s) := by
  have hcount : Keeps (targetView n Target.frame) r
      (modTarget p x.id (fun x => { x with cnTransient := satAdd 64 x.cnTransient 1 }) s) :=
    modTarget_keeps (fun _ => rfl) (fun _ => rfl) h
  exact hcount.trans ((transientFault_logged _ _ _ _ (.refl _)).keeps fun _ => rfl)

theorem ackBatch_frame (j b) (h : Keeps (targetView n Target.frame) r s) :
    Keeps (targetView n Target.frame) r (ackBatch p j b s) := by
  have hmark : Keeps (targetView n Target.frame) r (modBatch p b.slot b.batch (fun k => { k with acked := true }) s) :=
    modPart_keeps (fun _ => rfl) h
  have hsent {y : State} (hy : Keeps (targetView n Target.frame) r y) :
      Keeps (targetView n Target.frame) r (releaseSent p b.slot y) := by
    unfold releaseSent
    split
    · exact ite_keeps (foldl_keeps (fun _ _ hz => releaseDesc_frame (fun _ _ _ => rfl) _ hz) hy) hy
    · exact hy
  unfold ackBatch
  dsimp only
  split
  · exact hsent (ite_keeps (bdpTransient_frame _ _ _ hmark) (ite_keeps (bdpTransient_frame _ _ _ hmark) hmark))
  · exact hsent hmark

/-! ## The trainer's sequences (R398, R405) -/

theorem trainerViolation_target (row detail : Nat) (hid : y.id = n) (h : targetOf (partOf s p) n = some x) :
    targetOf (partOf (trainerViolation p y row detail s) p) n = some { x with cnViol := satAdd 64 x.cnViol 1 } := by
  unfold trainerViolation
  rw [hid]
  exact (partnerViolation_logged _ _ _ _ _ _ (.refl _)).target (targetOf_modTarget (fun _ => rfl) h)

/-- The sequences are set, and what they acknowledge is acknowledged. -/
theorem setSeqs_frame (a c : Nat) (l : List Sent) (h : targetOf (partOf s p) n = some x) :
    ∃ y, targetOf (partOf (l.foldl (fun s b => ackBatch p n b s) (modTarget p n (fun x => { x with
        acked := a, released := c, sent := x.sent.filter (fun b => seqAhead b.seq a) }) s)) p) n = some y
      ∧ y.st = x.st ∧ y.acked = a ∧ y.released = c ∧ y.cnViol = x.cnViol ∧ y.pollTried = x.pollTried
      ∧ y.nakCount = x.nakCount := by
  have hset := targetOf_modTarget (p := p) (g := fun x => { x with
    acked := a, released := c, sent := x.sent.filter (fun b => seqAhead b.seq a) }) (fun _ => rfl) h
  obtain ⟨y, hy, hframe⟩ := (foldl_keeps (l := l) (fun _ _ hz => ackBatch_frame n _ hz) (.refl _ _)).target hset
  obtain ⟨hst, hacked, hreleased, hviol, hpoll, hnak, -⟩ := TargetFrame.mk.inj hframe
  exact ⟨y, hy, hst, hacked, hreleased, hviol, hpoll, hnak⟩

/-- Sequences that may follow those before are taken. -/
theorem applySeqs_taken {a c : Nat} (h : targetOf (partOf s p) n = some x)
    (ha : a = x.acked ∨ (seqAhead a x.acked = true ∧ seqAhead a (lastSent x) = false))
    (hc : c = x.released ∨ seqAhead c x.released = true) (hhigh : seqAhead c a = false) :
    ∃ y, targetOf (partOf (applySeqs p n a c s) p) n = some y
      ∧ y.st = x.st ∧ y.acked = a ∧ y.released = c ∧ y.cnViol = x.cnViol ∧ y.pollTried = x.pollTried
      ∧ y.nakCount = x.nakCount := by
  have hbadA : (a != x.acked && (!seqAhead a x.acked || seqAhead a (lastSent x))) = false := by
    rcases ha with e | ⟨hahead, hsent⟩
    · simp [e]
    · simp [hahead, hsent]
  have hbadC : (c != x.released && !seqAhead c x.released) = false := by
    rcases hc with e | hahead
    · simp [e]
    · simp [hahead]
  unfold applySeqs
  simp only [h, hbadA, hbadC, hhigh, Bool.false_eq_true, if_false, Bool.not_false, Bool.true_and]
  exact setSeqs_frame _ _ _ h

/-- An acknowledgement that cannot be is a violation, and the sequences stay. -/
theorem applySeqs_refused {a : Nat} (h : targetOf (partOf s p) n = some x) (hne : a ≠ x.acked)
    (hsent : seqAhead a (lastSent x) = true) (hhigh : seqAhead x.released x.acked = false) :
    ∃ y, targetOf (partOf (applySeqs p n a x.released s) p) n = some y
      ∧ y.st = x.st ∧ y.acked = x.acked ∧ y.released = x.released ∧ y.cnViol = satAdd 64 x.cnViol 1 := by
  have hbadA : (a != x.acked && (!seqAhead a x.acked || seqAhead a (lastSent x))) = true := by simp [hne, hsent]
  unfold applySeqs
  simp only [h, hbadA, bne_self_eq_false, Bool.false_and, Bool.not_false, Bool.true_and, if_true, hhigh]
  obtain ⟨y, hy, hst, hacked, hreleased, hviol, -, -⟩ := setSeqs_frame x.acked x.released
    (x.sent.filter (fun b => !seqAhead b.seq x.acked)) (trainerViolation_target (p := p) 3 1 (targetOf_id h) h)
  exact ⟨y, hy, hst, hacked, hreleased, hviol⟩

/-- An UPDATE opens an OPENING session, and what it waits for goes. -/
theorem applyUpdate_opens {a c : Nat} (hx : targetOf (partOf s p) n = some x) (hlive : x.live = true)
    (hy : targetOf (partOf (applySeqs p n a c s) p) n = some y) (hst : y.st = x.st) :
    ∃ z, targetOf (partOf (applyUpdate p n a c s) p) n = some z ∧ z.st = 2 ∧ z.acked = y.acked ∧ z.released = y.released
      ∧ z.cnViol = y.cnViol := by
  have hopen : ∃ z, targetOf (partOf (if x.st = 1 then
      if x.helloResent then bdpTransient p x 0x0001 (firstUnacked x) (modTarget p n (fun x => { x with st := 2 }) (applySeqs p n a c s))
      else modTarget p n (fun x => { x with st := 2 }) (applySeqs p n a c s)
    else applySeqs p n a c s) p) n = some z ∧ z.frame = { y.frame with st := 2 } := by
    split
    · exact (ite_keeps (bdpTransient_frame _ _ _ (.refl _ _)) (.refl _ _)).target
        (targetOf_modTarget (g := fun x => { x with st := 2 }) (fun _ => rfl) hy)
    next hne =>
      have h2 : y.st = 2 := by
        rw [hst]
        simpa [Target.live, hne] using hlive
      exact ⟨y, hy, by rw [← h2]; rfl⟩
  obtain ⟨z, hz, hzframe⟩ := hopen
  obtain ⟨w, hw, hwframe⟩ := (pump_frame (p := p) n (.refl _ _)).target hz
  obtain ⟨hst, hacked, hreleased, hviol, -, -, -⟩ := TargetFrame.mk.inj (hwframe.trans hzframe)
  refine ⟨w, ?_, hst, hacked, hreleased, hviol⟩
  rw [← hw, applyUpdate]
  simp only [hx]

end Sys2Proof.Machine

namespace Sys2Proof.Claims
open Sys2Proof.Machine
open State (LoggedTo)
variable {s : State} {p : Pid} {n : Nat} {m : List Byte} {x : Target}

/-! ## Messages that are heard -/

/-- The state once a receive is used up. -/
def received (p : Pid) (n left : Nat) (s : State) : State :=
  modTarget p n (fun x => { x with rqLeft := left, rqTime := s.time }) s

theorem received_target (left : Nat) (h : targetOf (partOf s p) n = some x) :
    targetOf (partOf (received p n left s) p) n = some { x with rqLeft := left, rqTime := s.time } :=
  targetOf_modTarget (fun _ => rfl) h

/-- A message that is heard uses up a receive and acts by its type. -/
theorem Heard.send (h : Heard s p n m x) : ∃ left, trainerSend p n m s =
    if field m 0 1 = 0x81 then applyUpdate p n (field m 8 8) (field m 0x10 8) (received p n left s)
    else if field m 0 1 = 0x82 then applyNak p n (field m 8 8) (received p n left s)
    else closeSession p n (if within 1 7 (field m 0x10 2) then field m 0x10 2 else 1) false (received p n left s) := by
  have hleft : (if x.rqTime = s.time then x.rqLeft else 16) ≠ 0 := by
    split
    · rcases h.receive with hne | hpos
      · exact absurd ‹_› hne
      · omega
    · decide
  refine ⟨(if x.rqTime = s.time then x.rqLeft else 16) - 1, ?_⟩
  unfold trainerSend
  simp only [h.target]
  rw [if_neg (by simp [h.net, h.roce]), if_neg (by simp [h.live]), if_neg hleft, if_neg (by simp [h.layout]),
    if_neg (by simp [h.mine])]
  rfl

theorem bdpUpdateRow_holds : bdpUpdateRow := by
  intro p n m s x h htype ha hr hhigh
  obtain ⟨left, hsend⟩ := h.send
  have hx := received_target left h.target
  obtain ⟨y, hy, hst, hacked, hreleased, hviol, -⟩ := applySeqs_taken hx ha hr hhigh
  obtain ⟨z, hz, hz2, hzacked, hzreleased, hzviol⟩ := applyUpdate_opens hx h.live hy hst
  rw [if_pos htype] at hsend
  exact ⟨_, congrArg Host.Outcome.next hsend, z, hz, hz2, hzacked.trans hacked, hzreleased.trans hreleased,
    hzviol.trans hviol⟩

theorem bdpUpdateBad_holds : bdpUpdateBad := by
  intro p n m s x h htype hst2 hne hsent hreleased hhigh
  obtain ⟨left, hsend⟩ := h.send
  have hx := received_target left h.target
  obtain ⟨y, hy, hst, hacked, hyreleased, hviol⟩ := applySeqs_refused hx hne hsent hhigh
  rw [if_pos htype, hreleased] at hsend
  obtain ⟨z, hz, -, hzacked, hzreleased, hzviol⟩ := applyUpdate_opens hx h.live hy hst
  exact ⟨_, congrArg Host.Outcome.next hsend, z, hz, hzacked.trans hacked, hzreleased.trans hyreleased,
    hzviol.trans hviol⟩

theorem bdpNakRow_holds : bdpNakRow := by
  intro p n m s x b h htype hb
  obtain ⟨left, hsend⟩ := h.send
  have hx := received_target left h.target
  rw [if_neg (by omega), if_pos htype] at hsend
  refine ⟨fun hnaked hfirst => ?_, fun hnaked => ?_⟩
  · have heq : trainerSend p n m s = pump p n (modSent p n (field m 8 8)
        (fun b => { b with naked := true, resent := false, timer := false }) (received p n left s)) := by
      rw [hsend]
      unfold applyNak
      simp only [hx, hb, hnaked]
      rfl
    obtain ⟨y, hy, hframe⟩ := (pump_frame (p := p) n (.refl _ _)).target (targetOf_modTarget (p := p) (g := fun x => { x with
      sent := modFirst (fun b => b.seq == field m 8 8) (fun b => { b with naked := true, resent := false, timer := false })
        x.sent }) (by exact fun _ => rfl) hx)
    obtain ⟨-, hacked, -, -, -, -, hmarked⟩ := TargetFrame.mk.inj hframe
    have hmark : y.sent.any (fun b => b.seq == field m 8 8 && b.naked) = true := by
      rw [show y.sent.any _ = _ from congrFun hmarked (field m 8 8)]
      refine List.any_eq_true.2 ⟨_, List.mem_of_find?_eq_some ((find?_modFirst (by exact fun _ hb => hb) _).trans
        (congrArg _ hfirst)), ?_⟩
      simpa using List.find?_some (p := fun b : Sent => b.seq == field m 8 8) hfirst
    obtain ⟨k, hk, hkm⟩ := List.any_eq_true.1 hmark
    obtain ⟨hseq, hnak⟩ := Bool.and_eq_true_iff.1 hkm
    exact ⟨_, congrArg Host.Outcome.next heq, y, hy, ⟨k, hk, by simpa using hseq, hnak⟩, hacked⟩
  · have heq : trainerSend p n m s = closeSession p n 7 true (lastingFault p.val (targetUnit x) 0x0003 1 (field m 8 8)
        (received p n left s)) := by
      rw [hsend]
      unfold applyNak
      simp only [hx, hb, hnaked]
      rfl
    exact ⟨_, congrArg Host.Outcome.next heq,
      (closeSession_closed 7 true ((lastingFault_logged _ _ _ _ _ (.refl _)).target hx) h.live :)⟩

theorem bdpNakBad_holds : bdpNakBad := by
  intro p n m s x h htype hnone
  obtain ⟨left, hsend⟩ := h.send
  have hx := received_target left h.target
  rw [if_neg (by omega), if_pos htype] at hsend
  have hnak : applyNak p n (field m 8 8) (received p n left s) =
      trainerViolation p { x with rqLeft := left, rqTime := s.time } 5 0 (received p n left s) := by
    unfold applyNak
    simp only [hx, hnone]
  exact ⟨_, congrArg Host.Outcome.next (hsend.trans hnak), _, (trainerViolation_target 5 0 (targetOf_id hx) hx :),
    rfl, rfl, rfl⟩

theorem bdpCloseRow_holds : bdpCloseRow := by
  intro p n m s x h htype hcause
  obtain ⟨left, hsend⟩ := h.send
  rw [if_neg (by omega), if_neg (by omega), if_pos hcause] at hsend
  exact ⟨_, congrArg Host.Outcome.next hsend, (closeSession_closed _ false (received_target left h.target) h.live :)⟩

theorem bdpRnr_holds : bdpRnr := by
  intro p n m s x hx hlive hroce hnet htime hleft
  have heq : trainerSend p n m s = emit (.rnrNak p n) (trainerViolation p x 6 0 s) := by
    unfold trainerSend
    simp only [hx]
    rw [if_neg (by simp [hnet, hroce]), if_neg (by simp [hlive]), if_pos (by simp [htime, hleft])]
  exact ⟨_, congrArg Host.Outcome.next heq, rfl, _, trainerViolation_target 6 0 (targetOf_id hx) hx, rfl, rfl, rfl⟩

/-! ## Timers -/

theorem timersRun_live {q : Part} (h : timersRun q x = true) : x.live = true := by
  rw [timersRun, Bool.and_assoc, Bool.and_eq_true] at h
  exact h.1

theorem ackTimerRow_holds : ackTimerRow := by
  intro p n k s x hx hrun
  have hrun' : (!timersRun (partOf s p) x) = false := by simp [hrun]
  have hlive := timersRun_live hrun
  refine ⟨fun hst hsent hfirst => ?_, fun hst hsent hagain => ?_, fun b hb hagain => ?_, fun b hb hfind hfirst => ?_⟩
  · have htarget := targetOf_modTarget (p := p) (g := fun x => { x with helloResent := true }) (by exact fun _ => rfl)
      (targetOf_modTarget (p := p) (g := fun x => { x with cnResends := satAdd 64 x.cnResends 1 }) (by exact fun _ => rfl) hx)
    refine ⟨_, rfl, ?_⟩
    simp only [doAckTimer, hx, hrun']
    rw [if_neg (by decide), if_neg (by simp [hst, hsent]), if_neg (by simp [hfirst])]
    split
    · exact ⟨_, htarget, rfl, hst, rfl⟩
    · exact ⟨_, htarget, rfl, hst, rfl⟩
  · have heq : doAckTimer p n none s = closeSession p n 4 true s := by
      simp [doAckTimer, hx, hrun, hst, hsent, hagain]
    exact ⟨_, congrArg Host.Outcome.next heq, closeSession_closed _ _ hx hlive⟩
  · have heq : doAckTimer p n (some k) s = closeSession p n 4 true s := by
      simp only [doAckTimer, hx, hrun', hb, hagain]
      rfl
    exact ⟨_, congrArg Host.Outcome.next heq, closeSession_closed _ _ hx hlive⟩
  · have htarget := targetOf_modTarget (p := p) (g := fun x => { x with
      sent := modFirst (fun b => b.seq == k) (fun b => { b with resent := true }) x.sent }) (by exact fun _ => rfl)
      (targetOf_modTarget (p := p) (g := fun x => { x with cnResends := satAdd 64 x.cnResends 1 }) (by exact fun _ => rfl) hx)
    have hmem := List.mem_of_find?_eq_some ((find?_modFirst (w := fun b : Sent => b.seq == k)
      (f := fun b => { b with resent := true })
      (fun _ hb => hb) _).trans (congrArg _ hfind))
    have hseq : b.seq = k := by simpa using List.find?_some (p := fun b : Sent => b.seq == k) hfind
    refine ⟨_, rfl, ?_⟩
    simp only [doAckTimer, hx, hrun', hb]
    rw [if_neg (by decide), if_neg (by simp [hfirst])]
    split
    · obtain ⟨y, hy, rfl⟩ := (sessReady_keeps (φ := targetView n id) _ _ _ (.refl _ _)).target htarget
      exact ⟨_, hy, rfl, rfl, _, hmem, hseq, rfl⟩
    · exact ⟨_, htarget, rfl, rfl, _, hmem, hseq, rfl⟩

theorem creditTimerRow_holds : creditTimerRow := by
  intro p n s x hx hrun hcredit hwait
  have hlive := timersRun_live hrun
  have heq : doCreditTimer p n s = closeSession p n 3 true s := by
    simp [doCreditTimer, hx, hrun, hcredit, hwait]
  exact ⟨_, congrArg Host.Outcome.next heq, closeSession_closed _ _ hx hlive⟩

/-! ## The transport -/

theorem onRc_live {g : Target → State → State} (hx : targetOf (partOf s p) n = some x) (hlive : x.live = true)
    (hroce : x.par.p2p = false) (hnet : domOn s 5 = true) : onRc p n g s = g x s := by
  unfold onRc
  simp only [hx]
  exact if_pos (by simp [hlive, hroce, hnet])

theorem transportRows_holds : transportRows := by
  intro p n s x hx hlive hroce hnet
  have hrc {g : Target → State → State} := onRc_live (g := g) hx hlive hroce hnet
  refine ⟨fun hfirst => congrArg Host.Outcome.next (hrc.trans (if_neg (by simp [hfirst]))),
    fun hagain => ⟨_, congrArg Host.Outcome.next (hrc.trans (if_pos hagain)), closeSession_closed _ _ hx hlive⟩,
    fun hfirst => congrArg Host.Outcome.next (hrc.trans (if_neg (by simp [hfirst]))),
    fun hagain => ⟨_, congrArg Host.Outcome.next (hrc.trans (if_pos hagain)), closeSession_closed _ _ hx hlive⟩,
    ⟨_, congrArg Host.Outcome.next hrc, ?_⟩, congrArg Host.Outcome.next hrc, congrArg Host.Outcome.next hrc⟩
  have hclear := targetOf_modTarget (p := p) (g := fun x => { x with rcTried := false, rnrTried := false })
    (by exact fun _ => rfl) hx
  dsimp only
  split
  · rw [bdpTransient, targetOf_id hx]
    exact ⟨_, (transientFault_logged _ _ _ _ (.refl _)).target (targetOf_modTarget (fun _ => rfl) hclear), rfl, rfl, rfl, rfl⟩
  · exact ⟨_, hclear, rfl, rfl, rfl, rfl⟩

theorem accessErrorRows_holds : accessErrorRows := by
  intro p n s x hx hlive hroce hnet
  have hrc {g : Target → State → State} := onRc_live (g := g) hx hlive hroce hnet
  have hviol (row : Nat) := trainerViolation_target (p := p) row 0 (targetOf_id hx) hx
  exact ⟨⟨_, congrArg Host.Outcome.next hrc, (closeSession_closed 6 false (hviol 8) hlive :)⟩,
    ⟨_, congrArg Host.Outcome.next hrc, (closeSession_closed (s := emit (.accessNak p n) (trainerViolation p x 7 0 s))
      6 true (hviol 7) hlive :)⟩⟩

/-! ## Peer-to-peer polls, and credits -/

theorem p2pPollRow_holds : p2pPollRow := by
  intro p n s x b hx hrun hp2p hsend
  have hlive := timersRun_live hrun
  have hpoll : (!timersRun (partOf s p) x || !x.par.p2p || !canSend s x) = false := by simp [hrun, hp2p, hsend]
  refine ⟨fun hfirst => congrArg Host.Outcome.next ?_, fun hagain => ?_, fun hacked hreleased hhigh hnak => ?_⟩
  · simp [doP2pPoll, hx, hpoll, hfirst]
  · have heq : doP2pPoll p n .error s = p2pFailed p x s := by simp [doP2pPoll, hx, hpoll, hagain]
    refine ⟨_, congrArg Host.Outcome.next heq, ?_⟩
    rw [p2pFailed, targetOf_id hx]
    exact closeSession_closed _ _ ((lastingFault_logged _ _ _ _ _ (.refl _)).target hx) hlive
  · have hclear : ∃ y, targetOf (partOf (if x.pollTried then bdpTransient p x 0x000B (firstUnacked x)
        (modTarget p n (fun x => { x with pollTried := false }) s) else s) p) n = some y
        ∧ y.frame = { x.frame with pollTried := false } := by
      split
      · exact (bdpTransient_frame _ _ _ (.refl _ _)).target
          (targetOf_modTarget (p := p) (g := fun x => { x with pollTried := false }) (by exact fun _ => rfl) hx)
      next hnot => exact ⟨x, hx, by rw [← Bool.eq_false_iff.2 hnot]; rfl⟩
    obtain ⟨y, hy, hframe⟩ := hclear
    obtain ⟨hst, hyacked, hyreleased, -, hypoll, hynak, -⟩ := TargetFrame.mk.inj hframe
    obtain ⟨z, hz, hzst, hzacked, hzreleased, -, hzpoll, hznak⟩ := applySeqs_taken (a := field b 0 8) (c := field b 8 8) hy
      (.inl (hacked.trans hyacked.symm)) (.inl (hreleased.trans hyreleased.symm)) (by rw [hacked, hreleased]; exact hhigh)
    obtain ⟨w, hw, hwframe⟩ := (pump_frame (p := p) n (.refl _ _)).target hz
    obtain ⟨hwst, hwacked, hwreleased, -, hwpoll, hwnak, -⟩ := TargetFrame.mk.inj hwframe
    refine ⟨_, congrArg Host.Outcome.next ?_, w, hw, ?_, ?_, ?_, ?_, ?_⟩
    · simp only [doP2pPoll, hx, hpoll, applyStatus, targetOf_id hx]
      rw [if_neg (by decide), if_pos hnak]
    · rw [hwacked, hzacked, hacked]
    · rw [hwreleased, hzreleased, hreleased]
    · rw [hwst, hzst, hst]
      rfl
    · rw [hwpoll, hzpoll, hypoll]
    · rw [hwnak, hznak, hynak]
      rfl

theorem creditBound_holds : creditBound := by
  intro x
  unfold creditsFree
  split
  · exact ⟨by omega, fun hne => absurd ‹_› hne⟩
  · exact ⟨Nat.zero_le _, fun _ => rfl⟩

end Sys2Proof.Claims

namespace Sys2Proof

/-- Settles O53: sending and acknowledging leave a session's state and sequences (`pump_frame`, `ackBatch_frame`), so that
what a message sets stands (`applySeqs_taken`, `applyUpdate_opens`), and every fault ends in `closeSession_closed`. -/
theorem deliveryMessages : Obligations.DeliveryMessages :=
  ⟨Claims.bdpUpdateRow_holds, Claims.bdpUpdateBad_holds, Claims.bdpNakRow_holds, Claims.bdpNakBad_holds,
    Claims.bdpCloseRow_holds, Claims.bdpRnr_holds, Claims.ackTimerRow_holds, Claims.creditTimerRow_holds,
    Claims.transportRows_holds, Claims.accessErrorRows_holds, Claims.p2pPollRow_holds, Claims.creditBound_holds⟩

end Sys2Proof
end

/-! # Drives: attach and detach

A fence leaves a drive without commands as it is (`fencePart_drive`), so a lasting fault ends with the drive fenced and
empty (`driveLasting_fenced`); an operation that ends takes its request along (`attachDone_spec`, `detachDone_spec`). -/

section
namespace Sys2Proof.Machine
open State (LoggedTo)
variable {s t : State} {n : Nat}

/-! ## What leaves the drives alone -/

theorem driveOf_of_drives (h : t.units.drives = s.units.drives) (n : Nat) : driveOf t n = driveOf s n := by
  rw [driveOf, driveOf, h]

theorem driveOf_emit (o : Output) (s : State) (n : Nat) : driveOf (emit o s) n = driveOf s n := rfl

theorem State.LoggedTo.drive (h : LoggedTo s t) (n : Nat) : driveOf t n = driveOf s n :=
  driveOf_of_drives (congrArg UnitSt.drives h.units) n

theorem finish_units (r : Req) (a : Ans) (s : State) : (finish r a s).units = s.units := by
  have hreq : (if a.pend then modReq r.id (fun q => { q with phase := .pending, payload := a.payload }) s
      else dropReq r.id s).units = s.units := by split <;> rfl
  refine Eq.trans (Posts.units ?_) hreq
  exact ite_posts (ite_posts (.refl _) (postRing_posts _ _ _ (.refl _))) (postResponse_posts _ _ _ _ _ _ _ (.refl _))

theorem fenceOpen_units (p : Pid) (s : State) : (fenceOpen p s).units = s.units :=
  List.foldlRecOn _ _ (motive := fun y : State => y.units = s.units) rfl fun y hy r _ => by
    dsimp only
    split
    · exact (complete_posts _ _ _ _ _).units.trans hy
    · exact (finish_units _ _ _).trans hy

theorem beginTeardown_drives (p : Pid) (s : State) : (beginTeardown p s).units.drives = s.units.drives := by
  unfold beginTeardown
  dsimp only
  rw [(completeOpt_spec _ _ _ _ _).1]
  rfl

/-- A drive without commands has none to fence. -/
theorem nvmeFenceWhere_drive (w : NvmeCmd → Bool) (h : n < 4) (hcmds : (driveOf s n).cmds = [])
    (hwaiting : (driveOf s n).waiting = []) : driveOf (nvmeFenceWhere w s) n = driveOf s n := by
  refine List.foldlRecOn _ _ (motive := fun y : State => driveOf y n = driveOf s n) rfl fun y hy k _ => ?_
  by_cases hk : n = k
  · subst hk
    have hsame : driveOf (modDrive n (fun d => { d with waiting := d.waiting.filter (fun c => !w c) }) y) n = driveOf s n := by
      rw [driveOf_modDrive _ _ h, hy, hwaiting, List.filter_nil, ← hwaiting]
    simp only [hsame, hcmds, List.filter_nil, List.foldl_nil]
  · refine List.foldlRecOn _ _ (motive := fun z : State => driveOf z n = driveOf s n) ?_ fun z hz c _ => ?_
    · rw [driveOf_modDrive_ne _ hk, hy]
    · exact ((driveOf_modDrive_ne _ hk).trans (driveOf_modDrive_ne _ hk)).trans hz

theorem killWork_drive (p : Pid) (k : Option Nat) (h : n < 4) (hcmds : (driveOf s n).cmds = [])
    (hwaiting : (driveOf s n).waiting = []) : driveOf (killWork p k s) n = driveOf s n := by
  have hjobs (a b c) : driveOf (killJobs a b c s) n = driveOf s n := rfl
  have hctrl (g y) : driveOf (modCtrl g y) n = driveOf y n := rfl
  have hpart (g y) : driveOf (modPart p g y) n = driveOf y n := rfl
  unfold killWork
  rw [hctrl, hpart, nvmeFenceWhere_drive _ h (by rw [hjobs, hcmds]) (by rw [hjobs, hwaiting]), hjobs]

/-- A fence leaves a drive without commands as it is. -/
theorem fencePart_drive (p : Pid) (c : Nat) (h : n < 4) (hcmds : (driveOf s n).cmds = [])
    (hwaiting : (driveOf s n).waiting = []) : driveOf (fencePart p c s) n = driveOf s n := by
  unfold fencePart
  dsimp only
  split
  · rfl
  have hlog := (countFence_logged [p] (logEvent_logged p.val 0x0006 c (packCursor (partOf s p).ld.cursor)
    (packCursor (partOf s p).ld.cursor / 2 ^ 32) 0 (.refl s))).drive n
  have hkill := (killWork_drive p none h (by rw [hlog, hcmds]) (by rw [hlog, hwaiting])).trans hlog
  have hopen := (driveOf_of_drives (congrArg UnitSt.drives (fenceOpen_units p _)) n).trans hkill
  have hend (o a b e) (g : Part → Part) (y : State) :
      driveOf (completeOpt o a b e (modPart p g (dropRequests p (fun _ => true) y))) n = driveOf y n :=
    driveOf_of_drives (congrArg UnitSt.drives (completeOpt_spec o a b e _).1) n
  split
  · rw [driveOf_of_drives (beginTeardown_drives _ _) n, hend, hopen]
  · rw [hend, hopen]

/-- A drive after a lasting fault: fenced, with nothing left to do. -/
def Drive.emptied (d : Drive) : Drive :=
  { d with
    st := 3, phase := 0, rate := 0, width := 0, req := none, queues := [], waiting := [], tails := []
    dead := d.dead ++ d.cmds.map (fun c => c.cid), cmds := [], lasting := satAdd 64 d.lasting 1 }

theorem driveLasting_drive (part code tag : Nat) (h : n < 4) :
    driveOf (driveLasting n part code tag s) n = (driveOf s n).emptied := by
  have hempty (u : List Pid) (o : Option ReqId) : driveOf (completeOpt o 0 0 2 (emit (.nvmeCtl n 0)
      (logDev 0x0906 (driveUnit n) 2 0 0 (modDrive n Drive.emptied (lastingFence part (driveUnit n) code 2 tag u s))))) n =
      (driveOf s n).emptied := by
    have hfault := (countFence_logged u (lastingFault_logged part (driveUnit n) code 2 tag (.refl s))).drive n
    refine (driveOf_of_drives (congrArg UnitSt.drives (completeOpt_spec _ _ _ _ _).1) n).trans ?_
    refine ((logEvent_logged _ _ _ _ _ _ (.refl _)).drive n).trans ?_
    rw [driveOf_modDrive _ _ h, ← hfault]
    rfl
  have hfences (l : List Pid) {y : State} (hy : driveOf y n = (driveOf s n).emptied) :
      driveOf (l.foldl (fun s p => if archiveOnly (partOf s p) n then stopArchive p n s else fencePart p 0x0002 s) y) n =
        (driveOf s n).emptied := by
    refine List.foldlRecOn _ _ (motive := fun z : State => driveOf z n = (driveOf s n).emptied) hy fun z hz p _ => ?_
    split
    · exact hz
    · exact (fencePart_drive p _ h (congrArg Drive.cmds hz) (congrArg Drive.waiting hz)).trans hz
  exact hfences _ (hempty _ _)

/-! ## Operations of a port that end -/

/-- An attach that is over. -/
theorem attachDone_spec (st outcome count : Nat) (h : n < 4) :
    driveOf (attachDone n st outcome count s) n = { driveOf s n with st := st, phase := 0, req := none }
      ∧ ∀ i, (driveOf s n).req = some i → findReq (attachDone n st outcome count s) i = none := by
  have hdone := completeOpt_spec (driveOf s n).req 0 0 (outcome + count * 256) (logDev 0x0906 (driveUnit n) outcome 0 0
    (modDrive n (fun d => { d with st := st, phase := 0, req := none }) s))
  refine ⟨?_, hdone.2⟩
  refine (driveOf_of_drives (congrArg UnitSt.drives hdone.1) n).trans ?_
  refine ((logEvent_logged _ _ _ _ _ _ (.refl _)).drive n).trans ?_
  rw [driveOf_modDrive _ _ h]

/-- A detach that is over. -/
theorem detachDone_spec (outcome : Nat) (h : n < 4) :
    (let d := driveOf (detachDone n outcome s) n
     d.st = 4 ∧ d.cmds = [] ∧ d.ns = [])
      ∧ ∀ i, (driveOf s n).req = some i → findReq (detachDone n outcome s) i = none := by
  have hdone := completeOpt_spec (driveOf s n).req 0 0 outcome (logDev 0x0906 (driveUnit n) 3 0 0
    (modDrive n (fun d => { d with st := 4, phase := 0, rate := 0, width := 0, req := none, ns := [], queues := []
                                   waiting := [], tails := [], dead := d.dead ++ d.cmds.map (fun c => c.cid), cmds := [] }) s))
  have hdrive := ((driveOf_of_drives (congrArg UnitSt.drives hdone.1) n).trans
    ((logEvent_logged _ _ _ _ _ _ (.refl _)).drive n)).trans (driveOf_modDrive _ _ h)
  exact ⟨⟨congrArg Drive.st hdrive, congrArg Drive.cmds hdrive, congrArg Drive.ns hdrive⟩, hdone.2⟩

/-- A step of an attach: a retry is counted, and the drive has what the step found. -/
theorem attachStep_drive (code : Nat) (g : Drive → Drive) (h : n < 4) : ∃ k,
    driveOf (attachStep n code g s) n = { g { driveOf s n with transient := k } with tried := false } := by
  unfold attachStep
  rw [driveOf_modDrive _ _ h]
  split
  · rw [driveOf_modDrive _ _ h, (transientFault_logged _ _ _ _ (.refl s)).drive n]
    exact ⟨_, rfl⟩
  · exact ⟨(driveOf s n).transient, rfl⟩

end Sys2Proof.Machine

namespace Sys2Proof.Claims
open Sys2Proof.Machine

theorem attachRow_holds : attachRow := by
  intro i s r h hcan hn hzero hnet hst
  have hfree : (!domOn s 5 || !((driveOf s (field r.payload 0 1)).st == 0 || (driveOf s (field r.payload 0 1)).st == 4
      || ((driveOf s (field r.payload 0 1)).st == 3 && !nsGranted s (field r.payload 0 1)))) = false := by
    rcases hst with e | e <;> simp [hnet, e]
  refine ⟨_, congrArg Host.Outcome.next (h.pends hcan rfl (by simp [portFields, hn, hzero])
    (if_neg (by rw [hfree]; decide))), ?_, fun k hk => driveOf_modDrive_ne _ hk, rfl, rfl⟩
  dsimp only
  rw [show driveOf (emit _ (modDrive _ _ s)) _ = _ from driveOf_modDrive _ _ hn]
  exact ⟨rfl, rfl, rfl, rfl, rfl⟩

theorem attachStops_holds : attachStops := by
  intro i s r h hn hzero hwhy
  have hstop : (!domOn s 5 || !((driveOf s (field r.payload 0 1)).st == 0 || (driveOf s (field r.payload 0 1)).st == 4
      || ((driveOf s (field r.payload 0 1)).st == 3 && !nsGranted s (field r.payload 0 1)))) = true := by
    rcases hwhy with e | e | e <;> simp [e]
  exact congrArg Host.Outcome.next (h.answers rfl (by simp [portFields, hn, hzero]) (if_pos hstop) (.inl rfl))

/-- The first failure of an attach step lets it be tried again; the second fences the drive. -/
theorem attachFailed_spec {s : State} {n : Nat} (phase code : Nat) (h : n < 4) :
    ((driveOf s n).tried = false → driveOf (attachFailed n phase code s) n = { driveOf s n with tried := true, phase := phase }
      ∧ (attachFailed n phase code s).parts = s.parts ∧ (attachFailed n phase code s).host = s.host)
    ∧ ((driveOf s n).tried = true → (driveOf (attachFailed n phase code s) n).st = 3) := by
  unfold attachFailed
  refine ⟨fun hfirst => ?_, fun hagain => ?_⟩
  · rw [if_neg (by simp [hfirst])]
    exact ⟨driveOf_modDrive _ _ h, rfl, rfl⟩
  · rw [if_pos hagain, driveLasting_drive _ _ _ h]
    rfl

theorem rootPortRow_holds : rootPortRow := by
  intro n s hn hst hphase
  have hgo : ((driveOf s n).st != 1 || (driveOf s n).phase != 0) = false := by simp [hst, hphase]
  have hfailed : doRootPortUp n .failed s = attachFailed n 0 0x0004 s := if_neg (by rw [hgo]; decide)
  obtain ⟨hfirst, hagain⟩ := attachFailed_spec (s := s) 0 0x0004 hn
  refine ⟨fun rate width htried => ?_, fun htried => ⟨_, congrArg Host.Outcome.next hfailed, hfirst htried⟩,
    fun htried => ⟨_, congrArg Host.Outcome.next hfailed, hagain htried⟩, ?_⟩
  · have heq : doRootPortUp n (.drive rate width) s =
        modDrive n (fun d => { d with rate := rate, width := width, phase := 1, tried := false }) s :=
      (if_neg (by rw [hgo]; decide)).trans (congrArg (modDrive n _) (if_neg (by simp [htried])))
    exact ⟨_, congrArg Host.Outcome.next heq, driveOf_modDrive _ _ hn, fun k hk => driveOf_modDrive_ne _ hk, rfl, rfl⟩
  · have heq : doRootPortUp n .noDrive s = attachDone n 0 0 0 s := if_neg (by rw [hgo]; decide)
    obtain ⟨hdrive, hreq⟩ := attachDone_spec (s := s) 0 0 0 hn
    exact ⟨_, congrArg Host.Outcome.next heq, congrArg Drive.st hdrive, congrArg Drive.req hdrive, hreq⟩

theorem controllerRow_holds : controllerRow := by
  intro n s hn
  refine ⟨fun hst hphase => congrArg Host.Outcome.next (if_pos (by simp [hst, hphase])), fun mdts mqes ns hst hphase => ?_,
    fun hst hphase => ?_⟩
  · have heq : doControllerStatus n (.ready mdts mqes ns) s = attachDone n 2 1 ns.length (attachStep n 0x0001
        (fun d => { d with mdts := mdts, mqes := mqes, ns := ns, lastReset := none }) s) := by
      simp [doControllerStatus, hst, hphase]
    obtain ⟨k, hstep⟩ := attachStep_drive (s := s) 0x0001
      (fun d => { d with mdts := mdts, mqes := mqes, ns := ns, lastReset := none }) hn
    obtain ⟨hdrive, hreq⟩ := attachDone_spec (s := attachStep n 0x0001
      (fun d => { d with mdts := mdts, mqes := mqes, ns := ns, lastReset := none }) s) 2 1 ns.length hn
    rw [hstep] at hdrive hreq
    exact ⟨_, congrArg Host.Outcome.next heq, congrArg Drive.st hdrive, congrArg Drive.ns hdrive,
      congrArg Drive.mdts hdrive, congrArg Drive.req hdrive, hreq⟩
  · have heq : doControllerStatus n .shutdown s = detachDone n 0 s := by simp [doControllerStatus, hst, hphase]
    obtain ⟨⟨hst', hcmds, hns⟩, hreq⟩ := detachDone_spec (s := s) 0 hn
    exact ⟨_, congrArg Host.Outcome.next heq, hst', hcmds, hns, hreq⟩

theorem driveTimeoutRows_holds : driveTimeoutRows := by
  intro n s hn
  obtain ⟨hfirst, hagain⟩ := attachFailed_spec (s := s) 1 0x0001 hn
  have htimeout (hst : (driveOf s n).st = 1) (hphase : (driveOf s n).phase = 1 ∨ (driveOf s n).phase = 2) :
      doReadyTimeout n s = attachFailed n 1 0x0001 s :=
    if_pos (by rcases hphase with e | e <;> simp [hst, e])
  refine ⟨fun hst hphase htried => ⟨_, congrArg Host.Outcome.next (htimeout hst hphase), hfirst htried⟩,
    fun hst hphase htried => ⟨_, congrArg Host.Outcome.next (htimeout hst hphase), hagain htried⟩, fun hst hphase => ?_⟩
  have heq : doShutdownTimeout n s = detachDone n 1 s := if_pos (by simp [hst, hphase])
  obtain ⟨⟨hst', hcmds, -⟩, hreq⟩ := detachDone_spec (s := s) 1 hn
  exact ⟨_, congrArg Host.Outcome.next heq, hst', hcmds, hreq⟩

/-- With no port in the phases that end at once, a detach has no more to do. -/
theorem detach_done {s t : State} {i : ReqId} {r : Req} {a : Ans} (hcmd : runCmd i 0x0A02 (fun _ => true) portFields
      (answering detachBody) s = finish r a t) (hphase : ∀ k, (driveOf t k).phase ≠ 4 ∧ (driveOf t k).phase ≠ 5) :
    exec (.storageDetach i) s = .next (finish r a t) := by
  have hsame (k : Nat) : driveOf (finish r a t) k = driveOf t k :=
    driveOf_of_drives (congrArg UnitSt.drives (finish_units r a t)) k
  refine congrArg Host.Outcome.next ?_
  dsimp only
  rw [hcmd]
  refine List.foldlRecOn _ _ (motive := fun y => y = finish r a t) rfl fun y hy k _ => ?_
  rw [hy, hsame, if_neg (hphase k).2, if_neg (hphase k).1]

theorem detachRow_holds : detachRow := by
  intro i s r h hcan hn hzero hphase
  have hfields : portFields s r = true := by simp [portFields, hn, hzero]
  refine ⟨fun hgranted => ?_, fun hgranted hbusy => ?_, fun hgranted hidle hst => ?_⟩
  · exact detach_done (h.answers rfl hfields (if_pos hgranted) (.inl rfl)) hphase
  · refine detach_done (h.answers rfl hfields (t := s) ?_ (.inl rfl)) hphase
    simp [detachBody, hgranted, hbusy]
  · have hbody : detachBody r s = (emit (.nvmeCtl (field r.payload 0 1) 3) (modDrive (field r.payload 0 1)
        (fun d => { d with phase := 3, req := some r.id }) s), ansPend) := by
      simp [detachBody, hgranted, hidle, hst]
    have hdrive := driveOf_modDrive (s := s) (field r.payload 0 1) (fun d => { d with phase := 3, req := some r.id }) hn
    refine ⟨_, detach_done (h.pends hcan rfl hfields hbody) fun k => ?_, hdrive, rfl, rfl⟩
    by_cases hk : k = field r.payload 0 1
    · rw [hk, driveOf_emit, hdrive]
      exact ⟨by simp, by simp⟩
    · rw [driveOf_emit, driveOf_modDrive_ne _ hk]
      exact hphase k

theorem storageStatusRow_holds : storageStatusRow := by
  intro i s r h hn hzero
  refine ⟨_, congrArg Host.Outcome.next (h.reads rfl (by simp [portFields, hn, hzero]) rfl), ?_⟩
  rw [List.append_assoc]
  exact List.take_left' (by simp)

end Sys2Proof.Claims

namespace Sys2Proof

/-- Settles O54: each step of an attach or a detach changes its port's drive (`attachStep_drive`, `attachFailed_spec`), and
its end takes the request along (`attachDone_spec`, `detachDone_spec`). -/
theorem storageAttachAndDetach : Obligations.StorageAttachAndDetach :=
  ⟨Claims.attachRow_holds, Claims.attachStops_holds, Claims.rootPortRow_holds, Claims.controllerRow_holds,
    Claims.driveTimeoutRows_holds, Claims.detachRow_holds, Claims.storageStatusRow_holds⟩

end Sys2Proof
end

/-! # NVMe commands

A command that is pushed leaves all of its drive but the commands and their numbering (`nvmePush_pushes`); the end of a
sample's stage leaves the drives alone (`sampleStageDone_drives`). -/

section
namespace Sys2Proof.Machine
open State (LoggedTo)
variable {r s t : State} {n : Nat} {c : NvmeCmd}

/-! ## Pushing commands -/

/-- What commands that are pushed leave of their drive, the partitions and the host side. -/
structure Pushes (n : Nat) (s t : State) : Prop where
  st : (driveOf t n).st = (driveOf s n).st
  waiting : (driveOf t n).waiting = (driveOf s n).waiting
  dead : (driveOf t n).dead = (driveOf s n).dead
  lastReset : (driveOf t n).lastReset = (driveOf s n).lastReset
  timeouts : (driveOf t n).timeouts = (driveOf s n).timeouts
  parts : t.parts = s.parts
  host : t.host = s.host

theorem Pushes.refl (n : Nat) (s : State) : Pushes n s s := ⟨rfl, rfl, rfl, rfl, rfl, rfl, rfl⟩

theorem Pushes.trans (h : Pushes n r s) (k : Pushes n s t) : Pushes n r t :=
  ⟨k.st.trans h.st, k.waiting.trans h.waiting, k.dead.trans h.dead, k.lastReset.trans h.lastReset,
    k.timeouts.trans h.timeouts, k.parts.trans h.parts, k.host.trans h.host⟩

theorem foldl_pushes {α : Type} {l : List α} {f : State → α → State} (hf : ∀ y a, Pushes n y (f y a)) (s : State) :
    Pushes n s (l.foldl f s) :=
  List.foldlRecOn l f (motive := Pushes n s) (.refl n s) fun y hy a _ => hy.trans (hf y a)

/-- The command as it is submitted: under the next identifier, with an aperture of its own. -/
def NvmeCmd.submitted (d : Drive) (c : NvmeCmd) : NvmeCmd := { c with cid := d.nextCid, aperture := d.nextCid * 2 ^ 20 }

theorem nvmePush_cmds (c : NvmeCmd) (h : n < 4) :
    (driveOf (nvmePush n c s) n).cmds = (driveOf s n).cmds ++ [c.submitted (driveOf s n)] := by
  unfold nvmePush
  rw [driveOf_emit, driveOf_modDrive _ _ h]
  rfl

theorem nvmePush_pushes (c : NvmeCmd) (h : n < 4) (s : State) : Pushes n s (nvmePush n c s) := by
  unfold nvmePush
  constructor
  case parts => rfl
  case host => rfl
  all_goals rw [driveOf_emit, driveOf_modDrive _ _ h]

/-- With no command that waits for a place there is none to submit. -/
theorem nvmePump_still (k : Nat) (h : (driveOf s n).waiting = []) : nvmePump n k s = s := by
  cases k with
  | zero => rfl
  | succ k =>
    rw [nvmePump]
    simp [h]

/-! ## The end of a sample's stage -/

theorem unreserveAll_drives (p : Pid) (l : List Nat) (s : State) : (unreserveAll p l s).units.drives = s.units.drives :=
  List.foldlRecOn _ _ (motive := fun y : State => y.units.drives = s.units.drives) rfl fun y hy c _ => by
    unfold unreserve
    dsimp only
    split
    · exact hy
    · exact hy

theorem entryDone_drives (p : Pid) (e : Entry) (s : State) : (entryDone p e s).units.drives = s.units.drives := by
  have hretry : (groupRetryOver p e s).units.drives = s.units.drives :=
    List.foldlRecOn _ _ (motive := fun y : State => y.units.drives = s.units.drives) rfl fun y hy x _ => by
      rw [(transientFault_logged _ _ _ _ (.refl _)).units]
      exact hy
  have hclose (slot : Nat) (y : State) : (closeSamples p slot y).units.drives = y.units.drives := by
    unfold closeSamples
    dsimp only
    split
    · rfl
    · exact List.foldlRecOn _ _ (motive := fun z : State => z.units.drives = y.units.drives) rfl fun z hz x _ =>
        (unreserveAll_drives p _ z).trans hz
  unfold entryDone
  refine (hclose _ _).trans ?_
  show (if e.retried then groupRetryOver p e s else s).units.drives = s.units.drives
  split
  · exact hretry
  · rfl

theorem sampleStageDone_drives (p : Pid) (slot off stage : Nat) (s : State) :
    (sampleStageDone p slot off stage s).units.drives = s.units.drives := by
  unfold sampleStageDone
  split
  · exact entryDone_drives _ _ _
  · rfl

/-- What a read lets go on leaves the drives alone. -/
theorem nvmeDone_read (h : c.op = 0) : driveOf (nvmeDone n c s) n = driveOf s n := by
  unfold nvmeDone
  dsimp only
  split
  · rfl
  rw [if_pos h]
  split
  · split
    · rfl
    · exact driveOf_of_drives (sampleStageDone_drives _ _ _ _ _) n
  · rfl

end Sys2Proof.Machine

namespace Sys2Proof.Claims
open Sys2Proof.Machine
open State (LoggedTo)
variable {s : State} {n : Nat} {c : NvmeCmd} {e : NvmeCqe}

/-! ## Completions (R434, R474) -/

theorem Completes.run (h : Completes s n e c) : doNvmeCompletion n e s = nvmePump n 256 (nvmeOutcome n c e s) := by
  unfold doNvmeCompletion
  dsimp only
  rw [if_neg (by simp [h.net, h.up]), if_neg (by rw [h.alive]; decide), if_neg (by simp [h.known]), h.cmd]
  dsimp only
  rw [if_neg (by simp [h.clean])]

/-- The state once the command has left its drive. -/
def left (n : Nat) (c : NvmeCmd) (s : State) : State := modDrive n (fun d => { d with cmds := d.cmds.erase c }) s

theorem Completes.left (h : Completes s n e c) :
    driveOf (left n c s) n = { driveOf s n with cmds := (driveOf s n).cmds.erase c } := driveOf_modDrive _ _ h.port

theorem nvmeDoneRow_holds : nvmeDoneRow := by
  intro n e s c h hsct hsc hop hfirst
  have hout : nvmeOutcome n c e s = nvmeDone n c (left n c s) := by
    simp [nvmeOutcome, left, h.clean, hsct, hsc, hfirst]
  have hdrive := (nvmeDone_read (n := n) (s := left n c s) hop).trans h.left
  have heq := h.run.trans (congrArg (nvmePump n 256) hout)
  rw [nvmePump_still 256 (by rw [hdrive]; exact h.still)] at heq
  exact ⟨_, congrArg Host.Outcome.next heq, (congrArg Drive.cmds hdrive :), (congrArg Drive.lasting hdrive :),
    (congrArg Drive.transient hdrive :), (congrArg Drive.st hdrive).trans h.up⟩

theorem nvmeRetryRow_holds : nvmeRetryRow := by
  intro n e s c h hsct hsc hdnr hop hadmin hfirst
  have hout : nvmeOutcome n c e s = nvmeReissue n c (cqeFault e) false (left n c s) := by
    simp [nvmeOutcome, left, h.clean, hsct, hsc, hdnr, hop, hfirst]
  have hpush := nvmePush_pushes { c with retried := true, first := cqeFault e, mediaErr := false } h.port (left n c s)
  have hcmds := nvmePush_cmds (s := left n c s) { c with retried := true, first := cqeFault e, mediaErr := false } h.port
  rw [h.left] at hcmds
  have heq := h.run.trans (congrArg (nvmePump n 256) hout)
  rw [nvmePump_still 256 (by rw [nvmeReissue, hpush.waiting, h.left]; exact h.still)] at heq
  refine ⟨_, congrArg Host.Outcome.next heq, ⟨_, hcmds, rfl, rfl, rfl, rfl, rfl, rfl⟩, ?_, hpush.parts, hpush.host⟩
  exact hpush.st.trans ((congrArg Drive.st h.left).trans h.up)

theorem nvmeLastingRow_holds : nvmeLastingRow := by
  intro n e s c h hsct hsc hdnr hop
  have hout : nvmeOutcome n c e s = driveLasting n c.part (cqeFault e) (nvmeTag n c) (left n c s) := by
    simp [nvmeOutcome, left, h.clean, hsct, hsc, hdnr, hop]
  have hdrive := driveLasting_drive (s := left n c s) c.part (cqeFault e) (nvmeTag n c) h.port
  have heq := h.run.trans (congrArg (nvmePump n 256) hout)
  rw [nvmePump_still 256 (by rw [hdrive]; rfl)] at heq
  exact ⟨_, congrArg Host.Outcome.next heq, congrArg Drive.st hdrive, congrArg Drive.cmds hdrive⟩

theorem nvmeLateRow_holds : nvmeLateRow := by
  intro n e s hn hnet hst hdead
  have heq : doNvmeCompletion n e s = driveLate n e.cid (if e.sqid = 0 then 14 else 13) s := by
    unfold doNvmeCompletion
    dsimp only
    rw [if_neg (by simp [hnet, hst]), if_pos hdead]
  have hlog := lateDiscard_logged 0xFF (driveUnit n) (if e.sqid = 0 then 14 else 13) e.cid
    (.refl (modDrive n (fun d => { d with dead := d.dead.erase e.cid, late := satAdd 64 d.late 1 }) s))
  have hdrive := (hlog.drive n).trans (driveOf_modDrive _ _ hn)
  exact ⟨_, congrArg Host.Outcome.next heq, congrArg Drive.dead hdrive, congrArg Drive.late hdrive,
    (congrArg Drive.cmds hdrive :), hlog.st⟩

/-! ## Timeouts and failures (R433, R434) -/

/-- The state once a command that timed out is counted and fenced. -/
def timedOut (n : Nat) (c : NvmeCmd) (s : State) : State :=
  nvmeFence n c (modDrive n (fun d => { d with timeouts := satAdd 64 d.timeouts 1 }) s)

theorem nvmeTimeout_eq {admin : Bool}
    (h : (driveOf s n).cmds.find? (fun x => x.cid == c.cid && x.admin == admin) = some c) :
    nvmeTimeout n c.cid admin s = if c.retried then driveLasting n c.part 0x0001 (nvmeTag n c) (timedOut n c s)
      else nvmeReissue n c 0x0001 false (timedOut n c s) := by
  unfold nvmeTimeout
  rw [h]
  rfl

/-- A command that is issued again after its bound. -/
theorem reissued_spec (h : n < 4) (c : NvmeCmd) (s : State) :
    (let t := nvmeReissue n c 0x0001 false (timedOut n c s)
     c.cid ∈ (driveOf t n).dead ∧ (driveOf t n).timeouts = satAdd 64 (driveOf s n).timeouts 1
      ∧ (∃ k ∈ (driveOf t n).cmds, k.retried = true ∧ k.first = 1 ∧ k.lba = c.lba ∧ k.op = c.op ∧ k.sample = c.sample)
      ∧ t.parts = s.parts ∧ t.host = s.host) := by
  have hpush := (nvmePush_pushes { cid := 0, admin := true, op := 6, lba := c.cid } h _).trans
    (nvmePush_pushes { c with retried := true, first := 0x0001, mediaErr := false } h (timedOut n c s))
  have hmem : NvmeCmd.submitted (driveOf (timedOut n c s) n) { c with retried := true, first := 0x0001, mediaErr := false } ∈
      (driveOf (nvmeReissue n c 0x0001 false (timedOut n c s)) n).cmds := by
    rw [nvmeReissue, nvmePush_cmds _ h]
    exact List.mem_append_right _ (List.mem_singleton_self _)
  refine ⟨?_, ?_, ⟨_, hmem, rfl, rfl, rfl, rfl, rfl⟩, hpush.parts, hpush.host⟩
  · rw [nvmeReissue, hpush.dead, driveOf_modDrive _ _ h]
    exact List.mem_append_right _ (List.mem_singleton_self _)
  · rw [nvmeReissue, hpush.timeouts, driveOf_modDrive _ _ h, driveOf_modDrive _ _ h]

theorem nvmeTimeoutRows_holds : nvmeTimeoutRows := by
  intro n s c hn
  refine ⟨fun hfind => ⟨fun hfirst => ?_, fun hagain => ?_⟩, fun hfind => ⟨fun hop hfirst => ?_, fun hop => ?_⟩⟩
  · exact ⟨_, congrArg Host.Outcome.next ((nvmeTimeout_eq hfind).trans (if_neg (by simp [hfirst]))), reissued_spec hn c s⟩
  · refine ⟨_, congrArg Host.Outcome.next ((nvmeTimeout_eq hfind).trans (if_pos hagain)), ?_⟩
    simp only [driveLasting_drive _ _ _ hn]
    rfl
  · have heq : doAdminTimeout n c.cid s = nvmeTimeout n c.cid true s := by
      unfold doAdminTimeout
      rw [hfind]
      exact if_neg hop
    have hfind' : (driveOf s n).cmds.find? (fun x => x.cid == c.cid && x.admin == true) = some c := by
      simpa using hfind
    exact ⟨_, congrArg Host.Outcome.next (heq.trans ((nvmeTimeout_eq hfind').trans (if_neg (by simp [hfirst])))),
      reissued_spec hn c s⟩
  · refine congrArg Host.Outcome.next ?_
    unfold doAdminTimeout
    rw [hfind]
    exact if_pos hop

/-- The state at a reset of a controller, before its queues and commands go out again. -/
def atReset (n : Nat) (s : State) : State :=
  emit (.nvmeCtl n 2) (modDrive n (fun d => { d with
    lastReset := some s.time, dead := d.dead ++ d.cmds.map (fun c => c.cid), cmds := [], tails := [] }) s)

theorem controllerFailure_reset (code : Nat) (h : n < 4) (hst : (driveOf s n).st = 2)
    (hnone : (driveOf s n).lastReset = none) : (let t := controllerFailure n code s
      (driveOf t n).lastReset = some s.time ∧ (driveOf t n).st = 2
        ∧ (∀ c ∈ (driveOf s n).cmds, c.cid ∈ (driveOf t n).dead) ∧ t.parts = s.parts ∧ t.host = s.host) := by
  have hpush (l : List Nat) (m : List NvmeCmd) : Pushes n (atReset n s) (m.foldl (fun s c => nvmeReissue n c code false s)
      (l.foldl (fun s k => nvmePush n { cid := 0, admin := true, op := 3, ns := k } s) (atReset n s))) :=
    (foldl_pushes (fun y k => nvmePush_pushes _ h y) _).trans (foldl_pushes (fun y c => nvmePush_pushes _ h y) _)
  have heq : controllerFailure n code s = ((driveOf s n).cmds.filter (fun c => c.op != 6)).foldl
      (fun s c => nvmeReissue n c code false s) ((driveOf s n).queues.foldl
        (fun s k => nvmePush n { cid := 0, admin := true, op := 3, ns := k } s) (atReset n s)) := by
    unfold controllerFailure
    dsimp only
    rw [if_neg (by simp [hst]), if_neg (by simp [hnone])]
    rfl
  have hreset : driveOf (atReset n s) n = { driveOf s n with
      lastReset := some s.time, dead := (driveOf s n).dead ++ (driveOf s n).cmds.map (fun c => c.cid), cmds := [], tails := [] } :=
    driveOf_modDrive _ _ h
  dsimp only
  rw [heq, (hpush _ _).lastReset, (hpush _ _).st, (hpush _ _).dead, (hpush _ _).parts, (hpush _ _).host, hreset]
  exact ⟨rfl, hst, fun c hc => List.mem_append_right _ (List.mem_map_of_mem hc), rfl, rfl⟩

theorem controllerFailure_again {k : Nat} (code : Nat) (h : n < 4) (hst : (driveOf s n).st = 2)
    (hlast : (driveOf s n).lastReset = some k) (hsoon : s.time < k + 10000000000) :
    (driveOf (controllerFailure n code s) n).st = 3 := by
  have heq : controllerFailure n code s = driveLasting n 0xFF code 0 s := by
    unfold controllerFailure
    dsimp only
    rw [if_neg (by simp [hst]), if_pos (by simpa [hlast] using (by omega : s.time - k < 10000000000))]
  rw [heq, driveLasting_drive _ _ _ h]
  rfl

theorem controllerFatalRows_holds : controllerFatalRows := by
  intro n s hn hst
  have hdown : doDriveLinkDown n true s = controllerFailure n 0x000A s := by simp [doDriveLinkDown, hst]
  refine ⟨⟨fun hnone => ?_, fun k hlast hsoon _ => ?_⟩, ?_⟩
  · exact ⟨⟨_, rfl, controllerFailure_reset 0x0009 hn hst hnone⟩,
      ⟨_, congrArg Host.Outcome.next hdown, controllerFailure_reset 0x000A hn hst hnone⟩⟩
  · exact ⟨⟨_, rfl, controllerFailure_again 0x0009 hn hst hlast hsoon⟩,
      ⟨_, congrArg Host.Outcome.next hdown, controllerFailure_again 0x000A hn hst hlast hsoon⟩⟩
  · refine congrArg Host.Outcome.next ?_
    simp [doDriveLinkDown, hst]

/-! ## Requests of a drive (R429, R436) -/

/-- A violation of a drive is counted; its commands and the partitions' states stay, and memory too. -/
theorem driveViolation_spec (row : Nat) (h : n < 4) (s : State) :
    (let t := driveViolation n row s
     (driveOf t n).violations = satAdd 64 (driveOf s n).violations 1 ∧ (driveOf t n).cmds = (driveOf s n).cmds
      ∧ t.units.mem.cells = s.units.mem.cells ∧ ∀ p, (partOf t p).st = (partOf s p).st) := by
  have hlog := partnerViolation_logged (.drive n) 0xFF (driveUnit n) 3 row 0
    (.refl (modDrive n (fun d => { d with violations := satAdd 64 d.violations 1 }) s))
  have hdrive := (hlog.drive n).trans (driveOf_modDrive _ _ h)
  exact ⟨congrArg Drive.violations hdrive, (congrArg Drive.cmds hdrive :), congrArg (fun u => u.mem.cells) hlog.units, hlog.st⟩

theorem driveDmaRow_holds : driveDmaRow := by
  intro n addr len b s hn hnet hst
  have hgo : (!domOn s 5 || (driveOf s n).st != 2) = false := by simp [hnet, hst]
  refine ⟨fun c k d hfind hsample hpart hbuf hfit => ?_, fun hnone => ?_⟩
  · refine congrArg Host.Outcome.next ?_
    have hpid : pidOf c.part = some ⟨c.part, hpart⟩ := dif_pos hpart
    unfold doDriveDma
    simp only [hgo, Option.isSome_some, hfind, hsample, hpid, hbuf]
    rw [if_neg (by decide), if_pos hfit]
  · have heq : doDriveDma n addr len (some b) s = emit (.completerAbort n) (driveViolation n 3 s) := by
      unfold doDriveDma
      simp only [hgo, Option.isSome_some, hnone]
      rfl
    exact ⟨_, congrArg Host.Outcome.next heq, rfl, driveViolation_spec 3 hn s⟩

theorem driveMsixRow_holds : driveMsixRow := by
  intro n v s hn hnet hst
  have hgo : ¬((!domOn s 5 || (driveOf s n).st != 2) = true) := by simp [hnet, hst]
  refine ⟨fun hv => congrArg Host.Outcome.next ((if_neg hgo).trans (if_pos hv)), fun hv => ?_⟩
  obtain ⟨hviol, hcmds, -, hparts⟩ := driveViolation_spec 4 hn s
  exact ⟨_, congrArg Host.Outcome.next ((if_neg hgo).trans (if_neg (by omega))), hviol, hcmds, hparts⟩

end Sys2Proof.Claims

namespace Sys2Proof

/-- Settles O55: what a command's end, its retry and a reset leave of its drive (`nvmeDone_read`, `nvmePush_pushes`), and a
lasting fault empties it (`driveLasting_drive`). -/
theorem nvmeCommands : Obligations.NvmeCommands :=
  ⟨Claims.nvmeDoneRow_holds, Claims.nvmeRetryRow_holds, Claims.nvmeLastingRow_holds, Claims.nvmeLateRow_holds,
    Claims.nvmeTimeoutRows_holds, Claims.controllerFatalRows_holds, Claims.driveDmaRow_holds, Claims.driveMsixRow_holds⟩

end Sys2Proof
end


/-! # The pair: frames that are taken, and what leaves the pair alone

A frame that passes the tests of Table PAIR-5 only moves the receive sequence before it acts (`onFrame_taken`), and the
work of partitions and what the chip sends leave the pair as it stands (`PairStays`). -/

section
namespace Sys2Proof.Machine
open State (LoggedTo)
variable {α : Type} {φ : Part → α} {r s t x : State} {p : Pid} {h : DarradHdr}

/-! ## Frames (R439) -/

/-- The link once a frame has arrived. -/
def heard (h : DarradHdr) (s : State) : State := modPair (fun p => { p with rxSeq := (h.linkSeq + 1) % 2 ^ 32 }) s

theorem pidOf_val (p : Pid) : pidOf p.val = some p := dif_pos p.isLt

theorem takeFrame_hello (hup : darradUp s = true) (hflags : h.flags ≤ 1) : takeFrame h true s = (heard h s, true) := by
  simp [takeFrame, hup, Nat.not_lt.2 hflags, heard]

theorem takeFrame_taken (hf : Claims.Frame s h) : takeFrame h false s = (heard h s, true) := by
  have hbehind : ¬h.gen < s.units.pair.gen := Nat.not_lt.2 hf.gen
  have hhello : s.units.pair.helloSeen = true := hf.hello
  simp [takeFrame, hf.up, Nat.not_lt.2 hf.flags, heard, modPair, hhello, hbehind]

theorem onFrame_taken (hf : Claims.Frame s h) (g : State → State) : onFrame h g s = g (heard h s) := by
  rw [onFrame, takeFrame_taken hf]

theorem onPartFrame_taken (hf : Claims.Frame s h) (hp : h.part = p.val) (g : Pid → State → State) :
    onPartFrame h g s = g p (heard h s) := by
  rw [onPartFrame, onFrame_taken hf, hp, pidOf_val]

theorem darradUp_modPair {g : PairSt → PairSt} (ht : (g s.units.pair).trained = s.units.pair.trained)
    (hl : (g s.units.pair).link = s.units.pair.link) : darradUp (modPair g s) = darradUp s := by
  rw [darradUp, modPair_units, ht, hl]
  rfl

theorem darradSend_up (k a b c) (l : List Byte) (hup : darradUp s = true) : darradSend k a b c l s =
    emit (.darrad k (nextHdr s a l.length b c) l) (modPair (fun p => { p with txSeq := (p.txSeq + 1) % 2 ^ 32 }) s) :=
  if_pos hup

/-! ## Records of the device -/

theorem sendMsix_parts (f v) (s : State) : (sendMsix f v s).parts = s.parts := by
  unfold sendMsix
  dsimp only
  split
  · rfl
  · split <;> rfl

theorem raiseIrq_parts (f b) (s : State) : (raiseIrq f b s).parts = s.parts := by
  unfold raiseIrq
  dsimp only
  split
  · rfl
  · split
    · rfl
    · exact sendMsix_parts _ _ _

theorem cntFaults_parts (g) (s : State) : (cntFaults 0xFF g s).parts = s.parts := by
  unfold cntFaults
  dsimp only
  rw [if_pos (by rfl), modAo_parts]

/-- A record of the device counts for no partition. -/
theorem logDev_parts (c a0 a1 a2 a3) (s : State) : (logDev c a0 a1 a2 a3 s).parts = s.parts := by
  have hnone : pidOf 0xFF = none := rfl
  unfold logDev logEvent
  dsimp only
  rw [hnone]
  split
  · exact cntFaults_parts _ _
  · split
    · rfl
    · exact raiseIrq_parts _ _ _

/-! ## The pair stays -/

/-- The pair, but for the count of frames sent. -/
def State.talk (s : State) : PairSt := { s.units.pair with txSeq := 0 }

/-- The pair is as before, but for frames sent. -/
def PairStays (s t : State) : Prop := t.talk = s.talk

theorem PairStays.refl (s : State) : PairStays s s := rfl

theorem PairStays.trans (h : PairStays r s) (k : PairStays s t) : PairStays r t := Eq.trans k h

/-- What reads the pair without its count of frames sent reads what it did. -/
theorem PairStays.read (h : PairStays s t) (f : PairSt → α) (hf : ∀ p, f { p with txSeq := 0 } = f p := by exact fun _ => rfl) :
    f t.units.pair = f s.units.pair :=
  (hf _).symm.trans ((congrArg f (show t.talk = s.talk from h)).trans (hf _))

theorem pairStays_of_units (h : t.units = s.units) : PairStays s t := by rw [PairStays, State.talk, h, State.talk]

theorem State.LoggedTo.pairStays (h : LoggedTo s t) : PairStays s t := pairStays_of_units h.units

theorem ite_pairStays {c : Prop} [Decidable c] {a b : State} (ha : PairStays r a) (hb : PairStays r b) :
    PairStays r (if c then a else b) := by
  split
  · exact ha
  · exact hb

theorem foldl_pairStays {β : Type} {l : List β} {f : State → β → State} (hf : ∀ x a, PairStays r x → PairStays r (f x a))
    (h : PairStays r s) : PairStays r (l.foldl f s) :=
  List.foldlRecOn l f (motive := PairStays r) h fun x hx a _ => hf x a hx

theorem modPart_pairStays (g) (h : PairStays r s) : PairStays r (modPart p g s) := h
theorem modAo_pairStays (g) (h : PairStays r s) : PairStays r (modAo g s) := h
theorem modUnits_pairStays {g : UnitSt → UnitSt} (h : PairStays r s) (hg : (g s.units).pair = s.units.pair := by rfl) :
    PairStays r (modUnits g s) :=
  h.trans (show PairStays s (modUnits g s) by rw [PairStays, State.talk, State.talk, modUnits_units, hg])

/-! ### What is sent -/

theorem darradSend_pairStays (k a b c l) (h : PairStays r s) : PairStays r (darradSend k a b c l s) := ite_pairStays h h
theorem darradPut_pairStays (a b c o) (h : PairStays r s) : PairStays r (darradPut a b c o s) := ite_pairStays h h
theorem sendHold_pairStays (h : PairStays r s) : PairStays r (sendHold s) := darradPut_pairStays _ _ _ _ h

theorem putMirror_pairStays (m) (h : PairStays r s) : PairStays r (putMirror p m s) := by
  unfold putMirror
  dsimp only
  split
  · exact darradPut_pairStays _ _ _ _ h
  · exact darradPut_pairStays _ _ _ _ h
  · exact h

theorem mirrorGrantOf_pairStays (h : PairStays r s) : PairStays r (mirrorGrantOf p s) :=
  ite_pairStays (putMirror_pairStays _ h) h

theorem sendProblem_pairStays (a b l) (h : PairStays r s) : PairStays r (sendProblem p a b l s) :=
  foldl_pairStays (fun _ _ => darradSend_pairStays _ _ _ _ _) h

/-! ### Completions, withdrawals and fences -/

theorem completeOpt_pairStays (i a b c) (h : PairStays r s) : PairStays r (completeOpt i a b c s) :=
  h.trans (pairStays_of_units (completeOpt_spec i a b c s).1)

theorem releaseDesc_pairStays (d) (h : PairStays r s) : PairStays r (releaseDesc d s) := by
  unfold releaseDesc
  dsimp only
  split
  · exact h
  · exact h

theorem releaseWhere_pairStays (w) (h : PairStays r s) : PairStays r (releaseWhere w s) :=
  foldl_pairStays (fun _ _ => releaseDesc_pairStays _) h

theorem unreserveAll_pairStays (l) (h : PairStays r s) : PairStays r (unreserveAll p l s) :=
  foldl_pairStays (fun _ _ hx => ite_pairStays hx hx) h

theorem nvmeFenceWhere_pairStays (w) (h : PairStays r s) : PairStays r (nvmeFenceWhere w s) :=
  foldl_pairStays (fun _ _ hx => foldl_pairStays (fun _ _ hy => hy) (modUnits_pairStays hx)) h

theorem killJobs_pairStays (a b c) (h : PairStays r s) : PairStays r (killJobs a b c s) := modUnits_pairStays h

theorem killWork_pairStays (k) (h : PairStays r s) : PairStays r (killWork p k s) := by
  unfold killWork
  exact modAo_pairStays _ (modPart_pairStays _ (nvmeFenceWhere_pairStays _ (killJobs_pairStays _ _ _ h)))

theorem withdrawStep_pairStays (y) (h : PairStays r s) : PairStays r (withdrawStep p y s) := by
  have hkill := killWork_pairStays (p := p) (some y.slot) h
  unfold withdrawStep
  exact foldl_pairStays (fun _ _ => unreserveAll_pairStays _) (unreserveAll_pairStays _
    (releaseWhere_pairStays _ (modPart_pairStays _ (ite_pairStays hkill (modPart_pairStays _ hkill)))))

theorem beginTeardown_pairStays (h : PairStays r s) : PairStays r (beginTeardown p s) := completeOpt_pairStays _ _ _ _ h

theorem maybePaused_pairStays (h : PairStays r s) : PairStays r (maybePaused p s) :=
  ite_pairStays (beginTeardown_pairStays h) (ite_pairStays (completeOpt_pairStays _ _ _ _ h) h)

theorem beginPause_pairStays (i) (h : PairStays r s) : PairStays r (beginPause p i s) := by
  unfold beginPause
  refine maybePaused_pairStays ?_
  dsimp only
  split
  · exact foldl_pairStays (fun _ _ => withdrawStep_pairStays _) (ite_pairStays h (withdrawStep_pairStays _ h))
  · exact h

theorem dropRequests_pairStays (w) (h : PairStays r s) : PairStays r (dropRequests p w s) := h

theorem fenceOpen_pairStays (h : PairStays r s) : PairStays r (fenceOpen p s) :=
  h.trans (pairStays_of_units (fenceOpen_units p s))

theorem fencePart_pairStays (c) (h : PairStays r s) : PairStays r (fencePart p c s) := by
  let a := packCursor (partOf s p).ld.cursor
  let u := countFence [p] (logEvent p.val 0x0006 c a (a / 2 ^ 32) 0 s)
  have hlog : PairStays r u :=
    h.trans (countFence_logged [p] (logEvent_logged p.val 0x0006 c a (a / 2 ^ 32) 0 (.refl s))).pairStays
  have hdone : PairStays r (completeOpt (partOf s p).sc.pauseReq stFenced 0x011A 0
      (modPart p (Part.fencedFor c) (dropRequests p (fun _ => true) (fenceOpen p (killWork p none u))))) :=
    completeOpt_pairStays _ _ _ _ (modPart_pairStays _ (dropRequests_pairStays _ (fenceOpen_pairStays
      (killWork_pairStays none hlog))))
  unfold fencePart
  exact ite_pairStays h (ite_pairStays (beginTeardown_pairStays hdone) hdone)

/-! ### The boundary of a step -/

theorem loadTile_pairStays (n) (h : PairStays r s) : PairStays r (loadTile n s) := by
  unfold loadTile
  dsimp only
  split
  · exact h
  split
  · exact h
  · exact ite_pairStays h h

theorem installPlacement_pairStays (h : PairStays r s) : PairStays r (installPlacement p s) := by
  unfold installPlacement
  split
  · exact h
  · exact foldl_pairStays (fun _ _ hx => foldl_pairStays (fun _ _ => loadTile_pairStays _) hx)
      (h.trans (logEvent_logged _ _ _ _ _ _ (.refl (modEx p _ s))).pairStays)

theorem seat_pairStays (o) (h : PairStays r s) : PairStays r (seat o s) := by
  unfold seat
  split
  · exact h
  split
  · exact h
  · exact ite_pairStays h h

theorem addRun_pairStays (x) (h : PairStays r s) : PairStays r (addRun x s) := by
  unfold addRun wakeChurn
  refine ite_pairStays h ?_
  split
  · exact seat_pairStays _ h
  · exact ite_pairStays (seat_pairStays _ h) (ite_pairStays (seat_pairStays _ h) h)

theorem startRevision_pairStays (k) (h : PairStays r s) : PairStays r (startRevision p k s) := by
  have hkept (f g a b) : PairStays r (logEvent p.val 0x0501 a b 2 0 (modEx p f (modEx p g s))) :=
    h.trans (logEvent_logged _ _ _ _ _ _ (.refl (modEx p f (modEx p g s)))).pairStays
  unfold startRevision
  dsimp only
  split
  · exact hkept _ _ _ _
  · exact ite_pairStays (hkept _ _ _ _) (addRun_pairStays _ (ite_pairStays (sendProblem_pairStays _ _ _ h) h))

theorem dropBuffer_pairStays (i w) (h : PairStays r s) : PairStays r (dropBuffer p i w s) := by
  unfold dropBuffer
  split
  · exact modPart_pairStays _ (ite_pairStays (releaseDesc_pairStays _ h) h)
  · exact h

theorem sweepWins_pairStays (h : PairStays r s) : PairStays r (sweepWins p s) :=
  foldl_pairStays (fun _ _ hx => modPart_pairStays _ (foldl_pairStays (fun _ _ => dropBuffer_pairStays _ _) hx)) h

theorem afterBoundary_pairStays (h : PairStays r s) : PairStays r (afterBoundary p s) := by
  have hpaused := maybePaused_pairStays (p := p) h
  exact ite_pairStays (fencePart_pairStays _ h) (ite_pairStays (beginPause_pairStays _ hpaused) hpaused)

theorem commitCounters_pairStays (st) (h : PairStays r s) : PairStays r (commitCounters p st s) := by
  unfold commitCounters
  exact ite_pairStays h (modPart_pairStays _ h)

theorem maybeRevise_pairStays (c) (h : PairStays r s) : PairStays r (maybeRevise p c s) := by
  unfold maybeRevise
  exact ite_pairStays (startRevision_pairStays _ h) h

theorem closeStep_pairStays (st) (h : PairStays r s) : PairStays r (closeStep p st s) := by
  have hfree : PairStays r (freeStep p st s) := unreserveAll_pairStays _ (releaseWhere_pairStays _ h)
  rw [closeStep_eq]
  exact afterBoundary_pairStays (sweepWins_pairStays (maybeRevise_pairStays _ (installPlacement_pairStays
    (commitCounters_pairStays _ (modPart_pairStays _ hfree)))))

theorem dropMirror_pairStays (h : PairStays r s) : PairStays r (dropMirror s) := by
  refine foldl_pairStays (fun y q hy => ?_) h
  have hwait (g) : PairStays r (if (partOf y q).mirWait.isEmpty then y else modPart q g y) := ite_pairStays hy hy
  dsimp only
  split
  · exact closeStep_pairStays _ (hwait _)
  · exact hwait _

end Sys2Proof.Machine
end


/-! # The pair: its state, moves, and resources that come back

What HELLO and the loss of the partner leave of the pair (`joinPair_talk`, `partnerLost_talk`), what a fence leaves of a
partition's conflict, and what the commit of a plan and of its mirrored state leave (`acceptMove_spec`). -/

section
namespace Sys2Proof.Machine
open State (LoggedTo)
variable {α : Type} {φ : Part → α} {r s t x : State} {p : Pid} {h : DarradHdr}

/-! ## The state of the pair (R441, R453) -/

theorem setPairSt_units (n : Nat) (s : State) :
    (setPairSt n s).units = (modPair (fun p => { p with st := n }) s).units := by
  unfold setPairSt
  split
  case isTrue hst => subst hst; rfl
  case isFalse => exact (logDev_logged _ _ _ _ _ (.refl _)).units

theorem setPairSt_pairStays (n : Nat) (s : State) : PairStays (modPair (fun p => { p with st := n }) s) (setPairSt n s) :=
  pairStays_of_units (setPairSt_units n s)

theorem setPairSt_parts (n : Nat) (s : State) : (setPairSt n s).parts = s.parts := by
  unfold setPairSt
  split
  · rfl
  · exact logDev_parts _ _ _ _ _ _

/-- The role that a chip takes against one with another serial. -/
def roleAgainst (serial : Nat) (s : State) : Nat := if s.ao.fuse.serial < serial then 0 else 1

theorem roleFor_ne {serial : Nat} (hne : serial ≠ s.ao.fuse.serial) : roleFor serial s = (roleAgainst serial s, s) := by
  unfold roleFor roleAgainst
  split
  · rfl
  · rw [if_pos (by omega)]

/-- What HELLO of a matching chip makes of the pair before the answer. -/
def PairSt.met (h : DarradHdr) (serial role policy : Nat) (p : PairSt) : PairSt :=
  { p with
    gen := max p.gen h.gen, role := role, partner := 0, partnerSerial := serial, partnerAuto := policy == 1
    helloSeen := true, holdSeen := false, missed := 0, partnerPlans := [], seeding := []
    mirrors := p.mirrors.map (fun m => { m with expect := none }) }

/-- A pair that has joined. -/
def PairSt.joined (h : DarradHdr) (serial role policy : Nat) (p : PairSt) : PairSt :=
  { PairSt.met h serial role policy p with helloOut := false, st := 1 }

theorem modPair_pairStays {g : PairSt → PairSt} (hg : ∀ p, { g p with txSeq := 0 } = g { p with txSeq := 0 })
    (h : PairStays s t) : PairStays (modPair g s) (modPair g t) :=
  (hg _).trans ((congrArg g h).trans (hg _).symm)

theorem sendHello_pairStays (s : State) : PairStays (modPair (fun p => { p with helloOut := true }) s) (sendHello s) :=
  darradPut_pairStays _ _ _ _ (.refl _)

theorem sendHello_parts (s : State) : (sendHello s).parts = s.parts := by
  unfold sendHello darradPut
  dsimp only
  split <;> rfl

theorem sendHold_parts (s : State) : (sendHold s).parts = s.parts := by
  unfold sendHold darradPut
  split <;> rfl

/-- The answer to a HELLO, when one is due; after it none is. -/
def answered (s : State) : State :=
  modPair (fun p => { p with helloOut := false }) (if s.units.pair.helloOut then s else sendHello s)

theorem answered_pairStays (s : State) : PairStays (modPair (fun p => { p with helloOut := false }) s) (answered s) := by
  unfold answered
  split
  · exact .refl _
  · exact (modPair_pairStays (g := fun p => { p with helloOut := false }) (fun _ => rfl) (sendHello_pairStays s) :)

theorem answered_parts (s : State) : (answered s).parts = s.parts := by
  unfold answered
  split
  · rfl
  · rw [modPair_parts, sendHello_parts]

theorem joinPair_eq {serial policy : Nat} (halone : s.units.pair.st = 0) (hne : serial ≠ s.ao.fuse.serial) :
    joinPair h serial policy s =
      sendHold (setPairSt 1 (answered (modPair (PairSt.met h serial (roleAgainst serial s) policy) s))) := by
  unfold joinPair
  rw [if_neg (by simp [halone])]
  dsimp only
  rw [roleFor_ne hne]
  rfl

/-- A matching HELLO joins a pair that was ALONE; the partitions stay. -/
theorem joinPair_talk {serial policy : Nat} (halone : s.units.pair.st = 0) (hne : serial ≠ s.ao.fuse.serial) :
    PairStays (modPair (PairSt.joined h serial (roleAgainst serial s) policy) s) (joinPair h serial policy s)
      ∧ (joinPair h serial policy s).parts = s.parts := by
  have hjoined := (modPair_pairStays (g := fun p => { p with st := 1 }) (fun _ => rfl)
    (answered_pairStays (modPair (PairSt.met h serial (roleAgainst serial s) policy) s))).trans (setPairSt_pairStays 1 _)
  rw [joinPair_eq halone hne]
  refine ⟨sendHold_pairStays hjoined, ?_⟩
  rw [sendHold_parts, setPairSt_parts, answered_parts, modPair_parts]

theorem dropChains_pairStays (h : PairStays r s) : PairStays r (dropChains s) := h

/-- The pair as the loss of the partner is found (R453). -/
def PairSt.gone (k : Nat) (p : PairSt) : PairSt :=
  { p with
    partner := if k = 2 then 2 else 1, missed := 0, helloSeen := false, holdSeen := false, role := 0xFF
    resync := [], seeding := [] }

/-- The pair without a partner. -/
def PairSt.lost (k : Nat) (p : PairSt) : PairSt := { PairSt.gone k p with moving := [], st := 0 }

theorem failMoves_pairStays (s : State) : PairStays (modPair (fun p => { p with moving := [] }) s) (failMoves s) :=
  foldl_pairStays (fun _ m hy => completeOpt_pairStays (some m.2) stRefused 0x0801 0 hy) (.refl _)

/-- The chip once the partner is lost, before it takes anything over. -/
def bereft (k : Nat) (s : State) : State :=
  setPairSt 0 (failMoves (dropChains (dropMirror (logDev 0x0802 k (modPair (PairSt.gone k) s).units.pair.gen 0 0
    (modPair (PairSt.gone k) s)))))

theorem partnerLost_eq (k : Nat) (s : State) : partnerLost k s =
    if (bereft k s).units.pair.auto_ && k != 2 then takeover none (bereft k s) else bereft k s := by
  unfold partnerLost bereft PairSt.gone
  rfl

theorem bereft_talk (k : Nat) (s : State) : PairStays (modPair (PairSt.lost k) s) (bereft k s) := by
  have hlog := (logDev_logged 0x0802 k (modPair (PairSt.gone k) s).units.pair.gen 0 0
    (.refl (modPair (PairSt.gone k) s))).pairStays
  have hdrop := dropChains_pairStays (dropMirror_pairStays hlog)
  have hfail := (modPair_pairStays (g := fun p => { p with moving := [] }) (fun _ => rfl) hdrop).trans
    (failMoves_pairStays _)
  exact (modPair_pairStays (g := fun p => { p with st := 0 }) (fun _ => rfl) hfail).trans (setPairSt_pairStays 0 _)

/-- The loss of the partner takes nothing over without AUTO. -/
theorem partnerLost_talk {k : Nat} (hauto : s.units.pair.auto_ = false) :
    PairStays (modPair (PairSt.lost k) s) (partnerLost k s) := by
  have htalk := bereft_talk k s
  have hstill : (bereft k s).units.pair.auto_ = false := (htalk.read PairSt.auto_).trans hauto
  rw [partnerLost_eq, hstill, Bool.false_and, if_neg Bool.false_ne_true]
  exact htalk

/-! ## Conflicts (R461) -/

theorem Quiet.postResponse (hφ : Quiet φ) (f a n q o i d) (h : Keeps φ r s) :
    Keeps φ r (postResponse f a n q o i d s) := by
  have hwritten (g) : Keeps φ r (modMbx f g s) := modHost_keeps _ h
  exact ite_keeps ((hwritten _).trans (hφ.logged (raiseIrq_logged _ _ (.refl _)))) (hwritten _)

theorem finish_quiet (hφ : Quiet φ) (q a) (h : Keeps φ r s) : Keeps φ r (finish q a s) := by
  have hreq : Keeps φ r (if a.pend then
      modReq q.id (fun q => { q with phase := .pending, payload := a.payload }) s else dropReq q.id s) := ite_keeps h h
  exact ite_keeps (ite_keeps hreq (postRing_quiet hφ _ _ _ hreq)) (hφ.postResponse _ _ _ _ _ _ _ hreq)

/-- What the pair and the grants have made of a partition, which its work and its fences leave alone. -/
def Part.bond (q : Part) : Bool × Nat × Grants := (q.conflict, q.gen, q.g)

theorem bond_quiet : Quiet Part.bond := ⟨fun _ _ => rfl, fun _ _ => rfl⟩

theorem killWork_bond (k) (h : Keeps Part.bond r s) : Keeps Part.bond r (killWork p k s) := by
  unfold killWork
  exact modAo_keeps _ (modPart_keeps (fun _ => rfl) (nvmeFenceWhere_keeps _ (modUnits_keeps _ h)))

theorem fenceOpen_bond (h : Keeps Part.bond r s) : Keeps Part.bond r (fenceOpen p s) :=
  foldl_keeps (fun _ q hx =>
    have hruns : Keeps Part.bond r (dropRuns q.id (killDma (fun d => decide (dmaReq d.kind = some q.id)) _)) :=
      modParts_keeps (fun _ => rfl) (modHost_keeps _ hx)
    ite_keeps (complete_quiet bond_quiet _ _ _ _ _ hruns) (finish_quiet bond_quiet _ _ hruns)) h

/-- A running partition that is not to be torn down is FENCED by a fence, which leaves its bond. -/
theorem fencePart_fenced {c : Nat} (hst : (partOf s p).st = .enabled) (hgo : (partOf s p).sc.teardownAtBoundary = false) :
    (partOf (fencePart p c s) p).st = .fenced ∧ Keeps Part.bond s (fencePart p c s) := by
  let a := packCursor (partOf s p).ld.cursor
  have hlog : Keeps Part.bond s (countFence [p] (logEvent p.val 0x0006 c a (a / 2 ^ 32) 0 s)) :=
    bond_quiet.logged (countFence_logged [p] (logEvent_logged p.val 0x0006 c a (a / 2 ^ 32) 0 (.refl s)))
  have hwork := dropRequests_keeps (p := p) (fun _ => true) (fenceOpen_bond (p := p) (killWork_bond (p := p) none hlog))
  have heq : fencePart p c s = completeOpt (partOf s p).sc.pauseReq stFenced 0x011A 0 (modPart p (Part.fencedFor c)
      (dropRequests p (fun _ => true) (fenceOpen p (killWork p none
        (countFence [p] (logEvent p.val 0x0006 c a (a / 2 ^ 32) 0 s)))))) := by
    unfold fencePart
    exact (if_neg (not_not_intro hst)).trans (if_neg (by simp [hgo]))
  rw [heq]
  refine ⟨?_, completeOpt_quiet bond_quiet _ _ _ _ (modPart_keeps (fun _ => rfl) hwork)⟩
  rw [(completeOpt_spares _ _ _ _ (.refl _)).st, partOf_modPart]
  rfl

/-- An id that this chip does not hold is no conflict. -/
theorem resolveHold_free {y : Nat × Nat} (hfree : ∀ q : Pid, q.val = y.1 → (partOf s q).st = .free) :
    resolveHold s y = s := by
  unfold resolveHold
  split
  · rfl
  case h_2 q hq =>
    have hval : q.val = y.1 := by
      unfold pidOf at hq
      split at hq
      · cases hq; rfl
      · cases hq
    simp [hfree q hval]

/-- The copy with the lower ownership generation is fenced as the loser of a conflict. -/
theorem resolveHold_lost {g : Nat} (hst : (partOf s p).st = .enabled) (hnone : (partOf s p).conflict = false)
    (hgen : (partOf s p).gen < g) (hgo : (partOf s p).sc.teardownAtBoundary = false) :
    let t := resolveHold s (p.val, g)
    (partOf t p).st = .fenced ∧ (partOf t p).conflict = true ∧ PairStays s t := by
  let u := modPart p (fun q => { q with conflict := true }) s
  have hu : partOf u p = { partOf s p with conflict := true } := partOf_modPart _ _
  obtain ⟨hfenced, hbond⟩ := fencePart_fenced (s := u) (p := p) (c := 0x0804) (by rw [hu, hst]) (by rw [hu, hgo])
  have hlog := logEvent_logged p.val 0x0804 p.val g 0 0 (.refl (fencePart p 0x0804 u))
  have heq : resolveHold s (p.val, g) = logEvent p.val 0x0804 p.val g 0 0 (fencePart p 0x0804 u) := by
    have hloses : losesHold s p g = true := by simp [losesHold, hgen]
    simp [resolveHold, pidOf_val, hst, hnone, hloses, u]
  rw [heq]
  refine ⟨by rw [hlog.st, hfenced], ?_, (fencePart_pairStays _ (modPart_pairStays _ (.refl s))).trans hlog.pairStays⟩
  have hkeep := ((bond_quiet.log p.val 0x0804 p.val g 0 0 hbond).comp Prod.fst) p
  dsimp only at hkeep
  rw [show (partOf _ p).conflict = _ from hkeep, show (Part.bond (partOf u p)).1 = _ from congrArg Part.conflict hu]

/-! ## Heartbeats (R453) -/

/-- What a heartbeat reports joins the pair. -/
def PairSt.beat (h : DarradHdr) (policy : Nat) (next : List (Nat × Nat × Nat)) (plans : List PlanState) (p : PairSt) : PairSt :=
  { p with
    missed := 0, partnerAuto := policy == 1, partnerPlans := plans, gen := max p.gen h.gen
    mirrors := p.mirrors.map (fun m => { m with live := liveOf next m.part })
    seeding := p.seeding.filter (fun e => plans.any (fun x => x.part == e.1)) }

/-- What a heartbeat sets off: the resynchronisation that waited for it, and seeding copies. -/
def afterBeat (s : State) : State :=
  let s := if s.units.pair.st = 1 && s.units.pair.holdSeen then beginResync s else s
  if mirroring s then startCopies s else s

/-- In PAIRED, with nothing held that is mirrored, a heartbeat sets nothing off. -/
theorem afterBeat_paired (hpaired : s.units.pair.st = 3) (hheld : mirroredHeld s = []) : afterBeat s = s := by
  have hcopies : startCopies s = s := by rw [startCopies, hheld]; rfl
  simp [afterBeat, hpaired, mirroring, hcopies]

theorem doHeartbeat_paired {st policy : Nat} {next : List (Nat × Nat × Nat)} {plans : List PlanState}
    (hf : Claims.Frame s h) (hst : st ≤ 4) (hpolicy : policy ≤ 1) (hpartner : s.units.pair.partner = 0)
    (hpaired : s.units.pair.st = 3) (hheld : mirroredHeld s = []) :
    doHeartbeat h st policy next plans s = modPair (PairSt.beat h policy next plans) (heard h s) := by
  have hbeat := afterBeat_paired (s := modPair (PairSt.beat h policy next plans) (heard h s)) hpaired hheld
  rw [doHeartbeat, onFrame_taken hf, if_neg (by simp [Nat.not_lt.2 hst, Nat.not_lt.2 hpolicy]),
    if_neg (by simp [heard, modPair, hpartner])]
  exact hbeat

/-! ## Moves (R463) -/

theorem setPort_keeps (b) (h : Keeps φ r s) : Keeps φ r (setPort b s) := ite_keeps h h
theorem setPort_pairStays (b) (h : PairStays r s) : PairStays r (setPort b s) := ite_pairStays h h
theorem createQueue_keeps (y) (h : Keeps φ r s) : Keeps φ r (createQueue p y s) := h
theorem createQueue_pairStays (y) (h : PairStays r s) : PairStays r (createQueue p y s) := h

theorem writeRecord_quiet (hφ : Quiet φ) (c l) (h : Keeps φ r s) : Keeps φ r (writeRecord p c l s) := by
  unfold writeRecord
  split
  · exact h
  · exact modPart_keeps (fun _ => hφ.sc _ _) (modUnits_keeps _ h)

theorem writeRecord_pairStays (c l) (h : PairStays r s) : PairStays r (writeRecord p c l s) := by
  unfold writeRecord
  split <;> exact h

/-- What a partition that moved here has by it: its state, its ownership generation, its image and its seed. -/
def Part.moved (q : Part) : PSt × Nat × Option Image × Option (BitVec 128) := (q.st, q.gen, q.ld.image, q.ld.seed)

theorem moved_quiet : Quiet Part.moved := ⟨fun _ _ => rfl, fun _ _ => rfl⟩

/-- The commit of a plan that owes no answer: the plan is gone, and the partition has the generation of the pair. -/
theorem commitPlan_spec {y : Plan} {g : Grants} (hreq : y.req = none) :
    PairStays (modPair (fun z => { z with plans := z.plans.filter (fun a => a.part != p.val) }) s) (commitPlan p y g s)
      ∧ (partOf (commitPlan p y g s) p).gen = s.units.pair.gen := by
  unfold commitPlan
  rw [hreq]
  dsimp only [completeOpt]
  refine ⟨?_, ?_⟩
  · exact foldl_pairStays (fun _ _ hx => createQueue_pairStays _ hx) (foldl_pairStays (fun _ _ => setPort_pairStays _)
      (modPart_pairStays _ (modPart_pairStays _ (.refl _))))
  · refine Eq.trans (foldl_keeps (φ := Part.gen) (fun _ _ hx => createQueue_keeps _ hx)
      (foldl_keeps (fun _ _ => setPort_keeps _) (.refl _ _)) p) ?_
    rw [partOf_modPart, partOf_modPart]
    rfl

/-- The mirrored state brings the image and the seed, and leaves the ownership generation and the pair. -/
theorem installMirror_spec (i : Image) (m : Mirror) (g : MirGrant) (s : State) :
    PairStays s (installMirror p i m g false s)
      ∧ Part.moved (partOf (installMirror p i m g false s) p) =
        ((partOf s p).st, (partOf s p).gen, some i, g.seed) := by
  unfold installMirror putRecords
  dsimp only
  refine ⟨foldl_pairStays (fun _ _ => writeRecord_pairStays _ _) (modPart_pairStays _ (.refl s)), ?_⟩
  rw [foldl_keeps (fun _ _ => writeRecord_quiet moved_quiet _ _) (.refl _ _) p, partOf_modPart]
  rfl

theorem sendHold_keeps (h : Keeps φ r s) : Keeps φ r (sendHold s) := darradPut_keeps _ _ _ _ h
theorem sendMoveAck_keeps (m k) (h : Keeps φ r s) : Keeps φ r (sendMoveAck m k s) := darradSend_keeps _ _ _ _ _ h

theorem putMirror_keeps (m) (h : Keeps φ r s) : Keeps φ r (putMirror p m s) := by
  unfold putMirror
  dsimp only
  split
  · exact darradPut_keeps _ _ _ _ h
  · exact darradPut_keeps _ _ _ _ h
  · exact h

theorem mirrorGrantOf_moved (h : Keeps Part.moved r s) : Keeps Part.moved r (mirrorGrantOf p s) :=
  ite_keeps (putMirror_keeps _ (modPart_keeps (fun _ => rfl) h)) h

/-- The pair once an id has passed here. -/
def PairSt.taken (p : Pid) (x : PairSt) : PairSt :=
  { x with
    gen := (x.gen + 1) % 2 ^ 32, partnerIds := x.partnerIds.filter (fun y => y.1 != p.val)
    mirrors := x.mirrors.filter (fun m => m.part != p.val)
    partnerPlans := x.partnerPlans.filter (fun y => y.part != p.val), plans := x.plans.filter (fun y => y.part != p.val) }

/-- The chip once an id passes here and before the plan for it is committed. -/
def idTaken (p : Pid) (s : State) : State :=
  dropChains (takeId p (modPair (fun z => { z with gen := (z.gen + 1) % 2 ^ 32 }) s))

theorem acceptMove_eq (y : Plan) (i : Image) (m : Mirror) (g : MirGrant) : acceptMove h p y i m g s =
    mirrorGrantOf p (sendHold (sendMoveAck h 0 (modPart p (fun q => { q with st := .paused, ld := { q.ld with recheck := true } })
      (installMirror p i m g false (commitPlan p y (planGrants y g) (idTaken p s)))))) := by
  unfold acceptMove idTaken
  rfl

theorem idTaken_pairStays (p : Pid) (s : State) : PairStays (modPair (PairSt.taken p) s)
    (modPair (fun z => { z with plans := z.plans.filter (fun a => a.part != p.val) }) (idTaken p s)) := by
  simp [PairStays, State.talk, idTaken, takeId, dropChains, PairSt.taken]

/-- An accepted move: the id is this chip's, PAUSED at a generation raised by 1, with the mirrored image and seed. -/
theorem acceptMove_spec {y : Plan} {i : Image} {m : Mirror} {g : MirGrant} (hreq : y.req = none) :
    PairStays (modPair (PairSt.taken p) s) (acceptMove h p y i m g s)
      ∧ Part.moved (partOf (acceptMove h p y i m g s) p) = (.paused, (s.units.pair.gen + 1) % 2 ^ 32, some i, g.seed) := by
  obtain ⟨hplan, hgen⟩ := commitPlan_spec (p := p) (s := idTaken p s) (g := planGrants y g) hreq
  obtain ⟨hmirror, hmoved⟩ := installMirror_spec (p := p) i m g (commitPlan p y (planGrants y g) (idTaken p s))
  have hpair := ((idTaken_pairStays p s).trans hplan).trans hmirror
  rw [acceptMove_eq]
  refine ⟨mirrorGrantOf_pairStays (sendHold_pairStays (darradSend_pairStays _ _ _ _ _ (modPart_pairStays _ hpair))), ?_⟩
  rw [mirrorGrantOf_moved (sendHold_keeps (sendMoveAck_keeps _ _ (.refl _ _))) p, partOf_modPart]
  obtain ⟨-, hown⟩ := Prod.mk.inj hmoved
  rw [hgen] at hown
  exact congrArg (Prod.mk PSt.paused) hown

theorem beginTeardown_td (p : Pid) (s : State) : (partOf (beginTeardown p s) p).td = 0 := by
  unfold beginTeardown
  dsimp only
  rw [completeOpt_quiet (φ := Part.td) ⟨fun _ _ => rfl, fun _ _ => rfl⟩ _ _ _ _ (.refl _ _) p, partOf_modPart]

theorem findReq_completeOpt {i : ReqId} (o a b c) (hnone : findReq s i = none) : findReq (completeOpt o a b c s) i = none := by
  cases o with
  | none => exact hnone
  | some j =>
    rw [completeOpt, findReq, (complete_posts j a b c s).reqs, dropReq_host]
    rw [findReq, List.find?_eq_none] at hnone
    exact List.find?_eq_none.2 fun q hq => hnone q (List.mem_filter.1 hq).1

theorem findReq_beginTeardown {i : ReqId} (hnone : findReq s i = none) : findReq (beginTeardown p s) i = none :=
  findReq_completeOpt _ _ _ _ hnone

/-! ## Resources that come back (R458) -/

/-- A suspended partition that has back what it lost. -/
def Part.restored (back : Grants) (q : Part) : Part :=
  { q with
    g := back, st := .paused, cause := 0, lent := none
    ld := { q.ld with recheck := true, loadedInPause := false, lastCheck := [], placement := 0xFF } }

/-- The grants of a partition with what it lost. -/
def backGrants (p : Pid) (l : Grants) (s : State) : Grants :=
  recount s p ((partOf s p).g.churn.length + l.churn.length) ((partOf s p).g.resSlots.length + l.resSlots.length)
    { mergeLoss (partOf s p).g l with churn := (partOf s p).g.churn, resSlots := (partOf s p).g.resSlots }

theorem mem_backGrants {l : Grants} {c : Nat} (hc : c ∈ l.clusters) : c ∈ (backGrants p l s).clusters :=
  mem_foldl_insSorted.2 (.inr hc)

theorem giveBack_parts (p : Pid) (l : Grants) (s : State) :
    (giveBack p l s).parts = (modPart p (Part.restored (backGrants p l s)) s).parts := by
  unfold giveBack
  exact List.foldlRecOn _ _ (motive := fun y : State => y.parts = (modPart p (Part.restored (backGrants p l s)) s).parts)
    rfl fun _ hy _ _ => hy

end Sys2Proof.Machine

namespace Sys2Proof.Claims
open Sys2Proof.Machine

theorem helloRow_holds : helloRow := by
  intro h serial numerics lo hi policy s hup hflags hpolicy hmatch halone hne
  have heq : doHello h serial numerics lo hi policy s = joinPair h serial policy (heard h s) := by
    rw [doHello, takeFrame_hello hup hflags]
    exact (if_neg (Nat.not_lt.2 hpolicy)).trans (if_pos hmatch)
  obtain ⟨htalk, hparts⟩ := joinPair_talk (h := h) (s := heard h s) (serial := serial) (policy := policy) halone hne
  exact ⟨_, congrArg Host.Outcome.next heq, htalk.read PairSt.st, htalk.read PairSt.gen, htalk.read PairSt.role,
    htalk.read PairSt.partner, htalk.read PairSt.partnerSerial, htalk.read PairSt.partnerAuto,
    htalk.read PairSt.helloSeen, htalk.read PairSt.holdSeen, hparts⟩

/-- A chip that forms no pair, for a reason. -/
def unpaired (k : Nat) (s : State) : State :=
  logDev 0x0805 k 0 0 0 (setPairSt 0 (modPair (fun p => { p with helloSeen := false, helloOut := false, role := 0xFF }) s))

theorem unpaired_pair (k : Nat) (s : State) : (unpaired k s).units.pair =
    { s.units.pair with helloSeen := false, helloOut := false, role := 0xFF, st := 0 } :=
  congrArg UnitSt.pair ((logDev_logged _ _ _ _ _ (.refl (setPairSt 0 _))).units.trans (setPairSt_units 0 _))

theorem helloRefused_holds : helloRefused := by
  intro h serial numerics lo hi policy s hup hflags hpolicy hmatch
  have heq : doHello h serial numerics lo hi policy s =
      unpaired (helloMismatch (heard h s) serial numerics lo hi) (interruptPair (heard h s)) := by
    rw [doHello, takeFrame_hello hup hflags]
    exact (if_neg (Nat.not_lt.2 hpolicy)).trans (if_neg hmatch)
  refine ⟨_, congrArg Host.Outcome.next heq, ?_⟩
  simp only [pair, unpaired_pair, and_self]

/-- HOLD that names ids in range resolves each of them. -/
theorem doHold_eq {s : State} {h : DarradHdr} {ids : List (Nat × Nat)} (hf : Frame s h) (hrange : ∀ x ∈ ids, x.1 < 64) :
    doHold h ids s = ids.foldl resolveHold (modPair (fun p => { p with
      partnerIds := ids, holdSeen := true
      mirrors := p.mirrors.filter (fun m => ids.any (fun x => x.1 == m.part)) }) (heard h s)) := by
  rw [doHold, onFrame_taken hf]
  refine if_neg ?_
  simpa only [List.any_eq_true, decide_eq_true_eq, not_exists, not_and, Nat.not_lt] using
    fun x hx => Nat.le_of_lt_succ (hrange x hx)

theorem holdRow_holds : holdRow := by
  intro h s hf
  refine ⟨fun ids hids => ?_, fun p g hst hnone hgen hgo => ?_⟩
  · have hfold (u : State) (hu : u.parts = s.parts) : ids.foldl resolveHold u = u :=
      List.foldlRecOn ids _ (motive := fun y => y = u) rfl fun y hy x hx => by
        rw [hy, resolveHold_free fun q hq => ?_]
        rw [partOf, hu]
        exact (hids x hx).2 q hq
    refine ⟨_, congrArg Host.Outcome.next ((doHold_eq hf fun x hx => (hids x hx).1).trans (hfold _ ?_)), rfl, rfl, rfl⟩
    rfl
  · have hrange : ∀ x ∈ [(p.val, g)], x.1 < 64 := by simp [p.isLt]
    let u := modPair (fun q => { q with
      partnerIds := [(p.val, g)], holdSeen := true
      mirrors := q.mirrors.filter (fun m => [(p.val, g)].any (fun x => x.1 == m.part)) }) (heard h s)
    obtain ⟨hfenced, hconflict, hpair⟩ := resolveHold_lost (s := u) (p := p) (g := g) hst hnone hgen hgo
    exact ⟨_, congrArg Host.Outcome.next (doHold_eq hf hrange), hfenced, hconflict, hpair.read PairSt.partnerIds⟩

theorem heartbeatRow_holds : heartbeatRow := by
  intro h st policy next plans s hf hst hpolicy hpartner hpaired hheld
  exact ⟨_, congrArg Host.Outcome.next (doHeartbeat_paired hf hst hpolicy hpartner hpaired hheld), rfl, rfl, rfl, rfl,
    hpaired, rfl, rfl⟩

theorem departureRow_holds : departureRow := by
  intro h s hf hpartner hauto
  have heq : doDeparture h s = partnerLost 3 (heard h s) := by
    rw [doDeparture, onFrame_taken hf]
    exact if_pos hpartner
  have htalk := partnerLost_talk (s := heard h s) (k := 3) hauto
  refine ⟨_, congrArg Host.Outcome.next heq, ?_⟩
  generalize partnerLost 3 (heard h s) = t at htalk
  exact ⟨htalk.read PairSt.partner, htalk.read PairSt.st, htalk.read PairSt.gen⟩

theorem moveRow_holds : moveRow := by
  intro h s p hf hp hholds
  have hheld : (!partnerHolds (heard h s) p.val) = false := by
    rw [show partnerHolds (heard h s) p.val = true from hholds]
    rfl
  refine ⟨fun x m i g hplan hmirror himage hgrant hst hreason hreq hpass => ?_, fun hplan => ?_⟩
  · have heq : doMove h s = acceptMove h p x i m g (heard h s) := by
      have hplan' : planOf (heard h s) p.val = some x := hplan
      have hmirror' : mirrorOf (heard h s) p.val = some m := hmirror
      have hpass' : (examine (heard h s) p { planGrants x g with prio := 0 } []).reason = 0 := hpass
      rw [doMove, onPartFrame_taken hf hp, hheld, hplan', hmirror']
      simp [himage, hgrant, hst, hreason, hpass']
    obtain ⟨htalk, hmoved⟩ := acceptMove_spec (h := h) (p := p) (s := heard h s) (y := x) (i := i) (m := m) (g := g) hreq
    obtain ⟨hpaused, hown⟩ := Prod.mk.inj hmoved
    obtain ⟨hgen, hload⟩ := Prod.mk.inj hown
    obtain ⟨himage', hseed⟩ := Prod.mk.inj hload
    refine ⟨_, congrArg Host.Outcome.next heq, hpaused, hgen, himage', hseed, ?_, ?_⟩
    · rw [partnerHolds, htalk.read PairSt.partnerIds]
      simp [modPair, PairSt.taken]
    · rw [planOf, htalk.read PairSt.plans]
      simp [modPair, PairSt.taken]
  · have heq : doMove h s = sendMoveAck h 0x0802 (pairViolation 7 p.val (heard h s)) := by
      have hplan' : planOf (heard h s) p.val = none := hplan
      rw [doMove, onPartFrame_taken hf hp, hheld, hplan']
      rfl
    have hlog : (heard h s).LoggedTo (pairViolation 7 p.val (heard h s)) := partnerViolation_logged _ _ _ _ _ _ (.refl _)
    have hsent := darradSend_pairStays 0x09 0 h.part h.tag (toLe 2 0x0802) hlog.pairStays
    have hst := darradSend_keeps (φ := Part.st) 0x09 0 h.part h.tag (toLe 2 0x0802) hlog.st
    exact ⟨_, congrArg Host.Outcome.next heq, hsent.read PairSt.partnerIds, hst, hsent.read PairSt.gen⟩

theorem moveAckRow_holds : moveAckRow := by
  intro h s p i hf hp hmoving
  let u := modPair (fun x => { x with moving := x.moving.filter (fun y => y.1 != p.val) }) (heard h s)
  have hmoving' : (heard h s).units.pair.moving.find? (fun m => m.1 == p.val) = some (p.val, i) := hmoving
  refine ⟨fun k hk => ?_, fun _ => ?_⟩
  · have heq : doMoveAck h k s = completeOpt (some i) stRefused k 0 u := by
      rw [doMoveAck, onPartFrame_taken hf hp, hmoving']
      exact if_pos (by simpa using hk)
    obtain ⟨hunits, hgone⟩ := completeOpt_spec (some i) stRefused k 0 u
    refine ⟨_, congrArg Host.Outcome.next heq, hgone i rfl, fun m hm => ?_, congrArg (fun x => x.pair.partnerIds) hunits⟩
    rw [show (pair _).moving = u.units.pair.moving from congrArg (fun x => x.pair.moving) hunits] at hm
    simpa using (List.mem_filter.1 hm).2
  · let v := modPair (fun x => { x with
      gen := max x.gen h.gen, partnerIds := x.partnerIds.filter (fun y => y.1 != p.val) ++ [(p.val, h.gen)] }) u
    have heq : doMoveAck h 0 s = beginTeardown p (completeOpt (some i) 0 0 0 v) := by
      rw [doMoveAck, onPartFrame_taken hf hp, hmoving']
      exact if_neg (by decide)
    have hpair := beginTeardown_pairStays (p := p) (completeOpt_pairStays (some i) 0 0 0 (.refl v))
    refine ⟨_, congrArg Host.Outcome.next heq, findReq_beginTeardown ((completeOpt_spec (some i) 0 0 0 v).2 i rfl),
      beginTeardown_st _ _, beginTeardown_td _ _, ?_, hpair.read PairSt.gen⟩
    rw [partnerHolds, hpair.read PairSt.partnerIds]
    simp [v, modPair]

theorem resourcesFreeRow_holds : resourcesFreeRow := by
  intro p s l hst hlent
  have heq : doResourcesFree p s = if lostFree s p l then giveBack p l s else s := by
    rw [doResourcesFree, hst, hlent]
  refine ⟨fun hfree => ?_, fun hkept => congrArg Host.Outcome.next (heq.trans (if_neg (by simp [hkept])))⟩
  have hpart (q : Pid) : partOf (giveBack p l s) q = partOf (modPart p (Part.restored (backGrants p l s)) s) q :=
    congrArg (fun v : Vector Part 64 => v.get q) (giveBack_parts p l s)
  refine ⟨_, congrArg Host.Outcome.next (heq.trans (if_pos hfree)), ?_⟩
  dsimp only
  rw [hpart, partOf_modPart]
  exact ⟨rfl, rfl, rfl, fun _ => mem_backGrants, fun q hq => (hpart q).trans (partOf_modPart_ne _ hq)⟩

end Sys2Proof.Claims

namespace Sys2Proof

/-- Settles O58: a frame that is taken acts on the state it was heard in (`onFrame_taken`), and what partitions do leaves
the pair alone (`PairStays`), so that each message's own change of the pair and of its partition is what is left. -/
theorem pairStateAndMoveMessages : Obligations.PairStateAndMoveMessages :=
  ⟨Claims.helloRow_holds, Claims.helloRefused_holds, Claims.holdRow_holds, Claims.heartbeatRow_holds,
    Claims.departureRow_holds, Claims.moveRow_holds, Claims.moveAckRow_holds, Claims.resourcesFreeRow_holds⟩

end Sys2Proof
end


/-! # The pair: mirror messages, split runs and seeding copies

What a message stores for a partition (`mirrorOf_grantStored`, `mirrorOf_modMirror`), what ends its wait, and what an
interruption leaves of the pair (`interruptPair_talk`). -/

section
namespace Sys2Proof.Machine
open State (LoggedTo)
variable {r s t : State} {p : Pid} {h : DarradHdr}

/-! ## What is staged for a partition (R445, R451) -/

theorem mirrorOf_modMirror {g : Mirror → Mirror} {n : Nat} (hg : ∀ m, (g m).part = m.part) :
    mirrorOf (modMirror n g s) n = (mirrorOf s n).map g :=
  find?_modFirst (fun m hm => by rw [hg]; exact hm) _

theorem planOf_modPlan {g : Plan → Plan} {n : Nat} (hg : ∀ x, x.part = n → (g x).part = n) :
    planOf (modPlan n g s) n = (planOf s n).map g :=
  find?_modFirst (fun x hx => by simpa using hg x (by simpa using hx)) _

theorem planOf_part {n : Nat} {x : Plan} (hx : planOf s n = some x) : x.part = n := by
  simpa using List.find?_some hx

/-- The grants of MIRROR_GRANT are stored. -/
def grantStored (n : Nat) (m : MirGrant) (s : State) : State :=
  match mirrorOf s n with
  | some _ => modMirror n (fun x => { x with grant := some m }) s
  | none => modPair (fun x => { x with mirrors := x.mirrors ++ [{ part := n, grant := some m }] }) s

theorem grantStored_frame (n : Nat) (m : MirGrant) (s : State) :
    ∃ l, grantStored n m s = modPair (fun x => { x with mirrors := l }) s := by
  unfold grantStored
  split
  · exact ⟨_, rfl⟩
  · exact ⟨_, rfl⟩

theorem mirrorOf_grantStored (n : Nat) (m : MirGrant) (s : State) :
    ∃ y, mirrorOf (grantStored n m s) n = some y ∧ y.grant = some m := by
  unfold grantStored
  split
  case h_1 x hx =>
    exact ⟨_, by rw [mirrorOf_modMirror (by exact fun _ => rfl), hx]; rfl, rfl⟩
  case h_2 hnone =>
    refine ⟨{ part := n, grant := some m }, ?_, rfl⟩
    rw [mirrorOf] at hnone ⊢
    simp [modPair, hnone]

theorem ite_modPlan {c : Prop} [Decidable c] (n : Nat) (g : Plan → Plan) (s : State) :
    ∃ l, (if c then s else modPlan n g s) = modPair (fun x => { x with plans := l }) s := by
  split
  · exact ⟨s.units.pair.plans, rfl⟩
  · exact ⟨_, rfl⟩

/-- Only near memory is changed. -/
def OnlyMem (s t : State) : Prop := ∃ m, t = modMem (fun _ => m) s

theorem OnlyMem.refl (s : State) : OnlyMem s s := ⟨s.units.mem, rfl⟩

theorem standbyWrite_onlyMem {u : State} (x : Plan) (a bs) (hm : OnlyMem s u) : OnlyMem s (standbyWrite x a bs u) := by
  obtain ⟨m, rfl⟩ := hm
  exact ⟨winWriteAt x.win a bs m, rfl⟩

/-- The new permutation entries in a standby window. -/
def growPerm (x : Plan) (i : Image) (m : MirStep) (s : State) : State :=
  let c := unpackCursor (field m.record 0 8)
  match regionOf i.body (if c.epoch % 2 = 0 then .permA else .permB) with
  | some a => if m.perm.isEmpty then s else
      standbyWrite x (a.addr + 5 * (c.step * i.hdr.samplesPerStep)) ((m.perm.flatMap (toLe 5)).take a.size) s
  | none => s

theorem growPerm_onlyMem (x : Plan) (i : Image) (m : MirStep) (s : State) : OnlyMem s (growPerm x i m s) := by
  unfold growPerm
  dsimp only
  split
  · split
    · exact .refl s
    · exact standbyWrite_onlyMem _ _ _ (.refl s)
  · exact .refl s

theorem growStandby_onlyMem (x : Plan) (m : MirStep) (s : State) : OnlyMem s (growStandby x m s) := by
  unfold growStandby
  split
  · exact .refl s
  case h_2 i _ =>
    dsimp only
    split
    · exact List.foldlRecOn m.index _ (motive := OnlyMem s) (growPerm_onlyMem x i m s) fun _ hy _ _ =>
        standbyWrite_onlyMem _ _ _ hy
    · exact growPerm_onlyMem x i m s

/-! ## Acknowledgements (R451, R452) -/

/-- The message that an acknowledgement answers waits no more; one that was sent twice is recorded. -/
def ackTaken (p : Pid) (h : DarradHdr) (m : MirMsg) (s : State) : State :=
  let u := modPart p (fun q => { q with mirWait := q.mirWait.filter (fun x => x.tag != h.tag) }) s
  if m.resent then transientFault p.val darradUnit 0x0001 h.linkSeq u else u

theorem ackTaken_logged (p : Pid) (h : DarradHdr) (m : MirMsg) (s : State) :
    LoggedTo (modPart p (fun q => { q with mirWait := q.mirWait.filter (fun x => x.tag != h.tag) }) s) (ackTaken p h m s) := by
  unfold ackTaken
  dsimp only
  split
  · exact transientFault_logged _ _ _ _ (.refl _)
  · exact .refl _

theorem doMirrorAck_eq {m : MirMsg} (hf : Claims.Frame s h) (hp : h.part = p.val)
    (hm : (partOf s p).mirWait.find? (fun m => m.tag == h.tag) = some m) :
    doMirrorAck h s = resynced p (stepAcked p m (ackTaken p h m (heard h s))) := by
  have hm' : (partOf (heard h s) p).mirWait.find? (fun m => m.tag == h.tag) = some m := hm
  rw [doMirrorAck, onPartFrame_taken hf hp, hm']
  rfl

theorem resynced_parts (p : Pid) (s : State) : (resynced p s).parts = s.parts := by
  unfold resynced
  split
  · rfl
  · dsimp only
    split
    · exact setPairSt_parts _ _
    · rfl

theorem partOf_resynced (p q : Pid) (s : State) : partOf (resynced p s) q = partOf s q :=
  congrArg (fun v : Vector Part 64 => v.get q) (resynced_parts p s)

/-! ## Mirroring ends (R452) -/

/-- The interruption of a PAIRED pair leaves it INTERRUPTED, with nothing to resynchronise. -/
theorem interruptPair_talk (hpaired : s.units.pair.st = 3) :
    PairStays (modPair (fun p => { p with resync := [], holdSeen := false, st := 4 }) s) (interruptPair s) := by
  have hset := setPairSt_pairStays 4 (modPair (fun p => { p with resync := [], holdSeen := false }) s)
  have hlapses (l : List Pid) {a y : State} (hy : PairStays a y) : PairStays a (l.foldl (fun s p => guaranteeLapse p.val 5 s) y) :=
    foldl_pairStays (fun z q hz => hz.trans (guaranteeLapse_logged q.val 5 (.refl z)).pairStays) hy
  unfold interruptPair
  dsimp only
  rw [if_pos (by simp [hpaired])]
  exact dropChains_pairStays (dropMirror_pairStays (hlapses _ hset))

/-! ## Split runs (R354) -/

/-- A problem of which the first segment is there. -/
def segmentBegun (p : Pid) (b : List Byte) : Chain1 :=
  { part := p, rev := field b 0 4, epoch := field b 4 2, total := field b 8 4, bytes := b.drop 0x10 }

/-- A problem that is complete has its run. -/
def chainGoes (s : State) (x : Chain1) : Chain1 := if x.total ≤ x.bytes.length then { x with run := chain1Run s x } else x

theorem addSegment_first {b : List Byte} (hoff : field b 0x0C 4 = 0) : addSegment p b s = modChurn (fun c =>
    { c with chain1 := c.chain1.filter (fun y => decide (y.part ≠ p)) ++ [chainGoes s (segmentBegun p b)] }) s := by
  unfold addSegment
  simp only [hoff, if_true]
  rfl

theorem chainGoes_fields (s : State) (x : Chain1) : (chainGoes s x).part = x.part ∧ (chainGoes s x).rev = x.rev
    ∧ (chainGoes s x).epoch = x.epoch ∧ (chainGoes s x).total = x.total ∧ (chainGoes s x).bytes = x.bytes := by
  unfold chainGoes
  split <;> exact ⟨rfl, rfl, rfl, rfl, rfl⟩

/-! ## Seeding (R448) -/

/-- A plan that has taken in the bytes of a SEED frame of its copy. -/
def Plan.fed (x : Plan) (addr : Nat) (bs : List Byte) : Plan :=
  { x with
    got := x.got + bs.length
    heads := if bs.take 4 == [0x42, 0x53, 0x54, 0x49] then x.heads ++ [addr] else x.heads }

theorem seedFrame_copy {x : Plan} {addr copy : Nat} {bs : List Byte} (hzero : x.win.unzero = []) (hst : x.st = 2)
    (hcopy : x.copy = copy) : seedFrame h p x addr copy false bs s =
      standbyWrite (x.fed addr bs) addr bs (modPlan p.val (fun _ => x.fed addr bs) s) := by
  simp [seedFrame, hzero, hst, hcopy, Plan.fed]

end Sys2Proof.Machine

namespace Sys2Proof.Claims
open Sys2Proof.Machine
variable {s : State} {h : DarradHdr} {p : Pid}

/-- MIRROR_GRANT for an id that the partner holds is stored, and at most the plan for it changes besides. -/
theorem doMirrorGrant_eq {m : MirGrant} (hf : Frame s h) (hp : h.part = p.val) (hgrants : m.grants.length = 120)
    (hhash : m.imageHash.length = 48 ∨ m.imageHash.length = 0) (hholds : partnerHolds s p.val = true) :
    ∃ l, doMirrorGrant h m s = sendAck h (modPair (fun x => { x with plans := l }) (grantStored p.val m (heard h s))) := by
  have hlayout : ¬((m.grants.length != 120 || m.imageHash.length != 48 && m.imageHash.length != 0) = true) := by
    rcases hhash with e | e <;> simp [hgrants, e]
  have hheld : ¬((!partnerHolds (heard h s) p.val) = true) := by
    rw [show partnerHolds (heard h s) p.val = true from hholds]
    decide
  rw [doMirrorGrant, onPartFrame_taken hf hp, if_neg hlayout, if_neg hheld]
  exact (ite_modPlan p.val unseed (grantStored p.val m (heard h s))).imp fun _ => congrArg (sendAck h)

theorem mirrorGrantRow_holds : mirrorGrantRow := by
  intro h m s p hf hp hgrants hhash hholds
  obtain ⟨plans, heq⟩ := doMirrorGrant_eq hf hp hgrants hhash hholds
  obtain ⟨l, hstored⟩ := grantStored_frame p.val m (heard h s)
  obtain ⟨y, hy, hgrant⟩ := mirrorOf_grantStored p.val m (heard h s)
  rw [hstored] at hy heq
  have hup : darradUp (modPair (fun x => { x with plans := plans }) (modPair (fun x => { x with mirrors := l }) (heard h s)))
    = true := by
    rw [darradUp_modPair rfl rfl, darradUp_modPair rfl rfl, heard, darradUp_modPair rfl rfl, hf.up]
  rw [sendAck, darradSend_up _ _ _ _ _ hup] at heq
  refine ⟨_, congrArg Host.Outcome.next heq, ⟨y, ?_, hgrant⟩, rfl, ?_⟩
  · rw [mirrorOf] at hy ⊢
    exact hy
  · simp [heard]

theorem mirrorGrantForeign_holds : mirrorGrantForeign := by
  intro h m s p hf hp hgrants hhash hnot
  have heq : doMirrorGrant h m s = pairViolation 2 p.val (heard h s) := by
    rw [doMirrorGrant, onPartFrame_taken hf hp, if_neg (by simp [hgrants, hhash]),
      if_pos (by rw [show partnerHolds (heard h s) p.val = false from hnot]; rfl)]
  exact ⟨_, congrArg Host.Outcome.next heq, partnerViolation_logged _ _ _ _ _ _ (.refl _)⟩

theorem mirrorStepRow_holds : mirrorStepRow := by
  intro h m s p x g hf hflags hp hholds hmirror hgrant hexpect
  have hmirror' : mirrorOf (heard h s) p.val = some x := hmirror
  have heq : ∃ mem, doMirrorStep h m s = sendAck h (modMirror p.val (storeStep m) (modMem (fun _ => mem) (heard h s))) := by
    rw [doMirrorStep, onPartFrame_taken hf hp,
      if_neg (by rw [show partnerHolds (heard h s) p.val = true from hholds]; decide), hmirror']
    dsimp only
    rw [if_neg (by simp [hflags, bit])]
    rw [if_neg (by rcases hexpect with e | e <;> simp [hgrant, e])]
    split
    · obtain ⟨mem, hmem⟩ := growStandby_onlyMem _ m (heard h s)
      exact ⟨mem, by rw [hmem]⟩
    · exact ⟨(heard h s).units.mem, rfl⟩
  obtain ⟨mem, heq⟩ := heq
  have hstored := mirrorOf_modMirror (s := modMem (fun _ => mem) (heard h s)) (n := p.val) (g := storeStep m) fun _ => rfl
  rw [show mirrorOf (modMem (fun _ => mem) (heard h s)) p.val = some x from hmirror] at hstored
  have hup : darradUp (modMirror p.val (storeStep m) (modMem (fun _ => mem) (heard h s))) = true := hf.up
  rw [sendAck, darradSend_up _ _ _ _ _ hup] at heq
  exact ⟨_, congrArg Host.Outcome.next heq, ⟨_, hstored, rfl, rfl, hgrant⟩, rfl, rfl, rfl⟩

theorem mirrorAckRow_holds : mirrorAckRow := by
  intro h s p hf hp
  refine ⟨fun m hm hstep => ?_, fun hnone => ?_⟩
  · have heq : doMirrorAck h s = resynced p (ackTaken p h m (heard h s)) := by
      rw [doMirrorAck_eq hf hp hm, stepAcked, hstep]
    have hkeep : Keeps (fun q => (q.mirWait, q.st)) _ _ := (ackTaken_logged p h m (heard h s)).keeps fun _ => rfl
    have hwait := hkeep p
    rw [partOf_modPart] at hwait
    refine ⟨_, congrArg Host.Outcome.next heq, ?_⟩
    dsimp only
    rw [partOf_resynced]
    exact ⟨congrArg Prod.fst hwait, congrArg Prod.snd hwait⟩
  · have hnone' : (partOf (heard h s) p).mirWait.find? (fun m => m.tag == h.tag) = none := hnone
    have heq : doMirrorAck h s = lateDiscard 0xFF darradUnit 6 h.linkSeq (heard h s) := by
      rw [doMirrorAck, onPartFrame_taken hf hp, hnone']
    exact ⟨_, congrArg Host.Outcome.next heq, lateDiscard_logged _ _ _ _ (.refl _)⟩

theorem mirrorAckStep_holds : mirrorAckStep := by
  intro h s p m x st hf hp hm hstep hfind hboundary
  let u := ackTaken p h m (heard h s)
  have hkeep : Keeps (fun q => (q.sc, q.standing)) _ u := (ackTaken_logged p h m (heard h s)).keeps fun _ => rfl
  have hpart := hkeep p
  rw [partOf_modPart] at hpart
  obtain ⟨hsc, hstand⟩ := Prod.mk.inj hpart
  have hsched : (partOf u p).sc = (partOf s p).sc := hsc
  have hstanding : (partOf u p).standing = (partOf s p).standing := hstand
  have heq : doMirrorAck h s = resynced p (closeStep p st u) := by
    rw [doMirrorAck_eq hf hp hm, stepAcked, hstep, hsched, hfind]
    exact congrArg (resynced p) (if_pos hboundary)
  have hclosed := closeStep_standing (p := p) st u
  rw [hstanding, stepAfter_congr (congrArg Standing.image hstanding)] at hclosed
  refine ⟨_, congrArg Host.Outcome.next heq, ?_⟩
  dsimp only
  rw [partOf_resynced]
  generalize closeStep p st u = t at hclosed
  exact ⟨congrArg Standing.cursor hclosed, congrArg Standing.steps hclosed⟩

theorem putMirror_frame (p : Pid) (m : MirMsg) (s : State) : (putMirror p m s).parts = s.parts
    ∧ (putMirror p m s).host = s.host := by
  unfold putMirror darradPut
  dsimp only
  split
  · split <;> exact ⟨rfl, rfl⟩
  · split <;> exact ⟨rfl, rfl⟩
  · exact ⟨rfl, rfl⟩

theorem mirrorTimeoutRow_holds : mirrorTimeoutRow := by
  intro p s
  refine ⟨fun hnone => congrArg Host.Outcome.next (by rw [doMirrorTimeout, hnone]), fun m rest hwait hfirst => ?_,
    fun m rest hwait hagain hpaired => ?_⟩
  · have heq : doMirrorTimeout p s = putMirror p { m with resent := true }
        (modPart p (fun q => { q with mirWait := { m with resent := true } :: rest }) s) := by
      rw [doMirrorTimeout, hwait]
      exact if_neg (by simp [hfirst])
    obtain ⟨hparts, hhost⟩ := putMirror_frame p { m with resent := true }
      (modPart p (fun q => { q with mirWait := { m with resent := true } :: rest }) s)
    have hpair := putMirror_pairStays (p := p) { m with resent := true }
      (modPart_pairStays (p := p) (fun q => { q with mirWait := { m with resent := true } :: rest }) (.refl s))
    have hpart (q : Pid) := congrArg (fun v : Vector Part 64 => v.get q) hparts
    refine ⟨_, congrArg Host.Outcome.next heq, ?_, hpair.read PairSt.st,
      fun q hq => (hpart q).trans (partOf_modPart_ne _ hq), hhost⟩
    exact congrArg Part.mirWait ((hpart p).trans (partOf_modPart _ _))
  · have heq : doMirrorTimeout p s = interruptPair s := by
      rw [doMirrorTimeout, hwait]
      exact if_pos hagain
    have htalk := interruptPair_talk hpaired
    refine ⟨_, congrArg Host.Outcome.next heq, ?_⟩
    generalize interruptPair s = t at htalk
    exact ⟨htalk.read PairSt.st, htalk.read PairSt.resync⟩

theorem churnProblemRow_holds : churnProblemRow := by
  intro h b s p hf hp hmin hmax hzero hholds hon hoff
  have hlayout : (decide (b.length < 17) || decide (4072 < b.length) || !zeroAt b 6 2) = false := by
    simp [Nat.not_lt.2 hmin, Nat.not_lt.2 hmax, hzero]
  have hheld : (!partnerHolds (heard h s) p.val) = false := by
    rw [show partnerHolds (heard h s) p.val = true from hholds]
    rfl
  have hup : (!churnUp (heard h s)) = false := by
    rw [show churnUp (heard h s) = true from hon]
    rfl
  have heq : doChurnProblem h b s = addSegment p b (heard h s) := by
    rw [doChurnProblem, onPartFrame_taken hf hp, hlayout, hheld, hup]
    rfl
  obtain ⟨hpart, hrev, hepoch, htotal, hbytes⟩ := chainGoes_fields (heard h s) (segmentBegun p b)
  refine ⟨_, congrArg Host.Outcome.next (heq.trans (addSegment_first hoff)), ⟨chainGoes (heard h s) (segmentBegun p b), ?_,
    hpart, hrev, hepoch, htotal, hbytes⟩, rfl, rfl⟩
  exact List.mem_append_right _ (List.mem_singleton.2 rfl)

theorem churnStageRow_holds : churnStageRow := by
  intro h b s p hf hp hlen hzero hzero' hchain hstage
  have hlayout : (b.length != 2072 || !zeroAt b 6 2 || !zeroAt b 0x14 4 || decide (1 < field b 4 1)
      || decide (15 < field b 5 1)) = false := by
    simp [hlen, hzero, hzero', hchain, Nat.not_lt.2 hstage]
  have heq : doChurnStage h b s = modPart p (fun q => { q with
      runs := modFirst (fun r => r.kind == 1 && r.split && r.tag == field b 0 4) (hearStage b) q.runs }) (heard h s) := by
    rw [doChurnStage, onPartFrame_taken hf hp, hlayout, if_neg Bool.false_ne_true, if_pos hchain]
  exact ⟨_, congrArg Host.Outcome.next heq, congrArg Part.runs (partOf_modPart _ _), fun q hq => partOf_modPart_ne _ hq, rfl⟩

theorem seedRow_holds : seedRow := by
  intro h b s p x hf hp hmin hmax hzero hmore hplan
  have hplan' : planOf (heard h s) p.val = some x := hplan
  have hlayout : (decide (b.length < 17) || decide (4072 < b.length) || !zeroAt b 0x0D 3 || decide (1 < field b 0x0C 1))
      = false := by
    simp [Nat.not_lt.2 hmin, Nat.not_lt.2 hmax, hzero, hmore]
  have htaken : doSeed h b s = if !inWindow x.win (field b 0 8) (b.length - 16) then
      modPlan p.val unseed (pairViolation 4 p.val (heard h s))
      else seedFrame h p x (field b 0 8) (field b 8 4) (field b 0x0C 1 == 1) (b.drop 16) (heard h s) := by
    rw [doSeed, onPartFrame_taken hf hp, hlayout, if_neg Bool.false_ne_true, hplan']
  have hpart := planOf_part hplan
  refine ⟨fun hin hclean hst hcopy => ?_, fun hout => ?_⟩
  · have heq : doSeed h b s = standbyWrite (x.fed (field b 0 8) (b.drop 16)) (field b 0 8) (b.drop 16)
        (modPlan p.val (fun _ => x.fed (field b 0 8) (b.drop 16)) (heard h s)) := by
      rw [htaken, hin, hmore]
      exact seedFrame_copy hclean hst hcopy
    have hfed := planOf_modPlan (s := heard h s) (n := p.val) (g := fun _ => x.fed (field b 0 8) (b.drop 16)) fun _ _ => hpart
    rw [hplan'] at hfed
    refine ⟨_, congrArg Host.Outcome.next heq, ⟨_, hfed, hst, rfl, ?_, rfl⟩, rfl, rfl, rfl⟩
    show x.got + (b.drop 16).length = _
    rw [List.length_drop]
  · have heq : doSeed h b s = modPlan p.val unseed (pairViolation 4 p.val (heard h s)) := by
      rw [htaken, hout]
      rfl
    have hlog : (heard h s).LoggedTo (pairViolation 4 p.val (heard h s)) := partnerViolation_logged _ _ _ _ _ _ (.refl _)
    have hunseeded := planOf_modPlan (s := pairViolation 4 p.val (heard h s)) (n := p.val) (g := unseed) fun _ e => e
    rw [show planOf (pairViolation 4 p.val (heard h s)) p.val = some x by rw [planOf, hlog.units]; exact hplan] at hunseeded
    have hmem : (pairViolation 4 p.val (heard h s)).units.mem = (heard h s).units.mem := by rw [hlog.units]
    exact ⟨_, congrArg Host.Outcome.next heq, ⟨_, hunseeded, rfl, rfl⟩, hmem⟩

theorem seedDoneRow_holds : seedDoneRow := by
  intro h b s p k hf hp hlen hzero hdone hcopy hfind
  have hlayout : (b.length != 16 || !zeroAt b 5 3 || decide (1 < field b 4 1)) = false := by simp [hlen, hzero, hdone]
  have hfind' : (heard h s).units.pair.seeding.find? (fun e => e.1 == p.val && e.2.1 == field b 0 4) =
      some (p.val, k, false) := by
    rw [hcopy]
    exact hfind
  have heq : doSeedDone h b s = modPair (fun x => { x with seeding := x.seeding.filter (fun y => y.1 != p.val) }) (heard h s) := by
    rw [doSeedDone, onPartFrame_taken hf hp, hlayout, if_neg Bool.false_ne_true, hfind']
    exact if_pos hdone
  exact ⟨_, congrArg Host.Outcome.next heq, rfl, rfl, rfl⟩

end Sys2Proof.Claims

namespace Sys2Proof

/-- Settles O59: a mirror message or a SEED frame stores what it carries (`mirrorOf_grantStored`, `mirrorOf_modMirror`,
`planOf_modPlan`), an acknowledged step reaches its boundary (`closeStep_standing`), and a second timeout interrupts the
pair (`interruptPair_talk`). -/
theorem mirrorSplitRunAndSeedMessages : Obligations.MirrorSplitRunAndSeedMessages :=
  ⟨Claims.mirrorGrantRow_holds, Claims.mirrorGrantForeign_holds, Claims.mirrorStepRow_holds, Claims.mirrorAckRow_holds,
    Claims.mirrorAckStep_holds, Claims.mirrorTimeoutRow_holds, Claims.churnProblemRow_holds, Claims.churnStageRow_holds,
    Claims.seedRow_holds, Claims.seedDoneRow_holds⟩

end Sys2Proof
end
